-- ==== Sys2Proof/Word.lean ====
section
/-!
DEFINITION. Words, byte strings and their plainest arithmetic.
R5: every field of a Nydar frame and of a Maloa packet is sent most significant byte first.
-/
namespace Sys2Proof

/-- One byte on a wire or in a buffer. -/
abbrev Byte := BitVec 8

/-- A BAR0 register or a table word (R5, R197). -/
abbrev Word := BitVec 32

/-- A byte string, first sent byte first. -/
abbrev Bytes := List Byte

/-- The byte that a number below 256 spells. -/
def byteOf (n : Nat) : Byte := BitVec.ofNat 8 n

/-- `n` as `k` bytes, most significant first (R5); higher bits of `n` are dropped. -/
def beBytes : Nat → Nat → Bytes
  | 0, _ => []
  | k + 1, n => byteOf (n / 256 ^ k) :: beBytes k n

/-- The number a byte string spells, most significant byte first (R5). -/
def beNat (bs : Bytes) : Nat := bs.foldl (fun acc b => acc * 256 + b.toNat) 0

/-- The `k`-byte field at offset `off` of a byte string; bytes past its end read 0. -/
def field (bs : Bytes) (off k : Nat) : Nat :=
  beNat ((List.range k).map fun i => bs.getD (off + i) 0)

/-- Byte `off` of a byte string. -/
def u8 (bs : Bytes) (off : Nat) : Nat := field bs off 1
/-- The 16-bit field at `off`. -/
def u16 (bs : Bytes) (off : Nat) : Nat := field bs off 2
/-- The 32-bit field at `off`. -/
def u32 (bs : Bytes) (off : Nat) : Nat := field bs off 4
/-- The 64-bit field at `off`. -/
def u64 (bs : Bytes) (off : Nat) : Nat := field bs off 8

/-- The two's-complement value of the low `w` bits of `n`. -/
def signedOf (w n : Nat) : Int :=
  if n % 2 ^ w < 2 ^ (w - 1) then (n % 2 ^ w : Nat) else (n % 2 ^ w : Nat) - (2 ^ w : Nat)

/-- The low `w` bits of an integer, two's complement. -/
def natOfInt (w : Nat) (i : Int) : Nat := (i % (2 ^ w : Nat)).toNat

/-- Bit `i` of a number. -/
def bit (n i : Nat) : Bool := n.testBit i

/-- 1 for true, 0 for false: a one-bit field. -/
def b2n (b : Bool) : Nat := if b then 1 else 0

/-- Bits `hi` down to `lo` of a number. -/
def bitsOf (n hi lo : Nat) : Nat := n / 2 ^ lo % 2 ^ (hi + 1 - lo)

/-- The quotient rounded up. -/
def ceilDiv (a b : Nat) : Nat := (a + b - 1) / b

/-- `n` zero bytes. -/
def zeros (n : Nat) : Bytes := List.replicate n 0

/-- A byte string padded with zero bytes, or cut, to exactly `n` bytes. -/
def padTo (n : Nat) (bs : Bytes) : Bytes := (bs ++ zeros (n - bs.length)).take n

/-- Indices of the set bits of `n` among bits 0 to `k - 1`, ascending. -/
def setBits (k n : Nat) : List Nat := (List.range k).filter (bit n)

/-- The number whose set bits are the listed indices. -/
def maskOf (is : List Nat) : Nat := is.foldl (fun acc i => acc ||| 2 ^ i) 0

/-- `n` limited to the range `lo` to `hi`. -/
def clamp (lo hi n : Nat) : Nat := max lo (min hi n)

end Sys2Proof
end

