-- ==== Sys2Proof/Syntax.lean ====
section
/-!
DEFINITION. The commands the block takes: one constructor of `Instr` for each row of the table of commands.
A Maloa command carries its request packet; every other row carries what its sender observes or writes.
-/
namespace Sys2Proof

/-- A source of requests (R62, Table 3.1): the mailbox, a frame's SRC_GID, an IP address with its UDP port. -/
inductive Source where
  | pcie
  | inband (gid : Nat)
  | eth (addr udpPort : Nat)
  deriving DecidableEq, Repr

/-- A Maloa request that passed the framing and CRC checks of R69 (R64, Table 3.2).
OPCODE is the constructor that carries it, LENGTH the length of `params`.
`ingress` is the port of an in-band frame, or the management port; `latchkey` is that frame's LATCHKEY. -/
structure Request where
  src : Source
  ingress : Nat := 0
  latchkey : Nat := 0
  tag : Nat
  token : Nat := 0
  txn : Nat := 0
  params : Bytes := []
  deriving DecidableEq, Repr

/-- A Nydar frame as it lies on a link after its prefix (R103, R106, Table 4.3). -/
structure Frame where
  kind : Nat
  tc : Nat
  de : Bool := false
  cm : Bool := false
  ord : Bool := false
  trim : Bool := false
  spray : Bool := false
  byp : Bool := false
  esc : Bool := false
  res1 : Nat := 0
  latchkey : Nat := 0
  destGid : Nat := 0
  res6 : Nat := 0
  srcGid : Nat := 0
  res9 : Nat := 0
  hops : Nat := 0
  res10 : Nat := 0
  entropy : Nat := 0
  e2eSeq : Nat := 0
  length : Nat := 0
  ctx : Nat := 0
  gen : Nat := 0
  fmt : Nat := 0
  chunk : Nat := 0
  member : Nat := 0
  hcrc : Nat := 0
  fcrc : Nat := 0
  payload : Bytes := []
  deriving DecidableEq, Repr

/-- A memory error that a read finds, as the reader observes it (R285, R286, R222). (DEDUCED, log 10.) -/
inductive ReadError where
  | none
  | corrected (bank : Nat)
  | header (bank cell : Nat)
  | payload (bank cell : Nat) (started : Bool)   -- whether the frame's first codeword had been sent
  deriving DecidableEq, Repr

/-- What a Cellar channel returns of a line (R298, R299, R304): its 72 symbols as read, the poison pattern taken off where the check symbols
carry it, and whether a write accepted meanwhile drops a scrub's write-back (R300); or no valid response within 1 µs. (DEDUCED, log 10.) -/
inductive LineObs where
  | read (symbols : List Nat) (poisoned overtaken : Bool)
  | silent
  deriving DecidableEq, Repr

/-- Parity errors that the lookups of one frame find in the copies they read (R207). -/
structure ParityObs where
  route : Bool := false
  pathset : Bool := false
  mcast : Bool := false
  flowlet : Bool := false
  deriving DecidableEq, Repr

/-- A link word (R102, Table 4.1). -/
structure LinkWord where
  train : Bool := false
  fstart : Nat := 0x1FF
  nak : Bool := false
  ackSeq : Nat
  cvcA : Nat := 0
  credA : Nat := 0
  cvcB : Nat := 0
  credB : Nat := 0
  abrt : Bool := false
  deriving DecidableEq, Repr

/-- A training message (R122, Table 4.11) and whether its TCRC is correct. -/
structure TrainMsg where
  tcrcOk : Bool := true
  kind : Nat
  version : Nat := 1
  gang : Nat
  laneIndex : Nat := 0
  port : Nat
  peerType : Nat
  caps : Nat
  serial : Nat
  grant : List Nat
  probeTime : Nat := 0
  fresh : Bool
  expectLseq : Nat
  deriving DecidableEq, Repr

/-- What the discovery walk finds at one die position (R26). (DEDUCED, log 10.) -/
structure DieObs where
  present : Bool
  typeCode : Nat
  serial : Nat
  strapLow : Bool := false
  digest : Bytes := []             -- SHA-384 of its sub-image, as a Hall, Mangle or EIC reports it (R475)
  deriving DecidableEq, Repr

/-- What firmware finds of a NAND device at the mount (R490, R496, R503): its state (Table 21.3), its geometry, its
read ID bytes, its erase counts and free blocks, and whether it has no valid anchor and so is formatted. (DEDUCED, log 10.) -/
structure NvMount where
  state : Nat
  pageKiB : Nat := 2
  capMbit : Nat := 1024
  readId : Nat := 0
  retired : Nat := 0
  maxErase : Nat := 0
  meanErase : Nat := 0
  minErase : Nat := 0
  freeManaged : Nat := 0
  fresh : Bool := false
  factoryBad : List Nat := []      -- blocks with a factory marker
  deriving DecidableEq, Repr

/-- How one NAND device reads (R494): the block, the bit errors that its own ECC leaves in each codeword, whether every CRC matches once they
are corrected, and whether the device reports its own refresh level. (DEDUCED, log 10.) -/
structure NandRead where
  block : Nat := 0
  errors : List Nat := []
  crcOk : Bool := true
  refresh : Bool := false
  deriving DecidableEq, Repr

/-- A read of the store (R498): what the device that serves it gives, what the other gives where it is read too, and whether a copy cached
in the Cellar reads uncorrectable (R306). (DEDUCED, log 10.) -/
structure NvReadObs where
  first : NandRead := {}
  second : NandRead := {}
  cachedBad : Bool := false
  deriving DecidableEq, Repr

/-- What a laser module tells when it is read (R153): whether it is an ELSFP module, whether it answers as CMIS 5.2 asks, its vendor serial,
the offset of each laser it advertises from Table 5.1 in 0.1 GHz, the power it advertises for each on the data and on the Transom output in
0.01 dBm, the range and the step (0.001 dB) of the power that can be set, whether it reports bias, and its fine tuning in 0.1 GHz, 0 for none. -/
structure ModuleObs where
  elsfp : Bool := true
  cmis : Bool := true
  serial : Bytes := []
  offsets : List Int
  dataPower : List Int
  transomPower : List Int
  setLow : Int
  setHigh : Int
  setStep : Nat
  bias : Bool := true
  tuning : Nat := 0
  deriving DecidableEq, Repr

/-- One integration window of a monitor point (R162 to R167): its value in 0.01 dBm, none where no power reads; the lowest and the highest
power of the signal in it and the power at its end; and the longest time, in ns, that the signal stayed below the point's LOS level.
(DEDUCED, log 10.) -/
structure MonitorObs where
  value : Option Int
  lowest : Int
  highest : Int
  last : Int
  below : Nat := 0
  deriving DecidableEq, Repr

/-- What the PTP port makes of a message (R427, R428): 0 of an unsupported kind, 1 another message, 2 Sync; its domain; the portState it leads to; the
offset it measures, in 1/65,536 ns, with the path delay; the master it follows afterwards. IEEE 1588-2019 decides these. (DEDUCED, log 10.) -/
structure PtpObs where
  kind : Nat
  domain : Nat := 0
  portState : Nat
  offset : Option Int := none
  delay : Int := 0
  parent : Nat := 0
  gm : Nat := 0
  stepsRemoved : Nat := 0
  deriving DecidableEq, Repr

/-- The datagram that carries a packet (R89): whether it is an IP fragment, and its UDP checksum: 0 zero, 1 good, 2 failing.
(DEDUCED, log 10.) -/
structure UdpObs where
  fragment : Bool := false
  checksum : Nat := 1
  deriving DecidableEq, Repr

/-- The header of a firmware image (Table 20.2), its signatures and keys apart. `digests`: of the sub-images for Hearth, Hall,
Mangle and EIC. -/
structure Image where
  version : Nat := 0
  svn : Nat := 0
  stateMin : Nat := 0
  stateMax : Nat := 0
  keySlot : Nat := 0
  burn : Bool := false
  digests : List Bytes := []
  deriving DecidableEq, Repr

/-- What the ROM finds in an image slot of a device: the first of checks 1 to 4 of R474 that fails, 0 for none, and the header. (DEDUCED, log 10.) -/
structure ImageObs where
  check : Nat := 0
  image : Image
  deriving DecidableEq, Repr

/-- A reading of a sensor or monitor that its sender observes, or none (R457, R165). -/
abbrev Reading := Option Int

/-- The commands of the block. Constructors are grouped by their operands, since compiled code cannot build one that has
operands and an index above 244; the kernel evaluates all. -/
inductive Instr where
  -- Maloa commands, in the order of the table
  | deviceReset (q : Request)
  | resetCauseClear (q : Request)
  | startupRead (q : Request)
  | dieMapRead (q : Request)
  | seamLinkRead (q : Request)
  | deviceInfo (q : Request)
  | echo (q : Request)
  | tokenSet (q : Request)
  | tokenClear (q : Request)
  | tokenRead (q : Request)
  | selfGidSet (q : Request)
  | eventRead (q : Request)
  | linkWeightsSet (q : Request)
  | linkStatusRead (q : Request)
  | linkRetrain (q : Request)
  | portConfig (q : Request)
  | portStateRead (q : Request)
  | portEnable (q : Request)
  | gangSet (q : Request)
  | windowReset (q : Request)
  | lambdaMapRead (q : Request)
  | portLoopback (q : Request)
  | prbsRun (q : Request)
  | laserStateRead (q : Request)
  | laserCmisAccess (q : Request) (ack : Bool) (data : Bytes)
  | laserSwitch (q : Request)
  | rxPowerRead (q : Request)
  | monitorConfig (q : Request)
  | biasLimitsSet (q : Request)
  | transomMapWrite (q : Request)
  | transomMapRead (q : Request)
  | transomPathCheck (q : Request)
  | routeWriteRange (q : Request)
  | pathsetWrite (q : Request)
  | mcastWrite (q : Request)
  | flowletConfig (q : Request)
  | stairConfig (q : Request)
  | chuteRead (q : Request)
  | txnBegin (q : Request)
  | txnCommit (q : Request) (bad : List (Nat × Nat)) (nacks : Nat)
  | txnRollback (q : Request)
  | txnStatus (q : Request)
  | tableRead (q : Request) (bad : List Nat)
  | tableWrite (q : Request)
  | tableCompareWrite (q : Request) (parityBad : Bool)
  | tableClearAge (q : Request)
  | snapshotSave (q : Request)
  | snapshotApply (q : Request) (obs : NvReadObs) (digestBad : Bool)
  | snapshotList (q : Request)
  | snapshotDelete (q : Request)
  | snapshotSetBoot (q : Request)
  | blockQuiesce (q : Request)
  | blockResume (q : Request)
  | blockCreate (q : Request)
  | blockDelete (q : Request)
  | blockRead (q : Request)
  | blockPoolSet (q : Request)
  | grantSet (q : Request)
  | bufferConfig (q : Request)
  | bufferRead (q : Request)
  | cellarStatus (q : Request)
  | cellarRegulatorSet (q : Request)
  | cellarMemtest (q : Request)
  | meterSet (q : Request)
  | meterRead (q : Request)
  | shaperSet (q : Request)
  | shaperRead (q : Request)
  | gateListWrite (q : Request)
  | gateListRead (q : Request)
  | markSet (q : Request)
  | schedWeightsSet (q : Request)
  | ctxCreate (q : Request)
  | ctxModify (q : Request)
  | ctxDestroy (q : Request)
  | ctxRead (q : Request)
  | treeSet (q : Request)
  | engineFlagsRead (q : Request)
  | engineFlagsClear (q : Request)
  | epochStatus (q : Request)
  | epochAbort (q : Request)
  | hamperConfig (q : Request)
  | engineStateRead (q : Request)
  | mantelConfig (q : Request)
  | mantelStatus (q : Request)
  | stepConfig (q : Request)
  | calendarSet (q : Request)
  | calendarRead (q : Request)
  | ptpConfig (q : Request)
  | ptpStatus (q : Request)
  | tsQueueRead (q : Request)
  | darningMaskRead (q : Request)
  | darningConfig (q : Request)
  | faultRead (q : Request)
  | hearthHandover (q : Request)
  | selftestConfig (q : Request)
  | selftestRun (q : Request) (failed : List (Nat × Nat))
  | fwImageBegin (q : Request)
  | fwImageWrite (q : Request)
  | fwImageVerify (q : Request)
  | fwActivate (q : Request)
  | fwStatus (q : Request)
  | powerRead (q : Request) (analog : List (Nat × Nat))
  | thermalRead (q : Request)
  | thermalLimitsSet (q : Request)
  | powerCapSet (q : Request)
  | loopStatus (q : Request)
  | deedReport (q : Request)
  | randomRead (q : Request)
  | keyGenerate (q : Request)
  | debugUnlock (q : Request)
  | porchRead (q : Request)
  | porchAlarmClear (q : Request)
  | fuseRead (q : Request)
  | nvStatus (q : Request)
  | nvRead (q : Request) (obs : NvReadObs)
  | nvWrite (q : Request)
  | nvScrub (q : Request)
  | bootcfgRead (q : Request) (obs : NvReadObs)
  | bootcfgWrite (q : Request)
  | nvLogRead (q : Request) (lost : List Nat)
  | counterRead (q : Request)
  | counterClear (q : Request)
  | counterFilterSet (q : Request)
  | occThresholdSet (q : Request)
  | telemetryExportSet (q : Request)
  -- Events with operands
  | bar0RegisterWrite (off : Nat) (value : Nat)
  | bar0SubwordAccess (write : Bool) (off : Nat) (enables : Nat)
  | refReturned (elapsedUs : Nat)
  | pllUnlock (die domain : Nat)
  | hearthWatchdogExpired (hearth : Nat)
  | discoveryDone (dies : List DieObs) (untrained miswired : List Nat)
  | p3Complete (halt : Nat) (rows : List (Nat × Nat × Nat × Nat)) (chunks : List (Nat × Nat × Nat))
  | windowUp (window : Nat) (ms : Nat)
  | trngRunEnd (standby pass : Bool)
  | windowLightTimeout (window : Nat) (rings : Bool)
  | seamFlitReceived (link : Nat) (high : Bool) (ready : Nat) (returns : List Nat) (crcOk : Bool)
  | seamReplay (link : Nat) (high : Bool) (ok : Bool) (failing : List (Nat × Nat))
  | seamLaneFailed (link : Nat) (high : Bool) (group lane : Nat)
  | sillCellReceived (window : Nat) (toHall : Bool) (crcOk : Bool) (wire : Option Nat)
  | doorbell (tail : Nat)
  | rplIdxHeadWrite (head : Nat)
  | mailboxEnable (value : Nat)
  | requestFetch (slot : Bytes) (dmaOk : Bool)
  | replySegmentWrite (dmaOk : Bool)
  | commandTimeout (src : Source) (tag : Nat)
  | sourceForgotten (src : Source)
  | replyCacheExpiry (src : Source) (tag : Nat)
  | eventRaised (die : Nat)
  | eventLoss (die : Nat)
  | evCtrlWrite (value : Nat)
  | codewordPairDecoded (port lane : Nat) (levels : List Nat)
  | linkWordReceived (port : Nat)
  | replayTimeout (port : Nat)
  | frameReceived (port : Nat) (parity : ParityObs)
  | codewordLock (port : Nat)
  | trainingMessageReceived (port : Nat)
  | trainingAttemptTimeout (port : Nat)
  | trainingRetry (port : Nat)
  | frameTransmit (port : Nat) (err : ReadError)
  | linkFecHigh (port : Nat)
  | laneFault (pair lambda fclass : Nat) (tx : Bool) (level : Int)
  | lambdaBridgeIdentified (pair : Nat) (k : Option Nat)
  | lambdaSpareSelect (pair : Nat)
  | lambdaPark (pair : Nat)
  | spareBridgeTimeout (pair : Nat)
  | portLaneRestored (pair lambda : Nat)
  | ringLockAcquired (pair lambda : Nat) (tx : Bool)
  | eqAdaptStep (port lane : Nat) (margin : Nat)
  | eqMarginLow (port lane margin : Nat)
  | portPhyReady (port : Nat)
  | prbsRunEnd (port : Nat) (counts : List (Nat × Nat))
  | laserModuleReady (m : Nat) (obs : ModuleObs)
  | laserModuleInserted (m : Nat)
  | laserModuleRemoved (m : Nat)
  | laserInterrupt (m : Nat) (faulty : List Nat)
  | moduleMonitorRead (m : Nat) (temp : Int) (power : Nat) (lasers : List (Nat × Int))
  | feedLos (m lambda : Nat)
  | lightRestored (m lambda : Nat)
  | staggerOddGroup (window : Nat)
  | frequencyMatch (m : Nat)
  | monitorWindowEnd (window source index lambda : Nat) (obs : MonitorObs)
  | lightLoopPass (window : Nat)
  | transomMapApplied (window : Nat)
  | transomPassLos (window entry : Nat)
  | transomPassRestored (window entry : Nat)
  | transomRingUnlock (window entry ring : Nat)
  | chuteRepair (hall : Nat) (shadowOk : Bool) (repairNs : Nat)
  | commitInstant (handle : Nat)
  | tceRead (ctrl : Nat) (parityBad : Bool)
  | tceWrite (ctrl : Nat)
  | tceCompareWrite (ctrl : Nat) (parityBad : Bool)
  | tceClearAge (ctrl : Nat)
  | txnIdleTimeout (handle : Nat)
  | quiesceDrainCheck (latchkey : Nat)
  | drainLimitExpired (latchkey : Nat)
  | heldFrameRetry (hall : Nat)
  | bufferLoop (hall : Nat)
  | crossHallArrival (src dst : Nat)
  | spillWriteAck (hall : Nat)
  | spillReturn (port vc : Nat) (err : ReadError) (lines : List (Nat × LineObs))
  | cellarScrub (hall : Nat) (obs : LineObs)
  | cellarRowSpared (die : Nat) (lost : List Nat)
  | chunkRewriteStart (die channel : Nat)
  | cellarChunkSpared (die channel : Nat) (lost : List Nat)
  | cellarRefresh (die : Nat)
  | cellarRefreshMode (die : Nat) (hottest : Int)
  | gateEntryChange (port : Nat)
  | mangleContribReceived (mangle check : Nat)
  | chunkDone (mangle : Nat)
  | releaseSend (ctx : Nat)
  | engineSelftestDone (mangle : Nat) (activeFails shadowFails : Bool)
  | hamperEntryWrite (mangle : Nat)
  | replayWaitExpired (ctx : Nat) (lost : List (Nat × Nat × Bool))
  | collStraggler (ctx chunk : Nat)
  | collRunStalled (ctx run : Nat)
  | mantelFrameReceived (port : Nat)
  | mantelSourceLost (port : Nat)
  | stepInstant (g : Nat)
  | ptpMessageReceived (port : Nat) (obs : PtpObs)
  | ptpEventMessageSend (port msgType id : Nat)
  | legRateWrite (value : Nat)
  | legOffsetLoWrite (value : Nat)
  | darningFrameReceived (port : Nat)
  | darningSilent (port : Nat)
  | maskHoldExpired (port : Nat)
  | restoreHoldExpired (port : Nat)
  | flapHoldExpired (port : Nat)
  | dieFault (die condition : Nat)
  | hallKeepaliveTimeout (hall : Nat)
  | thermalDwellExpired (zone : Nat)
  | thermalTrip (zone sensor : Nat) (reading : Int)
  | frequencyGuard (mangle : Nat)
  | frequencyGuardRelease (mangle : Nat)
  | pcieLink (up : Bool) (speed width : Nat)
  | railOutOfRange (tenthMv : List Nat)
  | pcieConfigurationRequest (write : Bool) (off : Nat) (value : Nat)
  | maloaRequestRefused (src : Source) (ingress : Nat) (udp : UdpObs) (packet : Bytes)
  | thermalSample (samples : List (Nat × List Reading))
  | powerCapWindow (average : Nat)
  | p1ImageChecked (mounts : List NvMount) (copies : List ImageObs) (badRecords : List Nat)
  | p5Complete (obs : NvReadObs) (digestBad : Bool)
  | p0Complete (pcieRef : Bool)
  | trngRetest (standby : Bool)
  | heartbeatTimeout (pcieRef : Bool)
  | nvTransactionCommit (failed : List (Nat × Nat × Bool))
  -- Events with operands that compiled code cannot build
  | selftestPeriod (item : Nat) (failed : List (Nat × Nat))
  | mangleLevelStep (mangle : Nat)
  | avsStep (rail : Nat) (up : Bool) (margin : Int)
  | hallMargin (hall : Nat) (margin : Int)
  | porchAlarm (monitors : Nat)
  | nvScrubBlock (device region : Nat) (obs : NvReadObs)
  | nvWearLevel (device newMin : Nat)
  | nvResyncDone (device copied : Nat)
  | telemetryTrigger (set : Nat)
  | mgmtLink (port : Nat) (up : Bool)
  | ipAddress (port : Nat) (v6 : Bool) (addr : Nat) (acquired : Bool)
  | mgmtNeighbourRequest (port : Nat) (kind : Nat) (addr : Nat)
  | sidebandRead (off len : Nat)
  | jtagInstruction (code : Nat)
  | avsBusPoll (k : Nat) (response : Option (Nat × Nat))
  | ringHeadroom (pair lambda : Nat) (tx : Bool) (pct : Nat)
  | ptpAnnounceTimeout (port : Nat)
  | porchMonitorAlarmEnd (monitors : Nat)
  | cellarMemtestDone (hall : Nat) (found : List (Nat × LineObs))
  | porchSecond (temp : Int) (cellMv : Nat)
  | telemetryDatagramSend (lost : List (Nat × Nat × Bool))
  -- Events without operands, in the order of the table
  | powerOnReset
  | resetNAsserted
  | pcieReset
  | warmReset
  | refLost
  | refHoldoverExpired
  | refAbsent
  | porchXtalFail
  | p4Complete
  | p6Complete
  | mantelFreeRun
  | hearthBStandbyReady
  | resetRings
  | evNewestLoRead
  | headTimerCheck
  | flowletSweep
  | queueLoadPublish
  | tceOperationDone
  | mantelFrameSend
  | msyncInEdge
  | calendarSecond
  | calendarSetTimeAt
  | tsPop
  | tsClearOvf
  | mantelLoRead
  | calNsRead
  | legLoRead
  | darningFrameSend
  | leaderHeartbeatLoss
  | standbyKeepaliveLoss
  | hearthHandoverDone
  | activationStandbyReady
  | fwTrialEnd
  | fwActivated
  | debugChallengeExpiry
  | drbgReseed
  | nvLogWrite
  | ctrCapture
  | ctrReadClear
  | backupCellLost
  deriving DecidableEq, Repr

end Sys2Proof
end

