-- ==== Sys2Proof/Decode.lean ====
section
/-!
DEFINITION. The table of commands gives none of its rows bits, so no word spells a command.
-/
namespace Sys2Proof

/-- The command that a word spells: none, since the table gives no row bits. (DESIGN CHOICE, log 11.) -/
def decodeTableWord (_nbits _w : Nat) : Option Instr := none

end Sys2Proof
end

