-- ==== Sys2Proof/Config.lean ====
section
/-!
DEFINITION. What an implementation fixes, and the values the manual leaves open.
Each opaque constant has no body a proof can see: a claim that mentions one holds for every value of it.
`Config.free` is applied to the counter `State.draws`, which every use advances (DESIGN CHOICE, assumption log 2).
-/
namespace Sys2Proof.Config

/-- A value the manual leaves open, one for each draw (DESIGN CHOICE, log 2). -/
opaque free : Nat → Nat

/-- The expected remaining time of a handover, µs, that INFO gives while it runs (R82): its cause, ns since it began (DESIGN CHOICE,
log 67). -/
opaque handoverLeft : Nat → Nat → Nat

/-- Pseudo-random or true random bytes: draw number, how many (R477; DESIGN CHOICE, log 3). -/
opaque randomBytes : Nat → Nat → Bytes

/-- SHA-384 of a byte string (FIPS 180-4, named by R471, R473, R243 without its tables; DESIGN CHOICE, log 4). -/
opaque sha384 : Bytes → Bytes

/-- The ECDSA P-384 signature of a digest by the key that a 97-byte public key names (R481; DESIGN CHOICE, log 4). -/
opaque ecdsaSign : Bytes → Bytes → Bytes

/-- The ML-DSA-87 signature of a digest by the key that a public key names (R481; DESIGN CHOICE, log 4). -/
opaque mldsaSign : Bytes → Bytes → Bytes

/-- Whether an ECDSA P-384 signature verifies: public key, digest, signature (R474; DESIGN CHOICE, log 4). -/
opaque ecdsaVerify : Bytes → Bytes → Bytes → Bool

/-- Whether an ML-DSA-87 signature verifies: public key, digest, signature (R474; DESIGN CHOICE, log 4). -/
opaque mldsaVerify : Bytes → Bytes → Bytes → Bool

/-- The device public keys derived from the PUF root key: ECDSA, then ML-DSA-87 (R471; DESIGN CHOICE, log 5). -/
opaque deviceEcdsaPub : Bytes
/-- See `deviceEcdsaPub`. (DESIGN CHOICE, log 5.) -/
opaque deviceMldsaPub : Bytes

/-- The 64-bit serial in the fuses of a die (R11, R30; DESIGN CHOICE, log 5). -/
opaque dieSerial : Nat → Nat

/-- DEVICE_SERIAL in the fuses (R480, Table 20.18; DESIGN CHOICE, log 5). -/
opaque deviceSerial : Nat

/-- The root key hash in the fuses of a key slot, 48 bytes (R474; DESIGN CHOICE, log 5). -/
opaque rootKeyHash : Nat → Bytes

/-- DEBUG_AUTH_HASH, 48 bytes (R479; DESIGN CHOICE, log 5). -/
opaque debugAuthHash : Bytes

/-- How many flits of a channel a receiver of a Seam link has room for beyond the first: the credits of R17, which the manual does not
number: link, channel (DESIGN CHOICE, log 59). -/
opaque seamCredits : Nat → Nat → Nat

/-- How many admissions a Hall decides in one HALLCLK cycle, beyond the first (R273; DESIGN CHOICE, log 64). -/
opaque admissionCapacity : Nat

/-- The stored content of a snapshot (R506), whose field widths the manual does not give: SCOPE, LATCHKEY, Calendar seconds, and
the records in order: KIND, TABLE, INDEX, COUNT, words or parameters (DESIGN CHOICE, log 33). -/
opaque snapshotContent : Nat → Nat → Nat → List (Nat × Nat × Nat × Nat × Bytes) → Bytes

end Sys2Proof.Config
end

