-- ==== Sys2Proof/Machine/Types.lean ====
section
/-!
DEFINITION. The parts of the block's state for commands, links, windows, forwarding, buffers, partitions and
transactions, as plain data. A field's default is its value after a power-on reset; where
the manual states none it is 0 or none (DESIGN CHOICE, log 8).
-/
namespace Sys2Proof.Machine

/-- A sparse table: keys in the order they were first written, each at most once. -/
abbrev Tbl (κ α : Type) := List (κ × α)

/-- A memory of bytes: addresses strictly rising, and no entry that holds 0, which is what an unlisted address reads as. -/
abbrev Memory := List (Nat × Byte)

/-! ## Events (R90 to R94) -/

/-- An event as its die raises it (R91, Table 3.14 without SEQ). -/
structure EventMsg where
  code : Nat
  die : Nat
  severity : Nat
  arg0 : Nat := 0
  arg1 : Nat := 0
  arg2 : Nat := 0
  time : Nat := 0
  locked : Bool := false
  deriving DecidableEq, Repr

/-- A logged event (Table 3.14). -/
structure EventRec where
  seq : Nat
  msg : EventMsg
  deriving DecidableEq, Repr

/-- A limiter of an event that may be raised only once per period: when it was last raised, what it swallowed. -/
structure Limit where
  last : Nat
  count : Nat := 0
  deriving DecidableEq, Repr

/-- The event path and log (R90 to R94) with the registers of Tables 3.15 to 3.17. -/
structure EventLog where
  queues : Tbl Nat (List EventMsg) := []
  lost : Tbl Nat Nat := []
  nextSeq : Nat := 1
  log : List EventRec := []
  irq : Bool := false
  irqEn : Bool := false
  irqLevel : Nat := 3
  lossCount : Nat := 0
  newestHi : Nat := 0
  lastAt : Option Nat := none      -- ns at which the arbiter last logged a record (R93)
  limits : Tbl (Nat × Nat) Limit := []
  deriving DecidableEq, Repr

/-! ## Commands (R62 to R89) -/

/-- A token table entry (Table 3.6). -/
structure Token where
  level : Nat
  routes : Nat
  latchkey : Nat := 0
  grants : Nat := 0
  bind : Nat := 0
  inbandGid : Nat := 0
  ethAddr : Nat := 0
  deriving DecidableEq, Repr

/-- One segment of a reply with where it goes (R67, Table 3.3; R88). `early`: its request was refused at check 4, so it was never
outstanding (R76). -/
structure ReplySeg where
  src : Source
  early : Bool := false
  ingress : Nat := 0
  latchkey : Nat := 0
  selfGid : Nat := 0
  ringGen : Nat := 0
  tag : Nat
  status : Nat
  reason : Nat := 0
  info : Nat := 0
  opcode : Nat
  more : Bool := false
  seg : Nat := 0
  payload : Bytes := []
  deriving DecidableEq, Repr

/-- What an accepted command still waits for (R80, R81). -/
inductive Wait where
  | ring                         -- its reply segments wait for reply slots
  | store (txn : Nat)            -- the commit of a store transaction (R495)
  | commit (handle : Nat)        -- a commit instant (R237)
  | quiesce (latchkey : Nat)     -- a drain (R240)
  | resume (latchkey : Nat)      -- the end of a hold under R242
  | link (port : Nat)            -- the end of training (R127)
  | window (w : Nat)             -- a Window's bring-up (R140)
  | prbs (port : Nat)
  | laser (w : Nat)              -- a planned switch (R161)
  | memtest (hall : Nat)
  | handover
  | activation
  deriving DecidableEq, Repr

/-- A command that is outstanding (R76): what its reply needs, the level it was accepted with (R74), since when it is outstanding,
and what it waits for. -/
structure Outstanding where
  src : Source
  ingress : Nat := 0
  latchkey : Nat := 0
  selfGid : Nat := 0
  ringGen : Nat := 0
  tag : Nat
  opcode : Nat
  crc : Nat := 0
  token : Nat := 0
  level : Nat := 0
  since : Nat := 0
  params : Bytes := []
  wait : Wait
  deriving DecidableEq, Repr

/-- A cached one-segment reply (R77). -/
structure CachedReply where
  tag : Nat
  opcode : Nat
  crc : Nat
  reply : ReplySeg
  deriving DecidableEq, Repr

/-- A tracked source on the Ethernet or in-band route (R76, R77). -/
structure SourceRec where
  src : Source
  cache : List CachedReply := []
  deriving DecidableEq, Repr

/-- A request packet that has arrived and that no command has yet taken: the mailbox's generation (RESET_RINGS) and SELF_GID as it
arrived, and the port and LATCHKEY of an in-band frame (R83, R88). -/
structure Arrival where
  src : Source
  ingress : Nat := 0
  latchkey : Nat := 0
  ringGen : Nat
  selfGid : Nat
  packet : Bytes
  deriving DecidableEq, Repr

/-- A command that waits behind an earlier one of its source (R78, R80), with the level and the block it was accepted with (R74). -/
structure HeldCommand where
  src : Source
  opcode : Nat
  level : Nat
  key : Nat
  since : Nat
  ringGen : Nat
  selfGid : Nat
  req : Request
  instr : Instr
  deriving DecidableEq, Repr

/-- The command interpreter and the mailbox (R62 to R89, Tables 3.8 to 3.13). -/
structure Maloa where
  tokens : Tbl Nat Token := []
  selfGidValid : Bool := false
  selfGid : Nat := 0
  sources : List SourceRec := []
  outstanding : List Outstanding := []
  held : List HeldCommand := []    -- oldest first
  resumed : Option (Nat × Nat × Nat) := none   -- the next command is one that was held: level, block, since (the model's own mark)
  arrived : List Arrival := []
  takenGen : Nat := 0              -- RESET_RINGS counted when the command being run arrived, and SELF_GID then
  takenGid : Nat := 0
  waiting : List ReplySeg := []
  enable : Bool := false
  rplIrqEn : Bool := false
  reqLog2 : Nat := 6
  rplLog2 : Nat := 6
  err : Nat := 0
  reqBaseLo : Nat := 0
  reqBaseHi : Nat := 0
  rplBaseLo : Nat := 0
  rplBaseHi : Nat := 0
  reqHead : Nat := 0
  reqTail : Nat := 0
  rplHead : Nat := 0
  rplTail : Nat := 0
  ringGen : Nat := 0               -- counts RESET_RINGS, to tell the commands fetched before one
  deriving DecidableEq, Repr

/-! ## Nydar links (R98 to R127) -/

/-- Link states (Table 4.10). -/
inductive LinkState where
  | down | locking | exchange | active | retrain
  deriving DecidableEq, Repr

/-- A frame in a replay buffer (R114). `paid`: it has taken credit since the link last became ACTIVE (R117). -/
structure Unacked where
  lseq : Nat
  vc : Nat
  paid : Bool := true
  frame : Frame
  deriving DecidableEq, Repr

/-- A codeword of a port's frame stream as its receiver has it (R99 to R104): whether it decoded, FSTART, ABRT, and its descrambled frame
stream. -/
structure RxCodeword where
  good : Bool
  fstart : Nat := 0x1FF
  abrt : Bool := false
  stream : Bytes := []
  deriving DecidableEq, Repr

/-- The frame stream that a port sends (R99 to R104): the frame in progress with the ns at which it started, and the codeword being
filled. -/
structure TxStream where
  current : Option (Bytes × Nat) := none
  fill : Bytes := []               -- its frame stream so far, fewer than 312 bytes
  fstart : Nat := 0x1FF
  abrt : Bool := false
  first : Option (List Nat) := none            -- the first codeword of a pair whose second is being filled
  count : Nat := 0                 -- codewords formed since ACTIVE
  deriving DecidableEq, Repr

/-- The frame stream that a port receives: pairs of each lane that wait for those of the others, the joined codewords, the place at which
the next frame begins in the first of them, and the link words and training messages not yet taken. -/
structure RxStream where
  lanes : Tbl Nat (List (RxCodeword × RxCodeword)) := []   -- by lane index, oldest first
  index : Tbl Nat Nat := []        -- LANE_INDEX as the peer announced it, by lane
  codewords : List RxCodeword := []
  pos : Option Nat := none
  words : List LinkWord := []
  train : List (Nat × TrainMsg) := []          -- with the lane each came on
  deriving DecidableEq, Repr

/-- One deficit round (R119, R321): whose turn it is, whether that member has its quantum of this turn, the deficits. -/
structure Ring where
  turn : Nat := 0
  given : Bool := false
  defs : List Nat
  deriving DecidableEq, Repr

/-- The round of COLL (0) and DATA (1), and the nested round of VC1 to VC4 (0 to 3). -/
structure Round where
  outer : Ring := { defs := [0, 0] }
  inner : Ring := { defs := [0, 0, 0, 0] }
  deriving DecidableEq, Repr

/-- The Nydar link of one port. Lists of eight are indexed by VC. -/
structure Link where
  state : LinkState := .down
  lanes : Nat := 0                 -- active lanes
  peerType : Nat := 0
  peerPort : Nat := 0
  peerSerial : Nat := 0
  peerCaps : Nat := 0
  rttMeas : Nat := 0
  txSeq : Nat := 0                 -- next LSEQ to send
  lastAck : Nat := 4095            -- last ACK_SEQ received
  unacked : List Unacked := []     -- the replay buffer, oldest first
  replayNext : Option Nat := none  -- the LSEQ a running replay sends next
  replayAck : Option Nat := none   -- ACK_SEQ of the replay last started
  sameAck : Nat := 0               -- replays in a row from that ACK_SEQ
  expect : Nat := 0
  nak : Bool := false
  peerNak : Bool := false          -- NAK of the last link word received
  credit : List Nat := List.replicate 8 0       -- available to send
  lastCred : List Nat := List.replicate 8 0
  freed : List Nat := List.replicate 8 0        -- cells reported freed since ACTIVE, modulo 256
  owed : List Nat := List.replicate 8 0         -- cells by which a grant is raised that no report has told yet
  announced : List Nat := List.replicate 8 0    -- CREDIT_GRANT as announced in the running training
  granted : List Nat := List.replicate 8 0      -- credit the peer holds
  reserve : List Nat := List.replicate 8 0      -- the ingress reserve (R265)
  uncorr : Tbl Nat (List Bool) := []            -- per lane, the last 64 codewords
  attempts : Nat := 0              -- failed training attempts in a row
  firstFail : Nat := 0             -- ns of the first of them
  failReason : Nat := 4
  locked : Bool := false           -- codeword lock is complete
  selfActive : Bool := false       -- this end has sent ACTIVE
  peerActive : Bool := false       -- the peer's ACTIVE has been taken
  fresh : Bool := true             -- this end announces FRESH
  ann : Option TrainMsg := none    -- the peer's ANNOUNCE of this attempt
  probes : Nat := 0
  rttMax : Nat := 0
  b6 : Int := 1073741824           -- 16 KiB, in 1/65,536 byte
  b7 : Int := 268435456            -- 4 KiB
  bLast : Nat := 0
  round : Round := {}
  busyUntil : Nat := 0             -- ns at which the frame in progress ends
  busyVc : Nat := 0
  tx : TxStream := {}
  rx : RxStream := {}
  symWindow : Nat := 0
  uncWindow : Nat := 0
  cwWindow : Nat := 0
  symLast : Nat := 0
  uncLast : Nat := 0
  fecHigh : Bool := false
  stalled : Bool := false
  deriving DecidableEq, Repr

/-! ## Windows (R128 to R149) -/

/-- Port states (Table 5.4), without MEMBER, which the gang layout gives. -/
inductive PortState where
  | disabled | windowDown | noLight | tuning | phyReady | up | upDegraded | failed | test
  deriving DecidableEq, Repr

/-- The settings of a receive lane's equaliser (R136): CTLE peaking 0 to 15, the taps of the feed-forward and the decision-feedback equaliser
in steps, and the ns of its last step in service. -/
structure Equaliser where
  ctle : Nat := 0
  ffe : List Int := List.replicate 8 0
  dfe : Int := 0
  stepped : Option Nat := none
  deriving DecidableEq, Repr

/-- One port number: its state and its settings (R149). -/
structure PhyPort where
  state : PortState := .windowDown
  since : Nat := 0
  enabled : Bool := true
  spareAuto : Bool := true
  eqFreeze : Bool := false
  txPreset : Nat := 4
  fir : Nat := 4                   -- the FIR preset in use, TX_PRESET as of the last training
  degradeSer : Nat := 20
  loopback : Nat := 0
  prbs : Option PortState := none  -- the state to return to when the running PRBS test ends
  eqMargin : List Nat := List.replicate 8 0
  eq : List Equaliser := List.replicate 8 {}          -- by lane of the gang
  storedEq : List Equaliser := List.replicate 8 {}    -- converged settings of the last bring-up (R136)
  deriving DecidableEq, Repr

/-- The spare wavelength of a fibre pair (R142 to R147). -/
inductive Spare where
  | standby
  | failed
  | bridging (k : Nat)             -- this end detected a fault on k and sends k on λ8
  | mirroring (k : Nat)            -- the peer bridged k first
  | carries (k : Nat)
  | unmatched                      -- λ8 changed from idle and k was not identified
  deriving DecidableEq, Repr

/-- One physical wavelength of a fibre pair (Table 5.14). -/
structure Lambda where
  txOk : Bool := false
  rxOk : Bool := false
  txLock : Bool := false
  rxLock : Bool := false
  parked : Bool := false
  txFault : Bool := false          -- this end's transmitter is in fault
  rxFault : Bool := false          -- this end finds what it receives in fault
  faultAt : Nat := 0               -- ns at which the last fault was detected
  lastFault : Nat := 0
  txHead : Nat := 0
  rxHead : Nat := 0
  deriving DecidableEq, Repr

/-- One fibre pair: its spare, its dropped lanes and its wavelengths λ0 to λ8. -/
structure Fibre where
  spare : Spare := .standby
  swapClass : Nat := 0
  since : Nat := 0                 -- ns at which the running swap began
  waiting : List (Nat × Nat) := [] -- faults found while a swap runs: wavelength and class
  selected : Bool := false         -- this end's receiver has switched to λ8
  dropped : Nat := 0               -- logical wavelengths dropped, as bits
  lightDrop : Nat := 0             -- those whose drop is temporary (R146, R159)
  lambdas : List Lambda := List.replicate 9 {}
  deriving DecidableEq, Repr

/-- One Window. -/
structure Window where
  inService : Bool := false
  bringUp : Bool := false
  cause : Nat := 0
  keepLight : Bool := false
  warmAt : Option Nat := none      -- ns at which its PIC, below 10 °C at P4, reached 10 °C (R549)
  deriving DecidableEq, Repr

/-! ## Light (R150 to R175) -/

/-- One laser of a module. Powers are in 0.01 dBm, bias in 0.1 % of end of life, offset in 0.1 GHz. -/
structure Laser where
  on : Bool := false
  setpoint : Int := 1720
  failed : Bool := false
  bias : Nat := 0
  offset : Int := 0
  biasWarn : Bool := false
  biasAlarm : Bool := false
  deriving DecidableEq, Repr

/-- A laser module position. `state`: 0 absent, 1 initialising, 2 ready, 3 rejected. -/
structure LaserModule where
  state : Nat := 0
  fineTune : Bool := false
  cmisOk : Bool := false
  serial : Bytes := []
  temp : Int := 0
  power : Nat := 0
  lasers : List Laser := List.replicate 9 {}
  ceiling : Nat := 100
  autoSwitch : Bool := true
  loopHold : Bool := false
  limits : Option (Nat × Bool × Bool) := none   -- BIAS_LIMITS_SET that waits for the light loop's next pass (Table 6.16)
  deriving DecidableEq, Repr

/-- A planned switch that runs in a Window (R161). -/
structure LaserSwitch where
  target : Nat                     -- 1 module A, 2 module B
  odd : List Nat := []             -- wavelengths that have yet to move
  moved : List Nat := []
  stayed : Bool := false
  cause : Nat
  deriving DecidableEq, Repr

/-- Settings of a monitor class (Table 6.5). -/
structure MonitorClass where
  integ : Nat
  avg : Nat
  los : Int
  lowAlarm : Int
  lowWarn : Int
  highWarn : Int
  highAlarm : Int
  target : Int := 0
  deriving DecidableEq, Repr

/-- A monitor point: its range and last windows. `windows`: end in ns, value, flagged; newest first. -/
structure MonitorPoint where
  range : Nat := 0
  windows : List (Nat × Option Int × Bool) := []
  los : Bool := false
  lowWarn : Bool := false
  lowAlarm : Bool := false
  highWarn : Bool := false
  highAlarm : Bool := false
  cls : Option MonitorClass := none             -- its settings since a window boundary; none: those of reset (Table 6.15)
  deriving DecidableEq, Repr

/-- The light of one Window. `sel`: by wavelength, 0 neither, 1 module A, 2 module B. -/
structure Light where
  sel : List Nat := List.replicate 9 0
  lost : Nat := 0                  -- wavelengths under LIGHT_LOST
  switch : Option LaserSwitch := none
  queued : List (Nat × Nat) := []  -- switches of one wavelength that BIAS_ALARM started and that wait: target side, wavelength
  relight : List Nat := []         -- wavelengths whose light has returned and whose rings are not all locked
  busyEnd : Option Nat := none     -- ns at which the last takeover or switch ended
  ringLost : Tbl Nat Nat := []     -- by wavelength, ns at which a ring last lost lock
  takeovers : List (Nat × Nat × Nat) := []     -- module, wavelength and ns of takeovers whose light is not locked
  classes : List MonitorClass := [
    { integ := 1, avg := 16, los := -1600, lowAlarm := -1000, lowWarn := -850, highWarn := 200, highAlarm := 300 },
    { integ := 1, avg := 16, los := -1600, lowAlarm := -1000, lowWarn := -850, highWarn := 350, highAlarm := 400 },
    { integ := 2, avg := 10, los := 720, lowAlarm := 1420, lowWarn := 1570, highWarn := 1820, highAlarm := 1920,
      target := 1720 }]
  points : Tbl (Nat × Nat × Nat) MonitorPoint := []   -- by SOURCE, INDEX, λ (Table 6.14)
  deriving DecidableEq, Repr

/-! ## Transom (R176 to R195) -/

/-- The rings of a routed wavelength (R191, Table 7.8). -/
structure Route where
  switch : Bool := false
  matrix : Bool := false
  add : Bool := false
  holding : Bool := false
  out : Nat := 0                   -- its output
  matrixHeat : Int := 0            -- heater settings of its matrix ring and its add ring (R188)
  addHeat : Int := 0
  deriving DecidableEq, Repr

/-- The calibration of a matrix ring or add ring (R188): its resonant heater setting, the change of that with die temperature, and the die
temperature then, in 1/256 °C. -/
structure RingCal where
  setting : Int
  slope : Int
  temp : Int
  deriving DecidableEq, Repr

/-- The Transom matrices. The map itself stands in `Setup.live`. -/
structure Transom where
  changing : Tbl Nat (List (Nat × List Nat)) := []   -- by Window, its running changes: ns of the commit instant, entries touched (R187)
  calib : Tbl (Nat × Nat) RingCal := []        -- by Window and ring: 8 (4i + o) + λ a matrix ring, 128 + 8o + λ an add ring (R188)
  routes : Tbl Nat Route := []                 -- by entry, 0 to 255
  deriving DecidableEq, Repr

/-! ## Partitions (R248 to R262) -/

/-- Pool settings (Table 10.5). -/
structure Pool where
  landingReserve : Nat := 0
  landingCap : Nat := 3072
  spillCap : Nat := 1024
  hamperReserve : Nat := 0
  spillWeight : Nat := 1
  deriving DecidableEq, Repr

/-- Block states (R239). -/
inductive BlockState where
  | running | quiescing | quiesced
  deriving DecidableEq, Repr

/-- A drain that BLOCK_QUIESCE started (R240). -/
structure Drain where
  force : Bool
  start : Nat
  limit : Nat := 10000             -- DRAIN_LIMIT in µs
  expired : Bool := false          -- DRAIN_LIMIT has passed with FORCE 0
  deriving DecidableEq, Repr

/-- A Latchkey block (R249, Table 10.2). Bitmaps are numbers whose bit n is item n. -/
structure Block where
  hasCtx : Bool := false
  ctxFirst : Nat := 0
  ctxLast : Nat := 0
  pairs : Nat := 0
  transom : Nat := 0
  ranges : List (Nat × Nat) := []
  grants : Nat := 0
  pool : Pool := {}
  state : BlockState := .quiesced
  drain : Option Drain := none
  drops : Nat := 0                 -- frames dropped on arrival since QUIESCING began
  deriving DecidableEq, Repr

/-! ## Set-up, transactions and the table engine (R227 to R247) -/

/-- What a transaction stages: one entry of a table, or one unit that a write command replaces (R227). (DESIGN CHOICE, log 12.) -/
inductive ItemKey where
  | entry (table index : Nat)
  | flowletCfg
  | stairAll
  | gang (pair : Nat)
  | link (port : Nat)
  | hallBuf (hall : Nat)
  | grant (port : Nat)
  | meterPort (port tc : Nat)
  | meterBlock (hall key tc : Nat)
  | shaper (port vc : Nat)
  | gates (port : Nat)
  | mark (port vc : Nat)
  | xfer (hall : Nat)
  | regulator (hall part : Nat)
  | block (key : Nat)
  | pool (key : Nat)
  | ctx (c : Nat)
  | tree (c : Nat)
  | darnPort (port : Nat)
  deriving DecidableEq, Repr

/-- A staged item: its key, and its value in the layout of the command that writes it, reserved bytes 0. -/
structure Item where
  key : ItemKey
  value : Bytes
  deriving DecidableEq, Repr

/-- Transaction states (Table 9.8). -/
inductive TxnState where
  | opened | committing | failed
  deriving DecidableEq, Repr

/-- An open transaction (R233). -/
structure Txn where
  handle : Nat
  device : Bool
  latchkey : Nat
  token : Nat
  route : Nat
  idle : Nat
  lastNamed : Nat
  state : TxnState := .opened
  items : List Item := []
  t : Nat := 0
  deriving DecidableEq, Repr

/-- The registers of the table command engine (Tables 9.3 to 9.7) and its running operation. -/
structure Tce where
  ctrl : Nat := 0
  index : Nat := 0
  handle : Nat := 0
  busy : Bool := false
  done : Bool := false
  matched : Bool := false
  overrun : Bool := false
  status : Nat := 0
  reason : Nat := 0
  data : List Nat := List.replicate 41 0
  cmp : List Nat := List.replicate 41 0
  result : Option (Nat × Nat × Bool × List Nat) := none   -- what the running operation will report
  deriving DecidableEq, Repr

/-- Transactions and the live set-up. An item that `setup` does not hold stands at its reset value. -/
structure Setup where
  live : Tbl ItemKey Bytes := []
  txns : List Txn := []
  nextHandle : Nat := 1
  txnGen : Nat := 0                -- commit instants since the last warm or cold reset (Table 20.4)
  lastT : Nat := 0
  tce : Tce := {}
  deriving DecidableEq, Repr

/-! ## Forwarding (R196 to R226) -/

/-- A flowlet entry (R203). `valid` is V. -/
structure Flowlet where
  valid : Bool := true
  tag : Nat
  port : Nat
  ts : Nat
  deriving DecidableEq, Repr

/-- A Chute record (Table 8.15). -/
structure ChuteRec where
  seq : Nat
  time : Nat
  cause : Nat
  port : Nat
  index : Nat
  pipe : Nat
  head : Bytes
  read : Bool := false             -- firmware has read it (R221)
  deriving DecidableEq, Repr

/-- The Chute of one Hall. -/
structure Chute where
  records : List ChuteRec := []
  nextSeq : Nat := 1
  deriving DecidableEq, Repr

/-- The forwarding state of the Halls. The tables themselves stand in `Setup.live`. -/
structure Fwd where
  flow : Tbl (Nat × Nat) Flowlet := []         -- by Hall and index; an absent entry is all zero
  flowBad : List (Nat × Nat) := []
  /-- Live copies that fail parity: table code of R225, Hall, entry index. -/
  bad : List (Nat × Nat × Nat) := []
  rr : Tbl (Nat × Nat × Nat) (List (Nat × Int)) := []   -- by Hall, pipe, set: A(c) for each port of E (R212)
  published : Tbl (Nat × Nat) Nat := []        -- Q by port and VC, as last published (R211)
  chutes : Tbl Nat Chute := []
  deriving DecidableEq, Repr

/-! ## Buffers (R263 to R290) -/

/-- How a frame reached its queue (R214). -/
inductive Via where
  | route | mcast | coll | own
  deriving DecidableEq, Repr

/-- Choice methods (R209). -/
inductive Method where
  | static | flowlet | spray
  deriving DecidableEq, Repr

/-- What holds a frame's cells (R264 to R270). -/
inductive Store where
  | ingress (port vc : Nat)
  | cross (src vc : Nat)
  | mangle
  | pool (key : Nat)
  | headroom
  | shared (id : Nat)              -- a multicast frame stored once for several queues (R282)
  | spill (key : Nat)
  | nothing
  deriving DecidableEq, Repr

/-- A frame inside a Hall. -/
structure Held where
  frame : Frame
  inPort : Nat                     -- ingress port; 1280 for a frame the part originates
  pipe : Nat := 0
  via : Via := .route
  method : Method := .static
  store : Store
  hopped : Bool := false           -- HOPS has been increased for this part (R108)
  marked : Bool := false           -- the marking decision has been made (R328)
  resteered : Bool := false
  waitSince : Option Nat := none   -- the last check that found the head timer running (R216)
  waited : Nat := 0                -- ns that the head timer has run
  waits : Nat := 0                 -- bit 0: counted in SHAPER_WAIT; bit 1: in GATE_WAIT
  port : Nat := 0                  -- egress port
  vc : Nat := 0
  since : Nat := 0                 -- when it was held (R272)
  refused : Bool := false          -- counted in THRESH_REFUSED
  stalled : Bool := false          -- counted in HOLD_STALL
  ports : List Nat := []           -- a multicast frame's egress ports in this Hall
  trimmed : Bool := false          -- a trimmed head, which needs no admission test
  turn : Option Nat := none        -- it waits for its source's turn to be decided (R273)
  deriving DecidableEq, Repr

/-- An egress queue (R268): frames in Landing, then frames in spill, oldest first. -/
structure Queue where
  frames : List Held := []
  spilled : List Held := []
  deriving DecidableEq, Repr

/-- A multicast frame stored once in a Hall (R282): copies left, and what is charged. -/
structure Shared where
  hall : Nat
  cells : Nat
  store : Store
  copies : Nat
  deriving DecidableEq, Repr

/-- The switch core of one Hall. -/
structure Hall where
  active : Nat := 3145728          -- active cells (R263)
  k : List Nat := [6, 6, 6, 6, 6, 7, 9, 9]
  refusedVcs : Nat := 0            -- VCs that refused a frame on its threshold in this period (R274)
  spilling : Bool := false
  held : List Held := []           -- held frames, oldest first (R272)
  crossUse : Tbl (Nat × Nat) Nat := []         -- cells in the cross-Hall reserve, by source Hall and VC
  mangleUse : Nat := 0
  headroomUse : Nat := 0
  used : Tbl Nat Nat := []         -- U(p) by LATCHKEY
  spillUsed : Tbl Nat Nat := []    -- cells in spill by LATCHKEY
  spareUsed : Tbl Nat Nat := []    -- spare bank used, by group: the bank it replaces
  retired : List Nat := []         -- retired banks
  xfer : Tbl Nat (List Held) := [] -- frames that wait to cross to another Hall, by Hall
  rounds : Tbl Nat Round := []     -- the transfer arbiter's rounds, by destination Hall
  relay : Tbl Nat (List Nat) := [] -- cells sent while relayed, by destination Hall: direct, then by each other Hall (R24)
  fixes : Tbl Nat (List Nat) := [] -- ns of a bank's corrected errors of the last second (R286)
  decided : Nat × Nat := (0, 0)    -- a ns, and the admissions decided in its cycle (R273)
  shares : Option (Tbl Nat Nat) := none        -- tokens left to each pool while its spill writes contend (R295)
  deriving DecidableEq, Repr

/-- The buffers of the part. -/
structure Buffers where
  halls : Tbl Nat Hall := []
  queues : Tbl (Nat × Nat) Queue := []
  shared : Tbl Nat Shared := []
  nextShared : Nat := 0
  spillWrites : Tbl Nat (List Held) := []      -- spill writes not yet acknowledged, by Hall (R275)
  deriving DecidableEq, Repr

/-! ## Meters, shapers and gates (R311 to R332) -/

/-- The live part of a meter: its actions and buckets, in 1/65,536 byte (R313, R316). -/
structure Meter where
  yellow : Nat := 0
  red : Nat := 0
  tc : Nat := 0
  tp : Nat := 0
  restC : Nat := 0                 -- what is left over of the last credit, below the resolution (R313)
  restP : Nat := 0
  last : Nat := 0
  deriving DecidableEq, Repr

/-- The buckets of a shaper, in 1/65,536 byte or frame (R319). -/
structure ShaperTokens where
  c : Int := 0
  p : Int := 0
  restC : Nat := 0                 -- what is left over of the last credit, below the resolution (R313)
  restP : Nat := 0
  last : Nat := 0
  deriving DecidableEq, Repr

/-- Scheduling state. -/
structure Sched where
  portMeters : Tbl (Nat × Nat) Meter := []
  blockMeters : Tbl (Nat × Nat × Nat) Meter := []
  shapers : Tbl (Nat × Nat) ShaperTokens := []
  deriving DecidableEq, Repr

end Sys2Proof.Machine
end

