-- ==== Sys2Proof/Machine/Types2.lean ====
section
/-!
DEFINITION. The parts of the block's state for time, faults, start-up, counters and outputs, as plain data.
A field's default is its value after a power-on reset; where the manual states none it is 0 or none (DESIGN CHOICE, log 8).
-/
namespace Sys2Proof.Machine

/-- What the block sends out: frames, replies, interrupts, messages on its buses and pins. (DESIGN CHOICE, log 1.) -/
inductive Out where
  | frame (port vc lseq : Nat) (rtx : Bool) (f : Frame)
  | abort (port : Nat)                                  -- a frame abandoned with ABRT = 1 (R115, R285)
  | pair (port lane slot : Nat) (levels : List Nat)      -- a codeword pair in a pair slot of a lane (R98, R100)
  | trainMsg (port lane : Nat) (m : TrainMsg) (levels : List Nat)   -- a training message and its pair (R122)
  | fetch (addr : Nat)                                  -- a read of a request slot in host memory (R84)
  | slot (addr : Nat) (r : ReplySeg)                    -- a reply slot written in host memory (R84)
  | datagram (mgmt : Nat) (r : ReplySeg)                -- a reply on Ethernet (R89)
  | msix (vector : Nat)
  | bar0 (off value : Nat)                              -- data returned to a BAR0 read
  | config (value : Nat) (retry : Bool)                 -- completion of a configuration request
  | lane (pair lambda : Nat) (what : Nat) (k : Nat)     -- 1 bridge k, 2 park, 3 select, 4 withdraw, 6 unpark
  | idle (pair lambda : Nat) (levels : List Nat)        -- a wavelength carries idle codewords from now on: pairs of these levels (R131)
  | pulse (g : Nat)                                     -- MSYNC_OUT (R420)
  | laser (m what value : Nat)                          -- a management access of a laser module
  | avs (k mv : Nat)                                    -- an AVSBus voltage write (R545)
  | telemetry (mgmt addr port : Nat) (payload : Bytes)
  | ptp (port kind : Nat) (value : Nat)
  | neighbour (port kind addr : Nat)
  | sideband (data : Bytes)
  | alert (data : Nat)                                  -- an in-band interrupt of the sideband port (R538)
  | jtag (ir : Nat) (capture : Option Nat)
  deriving DecidableEq, Repr

/-- A counter (R512). -/
structure Counter where
  value : Nat := 0
  ovf : Bool := false
  deriving DecidableEq, Repr

/-- Scope, instance and index of a counter (R516). -/
structure CtrKey where
  scope : Nat
  inst : Nat
  idx : Nat
  deriving DecidableEq, Repr

/-- A filtered counter's setting (R520, Table 22.16). -/
structure Filter where
  type : Nat := 0
  enable : Bool := false
  priv : Nat := 0
  mask : Nat := 0
  lo : Nat := 0
  hi : Nat := 0
  cls : Nat := 0
  deriving DecidableEq, Repr

/-- Mantel states (R410). -/
inductive MantelState where
  | freeRun | master | acquiring | locked | holdover
  deriving DecidableEq, Repr

/-- The latest MANTEL frame of a port's peer, with the part's receive point (R412, R414). -/
structure MantelInfo where
  source : Bool
  holdover : Bool
  gmPriority : Nat
  depth : Nat
  gmSerial : Nat
  tTx : Nat
  tTxFrac : Nat
  tRx : Nat
  tRxFrac : Nat
  timed : Bool := true             -- some frame without RTX has given the times
  valid : Bool := false            -- its ECHO gave a valid measurement
  theta : Int := 0                 -- 1/65,536 ns
  delay : Int := 0
  deriving DecidableEq, Repr

/-- The Mantel settings and records of one data port. -/
structure MantelPort where
  asym : Int := 0                  -- ps
  exclude : Bool := false
  seq : Nat := 0                   -- SEQ of the next frame
  sent : List (Nat × Nat) := []    -- transmit points since the last counter step
  info : Option MantelInfo := none
  deriving DecidableEq, Repr

/-- A STEP generator (R420). `k` is the index of its next instant. -/
structure StepGen where
  enable : Bool := false
  base : Nat := 0
  period : Nat := 65536
  actions : Nat := 0
  k : Nat := 0
  deriving DecidableEq, Repr

/-- The Calendar (R422 to R426). -/
structure Calendar where
  sec : Nat := 0
  ns : Nat := 0
  frac : Nat := 0
  rate : Int := 0                  -- CAL_RATE, ppb
  resid : Int := 0                 -- the part of the rate that has not reached FRAC, in 1/10^9 of 1/65,536 ns
  state : Nat := 0                 -- Table 17.4
  source : Nat := 0
  utc : Nat := 0                   -- UTC_OFFSET, 16 bits
  stepLimit : Nat := 10            -- µs
  good : Nat := 0
  bad : Nat := 0
  fresh : Nat := 0                 -- measurements still awaited from a new grandmaster
  holdSince : Option Nat := none
  fromRc : Bool := false
  setAt : Option (Nat × Nat × Nat) := none      -- AT, SEC, NS
  deriving DecidableEq, Repr

/-- A PTP port (R427, Tables 17.23 and 17.24). -/
structure PtpPort where
  config : Bytes := [0, 0, 0, 0, 128, 128, 248, 0, 1, 0, 3].map byteOf
  portState : Nat := 3
  stepsRemoved : Nat := 0
  parent : Nat := 0
  gm : Nat := 0
  offset : Int := 0
  delay : Int := 0
  syncs : Nat := 0
  deriving DecidableEq, Repr

/-- An entry of the transmit timestamp queue (R430). -/
structure TsEntry where
  id : Nat
  port : Nat
  msgType : Nat
  sec : Nat
  ns : Nat
  frac : Nat
  deriving DecidableEq, Repr

/-- A MANTEL frame that a port has consumed: its RTX, and COUNT, FRAC and the Calendar, in 1/65,536 ns, at its receive point (R413, R426). -/
structure MantelRx where
  port : Nat
  rtx : Bool
  count : Nat
  frac : Nat
  cal : Int
  frame : Frame
  deriving DecidableEq, Repr

/-- The time scales (R408 to R435). -/
structure Time where
  count : Nat := 0
  frac : Nat := 0
  state : MantelState := .freeRun
  master : Bool := false           -- ROLE
  gmPriority : Nat := 128
  interval : Nat := 16             -- µs
  stepLimit : Nat := 1000          -- ns
  upstream : Option Nat := none
  gm : Option (Nat × Nat) := none  -- GM_PRIORITY and GM_SERIAL last followed
  depth : Nat := 0
  steering : Int := 0              -- ppb
  good : Nat := 0
  bad : Nat := 0
  theta : Int := 0
  delay : Int := 0
  steps : Nat := 0
  lastStep : Int := 0
  holdSince : Option Nat := none
  ports : Tbl Nat MantelPort := []
  inbox : List MantelRx := []      -- MANTEL frames consumed, oldest first
  lastSend : Option Nat := none    -- ns at which MANTEL frames were last sent
  capture : Nat × Nat × Nat × Nat × Nat := (0, 0, 0, 0, 0)   -- COUNT, FRAC, Calendar SEC, NS and FRAC
  captures : Nat := 0
  lastEdge : Option Nat := none    -- ns of the last MSYNC_IN edge that counted
  gens : List StepGen := List.replicate 4 {}
  stepPending : Nat := 0
  pulse : Option Nat := none       -- ns at which the last MSYNC_OUT pulse started
  cal : Calendar := {}
  ptp : List PtpPort := [{}, {}]
  ts : List TsEntry := []
  tsOvf : Nat := 0
  tsIrqEn : Bool := false
  raw : Nat := 0                   -- RAW (R431)
  legOffset : Nat := 0             -- OFFSET (R431)
  legOffsetLo : Nat := 0           -- LEG_OFFSET_LO as last written
  legOffsetHi : Nat := 0           -- LEG_OFFSET_HI as last written
  legBase : Nat := 0
  legRate : Nat := 0
  latchMantelHi : Nat := 0
  latchMantelFrac : Nat := 0
  latchCalSec : Nat := 0
  latchCalFrac : Nat := 0
  latchLegHi : Nat := 0
  deriving DecidableEq, Repr

/-- The latest valid DARNING frame of a port's peer (R443). -/
structure DarnRx where
  state : Nat
  verdict : Nat
  reach : Nat
  at' : Nat
  limit : Nat                      -- ns: SILENT_LIMIT when it arrived
  deriving DecidableEq, Repr

/-- A timer of Darning that runs: when it started and how long, in ns, its setting then made it (Table 18.12). -/
structure Hold where
  start : Nat
  limit : Nat
  deriving DecidableEq, Repr

/-- Whether a timer has run out. -/
def Hold.over (h : Hold) (now : Nat) : Bool := h.start + h.limit ≤ now

/-- Darning's record of one port (R442 to R445). Its POD tag stands in `Setup.live`. -/
structure DarnPort where
  exclude : Bool := false
  flapHeld : Bool := false
  flapHold : Hold := { start := 0, limit := 0 }
  clears : List Nat := []          -- ns of the clearings of its mask bit
  clearedAt : Option Nat := none   -- the clearing that a setting would end
  since : Option Hold := none      -- since when it has been eligible without a break: RESTORE_HOLD
  outSince : Option Hold := none   -- since when it is out of UP and UP_DEGRADED with its mask bit 1: MASK_HOLD
  rx : Option DarnRx := none
  seq : Nat := 0
  deriving DecidableEq, Repr

/-- A record of the fault table (Table 18.13). STATE: 0 active, 1 covered, 2 cleared. -/
structure FaultRec where
  id : Nat
  cls : Nat
  state : Nat
  die : Nat
  object : Nat
  first : Nat
  last : Nat
  times : Nat
  deriving DecidableEq, Repr

/-- Darning and fault state (R436 to R453). -/
structure Darn where
  mask : Nat := 0                  -- bit p: port p is live (R205)
  state : Nat := 0                 -- Table 18.3
  interval : Nat := 100            -- µs
  silentLimit : Nat := 4
  flapCount : Nat := 4
  maskHold : Nat := 300            -- µs
  restoreHold : Nat := 100         -- ms
  flapWindow : Nat := 60           -- s
  flapHold : Nat := 600            -- s
  ports : Tbl Nat DarnPort := []
  told : Nat × Nat × Nat × List Nat := (0, 0, 0, [])   -- STATE, FLAGS, REACH and the ports with VERDICT 1 last sent
  hallFailed : List Nat := []      -- Halls that entered FAILED on their own (R440)
  inbox : List (Nat × Frame) := [] -- DARNING frames consumed and not yet applied
  faults : List FaultRec := []
  nextFault : Nat := 1
  testEnable : Nat := 0x3E
  testPeriods : List Nat := [10, 60, 60, 300, 60]
  testDue : List Nat := [0, 0, 0, 0, 0]        -- ns at which each item's period ends
  nextSend : Nat := 0              -- ns at which the next INTERVAL ends
  deriving DecidableEq, Repr

/-- Firmware images and activation (R451, R452, R504, Tables 18.17 to 18.21). The image slots lie in the store and survive every
reset; the running image, the session and the activation do not. -/
structure Firmware where
  current : Option Image := none   -- the CURRENT slot, where the part has written it
  pendImage : Option Image := none -- the PENDING slot, once verified
  pending : Nat := 0               -- 0 empty, 1 uploading, 2 verified, 3 marked for reset, 4 rejected
  pendSlot : Nat := 1              -- which image slot is PENDING
  session : Option Nat := none     -- SIZE of the open upload
  words : Tbl Nat Bytes := []      -- the 4-byte words of the upload, by OFFSET / 4
  running : Image := {}            -- what the leading Hearth runs
  old : Image := {}                -- what the old leader runs during TRIAL
  step : Nat := 0                  -- Table 18.8; 0 outside an activation
  returnToA : Bool := false
  trial : Nat := 0
  trialStart : Nat := 0
  deriving DecidableEq, Repr

/-! ## Security and the Porch (R471 to R489) -/

/-- Fuses, debug state, keys and the DRBG of the leading Hearth (R476 to R482). (DESIGN CHOICE, log 5.) -/
structure Security where
  lifecycle : Nat := 1             -- R478
  revoked : Nat := 0               -- KEY_REVOKE
  svnA : Nat := 0                  -- anti-rollback counters in fuses
  svnB : Nat := 0
  trace : Bool := false
  armed : Bool := false            -- DEBUG_ARMED
  full : Bool := false             -- a FULL session runs
  challenge : Option (Bytes × Nat) := none     -- NONCE and when it was issued
  lastChallenge : Option Nat := none
  tokenData : Tbl Nat Bytes := []  -- by OFFSET / 4
  reseeds : Nat := 0
  drawn : Nat := 0                 -- bytes since the last seed
  seeded : Nat := 0                -- ns at which it was last seeded
  deriving DecidableEq, Repr

/-- The Porch domain (R483 to R486). Only the loss of both supplies ends it. -/
structure Porch where
  timeValid : Bool := false
  share : Bytes := []              -- empty: zeroised
  cellPresent : Bool := false
  onRc : Bool := false
  stateLost : Bool := false
  live : Nat := 0
  latched : Nat := 0
  secs : Nat := 0
  alarmSecs : Nat := 0
  onCell : Bool := false
  first : Nat := 0
  count : Nat := 0
  temp : Int := 0
  cellMv : Nat := 0
  powered : Bool := false          -- it holds what it has held since it last started from no power
  mainPower : Bool := true
  xtalFailed : Bool := false       -- to be recorded at the next P0
  railFault : Nat := 0             -- rails that left their range (R548)
  deriving DecidableEq, Repr

/-- A regulator's bucket (R295): what is missing from BURST, in 1/1,000 token, at `last`. -/
structure Bucket where
  missing : Nat := 0
  last : Nat := 0
  deriving DecidableEq, Repr

/-- What an access of a Cellar channel is for, in the order in which a channel serves them (R296). -/
inductive AccessKind where
  | refresh | repair | scrub | firmware | shadow | hamper | spillRead | spillWrite | telemetry | background
  deriving DecidableEq, Repr

/-- An access that waits in a channel: a line address, and what its read returns. -/
structure Access where
  kind : AccessKind
  line : Nat
  obs : LineObs
  deriving DecidableEq, Repr

/-- A Cellar channel (R296, R298, R301 to R304). -/
structure Channel where
  marked : Option Nat := none
  spareUsed : Bool := false
  failed : Bool := false
  rewriting : Option Nat := none   -- ns at which its rewrite onto the spare chunk began
  fixes : List (Nat × Nat × Nat) := []         -- chunk, row and ns of corrections of the last second
  waiting : List Access := []      -- pending accesses, in the order of their arrival
  served : Nat × Nat := (0, 0)     -- a cycle of CELLARCLK, and the accesses served in it
  scrubbed : Option Nat := none    -- ns of the last scrub within its floor
  deriving DecidableEq, Repr

/-- A row of a Cellar bank: channel, bank, row. -/
abbrev RowKey := Nat × Nat × Nat

/-- A Cellar die (R301, R302, R305). -/
structure CellarDie where
  channels : Tbl Nat Channel := []
  fixed : Tbl RowKey (List (Nat × Nat)) := []  -- lines of a row corrected within 24 h, with their ns
  copies : List RowKey := []       -- rows to be copied, the first being copied
  spared : List RowKey := []       -- rows that spare rows stand for
  exhausted : List (Nat × Nat) := []           -- banks without a spare row that have been reported
  mode : Nat := 0                  -- refresh mode
  hottest : Int := 0               -- 1/256 °C
  coolSince : Option Nat := none   -- since when every reading lies 2 °C below the mode's lower edge
  lastRefresh : Nat := 0
  deriving DecidableEq, Repr

/-- The scrub of a Hall's Cellar and its memory test (R300, R310). -/
structure Scrub where
  pos : Nat := 0                   -- the next line of the walk
  start : Nat := 0
  lastEnd : Option Nat := none
  late : Bool := false
  uncStart : Nat := 0              -- the second in which CELLAR_UNCORR is counted
  uncCount : Nat := 0
  uncMissed : Nat := 0
  deriving DecidableEq, Repr

/-- Cellar state. -/
structure Cellar where
  shadowUnits : Nat := 16
  telemetryUnits : Nat := 8
  hamperUnits : Nat := 32
  buckets : Tbl (Nat × Nat) Bucket := []       -- by Hall and PARTITION
  testing : List Nat := []                      -- Halls in which to_spill fails for a CELLAR_MEMTEST
  tests : Tbl Nat (Nat × Nat × Nat) := []      -- running memory tests by Hall: MODE, FIRST_LINE, LINES
  dies : Tbl Nat CellarDie := []               -- by die ID
  scrubs : Tbl Nat Scrub := []                 -- by Hall
  poisoned : List (Nat × Nat) := []            -- Hall and line address A[35:6]
  snapshots : List Nat := []                   -- digests of the snapshots cached in the SHADOW partition (R243)
  deriving DecidableEq, Repr

/-- A die as discovery found it (Tables 1.7 and 1.9). STATE: 0 not assigned, 1 in service, 2 degraded, 3 out. -/
structure DieRec where
  present : Bool := false
  matched : Bool := false
  state : Nat := 0
  typeCode : Nat := 0
  serial : Nat := 0
  fw : Bool := false               -- it runs its sub-image (R475)
  digest : Bytes := []
  deriving DecidableEq, Repr

/-- The random number generator of a Hearth (R58, R59, R477). STATE as TRNG_STAT. -/
structure Trng where
  state : Nat := 0
  runs : Nat := 0
  retests : Nat := 0
  deriving DecidableEq, Repr

/-- Reset, clocks and start-up (R33 to R61), and discovery (R26 to R30). -/
structure Boot where
  phase : Nat := 0
  failed : Bool := false
  failCode : Nat := 0
  recovery : Bool := false
  mailboxReady : Bool := false
  degradedLatch : Bool := false
  leadB : Bool := false            -- PHASE.LEAD_B
  bLeads : Bool := false           -- Hearth B leads now
  hearthB : Nat := 0               -- HEARTH_B_STATE
  standbyReady : Bool := false
  cause : Nat := 0x80000000        -- RESET_CAUSE
  porchPending : Bool := false     -- the Porch handed over a latched alarm at P0
  trngState : Nat := 0             -- of the leading Hearth
  trngRuns : Nat := 0
  trngRetests : Nat := 0
  standbyTrng : Trng := {}         -- of the Hearth that does not lead
  refPresent : Bool := false
  refHoldover : Bool := false
  porchOnRc : Bool := false
  locked : Nat := 0                -- the domains that have locked since the reset, bit d - 1 for domain d
  entry : List Nat := 0 :: List.replicate 7 0xFFFFFFFF
  released : Nat := 0              -- ns at the last reset release
  held : Bool := false             -- every die but the Porch is held in reset (R37)
  cold : Bool := false             -- the cold reset holds (R547, R548)
  clockHeld : Bool := false        -- the reset waits for the reference (R37)
  thermalHeld : List Nat := []     -- zones whose SHUTDOWN or trip holds the reset (R461)
  emptyTables : Bool := false
  resetPending : Bool := false     -- a DEVICE_RESET has been answered
  lost : Bool := false             -- both Hearths have failed (R440)
  watchdogs : Nat := 0             -- bit 0: Hearth A's has expired; bit 1: Hearth B's
  busMaster : Bool := false
  handover : Bool := false
  handoverStart : Nat := 0
  handoverCause : Nat := 0
  unlocked : List (Nat × Nat) := []            -- die and domain of the instances that have lost lock
  dies : Tbl Nat DieRec := []
  discDone : Bool := false
  discCode : Nat := 0
  discFirst : Nat := 0
  discLinks : Nat := 0
  deriving DecidableEq, Repr

/-- A lane group of a Seam link in one direction (R21 to R23). -/
structure SeamGroup where
  spares : Nat
  half : Nat := 0                  -- 0 full, 1 lower half, 2 upper half, 3 out of service
  failed : List Nat := []          -- lanes with an unrepaired failure
  deriving DecidableEq, Repr

/-- One direction of a Seam link: its flit slots, credits and flits under way (R17 to R20). Lists of five are indexed by channel. -/
structure SeamWay where
  slot : Nat := 0                  -- number of the next flit slot
  taken : List (Option Nat) := []  -- channels that took the last 128 slots, the last one first
  spent : List Nat := List.replicate 5 0        -- flits whose credit has not come back
  seq : Nat := 0                   -- 10-bit sequence number of the next flit
  expect : Nat := 0                -- sequence number that the receiver delivers next
  replay : List (Nat × Nat) := []  -- flits sent and not delivered, oldest first: sequence number, channel
  fails : Nat := 0                 -- failed replays in a row of one flit
  deriving DecidableEq, Repr

/-- A Seam link: the groups and the flits of each direction, low to high first. -/
structure SeamLink where
  low : List SeamGroup := []
  high : List SeamGroup := []
  relayed : Bool := false
  lowWay : SeamWay := {}
  highWay : SeamWay := {}
  deriving DecidableEq, Repr

/-- One direction of a Sill (R14, R15). Data wires are numbered 0 to 2,559; spare wire g stands for one of wires 32g to 32g + 31. -/
structure SillWay where
  next : Nat := 0                  -- number of the next new cell
  replay : List Nat := []          -- cells in the sender's 4 KiB replay buffer, the one to be resent first
  broken : List Nat := []          -- wires found failing since the last bring-up
  spared : List Nat := []          -- wires that a spare stands for
  deriving DecidableEq, Repr

/-- The Sill of a Window: cells and resends of the running 1 ms (R15), and each direction. -/
structure Sill where
  cells : Nat := 0
  resends : Nat := 0
  start : Nat := 0
  up : SillWay := {}               -- from the EIC to the Hall
  down : SillWay := {}
  deriving DecidableEq, Repr

/-! ## The non-volatile store (R490 to R511) -/

/-- A stored snapshot (R243, R506): its digest, header fields, content and items. -/
structure Snapshot where
  digest : Nat
  device : Bool
  latchkey : Nat
  secs : Nat := 0
  content : Bytes := []
  items : List Item := []
  boot : Bool := false
  deriving DecidableEq, Repr

/-- What a store transaction changes when it commits (R495). -/
inductive NvEffect where
  | token (id : Nat) (t : Option Token) (route : Nat)
  | selfGid (valid : Bool) (gid : Nat)
  | bootcfg (parts : List (Nat × Bytes))
  | portTime (first : Nat) (records : List Nat)
  | user (off : Nat) (data : Bytes)
  | limits (zone : Nat) (record : Bytes)
  | snapSave (sn : Snapshot)
  | snapDelete (digest : Nat)
  | snapBoot (digest : Nat)
  | blocks
  | grants (key grants : Nat) (route : Nat)
  | ownerKey (route : Nat) (ecdsa mldsa share : Bytes)
  | none
  deriving DecidableEq, Repr

/-- A store transaction that waits or runs, with the reply of the command that waits on it. -/
structure NvTxn where
  id : Nat
  effect : NvEffect
  status : Nat := 0
  reason : Nat := 0
  payload : Bytes := []
  deriving DecidableEq, Repr

/-- One NAND device (Tables 21.3 and 21.9). -/
structure NvDevice where
  state : Nat := 0
  pageKiB : Nat := 0
  capMbit : Nat := 0
  blocks : Nat := 0
  retired : Nat := 0
  freeManaged : Nat := 0
  maxErase : Nat := 0
  meanErase : Nat := 0
  minErase : Nat := 0
  lastPass : Option Nat := none    -- ns at which its last scrub pass ended
  resync : Nat := 0                -- per mille
  readId : Nat := 0
  jseq : Nat := 0
  resyncStart : Nat := 0
  bad : List Nat := []             -- blocks retired since it was formatted, factory markers with them
  anchorSeq : Nat := 0             -- ANCHOR_SEQ of its latest anchor copy (R493)
  anchorPage : Nat := 0            -- the page of anchor blocks 0 to 7 that holds it
  journal : Nat := 0               -- commit records since the last checkpoint (R495)
  fails : Nat := 0                 -- operations failed in a row (R502)
  refreshed : Tbl Nat Nat := []    -- ns at which the scrub last rewrote a block (R499)
  lastMove : Option Nat := none    -- ns of its last wear-levelling move (R500)
  deriving DecidableEq, Repr

/-- A record of the persistent log (R507). -/
structure NvLogRec where
  index : Nat
  boot : Nat
  secs : Nat
  event : EventRec
  deriving DecidableEq, Repr

/-- The store: devices, the queue of transactions, the regions and the scrub. It survives every reset. -/
structure Nv where
  devices : List NvDevice := [{}, {}]
  queue : List NvTxn := []         -- the first runs
  nextId : Nat := 1
  bootcfg : Bytes := []            -- the boot configuration record; empty: every field at its default
  user : Memory := []              -- USER bytes by offset; an unlisted byte reads 0
  snapshots : List Snapshot := []
  log : List NvLogRec := []
  nextIndex : Nat := 1
  logQueue : List EventRec := []
  boots : Nat := 0                 -- BOOT
  scrubRun : Bool := false
  scrubFast : Bool := false
  scrubDone : Nat := 0             -- blocks read in the running pass
  scrubRewritten : Nat := 0
  scrubTotal : Nat := 0            -- blocks the running pass reads
  scrubStart : Nat := 0
  cut : Nat := 0                   -- what the next mount finds of a transaction that a reset cut: 1 discarded, 2 + d completed on device d
  storedTokens : Tbl Nat Token := []
  storedBlocks : Tbl Nat Block := []
  ownerKey : Option (Bytes × Bytes × Bytes) := none   -- the owner key's public halves, and the share its KEK was made of
  portTime : Tbl Nat Nat := []     -- per-port Mantel settings as MANTEL_CONFIG TYPE 1 writes them
  deriving DecidableEq, Repr

end Sys2Proof.Machine
end

