-- ==== Sys2Proof/Machine/Types3.lean ====
section
/-!
DEFINITION. The parts of the block's state for collectives, as plain data. A field's default is its value after a
power-on reset; where the manual states none it is 0 or none (DESIGN CHOICE, log 8).
-/
namespace Sys2Proof.Machine

/-! ## Collectives (R333 to R407) -/

/-- The accumulator line of one element (R360). `cls`: 0 FINITE, 1 +INF, 2 -INF, 3 NAN. `has`: it has received a finite value. `infs`: the
infinities it has met, 1 for +∞ and 2 for −∞. `res3` and `res7` are the residues of R378. -/
structure Elem where
  win : Int := 0
  full : Option Int := none
  cls : Nat := 0
  has : Bool := false
  infs : Nat := 0
  res3 : Nat := 0
  res7 : Nat := 0
  deriving DecidableEq, Repr

/-- What the part holds of one child switch's partial of an open chunk (R346, R365, R395). -/
structure Part where
  segs : Nat := 0                  -- segment bitmap
  last : Nat := 0                  -- SEG of the block segment
  fcrc : Nat := 0                  -- FCRC of the block segment
  words : List Nat := []           -- block words
  zeros : List Nat := []           -- elements whose zero windows are held
  named : List Nat := []           -- elements that an extension record names
  deriving DecidableEq, Repr

/-- A chunk that is OPEN or FINAL (Table 14.6). -/
structure Chunk where
  mangle : Nat
  engine : Nat
  shadow : Option Nat := none
  members : Nat := 0               -- member bitmap
  parts : Tbl Nat Part := []
  exps : List (Option Int) := []   -- block exponents
  elems : List Elem := []
  opened : Nat := 0
  limit : Nat := 0                 -- STRAGGLE_TIME, µs, when its timer started
  straggler : Bool := false
  nv : Bool := false
  final : Bool := false
  finalAt : Nat := 0
  testing : Bool := false          -- its engines run the self-test of R379
  frames : List Frame := []        -- the outgoing frames of a FINAL chunk, in order
  deriving DecidableEq, Repr

/-- A Hamper entry (R388). -/
structure Hamper where
  mangle : Nat
  size : Nat
  excess : Nat                     -- bytes above the base size
  written : Bool := false          -- in Cellar, no longer in the write buffer
  since : Nat                      -- ns at which its chunk was handed on
  wait : Nat := 0                  -- REPLAY_WAIT, µs, at that moment
  frames : List Frame
  deriving DecidableEq, Repr

/-- An unreleased run of which a chunk has opened (R399): when one first did, and the timer of RUN_LIMIT, in ms. -/
structure RunAge where
  opened : Nat
  start : Nat
  limit : Nat
  deriving DecidableEq, Repr

/-- The running state of a valid reducing or broadcast context. Its descriptor and tree stand in `Setup.live`. -/
structure CtxRun where
  failed : Bool := false
  ports : List Nat := []           -- one port for each member (R335)
  parent : Option Nat := none
  rel : Nat := 0
  done : List Nat := []            -- chunk indices from REL up whose DONE bit is 1
  chunks : Tbl Nat Chunk := []     -- by chunk index, in the order they opened
  hamper : Tbl Nat Hamper := []
  unlogged : List Nat := []
  restart : Option (Nat × Nat) := none   -- the last RELEASE advance, replay or BLOCK_RESUME (R391, R400): ns, REPLAY_WAIT then
  runOpen : Tbl Nat RunAge := []   -- by first chunk of a run
  stalled : List Nat := []         -- runs reported under R399, by first chunk
  due : Bool := false              -- REL has advanced and no RELEASE of it has been sent
  lastRelease : Option Nat := none
  regained : Tbl Nat Nat := []     -- by member: ns of the last RELEASE sent under R393
  dups : Nat := 0
  drops : Nat := 0
  resets : Nat := 0
  replayed : Nat := 0
  deriving DecidableEq, Repr

/-- An engine's flags and how it was retired (R375, Table 16.9). -/
structure Engine where
  ov : Bool := false
  uf : Bool := false
  nx : Bool := false
  nv : Bool := false
  retired : Bool := false
  cause : Nat := 0
  pattern : Nat := 0
  temp : Nat := 0x8000
  time : Nat := 0
  deriving DecidableEq, Repr

/-- A contribution for a Mangle: the Hall it came in by, the input buffer that it has entered, which frees its ingress reserve (R341), and
when it did. -/
structure MangleIn where
  hall : Nat
  frame : Held
  buffer : Option Nat
  since : Nat := 0
  deriving DecidableEq, Repr

/-- A Mangle. -/
structure Mangle where
  active : List Nat := List.range 32           -- the round robin of R376
  next : Nat := 0                              -- position of the engine next assigned
  engines : List Engine := List.replicate 34 {}
  failed : Bool := false
  input : List MangleIn := []
  output : List (Nat × Frame) := []            -- frames that wait for room in a Hall's Mangle reserve, with their ports
  deriving DecidableEq, Repr

/-- Collective state. -/
structure Coll where
  ctxs : Tbl Nat CtxRun := []
  mangles : List Mangle := [{}, {}]
  replayWait : Nat := 100          -- µs
  straggle : Nat := 50             -- µs
  runLimit : Nat := 100            -- ms
  deriving DecidableEq, Repr

/-! ## Counter window and telemetry export (R522 to R525) -/

/-- The counter window of BAR0 (Tables 22.3 to 22.7). -/
structure CtrWindow where
  scope : Nat := 0
  first : Nat := 0
  count : Nat := 1
  inst : Nat := 0
  until' : Option Nat := none      -- BUSY: the ns at which the running capture ends
  done : Bool := false
  overrun : Bool := false
  status : Nat := 0
  reason : Nat := 0
  vals : List Nat := List.replicate 64 0       -- OVF[63], GAUGE[62], value [47:0]
  deriving DecidableEq, Repr

/-- An export set (R523, Table 22.16). -/
structure ExportSet where
  enable : Bool := false
  step : Bool := false
  generator : Nat := 0
  scope : Nat := 0
  first : Nat := 0
  count : Nat := 0
  inst : Nat := 0
  instCount : Nat := 0
  period : Nat := 0
  busyUntil : Nat := 0             -- ns at which its last capture ends
  deriving DecidableEq, Repr

/-- A telemetry record (Table 22.8) and the Hall that stores it. -/
structure TelRecord where
  hall : Nat
  set : Nat
  scope : Nat
  first : Nat
  inst : Nat
  trigger : Nat
  offset : Nat
  locked : Bool
  values : List Nat
  deriving DecidableEq, Repr

/-- Telemetry export (R523 to R525). -/
structure Telemetry where
  enable : Bool := false
  mgmt : Nat := 0
  port : Nat := 0
  addr : Nat := 0
  maxRate : Nat := 2000            -- Mb/s
  sets : List ExportSet := List.replicate 8 {}
  stored : List TelRecord := []    -- in the order of R525
  seq : Nat := 0                   -- DGRAM_SEQ of the next datagram
  dropped : Nat := 0               -- EXPORT_DROP increments since the last datagram
  recent : List (Nat × Nat) := []  -- ns and UDP payload bytes of the datagrams of the last 1 ms
  deriving DecidableEq, Repr

/-! ## Power, thermal zones and control loops (R456 to R470, R545) -/

/-- A thermal zone, one for each die (R457 to R462). Temperatures are in 1/256 °C. -/
structure Zone where
  reading : Option Int := none     -- the hottest of the last sample
  highest : Option Int := none     -- the highest since reset
  level : Nat := 0
  lastChange : Option Nat := none  -- ns of its last transition
  bad : List Nat := []             -- ignored sensors
  above : List (Option Nat) := [none, none, none]   -- for WARN, THROTTLE and SHUTDOWN: since when every reading is at or above it
  under : List (Option Nat) := [none, none, none]   -- since when every reading is below it less HYST
  contrib : Nat := 0               -- its contribution to the Mangle level
  contribAt : Nat := 0
  trip : Option (Nat × Int) := none            -- sensor and reading of a latched trip
  cool : Option Nat := none        -- since when every reading is below 123 °C
  deriving DecidableEq, Repr

/-- A rail output: its last readings, and for an adaptive one its setpoint and monitors (R464, R465, R545). -/
structure Rail where
  mv : Nat := 0
  ma : Nat := 0
  setpoint : Nat := 800            -- mV
  errors : Nat := 0                -- transactions in a row without a valid response
  readOnly : Bool := false
  lastDown : Option Nat := none
  margins : List (Nat × Int) := [] -- ns and lowest CPM margin, of the last 1 s
  emergency : Option Nat := none
  deriving DecidableEq, Repr

/-- A Mangle's frequency guard (R466). -/
structure Guard where
  on : Bool := false
  since : Nat := 0                 -- ns at which it last began to act
  pushed : Bool := false           -- the voltage loop has stepped up for this action (R467)
  last : Option Nat := none        -- ns at which it last released
  acts : List Nat := []            -- ns of its actions of the last 1 s
  deriving DecidableEq, Repr

/-- Power and thermal state of the part. -/
structure Power where
  limits : List (Nat × Nat × Nat) := [(95, 100, 110), (95, 100, 110), (95, 100, 110), (88, 95, 103), (90, 95, 105), (75, 80, 90)]
  cap : Nat := 1600                -- CAP_W as set, W
  capNow : Nat := 1600             -- CAP_W of the window that runs
  windowAt : Option Nat := none    -- ns at which the window that runs began
  sCap : Nat := 0
  avg : Nat := 0                   -- the last 10 ms average, mW
  unmet : Bool := false
  lowWindows : Nat := 0            -- windows in a row below CAP_W − 30 W
  levels : List Nat := [0, 0]
  stepped : List (Option Nat) := [none, none]  -- ns of each Mangle's last change of level
  guards : List Guard := [{}, {}]
  rails : Tbl Nat Rail := []
  deriving DecidableEq, Repr

/-! ## Interfaces (R528 to R548) -/

/-- The PCIe endpoint (R532). -/
structure Pcie where
  up : Bool := false
  speed : Nat := 0                 -- GT/s
  width : Nat := 0
  bar0 : Nat := 0                  -- the address bits of BAR0
  command : Nat := 0               -- the command register as the host wrote it
  msix : Tbl Nat Nat := []         -- words of the MSI-X table that the host wrote, by offset
  sris : Bool := false             -- it runs with a separate reference, from REFCLK (R530)
  retryUntil : Nat := 0            -- ns until which configuration requests get Request Retry Status (R52)
  deriving DecidableEq, Repr

/-- A management Ethernet port (R534, R535). -/
structure MgmtPort where
  up : Bool := false
  v4 : Option Nat := none
  v6 : List Nat := []              -- its global addresses
  deriving DecidableEq, Repr

end Sys2Proof.Machine
end

