-- ==== Sys2Proof/Machine/State.lean ====
section
/-!
DEFINITION. The state of the block as plain data, its value after a power-on reset, and why a command can stop.
-/
namespace Sys2Proof.Machine

/-- The state of the block and the queue of the commands that wait. -/
structure State where
  /-- Commands not yet taken, first in first out. -/
  pending : List Instr := []
  /-- Nanoseconds since reset release, by the part's own clock. -/
  ns : Nat := 0
  /-- How many open values have been used (the model's own counter: DESIGN CHOICE, log 2). -/
  draws : Nat := 0
  /-- What the block has sent, oldest first (the model's own record: DESIGN CHOICE, log 1). -/
  out : List Out := []
  boot : Boot := {}
  seam : Tbl Nat SeamLink := []
  sill : Tbl Nat Sill := []
  fw : Firmware := {}
  sec : Security := {}
  porch : Porch := {}
  ev : EventLog := {}
  maloa : Maloa := {}
  counters : List (CtrKey × Counter) := []
  filters : Tbl Nat Filter := []
  occ : Tbl (Nat × Nat) Nat := []              -- occupancy thresholds by port and VC; absent: 3,145,728 (R519)
  ctrCopy : List (CtrKey × Counter) := []      -- what the standby last copied of the leading Hearth's counters (R514)
  ctr : CtrWindow := {}
  tel : Telemetry := {}
  time : Time := {}
  links : Tbl Nat Link := []
  ports : Tbl Nat PhyPort := []
  fibres : Tbl Nat Fibre := []
  windows : Tbl Nat Window := []
  modules : Tbl Nat LaserModule := []
  light : Tbl Nat Light := []
  transom : Transom := {}
  blocks : Tbl Nat Block := []
  fabricPool : Pool := { landingReserve := 16, landingCap := 128, spillCap := 0 }
  setup : Setup := {}
  fwd : Fwd := {}
  buf : Buffers := {}
  sched : Sched := {}
  darn : Darn := {}
  cellar : Cellar := {}
  nv : Nv := {}
  coll : Coll := {}
  zones : Tbl Nat Zone := []
  power : Power := {}
  pcie : Pcie := {}
  mgmt : List MgmtPort := [{}, {}]
  alerts : Nat := 0                -- the ALERT byte when the sideband port last judged it (R538)
  deriving DecidableEq, Repr

/-- The state after a power-on reset (R9): every register at its reset value, nothing listed in any table. -/
def State.reset : State := {}

/-- Reasons a command stops the machine. The manual gives none: every command the block takes leaves it running. (DESIGN CHOICE, log 19.) -/
inductive Fault where
  deriving DecidableEq, Repr

/-- Reasons a command has no meaning. -/
inductive Refusal where
  /-- Raised by `exec` for a command whose meaning is not written: safe. -/
  | notModelled (mnemonic : String)
  /-- Raised by a meaning whose operand names an object the part does not have (WellFormed refuses it): safe. -/
  | noSuchObject (what : String)
  deriving DecidableEq, Repr

/-- What a meaning answers. -/
abbrev Answer := Host.Outcome State Fault Refusal

end Sys2Proof.Machine
end

