-- ==== Sys2Proof/Machine/Ops.lean ====
section
/-!
DEFINITION. The named operations that every meaning uses: sparse tables, counters, events, outputs, open values.
-/
namespace Sys2Proof.Machine

/-! ## Sparse tables -/

/-- The entry of `k`, or `d` where the table holds none. -/
def tget {κ α : Type} [DecidableEq κ] (t : Tbl κ α) (k : κ) (d : α) : α :=
  match t with
  | [] => d
  | (k', v) :: r => if k' = k then v else tget r k d

/-- The entry of `k`, if there is one. -/
def tfind {κ α : Type} [DecidableEq κ] (t : Tbl κ α) (k : κ) : Option α :=
  match t with
  | [] => none
  | (k', v) :: r => if k' = k then some v else tfind r k

/-- The table with the entry of `k` set. -/
def tset {κ α : Type} [DecidableEq κ] (t : Tbl κ α) (k : κ) (v : α) : Tbl κ α :=
  match t with
  | [] => [(k, v)]
  | (k', v') :: r => if k' = k then (k, v) :: r else (k', v') :: tset r k v

/-- The table without an entry of `k`. -/
def tdel {κ α : Type} [DecidableEq κ] (t : Tbl κ α) (k : κ) : Tbl κ α :=
  t.filter fun e => e.1 ≠ k

/-- The byte at an address; an unlisted one reads 0 (DESIGN CHOICE, log 8). -/
def memGet (m : Memory) (a : Nat) : Byte := tget m a 0

/-- A memory with one byte written: the form of `Memory` is kept. -/
def memSet (m : Memory) (a : Nat) (b : Byte) : Memory :=
  match m with
  | [] => if b = 0 then [] else [(a, b)]
  | (c, d) :: r =>
    if a < c then if b = 0 then (c, d) :: r else (a, b) :: (c, d) :: r
    else if a = c then if b = 0 then r else (a, b) :: r
    else (c, d) :: memSet r a b

/-- A memory with bytes written from an address on. -/
def memWrite (m : Memory) (a : Nat) : Bytes → Memory
  | [] => m
  | b :: r => memWrite (memSet m a b) (a + 1) r

/-- Whether a memory has its canonical form: addresses strictly rising, no entry that holds 0. -/
def Memory.wf : Memory → Bool
  | [] => true
  | (a, b) :: r => b ≠ 0 && (match r with | [] => true | (c, _) :: _ => decide (a < c)) && Memory.wf r

/-- A list with its entry `i` replaced; unchanged past its end. -/
def lset {α : Type} (l : List α) (i : Nat) (v : α) : List α := l.set i v

/-- A list with its entry `i` changed by `f`. -/
def lmod (l : List Nat) (i : Nat) (f : Nat → Nat) : List Nat := l.set i (f (l.getD i 0))

/-! ## Open values (DESIGN CHOICE, log 2) -/

/-- The next open value below `n`, and the state that has used it. (DESIGN CHOICE, log 2.) -/
def draw (n : Nat) (s : State) : Nat × State :=
  (Config.free s.draws % n, { s with draws := s.draws + 1 })

/-- The next open integer, and the state that has used it. (DESIGN CHOICE, log 2.) -/
def drawInt (s : State) : Int × State :=
  ((Config.free s.draws : Int) - Config.free (s.draws + 1), { s with draws := s.draws + 2 })

/-! ## Dies, Halls and ports (R11, R12, R128) -/

/-- Whether a port number exists (R128, R134). -/
def isPort (p : Nat) : Bool := p < 1280

/-- The Window of a port (Table 1.2). -/
def windowOf (p : Nat) : Nat := if p < 1024 then p / 128 else (p - 1024) / 32 % 8

/-- The Hall that serves a port (Table 1.2). -/
def hallOf (p : Nat) : Nat := windowOf p / 2

/-- The ingress pipe of a port (R197). -/
def pipeOf (p : Nat) : Nat := windowOf p % 2

/-- The die IDs of Hall, Mangle and EIC (Table 1.1). -/
def hallDie (h : Nat) : Nat := 2 + h
/-- See `hallDie`. -/
def mangleDie (m : Nat) : Nat := 22 + m
/-- See `hallDie`. -/
def eicDie (w : Nat) : Nat := 24 + w

/-- The die ID of the leading Hearth (R53, R55). -/
def leadDie (s : State) : Nat := if s.boot.bLeads then 1 else 0

/-! ## Time -/

/-- The Mantel count (R408). -/
def mantel (s : State) : Nat := s.time.count

/-- Whether the Mantel counter counts as locked (R91, R524). -/
def mantelLocked (s : State) : Bool :=
  decide (s.time.state = .locked) || decide (s.time.state = .master)

/-! ## Counters (R512) -/

/-- The counter of a key; a counter never touched reads 0. -/
def counterAt (k : CtrKey) (s : State) : Counter := tget s.counters k {}

/-- A counter increased by `n`, modulo 2^48, with its sticky OVF (R512). -/
def Counter.add (c : Counter) (n : Nat) : Counter :=
  { value := (c.value + n) % 2 ^ 48, ovf := c.ovf || decide (2 ^ 48 ≤ c.value + n) }

/-- Counts `n` in a counter. -/
def count (scope inst idx n : Nat) (s : State) : State :=
  let k : CtrKey := { scope, inst, idx }
  { s with counters := tset s.counters k ((counterAt k s).add n) }

/-- Counts `n` in a PORT counter (Table 22.1, scope 0x01). -/
def countPort (p idx n : Nat) (s : State) : State := count 1 p idx n s
/-- Counts `n` in a QUEUE counter (scope 0x02). -/
def countQueue (p vc idx n : Nat) (s : State) : State := count 2 (8 * p + vc) idx n s
/-- Counts `n` in a POOL counter (scope 0x05). -/
def countPool (key hall idx n : Nat) (s : State) : State := count 5 (4 * key + hall) idx n s
/-- Counts `n` in a HALL counter (scope 0x06). -/
def countHall (h idx n : Nat) (s : State) : State := count 6 h idx n s
/-- Counts `n` in a MANGLE counter (scope 0x07). -/
def countMangle (m idx n : Nat) (s : State) : State := count 7 m idx n s
/-- Counts `n` in a ROUTE counter (scope 0x0E). -/
def countRoute (r idx n : Nat) (s : State) : State := count 14 r idx n s

/-- A filtered counter of a TYPE counts an access (R520). -/
def countFilter (type : Nat) (hit : Filter → Bool) (s : State) : State :=
  s.filters.foldl (fun s e => if e.2.enable && e.2.type = type && hit e.2 then count 18 e.1 0 1 s else s) s

/-! ## Outputs -/

/-- Sends something out of the block. (DESIGN CHOICE, log 1.) -/
def emit (o : Out) (s : State) : State := { s with out := s.out ++ [o] }

/-! ## Events (R90 to R93) -/

/-- A die raises an event: it joins the die's queue of 64, or is lost and counted (R93). -/
def raise (code die severity arg0 arg1 arg2 : Nat) (s : State) : State :=
  let m : EventMsg := { code, die, severity, arg0 := arg0 % 2 ^ 32, arg1 := arg1 % 2 ^ 32, arg2 := arg2 % 2 ^ 32,
                        time := mantel s, locked := mantelLocked s }
  let q := tget s.ev.queues die []
  if q.length < 64 then
    { s with ev := { s.ev with queues := tset s.ev.queues die (q ++ [m]) } }
  else
    { s with ev := { s.ev with lost := tset s.ev.lost die (tget s.ev.lost die 0 + 1)
                               lossCount := min 0xFFFF (s.ev.lossCount + 1) } }

/-- Raises an event of the leading Hearth. -/
def raiseLead (code severity arg0 arg1 arg2 : Nat) (s : State) : State :=
  raise code (leadDie s) severity arg0 arg1 arg2 s

/-- Raises an event at most once per `period` ns for each `key`; `mk` builds the record from the number of
occurrences since the last one, this one included. -/
def raiseLimited (code key period : Nat) (mk : Nat → State → State) (s : State) : State :=
  match tfind s.ev.limits (code, key) with
  | some l =>
    if s.ns < l.last + period then
      { s with ev := { s.ev with limits := tset s.ev.limits (code, key) { l with count := l.count + 1 } } }
    else
      mk (l.count + 1) { s with ev := { s.ev with limits := tset s.ev.limits (code, key) { last := s.ns } } }
  | none =>
    mk 1 { s with ev := { s.ev with limits := tset s.ev.limits (code, key) { last := s.ns } } }

/-- One second in ns. -/
def second : Nat := 1000000000

/-- The Calendar as one number, in 1/65,536 ns. -/
def Calendar.fine (c : Calendar) : Int := ((c.sec * second + c.ns) * 65536 + c.frac : Nat)

/-! ## Answers -/

/-- Answers a next state when the operand's object exists, else refuses. (DESIGN CHOICE, log 16.) -/
def guard (ok : Bool) (what : String) (s : State) : Answer :=
  if ok then .next s else .refused (.noSuchObject what)

/-! ## BAR0 accesses (R520, R553) -/

/-- Whether the firmware serves BAR0: from P2, outside a held reset and while a Hearth leads (R553, R440). -/
def bar0Open (s : State) : Bool := 2 ≤ s.boot.phase && !s.boot.held && !s.boot.lost

/-- Counts a BAR0 access in the filters of TYPE 1: `cls` is 0 for a read and 1 for a write (Table 22.2). -/
def countBar0 (cls off : Nat) (s : State) : State := countFilter 1 (fun f => f.lo ≤ off && off ≤ f.hi && bit f.cls cls) s

/-- Whether a write of a BAR0 offset acts: from P2, and to the mailbox region also in recovery, in which the ROM serves the mailbox
(R46, R553; DEDUCED, log 42). -/
def bar0Takes (s : State) (off : Nat) : Bool :=
  bar0Open s || (s.boot.recovery && off / 65536 = 1 && !s.boot.held && !s.boot.lost)

/-- A BAR0 write: discarded before P2 (R553), else counted and acted on. -/
def bar0Write (off : Nat) (k : State → Answer) (s : State) : Answer := if bar0Takes s off then k (countBar0 1 off s) else .next s

/-- A BAR0 read: 0 in P1 outside the identity and start-up regions (R553), else counted and acted on. (DEDUCED, log 42.) -/
def bar0Read (off : Nat) (k : State → Answer) (s : State) : Answer :=
  if bar0Open s then k (countBar0 0 off s)
  else .next (if s.boot.phase = 1 && !s.boot.held && !s.boot.lost then emit (.bar0 off 0) s else s)

end Sys2Proof.Machine
end

