-- ==== Sys2Proof/Machine/Frames.lean ====
section
/-!
DEFINITION. Check codes, the bytes of frames and packets, and the header changes of R107.
-/
namespace Sys2Proof.Machine

/-! ## Check codes -/

/-- One bit of the reflected CRC-32C (R66). -/
def crc32cBit (c : Nat) : Nat := if c % 2 = 1 then Nat.xor (c / 2) 0x82F63B78 else c / 2

/-- Eight bits of the CRC-32C. -/
def crc32cByte (c : Nat) (b : Byte) : Nat :=
  crc32cBit <| crc32cBit <| crc32cBit <| crc32cBit <| crc32cBit <| crc32cBit <| crc32cBit <| crc32cBit <|
    Nat.xor c b.toNat

/-- The CRC-32C (Castagnoli) of a byte string (R66). -/
def crc32c (bs : Bytes) : Nat := Nat.xor (bs.foldl crc32cByte 0xFFFFFFFF) 0xFFFFFFFF

/-- One bit of the CRC-8 with polynomial 0x07 (R102). -/
def crc8Bit (c : Nat) : Nat := if 128 ≤ c then Nat.xor (c * 2 % 256) 7 else c * 2

/-- The CRC-8 of a byte string (R102), which protects link words and link prefixes. -/
def crc8 (bs : Bytes) : Nat :=
  bs.foldl (fun c b => crc8Bit <| crc8Bit <| crc8Bit <| crc8Bit <| crc8Bit <| crc8Bit <| crc8Bit <| crc8Bit <|
    Nat.xor c b.toNat) 0

/-! ## Bitmaps -/

/-- A bitmap of `n` bytes with item i in bit i mod 8 of byte i div 8. -/
def bitmapBytes (n bits : Nat) : Bytes := (List.range n).map fun i => byteOf (bits / 256 ^ i)

/-- The number whose bit i is item i of a bitmap. -/
def bitmapNat (bs : Bytes) : Nat := (List.range bs.length).foldl (fun a i => a + (bs.getD i 0).toNat * 256 ^ i) 0

/-! ## Frame bytes (R106) -/

/-- Header bytes 0 to 27 (Table 4.3). -/
def headerBody (f : Frame) : Bytes :=
  beBytes 1 (f.kind % 16 * 16 + f.tc % 8 * 2 + b2n f.de) ++
  beBytes 1 (b2n f.cm * 128 + b2n f.ord * 64 + b2n f.trim * 32 + b2n f.spray * 16 + b2n f.byp * 8
    + b2n f.esc * 4 + f.res1 % 4) ++
  beBytes 2 f.latchkey ++ beBytes 3 (f.destGid % 2 ^ 20 * 16 + f.res6 % 16) ++
  beBytes 3 (f.srcGid % 2 ^ 20 * 16 + f.res9 % 16) ++ beBytes 1 (f.hops % 64 * 4 + f.res10 % 4) ++
  beBytes 1 f.entropy ++ beBytes 4 f.e2eSeq ++ beBytes 2 f.length ++ beBytes 2 f.ctx ++ beBytes 1 f.gen ++
  beBytes 1 f.fmt ++ beBytes 4 f.chunk ++ beBytes 2 f.member

/-- The HCRC that the header should carry (R106). -/
def headerCrc (f : Frame) : Nat := crc32c (headerBody f)

/-- The 32 header bytes. -/
def headerBytes (f : Frame) : Bytes := headerBody f ++ beBytes 4 f.hcrc

/-- The FCRC that the frame should carry (R103). -/
def frameCrc (f : Frame) : Nat := crc32c (headerBytes f ++ f.payload)

/-- A header change in transit: HCRC recomputed, FCRC derived from the one received by linearity (R107). -/
def rewrite (g : Frame → Frame) (f : Frame) : Frame :=
  let h := g f
  let h := { h with hcrc := headerCrc h }
  { h with fcrc := Nat.xor f.fcrc (Nat.xor (frameCrc { f with fcrc := 0 }) (frameCrc { h with fcrc := 0 })) }

/-- A frame the part makes itself: both check codes computed afresh (R107, R88). -/
def sealFrame (f : Frame) : Frame :=
  let h := { f with hcrc := headerCrc f }
  { h with fcrc := frameCrc h }

/-- Cells a frame occupies, inside the part and for credit (R105). -/
def cellsOf (f : Frame) : Nat :=
  if f.kind = 5 ∧ f.length = 32 then 1 else 1 + ceilDiv f.length 128

/-- Wire bytes of a frame: prefix, header, padded payload and FCRC (R103). -/
def wireBytes (f : Frame) : Nat := 40 + ceilDiv f.length 4 * 4

/-- Header and payload bytes, as BYTES_RX and BYTES_TX count them (Table 4.12). -/
def bodyBytes (f : Frame) : Nat := 32 + f.length

/-- The first 128 bytes of a frame, header first, zero-filled (Table 8.15). -/
def frameHead (f : Frame) : Bytes := padTo 128 (headerBytes f ++ f.payload)

/-- The VC a frame rides (R110). -/
def vcOf (f : Frame) : Nat := if f.esc then 0 else f.tc

/-- Whether a KIND is reserved (Table 4.4). -/
def kindReserved (k : Nat) : Bool := k = 1 || 11 ≤ k

/-- Whether a TC is allowed for a KIND and for ESC (R109, R110). -/
def tcAllowed (f : Frame) : Bool :=
  (if f.esc then 1 ≤ f.tc && f.tc ≤ 4 else f.tc ≠ 0) &&
  (match f.kind with
   | 0 | 6 => 1 ≤ f.tc && f.tc ≤ 4
   | 2 | 3 | 10 => f.tc = 5
   | 4 => 1 ≤ f.tc && f.tc ≤ 5
   | 5 | 7 | 9 => f.tc = 6
   | 8 => f.tc = 7
   | _ => false)

/-- Whether a trim action applies to the frame (R280). -/
def trimEligible (f : Frame) : Bool := (f.kind = 0 || f.kind = 6) && !f.esc

/-! ## Packets (R64, R67) -/

/-- The CRC of a request packet (R66). -/
def requestCrc (opcode : Nat) (q : Request) : Nat :=
  crc32c (beBytes 2 opcode ++ beBytes 2 q.tag ++ beBytes 2 q.params.length ++ beBytes 2 q.token ++
    beBytes 4 q.txn ++ q.params)

/-- The bytes of a reply segment (Table 3.3). -/
def ReplySeg.bytes (r : ReplySeg) : Bytes :=
  let h := beBytes 2 r.tag ++ beBytes 1 r.status ++ beBytes 1 r.reason ++ beBytes 2 r.info ++
    beBytes 2 r.payload.length ++ beBytes 2 r.opcode ++ beBytes 1 (b2n r.more) ++ beBytes 1 r.seg
  h ++ beBytes 4 (crc32c (h ++ r.payload)) ++ r.payload

end Sys2Proof.Machine
end

