-- ==== Sys2Proof/Machine/Codeword.lean ====
section
/-!
DEFINITION. What a lane carries (R98 to R104, R122, R130): Galois fields, Reed-Solomon codewords, the scrambler, PAM4 levels, link words,
link prefixes and training messages as bytes.
-/
namespace Sys2Proof.Machine

/-! ## Galois fields -/

/-- A field GF(2^m) by its primitive polynomial, bit i the coefficient of x^i. -/
structure Gf where
  m : Nat
  poly : Nat

/-- The field of Nydar codewords (R98). -/
def gf10 : Gf := { m := 10, poly := 0x409 }

/-- The field of Cellar lines (R297). -/
def gf8 : Gf := { m := 8, poly := 0x11D }

/-- The product with α. -/
def Gf.double (F : Gf) (a : Nat) : Nat := if 2 * a < 2 ^ F.m then 2 * a else Nat.xor (2 * a) F.poly

/-- The product of two elements. -/
def Gf.mul (F : Gf) (a b : Nat) : Nat :=
  (List.range F.m).foldr (fun i acc => if bit b i then Nat.xor (F.double acc) a else F.double acc) 0

/-- α^n. -/
def Gf.alpha (F : Gf) : Nat → Nat
  | 0 => 1
  | n + 1 => F.double (F.alpha n)

/-- The inverse of an element other than 0, a^(2^m − 2). -/
def Gf.inv (F : Gf) (a : Nat) : Nat :=
  ((List.range (F.m - 1)).foldl (fun (p : Nat × Nat) _ =>
    let q := F.mul p.2 p.2
    (F.mul p.1 q, q)) (1, a)).1

/-- The value at `x` of the polynomial whose coefficients are listed from the highest degree down. -/
def Gf.eval (F : Gf) (cs : List Nat) (x : Nat) : Nat := cs.foldl (fun acc c => Nat.xor (F.mul acc x) c) 0

/-- The value at `x` of the polynomial whose coefficients are listed from degree 0 up. -/
def Gf.evalUp (F : Gf) (cs : List Nat) (x : Nat) : Nat := F.eval cs.reverse x

/-! ## Reed-Solomon codes with generator roots α^0 to α^(r − 1) -/

/-- The generator's coefficients below its leading one, highest degree first. -/
def Gf.generator (F : Gf) (r : Nat) : List Nat :=
  ((List.range r).foldl (fun g i =>
    List.zipWith Nat.xor (g ++ [0]) (0 :: g.map (F.mul (F.alpha i)))) [1]).drop 1

/-- The check symbols of a list of data symbols, in the order sent. -/
def Gf.checks (F : Gf) (r : Nat) (data : List Nat) : List Nat :=
  let g := F.generator r
  data.foldl (fun rem d =>
    let fb := Nat.xor d (rem.headD 0)
    List.zipWith Nat.xor (rem.drop 1 ++ [0]) (g.map (F.mul fb))) (List.replicate r 0)

/-- The codeword of a list of data symbols. -/
def Gf.encode (F : Gf) (r : Nat) (data : List Nat) : List Nat := data ++ F.checks r data

/-- The syndromes of a received word. -/
def Gf.syndromes (F : Gf) (r : Nat) (c : List Nat) : List Nat := (List.range r).map fun j => F.eval c (F.alpha j)

/-- One step of the Berlekamp–Massey algorithm: the locator, the one before its last change of length, that length, the steps since, and
the discrepancy then. Coefficients are listed from degree 0 up. -/
def Gf.locatorStep (F : Gf) (syn : List Nat) (st : List Nat × List Nat × Nat × Nat × Nat) (n : Nat) : List Nat × List Nat × Nat × Nat × Nat :=
  let (c, b, len, gap, last) := st
  let d := (List.range (len + 1)).foldl (fun acc i => Nat.xor acc (F.mul (c.getD i 0) (syn.getD (n - i) 0))) 0
  if d = 0 then (c, b, len, gap + 1, last)
  else
    let k := F.mul d (F.inv last)
    let shifted := List.replicate gap 0 ++ b.map (F.mul k)
    let w := max c.length shifted.length
    let c' := (List.range w).map fun i => Nat.xor (c.getD i 0) (shifted.getD i 0)
    if 2 * len ≤ n then (c', c, n + 1 - len, 1, d) else (c', b, len, gap + 1, last)

/-- The received word with up to `r`/2 symbol errors corrected, and how many there were; none when no codeword lies that near. -/
def Gf.decode (F : Gf) (r : Nat) (c : List Nat) : Option (List Nat × Nat) :=
  let syn := F.syndromes r c
  if syn.all (· = 0) then some (c, 0)
  else
    let n := c.length
    let order := 2 ^ F.m - 1
    let (loc, _, len, _, _) := (List.range r).foldl (F.locatorStep syn) ([1], [1], 0, 1, 1)
    let roots := (List.range n).filter fun i => F.evalUp loc (F.alpha ((order - (n - 1 - i)) % order)) = 0
    if r / 2 < len || roots.length ≠ len then none
    else
      let omega := (List.range r).map fun k =>
        (List.range (k + 1)).foldl (fun acc i => Nat.xor acc (F.mul (loc.getD i 0) (syn.getD (k - i) 0))) 0
      let slope := (List.range loc.length).drop 1 |>.map fun i => if i % 2 = 1 then loc.getD i 0 else 0
      let fixed := roots.foldl (fun (w : List Nat) i =>
        let inv := F.alpha ((order - (n - 1 - i)) % order)
        let e := F.mul (F.alpha (n - 1 - i)) (F.mul (F.evalUp omega inv) (F.inv (F.evalUp slope inv)))
        w.set i (Nat.xor (w.getD i 0) e)) c
      if (F.syndromes r fixed).all (· = 0) then some (fixed, len) else none

/-! ## Symbols, pairs and PAM4 levels (R98, R130) -/

/-- The 10-bit symbols of a byte string, most significant bit of byte 0 first (R98); whole groups of five bytes. -/
def symbolsOf : Bytes → List Nat
  | a :: b :: c :: d :: e :: r =>
    let n := beNat [a, b, c, d, e]
    [n / 2 ^ 30, n / 2 ^ 20 % 1024, n / 2 ^ 10 % 1024, n % 1024] ++ symbolsOf r
  | _ => []

/-- The bytes of a list of 10-bit symbols. -/
def symbolBytes : List Nat → Bytes
  | a :: b :: c :: d :: r => beBytes 5 (a * 2 ^ 30 + b * 2 ^ 20 + c * 2 ^ 10 + d) ++ symbolBytes r
  | _ => []

/-- Two codewords with their symbols alternating, the first one's at the even positions (R98). -/
def interleave : List Nat → List Nat → List Nat
  | a :: r, b :: t => a :: b :: interleave r t
  | _, _ => []

/-- The two codewords of a pair. -/
def parted : List Nat → List Nat × List Nat
  | a :: b :: r => (a :: (parted r).1, b :: (parted r).2)
  | _ => ([], [])

/-- The Gray code of Table 5.2: the level of two bits, and the two bits of a level. It is its own inverse. -/
def gray (n : Nat) : Nat := if n = 2 then 3 else if n = 3 then 2 else n

/-- The five PAM4 levels of each 10-bit symbol, two bits to a level, the earlier one as the most significant (R130). -/
def levelsOf (symbols : List Nat) : List Nat :=
  symbols.flatMap fun x => [gray (x / 256), gray (x / 64 % 4), gray (x / 16 % 4), gray (x / 4 % 4), gray (x % 4)]

/-- The 10-bit symbols that a lane's levels spell. -/
def levelSymbols : List Nat → List Nat
  | a :: b :: c :: d :: e :: r => (gray a * 256 + gray b * 64 + gray c * 16 + gray d * 4 + gray e) :: levelSymbols r
  | _ => []

/-! ## The scrambler (R99) -/

/-- Eight steps of PRBS31, polynomial x^31 + x^28 + 1: the state after them, whose low eight bits they made. Bit 0 is the bit made last
(DESIGN CHOICE, log 61). -/
def prbs31 (st : Nat) : Nat :=
  (List.range 8).foldl (fun st _ => (2 * st + b2n (bit st 30 != bit st 27)) % 2 ^ 31) st

/-- The frame stream of one codeword scrambled, or descrambled: the scrambler starts from all ones. -/
def scramble (bs : Bytes) : Bytes :=
  (bs.foldl (fun (p : Nat × Bytes) b =>
    let st := prbs31 p.1
    (st, p.2 ++ [b ^^^ byteOf st])) (2 ^ 31 - 1, [])).2

/-! ## Link words (R102) -/

/-- The link word without its check code: bits 63 to 8. -/
def linkWordHigh (w : LinkWord) : Bytes :=
  beBytes 7 (b2n w.train * 2 ^ 54 + w.fstart % 512 * 2 ^ 45 + b2n w.nak * 2 ^ 44 + w.ackSeq % 4096 * 2 ^ 32 + w.cvcA % 8 * 2 ^ 29 +
    w.credA % 256 * 2 ^ 21 + w.cvcB % 8 * 2 ^ 18 + w.credB % 256 * 2 ^ 10 + b2n w.abrt * 2 ^ 9)

/-- The eight bytes of a link word (Table 4.1). -/
def linkWordBytes (w : LinkWord) : Bytes := linkWordHigh w ++ beBytes 1 (crc8 (linkWordHigh w))

/-- The link word that eight bytes spell; none for a wrong LWCRC or a reserved LW_KIND. -/
def linkWordOf (bs : Bytes) : Option LinkWord :=
  let n := u64 bs 0
  if crc8 (bs.take 7) ≠ u8 bs 7 || 2 ≤ n / 2 ^ 62 then none
  else some { train := decide (n / 2 ^ 62 = 1), fstart := n / 2 ^ 53 % 512, nak := bit n 52, ackSeq := n / 2 ^ 40 % 4096,
              cvcA := n / 2 ^ 37 % 8, credA := n / 2 ^ 29 % 256, cvcB := n / 2 ^ 26 % 8, credB := n / 2 ^ 18 % 256, abrt := bit n 17 }

/-! ## Codewords (R98, R99) -/

/-- Bytes of a codeword's frame stream (R99). -/
def streamBytes : Nat := 312

/-- The symbols of the codeword that carries a link word and a frame stream. -/
def codewordOf (w : LinkWord) (stream : Bytes) : List Nat := gf10.encode 16 (symbolsOf (linkWordBytes w ++ scramble (padTo streamBytes stream)))

/-- What a receiver makes of one codeword: its corrected symbols, its link word and its frame stream. None is an uncorrectable one, or one
whose link word is not good (R98, R102). -/
def readCodeword (symbols : List Nat) : Option (Nat × LinkWord × Bytes) :=
  match gf10.decode 16 symbols with
  | none => none
  | some (c, n) =>
    let bs := symbolBytes (c.take 256)
    (linkWordOf (bs.take 8)).map fun w => (n, w, scramble (bs.drop 8))

/-- The link word of an idle codeword (R131). -/
def idleWord : LinkWord := { ackSeq := 0 }

/-- The levels of a pair of codewords (R98, R130). -/
def pairLevels (a b : List Nat) : List Nat := levelsOf (interleave a b)

/-- The levels of a pair of idle codewords (R131). -/
def idlePair : List Nat := pairLevels (codewordOf idleWord []) (codewordOf idleWord [])

/-! ## Frames on the wire (R103) -/

/-- The link prefix of a frame (Table 4.2). -/
def prefixBytes (lseq : Nat) (rtx : Bool) : Bytes :=
  let h := beBytes 3 (lseq % 4096 * 2 ^ 12 + b2n rtx * 2 ^ 11 + 2 ^ 10)
  h ++ beBytes 1 (crc8 h)

/-- Whether four bytes are a good prefix: PCRC, and MARK = 1 (Table 4.6, check 2). -/
def prefixGood (bs : Bytes) : Bool := crc8 (bs.take 3) = u8 bs 3 && bit (u8 bs 1) 2

/-- A frame as it lies in the frame stream: prefix, header, payload, padding and FCRC (R103). -/
def frameWire (lseq : Nat) (rtx : Bool) (f : Frame) : Bytes :=
  prefixBytes lseq rtx ++ headerBytes f ++ padTo (ceilDiv f.length 4 * 4) (padTo f.length f.payload) ++ beBytes 4 f.fcrc

/-- The header that 32 bytes spell (Table 4.3). -/
def headerOf (b : Bytes) : Frame :=
  { kind := u8 b 0 / 16, tc := u8 b 0 / 2 % 8, de := bit (u8 b 0) 0
    cm := bit (u8 b 1) 7, ord := bit (u8 b 1) 6, trim := bit (u8 b 1) 5, spray := bit (u8 b 1) 4, byp := bit (u8 b 1) 3
    esc := bit (u8 b 1) 2, res1 := u8 b 1 % 4
    latchkey := u16 b 2, destGid := field b 4 3 / 16, res6 := u8 b 6 % 16, srcGid := field b 7 3 / 16, res9 := u8 b 9 % 16
    hops := u8 b 10 / 4, res10 := u8 b 10 % 4, entropy := u8 b 11, e2eSeq := u32 b 12, length := u16 b 16
    ctx := u16 b 18, gen := u8 b 20, fmt := u8 b 21, chunk := u32 b 22, member := u16 b 26, hcrc := u32 b 28 }

/-! ## The frame stream as a receiver finds it (R104, R111) -/

/-- What the front of a frame stream turns out to be. -/
inductive Found where
  | nothing                        -- no whole frame yet
  | lost                           -- an uncorrectable codeword (check 1)
  | aborted                        -- a frame that its sender abandoned
  | badPrefix                      -- check 2
  | badHeader                      -- check 3
  | badLength                      -- check 4
  | frame (lseq : Nat) (rtx : Bool) (f : Frame)
  deriving DecidableEq, Repr

/-- The next bytes of a frame stream from a place in a codeword on, or why they are not to be had, with what is left of the stream and
the place in its first codeword at which a frame begins, where that is known. -/
inductive Taken where
  | bytes (bs : Bytes) (rest : List RxCodeword) (pos : Nat)
  | short
  | stopped (why : Found) (rest : List RxCodeword) (pos : Option Nat)
  deriving DecidableEq, Repr

/-- FSTART as a place at which a frame begins, if one does (Table 4.1). -/
def RxCodeword.begins (c : RxCodeword) : Option Nat := if c.fstart < streamBytes then some c.fstart else none

/-- Takes `need` bytes from place `pos` of the first codeword on. -/
def takeBytes (need : Nat) (got : Bytes) (c : RxCodeword) (pos : Nat) : List RxCodeword → Taken
  | [] =>
    let here := c.stream.drop pos
    if need ≤ here.length then .bytes (got ++ here.take need) [c] (pos + need) else .short
  | d :: r =>
    let here := c.stream.drop pos
    if need ≤ here.length then .bytes (got ++ here.take need) (c :: d :: r) (pos + need)
    else if !d.good then .stopped .lost r none
    else if d.abrt then
      match d.begins with
      | some p => .stopped .aborted (d :: r) (some p)
      | none => .stopped .aborted r none
    else takeBytes (need - here.length) (got ++ here) d 0 r

/-- Drops codewords until one in which a frame begins, or one that is uncorrectable (R104, R111). -/
def seekFrame : List RxCodeword → Found × List RxCodeword × Option Nat
  | [] => (.nothing, [], none)
  | c :: r =>
    if !c.good then (.lost, r, none)
    else
      match c.begins with
      | some p => (.nothing, c :: r, some p)
      | none => seekFrame r

/-- Reads the frame that begins at place `pos` of codeword `c` (Table 4.6, checks 1 to 4). After a failure framing goes on at the FSTART of
a later codeword. -/
def readFrame (c : RxCodeword) (pos : Nat) (r : List RxCodeword) : Found × List RxCodeword × Option Nat :=
  match takeBytes 36 [] c pos r with
  | .short =>
    match takeBytes 4 [] c pos r with
    | .bytes p _ _ => if prefixGood p then (.nothing, c :: r, some pos) else (.badPrefix, r, none)
    | .short => (.nothing, c :: r, some pos)
    | .stopped why rest p => (why, rest, p)
  | .stopped why rest p => (why, rest, p)
  | .bytes h _ _ =>
    let f := headerOf (h.drop 4)
    if !prefixGood h then (.badPrefix, r, none)
    else if f.hcrc ≠ headerCrc f then (.badHeader, r, none)
    else if 4096 < f.length then (.badLength, r, none)
    else
      let body := ceilDiv f.length 4 * 4
      match takeBytes (40 + body) [] c pos r with
      | .short => (.nothing, c :: r, some pos)
      | .stopped why rest p => (why, rest, p)
      | .bytes b rest p =>
        (.frame (u16 b 0 / 16) (bit (u8 b 1) 3) { f with payload := (b.drop 36).take f.length, fcrc := u32 b (36 + body) }, rest, some p)

/-- Whether a codeword is idle from a place on: four zero bytes where a prefix would begin, or nothing but zero bytes to its end where no
good prefix runs on into the next (R104; DESIGN CHOICE, log 61). -/
def idleFrom (c : RxCodeword) (pos : Nat) (r : List RxCodeword) : Bool :=
  let here := (c.stream.drop pos).take 4
  here.all (· = 0) && (here.length = 4 || !(match takeBytes 4 [] c pos r with | .bytes p _ _ => prefixGood p | _ => false))

/-- What the front of a frame stream is, with the stream and the place after it; `fuel` bounds the codewords passed over. -/
def nextFound : Nat → List RxCodeword → Option Nat → Found × List RxCodeword × Option Nat
  | 0, cs, pos => (.nothing, cs, pos)
  | _ + 1, [], _ => (.nothing, [], none)
  | n + 1, c :: r, none =>
    match seekFrame (c :: r) with
    | (.nothing, cs, some p) => nextFound n cs (some p)
    | x => x
  | n + 1, c :: r, some pos =>
    if streamBytes ≤ pos then
      match r with
      | [] => (.nothing, [c], some pos)
      | d :: _ => if d.good && !d.abrt then nextFound n r (some 0) else nextFound n r none
    else if idleFrom c pos r then nextFound n r none
    else readFrame c pos r

/-! ## Training messages (R122) -/

/-- Bytes 0 to 59 of a training message (Table 4.11). -/
def trainBody (m : TrainMsg) : Bytes :=
  beBytes 1 m.kind ++ beBytes 1 m.version ++ beBytes 1 m.gang ++ beBytes 1 m.laneIndex ++ beBytes 2 m.port ++ beBytes 1 m.peerType ++
  beBytes 1 m.caps ++ beBytes 8 m.serial ++ (List.range 8).flatMap (fun v => beBytes 2 (m.grant.getD v 0)) ++ beBytes 8 m.probeTime ++
  beBytes 2 (b2n m.fresh * 32768 + m.expectLseq % 4096) ++ zeros 18

/-- The 64 bytes of a training message. -/
def trainBytes (m : TrainMsg) : Bytes := trainBody m ++ beBytes 4 (crc32c (trainBody m))

/-- The training message that 64 bytes spell. -/
def trainMsgOf (b : Bytes) : TrainMsg :=
  { tcrcOk := crc32c (b.take 60) = u32 b 60, kind := u8 b 0, version := u8 b 1, gang := u8 b 2, laneIndex := u8 b 3, port := u16 b 4
    peerType := u8 b 6, caps := u8 b 7, serial := u64 b 8, grant := (List.range 8).map fun v => u16 b (16 + 2 * v)
    probeTime := u64 b 32, fresh := bit (u16 b 40) 15, expectLseq := u16 b 40 % 4096 }

end Sys2Proof.Machine
end

