-- ==== Sys2Proof/Machine/Ports.lean ====
section
/-!
DEFINITION. What the other meanings read of ports, gangs, blocks and the live set-up.
-/
namespace Sys2Proof.Machine

/-! ## The live set-up and its reset values -/

/-- Words of an entry of an engine table (Table 9.1). -/
def tableWords (table : Nat) : Nat := if table = 2 then 33 else if table = 3 then 41 else 1

/-- Entries of an engine table (Table 9.1). -/
def tableSize (table : Nat) : Nat :=
  match table with
  | 1 => 1048576 | 2 => 16384 | 3 => 65536 | 4 => 8 | 5 => 262144 | 6 => 256 | _ => 0

/-- The bytes of a list of 32-bit words. -/
def wordBytes (ws : List Nat) : Bytes := ws.flatMap (beBytes 4)

/-- The words of a byte string. -/
def bytesWords (n : Nat) (bs : Bytes) : List Nat := (List.range n).map fun i => u32 bs (4 * i)

/-- Table 11.3 in the layout of BUFFER_CONFIG TYPE 0. -/
def defaultHallBuf : Bytes :=
  beBytes 4 0 ++ [1, 0x1E, 0x06, 0].map byteOf ++ [6, 6, 6, 6, 6, 7, 9, 9].map byteOf ++
  [2, 2, 2, 2, 8, 8, 8, 8].map byteOf ++ beBytes 2 32 ++ beBytes 2 64 ++ beBytes 2 192 ++ beBytes 2 160 ++
  beBytes 2 64 ++ beBytes 2 32 ++ beBytes 4 8192 ++ beBytes 2 512 ++ beBytes 2 0

/-- The value of an item at reset, in the layout of the command that writes it. (DESIGN CHOICE, log 12.) -/
def resetValue : ItemKey → Bytes
  | .entry t _ =>
    if t = 4 then beBytes 4 (250 * 65536 + 128 * 256) else if t = 6 then beBytes 4 0x40000000
    else zeros (4 * tableWords t)
  | .flowletCfg => [1, 0].map byteOf ++ beBytes 2 125 ++ beBytes 4 0
  | .gang _ => List.replicate 8 (byteOf 1)
  | .link _ => zeros 4 ++ [1, 3, 1, 1, 1, 1, 0, 0].map byteOf ++ beBytes 2 4000 ++ beBytes 2 1000
  | .hallBuf _ => defaultHallBuf
  | .grant _ => [128, 512, 512, 512, 512, 512, 96, 16].flatMap (beBytes 2)
  | .shaper _ _ => zeros 6 ++ beBytes 2 8 ++ zeros 16
  | .mark _ _ => zeros 5 ++ [byteOf 1] ++ beBytes 2 256 ++ beBytes 4 2048 ++ beBytes 4 16384
  | .regulator _ p =>
    match p with
    | 0 => beBytes 4 200000 ++ beBytes 4 262144
    | 1 => beBytes 4 100000 ++ beBytes 4 65536
    | 2 => beBytes 4 25000 ++ beBytes 4 65536
    | 3 => beBytes 4 5000 ++ beBytes 4 16384
    | _ => beBytes 4 10000 ++ beBytes 4 16384
  | .xfer _ => [0, 1, 3, 0, 1, 1, 1, 1].map byteOf
  | _ => []

/-- The live value of an item. (DESIGN CHOICE, log 12.) -/
def liveValue (s : State) (k : ItemKey) : Bytes := tget s.setup.live k (resetValue k)

/-- The live words of a table entry. -/
def entryWords (s : State) (table index : Nat) : List Nat :=
  bytesWords (tableWords table) (liveValue s (.entry table index))

/-- Word 0 of a live table entry. -/
def entryWord (s : State) (table index : Nat) : Nat := u32 (liveValue s (.entry table index)) 0

/-- Ports whose membership bit is 1 in a group entry (R201). -/
def groupPorts (ws : List Nat) : List Nat :=
  (List.range 40).flatMap fun n => (setBits 32 (ws.getD (n + 1) 0)).map (32 * n + ·)

/-! ## Gangs and ports (R127, R132 to R137) -/

/-- The widths W[0] to W[7] of a fibre pair (Table 5.12). -/
def gangWidths (s : State) (pair : Nat) : List Nat := (liveValue s (.gang pair)).map BitVec.toNat

/-- The width of the gang a port number belongs to. -/
def gangWidth (s : State) (p : Nat) : Nat :=
  if p < 1024 then max 1 ((gangWidths s (p / 8)).getD (p % 8) 1) else 1

/-- The lowest port of the gang a port number belongs to. -/
def gangBase (s : State) (p : Nat) : Nat := p - p % 8 % gangWidth s p

/-- The link of a port. -/
def linkAt (s : State) (p : Nat) : Link := tget s.links p {}
/-- The port record of a port number. -/
def portAt (s : State) (p : Nat) : PhyPort := tget s.ports p {}
/-- A fibre pair. -/
def fibreAt (s : State) (pair : Nat) : Fibre := tget s.fibres pair {}
/-- A Window. -/
def windowAt (s : State) (w : Nat) : Window := tget s.windows w {}

/-- Changes the link of a port. -/
def modLink (p : Nat) (g : Link → Link) (s : State) : State := { s with links := tset s.links p (g (linkAt s p)) }
/-- Changes the record of a port number. -/
def modPort (p : Nat) (g : PhyPort → PhyPort) (s : State) : State := { s with ports := tset s.ports p (g (portAt s p)) }
/-- Changes a fibre pair. -/
def modFibre (n : Nat) (g : Fibre → Fibre) (s : State) : State := { s with fibres := tset s.fibres n (g (fibreAt s n)) }
/-- Changes a Window. -/
def modWindow (w : Nat) (g : Window → Window) (s : State) : State :=
  { s with windows := tset s.windows w (g (windowAt s w)) }

/-- Whether a Transom port is terminated (R178). -/
def terminated (s : State) (p : Nat) : Bool := entryWord s 6 (p - 1024) / 2 ^ 30 = 1

/-- Whether a port number can carry frames: the lowest of a gang, or a terminated Transom port (R205, R268). -/
def carriesFrames (s : State) (p : Nat) : Bool :=
  p < 1280 && (if p < 1024 then gangBase s p = p else terminated s p)

/-- Logical wavelengths of a port's gang that are active, as bits i of the gang (Table 5.10, ACTIVE_MASK). -/
def activeMask (s : State) (p : Nat) : Nat :=
  if p < 1024 then
    maskOf ((List.range (gangWidth s p)).filter fun i => !bit (fibreAt s (p / 8)).dropped (gangBase s p % 8 + i))
  else b2n (!bit (fibreAt s (p / 8)).dropped (p % 8))

/-- Lanes of a port's gang that are not dropped (R133). -/
def usableLanes (s : State) (p : Nat) : Nat := (setBits 8 (activeMask s p)).length

/-- Whether a port's mask bit is 1 (R205). -/
def maskBit (s : State) (p : Nat) : Bool := bit s.darn.mask p

/-- Whether a port is in UP or UP_DEGRADED. -/
def isUp (s : State) (p : Nat) : Bool :=
  let st := (portAt s p).state
  decide (st = .up) || decide (st = .upDegraded)

/-- A live candidate (R205). -/
def candidateLive (s : State) (p : Nat) : Bool := maskBit s p && carriesFrames s p && isUp s p

/-- Whether the PHY of a port is ready (R137). -/
def phyReady (s : State) (p : Nat) : Bool :=
  let st := (portAt s p).state
  isUp s p || decide (st = .phyReady) || (decide (st = .test) && ((portAt s p).loopback = 1 || (portAt s p).loopback = 2))

/-- The frame-stream rate of a port, bits per ns (R99, R323). -/
def portRate (s : State) (p : Nat) : Nat := 195 * (linkAt s p).lanes

/-! ## Blocks (R248 to R256) -/

/-- The block of a key, if a block carries it. -/
def blockAt (s : State) (key : Nat) : Option Block := tfind s.blocks key

/-- Whether a port lies in a block's layout (Table 10.2). -/
def Block.hasPort (b : Block) (p : Nat) : Bool :=
  if p < 1024 then bit b.pairs (p / 8) else p < 1280 && bit b.transom (p - 1024)

/-- Whether a GID lies in a block's ranges. -/
def Block.hasGid (b : Block) (g : Nat) : Bool := b.ranges.any fun r => r.1 ≤ g && g < r.1 + r.2

/-- Whether a context lies in a block's range. -/
def Block.hasCtxOf (b : Block) (c : Nat) : Bool := b.hasCtx && b.ctxFirst ≤ c && c ≤ b.ctxLast

/-- The block that owns a port, or none. -/
def portOwner (s : State) (p : Nat) : Option Nat := (s.blocks.find? fun e => e.2.hasPort p).map (·.1)
/-- The block that owns a GID, or none. -/
def gidOwner (s : State) (g : Nat) : Option Nat := (s.blocks.find? fun e => e.2.hasGid g).map (·.1)
/-- The block that owns a context, or none. -/
def ctxOwner (s : State) (c : Nat) : Option Nat := (s.blocks.find? fun e => e.2.hasCtxOf c).map (·.1)

/-- The pool a LATCHKEY is charged to: its block's, or FABRIC (R256). -/
def poolKey (s : State) (key : Nat) : Nat := if (blockAt s key).isSome then key else 0

/-- The settings of a pool (Table 10.5). -/
def poolOf (s : State) (key : Nat) : Pool :=
  match blockAt s key with
  | some b => b.pool
  | none => s.fabricPool

/-- All pools: FABRIC and each block's. -/
def allPools (s : State) : List (Nat × Pool) := (0, s.fabricPool) :: s.blocks.map fun e => (e.1, e.2.pool)

/-- Changes a block. -/
def modBlock (key : Nat) (g : Block → Block) (s : State) : State :=
  match blockAt s key with
  | some b => { s with blocks := tset s.blocks key (g b) }
  | none => s

end Sys2Proof.Machine
end

