-- ==== Sys2Proof/Machine/Lanes.lean ====
section
/-!
DEFINITION. What a port puts on its lanes and takes from them: codewords with their link words, the frame stream packed into them (R99 to
R104, R113, R117), training messages (R122), and the pairs of all lanes joined again (R100).
-/
namespace Sys2Proof.Machine

/-! ## Lanes (R100, R133) -/

/-- The place of lane `i` of a gang among its active lanes, in ascending order: its LANE_INDEX (R133). -/
def laneIndex (s : State) (p i : Nat) : Nat := ((setBits 8 (activeMask s p)).filter (· < i)).length

/-- Lanes over which a port's codewords go. -/
def Link.width (l : Link) : Nat := max 1 l.lanes

/-! ## Codewords sent (R99, R102) -/

/-- The most cells of a raise that one credit report tells, so that no count runs past 256 unseen (R117, R118; DESIGN CHOICE, log 61). -/
def raiseStep : Nat := 64

/-- Takes what a credit report of a VC now tells of a raised grant into the count of cells freed (R117, R118). -/
def Link.tell (v : Nat) (l : Link) : Link :=
  let n := min raiseStep (l.owed.getD v 0)
  { l with owed := lmod l.owed v (· - n), freed := lmod l.freed v (fun f => (f + n) % 256), granted := lmod l.granted v (· + n) }

/-- The link word of the codeword being filled, with the reports of VCs 2k and 2k + 1 (R102, R113, R117). -/
def Link.word (l : Link) (k : Nat) : LinkWord :=
  { fstart := l.tx.fstart, nak := l.nak, ackSeq := (l.expect + 4095) % 4096, cvcA := 2 * k, credA := l.freed.getD (2 * k) 0,
    cvcB := 2 * k + 1, credB := l.freed.getD (2 * k + 1) 0, abrt := l.tx.abrt }

/-- The codeword being filled is full: it gets its link word, and with the second of a pair the pair goes to its lane (R98, R100). The
reports of VCs take turns, so each is told within 4 link words (R117). -/
def formCodeword (p : Nat) (s : State) : State :=
  let k := (linkAt s p).tx.count % 4
  let s := modLink p (fun l => (l.tell (2 * k)).tell (2 * k + 1)) s
  let l := linkAt s p
  let c := codewordOf (l.word k) l.tx.fill
  let tx : TxStream := { current := l.tx.current, count := l.tx.count + 1 }
  match l.tx.first with
  | none => modLink p (fun l => { l with tx := { tx with first := some c } }) s
  | some a =>
    let q := l.tx.count / 2
    emit (.pair p (q % l.width) (q / l.width) (pairLevels a c)) (modLink p (fun l => { l with tx }) s)

/-- Lays bytes into the frame stream of a port; `fuel` bounds the codewords that they fill. -/
def layOver (p : Nat) : Nat → Bytes → State → State
  | 0, _, s => s
  | n + 1, bs, s =>
    let room := streamBytes - (linkAt s p).tx.fill.length
    let s := modLink p (fun l => { l with tx := { l.tx with fill := l.tx.fill ++ bs.take room } }) s
    if bs.length < room then s else layOver p n (bs.drop room) (formCodeword p s)

/-- Lays bytes into the frame stream of a port (R99, R104). -/
def layBytes (p : Nat) (bs : Bytes) (s : State) : State := layOver p (bs.length / streamBytes + 2) bs s

/-- Lays a frame's bytes into the frame stream; the first frame that begins in a codeword gives it its FSTART (Table 4.1). -/
def layFrame (p : Nat) (bs : Bytes) (s : State) : State :=
  layBytes p bs (modLink p (fun l => { l with tx := { l.tx with
    fstart := if l.tx.fstart = 0x1FF then l.tx.fill.length else l.tx.fstart } }) s)

/-- The frame in progress has ended: its bytes lie in the stream. -/
def endFrame (p : Nat) (s : State) : State :=
  match (linkAt s p).tx.current with
  | none => s
  | some (bs, _) => layFrame p bs (modLink p (fun l => { l with tx := { l.tx with current := none } }) s)

/-- ns that a number of bytes takes on a port. -/
def bytesTime (s : State) (p n : Nat) : Nat := ceilDiv (8 * n) (max 1 (portRate s p))

/-- No frame is ready: the rest of the codeword is filled with zero bytes, until whose end the port is busy (R104). -/
def idleFill (p : Nat) (s : State) : State :=
  let room := streamBytes - (linkAt s p).tx.fill.length
  let t := s.ns + bytesTime s p room
  modLink p (fun l => { l with busyUntil := t, busyVc := 0 }) (layBytes p (zeros room) s)

/-- A frame that has started is abandoned after `bs`: the rest of its codeword is filled up, and the next codeword carries ABRT (R102,
R285). -/
def abandonFrame (p : Nat) (bs : Bytes) (s : State) : State :=
  let s := layFrame p bs s
  let s := if (linkAt s p).tx.fill = [] then s else idleFill p s
  emit (.abort p) (modLink p (fun l => { l with tx := { l.tx with abrt := true } }) s)

/-- A replay is about to start: the stream goes on to the next boundary at which the encoder accepts a new pair on every lane, and a frame
that reaches past it is cut there (R115). -/
def cutFrame (p : Nat) (s : State) : State :=
  let l := linkAt s p
  let place := l.tx.count * streamBytes + l.tx.fill.length
  let frame := l.tx.current.getD ([], s.ns)
  let sent := min frame.1.length ((s.ns - frame.2) * portRate s p / 8)
  let unit := 2 * streamBytes * l.width
  let stop := ceilDiv (place + sent) unit * unit
  let cut := stop < place + frame.1.length
  let base := if l.tx.current.isSome then s.ns else max s.ns l.busyUntil
  let t := base + bytesTime s p (stop - place - sent)
  let s := modLink p (fun l => { l with tx := { l.tx with current := none } }) s
  let s := if frame.1 = [] then s else layFrame p (frame.1.take (stop - place)) s
  let s := layBytes p (zeros (stop - place - frame.1.length)) s
  let s := modLink p (fun l => { l with busyUntil := t, busyVc := 0, tx := { l.tx with abrt := cut } }) s
  if cut then emit (.abort p) s else s

/-! ## Training messages sent (R122) -/

/-- A training message of a lane (Table 4.11). -/
def trainMsgFor (s : State) (p kind lane probe : Nat) : TrainMsg :=
  let l := linkAt s p
  { kind, gang := gangWidth s p, laneIndex := lane, port := p, peerType := 1, caps := 3, serial := Config.deviceSerial,
    grant := l.announced, probeTime := probe, fresh := l.fresh, expectLseq := if l.fresh then 0 else l.expect }

/-- The levels of the pair that carries a training message, in both of its codewords (R122). -/
def trainPair (m : TrainMsg) : List Nat :=
  let c := codewordOf { train := true, ackSeq := 0 } (trainBytes m)
  pairLevels c c

/-- Sends a training message on every active lane. -/
def sendTrain (p kind probe : Nat) (s : State) : State :=
  (List.range (usableLanes s p)).foldl (fun s i =>
    let m := trainMsgFor s p kind i probe
    emit (.trainMsg p i m (trainPair m)) s) s

/-! ## Codewords received (R98 to R100, R122) -/

/-- A codeword as the frame stream has it. -/
def rxCodeword (c : Option (Nat × LinkWord × Bytes)) : RxCodeword :=
  match c with
  | none => { good := false }
  | some (_, w, b) => { good := true, fstart := w.fstart, abrt := w.abrt, stream := b }

/-- The pairs that lead on all lanes are joined in codeword order once every lane has one (R100). -/
def RxStream.join (n : Nat) (r : RxStream) : RxStream :=
  let heads := (List.range n).map fun i => (tget r.lanes i []).head?
  if heads.any Option.isNone then r
  else { r with codewords := r.codewords ++ heads.reduceOption.flatMap fun x => [x.1, x.2]
                lanes := (List.range n).map fun i => (i, (tget r.lanes i []).drop 1) }

/-- A pair of an ACTIVE link: its link words, and its codewords for the frame stream. A codeword whose link word is TRAIN is no part of the
stream. -/
def takePair (idx n : Nat) (a b : Option (Nat × LinkWord × Bytes)) (r : RxStream) : RxStream :=
  let words := [a, b].reduceOption.map fun c => c.2.1
  let r := { r with words := r.words ++ words }
  if words.any (·.train) then r
  else RxStream.join n { r with lanes := tset r.lanes idx (tget r.lanes idx [] ++ [(rxCodeword a, rxCodeword b)]) }

/-- A pair of a link in training: the message of each TRAIN codeword, the second one only where it differs. -/
def takeTraining (lane : Nat) (a b : Option (Nat × LinkWord × Bytes)) (r : RxStream) : RxStream :=
  let msgs := ([a, b].reduceOption.filter fun c => c.2.1.train).map fun c => trainMsgOf (c.2.2.take 64)
  { r with train := r.train ++ msgs.eraseDups.map fun m => (lane, m) }

end Sys2Proof.Machine
end

