-- ==== Sys2Proof/Machine/Landing.lean ====
section
/-!
DEFINITION. The quantities of a Hall's Landing (R263 to R269), what holds a frame's cells, and the regulators of
Cellar (R295) that spill uses.
-/
namespace Sys2Proof.Machine

/-- The switch core of a Hall. -/
def hallAt (s : State) (h : Nat) : Hall := tget s.buf.halls h {}

/-- Changes the switch core of a Hall. -/
def modHall (h : Nat) (g : Hall → Hall) (s : State) : State :=
  { s with buf := { s.buf with halls := tset s.buf.halls h (g (hallAt s h)) } }

/-- An egress queue. -/
def queueAt (s : State) (p vc : Nat) : Queue := tget s.buf.queues (p, vc) {}

/-- Replaces an egress queue. -/
def setQueue (p vc : Nat) (q : Queue) (s : State) : State :=
  { s with buf := { s.buf with queues := tset s.buf.queues (p, vc) q } }

/-- Cells a frame holds in Landing. -/
def Held.cells (x : Held) : Nat := cellsOf x.frame

/-- Cells of a list of frames. -/
def sumCells (l : List Held) : Nat := (l.map Held.cells).sum

/-- Q(q): Landing cells of the frames of a queue (R268). -/
def queueCells (s : State) (p vc : Nat) : Nat := sumCells (queueAt s p vc).frames

/-- Cells of a queue in spill. -/
def queueSpill (s : State) (p vc : Nat) : Nat := sumCells (queueAt s p vc).spilled

/-- A field of a Hall's buffer settings, at its place in BUFFER_CONFIG TYPE 0 (Table 11.9). -/
def hallSetting (s : State) (h off k : Nat) : Nat := field (liveValue s (.hallBuf h)) off k

/-- HEADROOM (Table 11.3). -/
def headroomSize (s : State) (h : Nat) : Nat := hallSetting s h 36 4
/-- XRES (Table 11.3). -/
def xres (s : State) (h : Nat) : Nat := hallSetting s h 40 2

/-- The ports that a Hall serves. -/
def hallPorts (h : Nat) : List Nat := (List.range 1280).filter fun p => hallOf p = h

/-- Cells in the ingress reserves of a Hall (R265): a port whose link is DOWN holds none. -/
def ingressReserve (s : State) (h : Nat) : Nat :=
  ((s.links.filter fun e => hallOf e.1 = h ∧ e.2.state ≠ .down).map fun e => e.2.reserve.sum).sum

/-- Cells of the cross-Hall and Mangle reserves of a Hall (R267). -/
def otherReserve (s : State) (h : Nat) : Nat := 24 * xres s h + 2048

/-- RES(p) (R269). -/
def Pool.res (p : Pool) : Nat := p.landingReserve * 1024
/-- CAP(p) (R269). -/
def Pool.cap (p : Pool) : Nat := p.landingCap * 1024

/-- SH: the shared space of a Hall (R269). -/
def sharedSpace (s : State) (h : Nat) : Nat :=
  (hallAt s h).active - ingressReserve s h - otherReserve s h - headroomSize s h
    - ((allPools s).map fun e => e.2.res).sum

/-- U(p): Landing cells charged to a pool in a Hall (R269). -/
def poolUse (s : State) (h key : Nat) : Nat := tget (hallAt s h).used key 0

/-- S_used (R269). -/
def sharedUsed (s : State) (h : Nat) : Nat :=
  ((allPools s).map fun e => poolUse s h e.1 - e.2.res).sum

/-- free(p) (R269). -/
def freeCells (s : State) (h key : Nat) : Nat :=
  let p := poolOf s key
  let u := poolUse s h key
  (p.res - u) + min (sharedSpace s h - sharedUsed s h) (p.cap - max u p.res)

/-- Whether Q + c is at most α[v] × free(p), with α[v] = 2^(K[v] − 6) (R270, R274). -/
def underThreshold (s : State) (h key vc q c : Nat) : Bool :=
  (q + c) * 64 ≤ 2 ^ (hallAt s h).k.getD vc 0 * freeCells s h key

/-- Whether a Hall is spilling after S_used changed: SPILL_MARK and SPILL_RESUME (R275). -/
def updateSpilling (h : Nat) (s : State) : State :=
  let sh := sharedSpace s h
  let u := sharedUsed s h
  if (hallAt s h).spilling then
    if u * 256 < hallSetting s h 30 2 * sh then modHall h (fun x => { x with spilling := false }) s else s
  else if hallSetting s h 28 2 * sh ≤ u * 256 then
    raiseLimited 0x0881 h second (fun _ s =>
        raise 0x0881 (hallDie h) 2 h u (((hallAt s h).spillUsed.map (·.2)).sum) s)
      (modHall h (fun x => { x with spilling := true }) s)
  else s

/-- Every Hall judges afresh whether it is spilling: SH, a reserve or a mark has changed (R275). -/
def judgeSpilling (s : State) : State := (List.range 4).foldl (fun s h => updateSpilling h s) s

/-! ## Cells charged and freed -/

/-- Charges cells to a pool. -/
def chargePool (h key c : Nat) (s : State) : State :=
  updateSpilling h (modHall h (fun x => { x with used := tset x.used key (tget x.used key 0 + c) }) s)

/-- Whether the part, or the Hall of a port on its own, is FAILED (R439, R440). -/
def failedAt (s : State) (p : Nat) : Bool := s.darn.state = 3 || s.darn.hallFailed.contains (hallOf p)

/-- Frees `c` cells of what holds them in a Hall. Cells that leave an ingress reserve are reported freed (R266, R117), but on VC0 to VC5
of a part that is FAILED (R439). -/
def freeStore (st : Store) (h c : Nat) (s : State) : State :=
  match st with
  | .ingress p v =>
    if failedAt s p && v < 6 then s else
    modLink p (fun l => { l with freed := lmod l.freed v (fun n => (n + c) % 256)
                                 granted := lmod l.granted v (· + c) }) s
  | .cross src v => modHall h (fun x => { x with crossUse := tset x.crossUse (src, v) (tget x.crossUse (src, v) 0 - c) }) s
  | .mangle => modHall h (fun x => { x with mangleUse := x.mangleUse - c }) s
  | .pool k => updateSpilling h (modHall h (fun x => { x with used := tset x.used k (tget x.used k 0 - c) }) s)
  | .headroom => modHall h (fun x => { x with headroomUse := x.headroomUse - c }) s
  | .spill k => modHall h (fun x => { x with spillUsed := tset x.spillUsed k (tget x.spillUsed k 0 - c) }) s
  | .shared _ => s
  | .nothing => s

/-- Frees all the cells of a frame. A stored multicast frame frees its cells with its last copy (R282). -/
def freeFrame (x : Held) (h : Nat) (s : State) : State :=
  match x.store with
  | .shared id =>
    match tfind s.buf.shared id with
    | none => s
    | some m =>
      if m.copies ≤ 1 then freeStore m.store m.hall m.cells { s with buf := { s.buf with shared := tdel s.buf.shared id } }
      else { s with buf := { s.buf with shared := tset s.buf.shared id { m with copies := m.copies - 1 } } }
  | st => freeStore st h x.cells s

/-! ## Partitions (R292, R293) and what reads and writes them (R520) -/

/-- SIZE of a partition in units of 256 MiB, by PARTITION code (Table 12.3). -/
def partSize (s : State) (part : Nat) : Nat :=
  match part with
  | 0 => 256 - 4 - s.cellar.shadowUnits - s.cellar.telemetryUnits - s.cellar.hamperUnits
  | 1 => s.cellar.hamperUnits
  | 2 => s.cellar.shadowUnits
  | 3 => s.cellar.telemetryUnits
  | _ => 4

/-- BASE of a partition: the partitions lie in the order FIRMWARE, SHADOW, TELEMETRY, HAMPER, SPILL. -/
def partBase (s : State) (part : Nat) : Nat :=
  match part with
  | 0 => 256 - partSize s 0
  | 1 => 4 + s.cellar.shadowUnits + s.cellar.telemetryUnits
  | 2 => 4
  | 3 => 4 + s.cellar.shadowUnits
  | _ => 0

/-- How many of `n` accessed lines of a partition a filter counts. The manual does not say which lines of its partition an entry
occupies, so a range that cuts the partition counts an open number of them (DESIGN CHOICE, log 38). -/
def linesInRange (s : State) (part lo hi n : Nat) : Nat × State :=
  let first := partBase s part * 2 ^ 22
  let past := first + partSize s part * 2 ^ 22
  if lo ≤ first && past ≤ hi + 1 then (n, s)
  else if hi < first || past ≤ lo then (0, s)
  else draw (n + 1) s

/-- Counts lines read (`idx` 0) or written (`idx` 1) in a partition of a Hall, in Table 12.8 and in the filters of TYPE 2 (R520). (DESIGN CHOICE, log 38.) -/
def countLines (h part idx n : Nat) (s : State) : State :=
  s.filters.foldl (fun s e =>
    let f := e.2
    if f.enable && f.type = 2 && bit f.mask h && bit f.cls part && bit f.cls (5 + idx) then
      let r := linesInRange s part f.lo f.hi n
      count 18 e.1 0 r.1 r.2
    else s) (count 0xB (5 * h + part) idx n s)

/-! ## Regulators (R295) -/

/-- RATE and BURST of a partition's regulator (Table 12.4). -/
def regulatorRate (s : State) (h part : Nat) : Nat × Nat :=
  let v := liveValue s (.regulator h part)
  (u32 v 0, u32 v 4)

/-- Whether a Cellar of a Hall is at THROTTLE, so that its SPILL and TELEMETRY buckets fill at half their RATE (R460). -/
def cellarHot (s : State) (h : Nat) : Bool := (List.range 4).any fun l => 2 ≤ (tget s.zones (6 + 4 * h + l) {}).level

/-- What is missing from a bucket now, in 1/1,000 token. -/
def bucketMissing (s : State) (h part : Nat) : Nat :=
  let b := tget s.cellar.buckets (h, part) {}
  let gain := (s.ns - b.last) * (regulatorRate s h part).1
  b.missing - (if cellarHot s h && (part = 0 || part = 3) then gain / 2 else gain)

/-- Takes `n` tokens at once, if the bucket holds them. -/
def takeTokens (h part n : Nat) (s : State) : Option State :=
  let m := bucketMissing s h part
  if m + 1000 * n ≤ 1000 * (regulatorRate s h part).2 then
    some { s with cellar := { s.cellar with buckets := tset s.cellar.buckets (h, part) { missing := m + 1000 * n, last := s.ns } } }
  else none

/-- Whole tokens in a bucket. -/
def tokensIn (s : State) (h part : Nat) : Nat := (regulatorRate s h part).2 - ceilDiv (bucketMissing s h part) 1000

/-- A request of a partition takes `n` tokens, waiting for those that the bucket lacks: the wait is counted in REG_WAIT
(R295). -/
def useTokens (h part n : Nat) (s : State) : State :=
  match takeTokens h part n s with
  | some s => s
  | none =>
    let b := 1000 * (regulatorRate s h part).2
    count 0xB (5 * h + part) 2 1
      { s with cellar := { s.cellar with buckets := tset s.cellar.buckets (h, part) { missing := b, last := s.ns } } }

/-- Cells that the SPILL partition of a Hall holds: what the other partitions leave of 256 units of 256 MiB (R293). -/
def spillCapacity (s : State) : Nat := partSize s 0 * 2097152

end Sys2Proof.Machine
end

