-- ==== Sys2Proof/Machine/Pace.lean ====
section
/-!
DEFINITION. Shapers (R317 to R319), time gates (R322 to R325), deficit rounds (R119, R321) and head timers (R216).
-/
namespace Sys2Proof.Machine

/-- Tokens credited over `dt` ns at a rate in Mb/s, in 1/65,536 byte (R313). -/
def credited (dt rate : Nat) : Nat := dt * rate * 1024 / 125

/-- A credit of `num`/`den` units and what an earlier one left over: whole units, and what is left over now. Nothing is lost to the
resolution (R313). -/
def carry (num den rest : Nat) : Nat × Nat := ((num + rest) / den, (num + rest) % den)

/-- Tokens credited over `dt` ns at a rate in Mb/s with what an earlier credit left over (R313). -/
def creditOf (dt rate rest : Nat) : Nat × Nat := carry (dt * rate * 1024) 125 rest

/-! ## Shapers -/

/-- The setting of a shaper, in the layout of SHAPER_SET. -/
def shaperSetting (s : State) (p vc : Nat) : Bytes := liveValue s (.shaper p vc)

/-- OVERHEAD (R318). -/
def overheadOf (v : Bytes) : Int := signedOf 16 (u16 v 6)

/-- The length a shaper counts, in 1/65,536 byte or frame (R318). -/
def shaperLength (v : Bytes) (f : Frame) : Nat :=
  if bit (u8 v 5) 1 then 65536 else ((32 + f.length : Nat) + overheadOf v).toNat * 65536

/-- Tokens a shaper gains over `dt` ns at a rate in its units, with what an earlier credit left over (R319). -/
def shaperGain (v : Bytes) (dt rate rest : Nat) : Nat × Nat :=
  if bit (u8 v 5) 1 then carry (dt * rate * 65536) 1000000 rest else creditOf dt rate rest

/-- The buckets of a shaper as they stand now. -/
def shaperNow (s : State) (p vc : Nat) : ShaperTokens :=
  let v := shaperSetting s p vc
  let t := tget s.sched.shapers (p, vc) {}
  let dt := s.ns - t.last
  let gc := shaperGain v dt (u32 v 8) t.restC
  let gp := shaperGain v dt (u32 v 16) t.restP
  { c := min ((u32 v 12 * 65536 : Nat) : Int) (t.c + (gc.1 : Nat))
    p := min ((u32 v 20 * 65536 : Nat) : Int) (t.p + (gp.1 : Nat))
    restC := gc.2, restP := gp.2, last := s.ns }

/-- Whether the shaper of a queue allows its head (R317, R319). -/
def shaperAllows (s : State) (p vc : Nat) : Bool :=
  !bit (u8 (shaperSetting s p vc) 5) 0 || (0 ≤ (shaperNow s p vc).c && 0 ≤ (shaperNow s p vc).p)

/-- A frame starts: its length is taken from both buckets (R319). -/
def spendShaper (p vc : Nat) (f : Frame) (s : State) : State :=
  let v := shaperSetting s p vc
  if !(1 ≤ vc && vc ≤ 5 && bit (u8 v 5) 0) then s
  else
    let t := shaperNow s p vc
    let n : Int := (shaperLength v f : Nat)
    { s with sched := { s.sched with shapers := tset s.sched.shapers (p, vc) { t with c := t.c - n, p := t.p - n } } }

/-! ## Time gates -/

/-- A gate control list: BASE and its entries, DURATION and MASK (R322). -/
structure GateList where
  base : Nat
  entries : List (Nat × Nat)
  deriving DecidableEq, Repr

/-- CYCLE (R322). -/
def GateList.cycle (g : GateList) : Nat := (g.entries.map (·.1)).sum

/-- A list in the layout of GATE_LIST_WRITE. -/
def gateListOf (v : Bytes) : Option GateList :=
  if u16 v 2 = 0 then none
  else some { base := u64 v 4, entries := (List.range (u16 v 2)).map fun i => (u32 v (12 + 4 * i) / 256, u32 v (12 + 4 * i) % 256) }

/-- The live list of a port. -/
def gateList (s : State) (p : Nat) : Option GateList := gateListOf (liveValue s (.gates p))

/-- The index of the entry at a position, and how far the position lies inside it. -/
def entryAt : List (Nat × Nat) → Nat → Nat → Nat × Nat
  | [], i, pos => (i, pos)
  | e :: r, i, pos => if pos < e.1 then (i, pos) else entryAt r (i + 1) (pos - e.1)

/-- The total duration of the entries at the front of a list whose bit `vc` is 1. -/
def openRun (vc : Nat) : List (Nat × Nat) → Nat
  | [] => 0
  | e :: r => if bit e.2 vc then e.1 + openRun vc r else 0

/-- The entries of a list from entry `i` on, around to the entry before it. -/
def rotateTo (l : List (Nat × Nat)) (i : Nat) : List (Nat × Nat) := l.drop i ++ l.take i

/-- The longest open window of a VC that is closed in some entry (R325, R327). -/
def longestWindow (g : GateList) (vc : Nat) : Nat :=
  ((List.range g.entries.length).map fun i => openRun vc (rotateTo g.entries i)).foldl max 0

/-- Whether a VC's bit is 1 in every entry. -/
def alwaysOpen (g : GateList) (vc : Nat) : Bool := g.entries.all fun e => bit e.2 vc

/-- E − S: ticks from the Mantel count `now` to the end of the VC's open window; 0 when it is closed (R323). Only asked
of a VC that some entry closes. -/
def windowLeft (g : GateList) (vc now : Nat) : Nat :=
  let e := entryAt g.entries 0 ((now - g.base) % g.cycle)
  openRun vc (rotateTo g.entries e.1) - e.2

/-- Ticks since the VC's open window began, at the Mantel count `now`. -/
def windowPast (g : GateList) (vc now : Nat) : Nat :=
  let e := entryAt g.entries 0 ((now - g.base) % g.cycle)
  openRun vc (rotateTo g.entries e.1).tail.reverse + e.2

/-- t_tx of a frame at a rate in bits per ns (R323). -/
def txTime (length : Nat) (overhead : Int) (rate : Nat) : Nat :=
  ceilDiv (8 * ((32 + length : Nat) + overhead).toNat) rate

/-- t_tx of the head of a queue at the port's present rate. -/
def frameTime (s : State) (p vc : Nat) (f : Frame) : Nat :=
  txTime f.length (overheadOf (shaperSetting s p vc)) (portRate s p)

/-- A gate's answer for a head frame. -/
inductive GateAnswer where
  | allow
  | oversize      -- it starts at the start of a window although it can never fit (R325)
  | wait
  deriving DecidableEq, Repr

/-- Whether the gate of a queue allows its head frame at the present Mantel count (R322 to R325). A frame that can
never fit starts within the 26 ns of R324 after a window opens (DESIGN CHOICE, log 22). -/
def gateAnswer (s : State) (p vc : Nat) (f : Frame) : GateAnswer :=
  match gateList s p with
  | none => .allow
  | some g =>
    if mantel s < g.base || alwaysOpen g vc then .allow
    else
      let left := windowLeft g vc (mantel s)
      if left = 0 then .wait
      else if frameTime s p vc f ≤ left then .allow
      else if longestWindow g vc < frameTime s p vc f && windowPast g vc (mantel s) ≤ 26 then .oversize
      else .wait

/-- Whether neither shaper nor gate holds the head frame of a queue of VC1 to VC5 (R320). -/
def paceAllows (s : State) (p vc : Nat) (f : Frame) : Bool :=
  !(1 ≤ vc && vc ≤ 5) || (shaperAllows s p vc && gateAnswer s p vc f ≠ .wait)

/-! ## Deficit rounds -/

/-- Turns of a deficit round, with fuel: a member whose head is covered sends, else the turn passes on. -/
def Ring.turns (weights : List Nat) (heads : List (Option Nat)) : Nat → Ring → Option Nat × Ring
  | 0, r => (none, r)
  | n + 1, r =>
    let next : Ring := { r with turn := (r.turn + 1) % heads.length, given := false }
    match heads.getD r.turn none with
    | none => Ring.turns weights heads n next
    | some b =>
      let d := r.defs.getD r.turn 0 + (if r.given then 0 else weights.getD r.turn 0 * 8192)
      if b ≤ d then (some r.turn, { r with given := true, defs := r.defs.set r.turn (d - b) })
      else Ring.turns weights heads n { next with defs := r.defs.set r.turn d }

/-- A deficit round over heads of the given sizes: the member that sends, and the round after it. A member with nothing
eligible has its deficit set to 0 (R119). -/
def Ring.next (r : Ring) (weights : List Nat) (heads : List (Option Nat)) : Option Nat × Ring :=
  let r := { r with defs := List.zipWith (fun d h => if Option.isNone h then 0 else d) r.defs heads }
  if heads.all Option.isNone then (none, r) else r.turns weights heads (2 * heads.length + 1)

/-- The round of R119 and R321 over the heads of VC5 and of VC1 to VC4: the VC that sends. -/
def Round.next (r : Round) (wColl wData : Nat) (wVc : List Nat) (coll : Option Nat) (vcs : List (Option Nat)) :
    Option Nat × Round :=
  let i := r.inner.next wVc vcs
  let dataHead : Option Nat := i.1.bind fun v => vcs.getD v none
  let o := r.outer.next [wColl, wData] [coll, dataHead]
  let cleared := List.zipWith (fun d h => if Option.isNone h then 0 else d) r.inner.defs vcs
  match o.1 with
  | some 0 => (some 5, { outer := o.2, inner := { r.inner with defs := cleared } })
  | some _ => (i.1.map (· + 1), { outer := o.2, inner := i.2 })
  | none => (none, { outer := o.2, inner := i.2 })

/-! ## Head timers (R216) -/

/-- Whether the frame at the head of a queue of VC1 to VC4 is held back only for lack of link credit. -/
def creditHeld (s : State) (x : Held) : Bool :=
  x.via = .route && 1 ≤ x.vc && x.vc ≤ 4 && (linkAt s x.port).credit.getD x.vc 0 < x.cells &&
  paceAllows s x.port x.vc x.frame

/-- Brings the timer of a head frame up to now. -/
def timeHead (s : State) (x : Held) : Held :=
  let w := match x.waitSince with | some t => x.waited + (s.ns - t) | none => x.waited
  { x with waited := w, waitSince := if creditHeld s x then some s.ns else none }

/-- Brings the head timers of a port up to now. Called wherever a head or its credit changes, and at every check. -/
def touchHeads (p : Nat) (s : State) : State :=
  [1, 2, 3, 4].foldl (fun s v =>
    match (queueAt s p v).frames with
    | [] => s
    | x :: r => setQueue p v { queueAt s p v with frames := timeHead s x :: r } s) s

end Sys2Proof.Machine
end

