-- ==== Sys2Proof/Machine/Forwarding.lean ====
section
/-!
DEFINITION. Where a frame goes (R196 to R226): the lookup order from step 5, the choice of a candidate, the Stair,
and the Chute.
-/
namespace Sys2Proof.Machine

/-! ## The Chute (R221) -/

/-- The Chute of a Hall. -/
def chuteAt (s : State) (h : Nat) : Chute := tget s.fwd.chutes h {}

/-- Replaces the Chute of a Hall. -/
def setChute (h : Nat) (c : Chute) (s : State) : State := { s with fwd := { s.fwd with chutes := tset s.fwd.chutes h c } }

/-- Drops the oldest record that firmware has read. -/
def dropOldestRead : List ChuteRec → List ChuteRec
  | [] => []
  | r :: l => if r.read then l else r :: dropOldestRead l

/-- A frame goes to the Chute of a Hall with a cause (R221): it is counted, and recorded unless 4,096 unread records
fill the ring. -/
def toChute (h cause index pipe : Nat) (x : Held) (s : State) : State :=
  let s := countHall h (14 + cause) 1 s
  let c := chuteAt s h
  if c.records.length = 4096 ∧ c.records.all (fun r => !r.read) then
    raiseLimited 0x0352 h second (fun n s => raise 0x0352 (hallDie h) 3 h n 0 s) (countHall h 19 1 s)
  else
    let kept := if c.records.length < 4096 then c.records else dropOldestRead c.records
    let r : ChuteRec := { seq := c.nextSeq, time := mantel s, cause, port := x.inPort, index, pipe, head := frameHead x.frame }
    setChute h { records := kept ++ [r], nextSeq := c.nextSeq + 1 } s

/-! ## Path sets (R200, R205, R206) -/

/-- The candidates of a path-set entry: port and WEIGHT, in index order (R200). -/
def candidates (ws : List Nat) : List (Nat × Nat) :=
  (List.range (min 64 (ws.getD 0 0 % 128))).map fun i =>
    let c := if i % 2 = 0 then ws.getD (i / 2 + 1) 0 / 65536 else ws.getD (i / 2 + 1) 0 % 65536
    (c / 32 % 2048, c % 32)

/-- The effective weight of a candidate (R206). -/
def effectiveWeight (s : State) (c : Nat × Nat) : Nat :=
  max 1 (c.2 * (linkAt s c.1).lanes / gangWidth s c.1)

/-- The eligible set E of a path set: live candidates with their effective weights (R206). -/
def eligibleSet (s : State) (set : Nat) : List (Nat × Nat) :=
  ((candidates (entryWords s 2 set)).filter fun c => candidateLive s c.1).map fun c => (c.1, effectiveWeight s c)

/-! ## Choosing a candidate (R209 to R213) -/

/-- The ten key bytes of the flow hash (R203). -/
def flowKey (f : Frame) : Bytes :=
  beBytes 2 f.latchkey ++ beBytes 3 (f.srcGid % 2 ^ 20 * 16 + f.res9 % 16) ++
  beBytes 3 (f.destGid % 2 ^ 20 * 16 + f.res6 % 16) ++ beBytes 1 f.entropy ++ beBytes 1 (f.tc % 8 * 32)

/-- HASH_SEED, IDLE and the tick in ns (R203, Table 8.13). -/
def hashSeed (s : State) : Nat := u32 (liveValue s .flowletCfg) 4
/-- See `hashSeed`. -/
def flowIdle (s : State) : Nat := u16 (liveValue s .flowletCfg) 2
/-- See `hashSeed`. -/
def flowTick (s : State) : Nat := 16 * 4 ^ u8 (liveValue s .flowletCfg) 0

/-- The Mantel count in flowlet ticks (R204). -/
def flowNow (s : State) : Nat := mantel s / flowTick s

/-- The flow hash H (R203). -/
def flowHash (s : State) (f : Frame) : Nat := Nat.xor (crc32c (flowKey f)) (hashSeed s)

/-- The choice method of a frame (R209). -/
def methodOf (isLocal : Bool) (f : Frame) : Method :=
  if isLocal || vcOf f = 0 || 4 < vcOf f || (!f.spray && !f.ord) then .static
  else if f.ord then .flowlet else .spray

/-- Q of a candidate as a Hall sees it: its own queues as they are, others as last published (R211). -/
def seenQueue (s : State) (h p vc : Nat) : Nat :=
  if hallOf p = h then queueCells s p vc else tget s.fwd.published (p, vc) 0

/-- The load L(c) (R211). -/
def loadOf (s : State) (h vc : Nat) (c : Nat × Nat) : Nat := seenQueue s h c.1 vc * 16 / c.2

/-- The candidate of least load, lowest index on a tie (R212). -/
def leastLoaded (s : State) (h vc : Nat) : List (Nat × Nat) → Option (Nat × Nat)
  | [] => none
  | c :: r =>
    match leastLoaded s h vc r with
    | none => some c
    | some d => if loadOf s h vc c ≤ loadOf s h vc d then some c else some d

/-- The entry with the largest A(c), lowest index on a tie (R212). -/
def largestA : List (Nat × Int) → Option (Nat × Int)
  | [] => none
  | a :: r =>
    match largestA r with
    | none => some a
    | some b => if b.2 ≤ a.2 then some a else some b

/-- STATIC: E[(H[31:22] × |E|) div 1,024] (R210). -/
def staticChoice (s : State) (f : Frame) (e : List (Nat × Nat)) : Nat :=
  (e.getD (flowHash s f / 2 ^ 22 % 1024 * e.length / 1024) (0, 1)).1

/-- SPRAY (R212): the port chosen and the state with the accumulators advanced and the choice counted. -/
def sprayChoice (h pipe set cls : Nat) (f : Frame) (e : List (Nat × Nat)) (s : State) : Nat × State :=
  let old := tget s.fwd.rr (h, pipe, set) []
  let acc := if old.map (·.1) = e.map (·.1) then old else e.map fun c => (c.1, 0)
  let acc := List.zipWith (fun a c => (a.1, a.2 + (c.2 : Int))) acc e
  let total : Int := ((e.map (·.2)).sum : Nat)
  let c1 := (largestA acc).getD (0, 0)
  let acc := acc.map fun a => if a.1 = c1.1 then (a.1, a.2 - total) else a
  let s := { s with fwd := { s.fwd with rr := tset s.fwd.rr (h, pipe, set) acc } }
  let vc := vcOf f
  let w := entryWord s 4 cls
  let steer := w % 256
  let slack := w / 256 % 256
  let c1w := (e.find? fun c => c.1 = c1.1).getD (c1.1, 1)
  let c2 := (leastLoaded s h vc e).getD c1w
  let useC1 := steer = 1 || (steer ≠ 2 && loadOf s h vc c1w ≤ loadOf s h vc c2 + slack)
  let s := if c1w.1 = c2.1 then s else countHall h (if useC1 then 8 else 9) 1 s
  (if useC1 then c1w.1 else c2.1, s)

/-- FLOWLET (R213): the port chosen and the state with the flowlet entry and the counters updated. -/
def flowletChoice (h : Nat) (f : Frame) (e : List (Nat × Nat)) (s : State) : Nat × State :=
  let hash := flowHash s f
  let idx := hash % 2 ^ 18
  let tag := hash / 2 ^ 18 % 16
  let now := flowNow s % 65536
  let c2 := ((leastLoaded s h (vcOf f) e).getD (0, 1)).1
  let write (p : Nat) (s : State) : State :=
    { s with fwd := { s.fwd with flow := tset s.fwd.flow (h, idx) { tag, port := p, ts := now } } }
  if (h, idx) ∈ s.fwd.flowBad then
    let s := { s with fwd := { s.fwd with flowBad := s.fwd.flowBad.filter (· ≠ (h, idx)) } }
    (c2, countHall h 7 1 (raise 0x0350 (hallDie h) 3 5 idx 0 (write c2 s)))
  else
    match tfind s.fwd.flow (h, idx) with
    | none => (c2, countHall h 4 1 (write c2 s))
    | some n =>
      if !n.valid then (c2, countHall h 4 1 (write c2 s))
      else if n.tag = tag then
        if e.any (fun c => c.1 = n.port) then (n.port, countHall h 3 1 (write n.port s))
        else (c2, countHall h 5 1 (write c2 s))
      else (staticChoice s f e, countHall h 6 1 s)

/-! ## The lookup order from step 5 (R207) -/

/-- The frame is disposed of: its cells are freed. -/
def dispose (h : Nat) (x : Held) (s : State) : Option Held × State := (none, freeFrame x h s)

/-- E is empty: the frame is dropped as NO_PATH (R207). -/
def noPath (h set : Nat) (x : Held) (s : State) : Option Held × State :=
  dispose h x (raiseLimited 0x0351 h second (fun n s => raise 0x0351 (hallDie h) 3 x.frame.destGid set n s)
    (countHall h 2 1 s))

/-- The escape port of a routing entry: STAIR_PORT, or the lowest-index candidate of E (R217, R218).
`none` when the frame was disposed of. -/
def stairChoice (h : Nat) (entry : Nat) (x : Held) (s : State) : Option Held × State :=
  let set := entry / 1024 % 16384
  let sp := entry % 1024
  if candidateLive s sp then (some { x with port := sp, vc := 0 }, s)
  else if (3, h, set) ∈ s.fwd.bad then dispose h x (toChute h 2 set 0 x (countHall h 21 1 s))
  else
    match eligibleSet s set with
    | [] => noPath h set x s
    | c :: _ =>
      (some { x with port := c.1, vc := 0 },
        raiseLimited 0x0353 h second (fun n s => raise 0x0353 (hallDie h) 3 sp c.1 n s) (countHall h 12 1 s))

/-- Steps 5 to 8 of R207 in a Hall and pipe: the frame with its egress port, VC and choice method, or `none` when it
was dropped or went to the Chute. -/
def routeStep (h pipe : Nat) (x : Held) (s : State) : Option Held × State :=
  let gid := x.frame.destGid
  if (pipe + 1, h, gid) ∈ s.fwd.bad then dispose h x (toChute h 1 gid pipe x (countHall h 20 1 s))
  else
    let entry := entryWord s 1 gid
    if entry / 2 ^ 31 = 0 then dispose h x (countHall h 0 1 s)
    else if x.frame.esc then stairChoice h entry x s
    else
      let set := entry / 1024 % 16384
      if (3, h, set) ∈ s.fwd.bad then dispose h x (toChute h 2 set pipe x (countHall h 21 1 s))
      else
        match eligibleSet s set with
        | [] => noPath h set x s
        | c :: r =>
          let e := c :: r
          let m := methodOf (bit entry 28) x.frame
          let ps : Nat × State :=
            match m with
            | .static => (staticChoice s x.frame e, s)
            | .flowlet => flowletChoice h x.frame e s
            | .spray => sprayChoice h pipe set (entry / 2 ^ 25 % 8) x.frame e s
          (some { x with port := ps.1, vc := vcOf x.frame, method := m }, ps.2)

/-! ## Partition check at egress (R253) -/

/-- Whether a frame may be placed in a queue of a port (R253). -/
def egressAllowed (s : State) (p : Nat) (f : Frame) : Bool :=
  f.kind = 8 || f.kind = 9 || (f.kind = 7 && f.latchkey = 0) ||
  (match portOwner s p with
   | none => true
   | some k => f.latchkey = k)

/-- A LATCHKEY drop at a port: counted, and raised at most once per port per second (R261). -/
def latchkeyDrop (p hall cause idx key : Nat) (s : State) : State :=
  raiseLimited 0x0402 p second (fun n s => raise 0x0402 (hallDie hall) 3 p (cause * 2 ^ 24 + key) n s)
    (countPort p idx 1 s)

/-! ## Placing a frame in a queue -/

/-- HOPS increased once per arriving frame (R108). -/
def hopOnce (x : Held) : Held :=
  if x.hopped then x else { x with hopped := true, frame := rewrite (fun f => { f with hops := f.hops + 1 }) x.frame }

/-- Links a frame to the tail of its queue and counts it (R268, R288). -/
def linkTail (x : Held) (s : State) : State :=
  let q := queueAt s x.port x.vc
  let x := hopOnce { x with waitSince := none, waited := 0, waits := 0 }
  let x := if q.frames = [] then timeHead s x else x
  countQueue x.port x.vc 1 x.cells (countQueue x.port x.vc 0 1
    (setQueue x.port x.vc { q with frames := q.frames ++ [x] } s))

/-- A frame joins those that wait to cross Seam to another Hall (R267). -/
def sendAcross (h : Nat) (x : Held) (s : State) : State :=
  modHall h (fun a => { a with xfer := tset a.xfer (hallOf x.port) (tget a.xfer (hallOf x.port) [] ++ [x]) }) s

/-- A trimmed head is linked without an admission test; its cell is charged to the pool, or to HEADROOM when the pool
has no room (R281). -/
def placeHead (h : Nat) (x : Held) (s : State) : State :=
  if !egressAllowed s x.port x.frame then freeFrame x h (latchkeyDrop x.port h 3 65 x.frame.latchkey s)
  else if hallOf x.port ≠ h then sendAcross h x s
  else
    match x.store with
    | .pool _ => linkTail x s
    | .headroom => linkTail x s
    | _ =>
      let s := freeFrame x h s
      let key := poolKey s x.frame.latchkey
      if 1 ≤ freeCells s h key then linkTail { x with store := .pool key } (chargePool h key 1 s)
      else linkTail { x with store := .headroom } (modHall h (fun a => { a with headroomUse := a.headroomUse + 1 }) s)

/-- The trim record (Table 11.4). -/
def trimRecord (s : State) (h cause port qcells : Nat) (f : Frame) : Bytes :=
  let hb := headerBytes f
  beBytes 1 1 ++ beBytes 1 cause ++ hb.take 2 ++ beBytes 2 f.length ++ beBytes 2 port ++
  beBytes 3 (s.maloa.selfGid * 16 + b2n s.maloa.selfGidValid) ++ beBytes 1 h ++ beBytes 8 (mantel s) ++
  beBytes 4 f.fcrc ++ beBytes 4 qcells ++ zeros 4

/-- The trimmed head that replaces a frame (R281). -/
def trimmedHead (s : State) (h cause port qcells : Nat) (f : Frame) : Frame :=
  sealFrame { f with kind := 5, tc := 6, trim := true, length := 32, payload := trimRecord s h cause port qcells f }

/-- A trim action (R280, R281): the frame's payload cells are freed, and its head is looked up again from step 5 with
pipe 0 (R208). A frame that is not trim-eligible is dropped. -/
def trimFrame (h cause port qcells : Nat) (x : Held) (s : State) : State :=
  if !trimEligible x.frame then freeFrame x h (countHall h 27 1 s)
  else
    let s := countHall h (22 + cause) 1 s
    let head := trimmedHead s h cause port qcells x.frame
    let keep : Store × State :=
      match x.store with
      | .pool k => (.pool k, freeStore (.pool k) h (x.cells - 1) s)
      | .headroom => (.headroom, freeStore .headroom h (x.cells - 1) s)
      | .shared id => (.nothing, freeFrame { x with store := .shared id } h s)
      | st => (.nothing, freeStore st h x.cells s)
    let y : Held := { x with frame := head, store := keep.1, via := .route, trimmed := true, resteered := false }
    match routeStep h 0 y keep.2 with
    | (none, s) => s
    | (some y, s) => placeHead h y s

end Sys2Proof.Machine
end

