-- ==== Sys2Proof/Machine/Admission.lean ====
section
/-!
DEFINITION. Metering and marking (R311 to R316, R328), admission, overflow, push-out, spill and replication
(R270 to R283), and what becomes of the queues of a port that stops taking frames (R220).
-/
namespace Sys2Proof.Machine

/-! ## Congestion marks (R328) -/

/-- The marking decision at a frame's first admission (R328): RND < p × 65,536, RND an open draw (DESIGN CHOICE, log 58). -/
def markFrame (x : Held) (s : State) : Held × State :=
  if x.marked then (x, s)
  else
    let x := { x with marked := true }
    let v := liveValue s (.mark x.port x.vc)
    if x.frame.kind ≠ 0 || x.frame.esc || x.vc = 0 || 4 < x.vc || !bit (u8 v 5) 0 || x.via ≠ .route then (x, s)
    else
      let o := queueCells s x.port x.vc + queueSpill s x.port x.vc
      let pmax := u16 v 6
      let kmin := u32 v 8
      let kmax := u32 v 12
      if o < kmin then (x, s)
      else
        let d := draw 65536 s
        if kmax ≤ o || d.1 * 256 * (kmax - kmin) < pmax * (o - kmin) * 65536 then
          ({ x with frame := rewrite (fun f => { f with cm := true }) x.frame }, countQueue x.port x.vc 10 1 d.2)
        else (x, d.2)

/-- A frame is admitted to Landing: marked, linked, its cells charged to its pool (R270). -/
def linkCharged (h key : Nat) (x : Held) (s : State) : State :=
  let m := markFrame x s
  let s := chargePool h key x.cells (freeFrame x h m.2)
  linkTail { m.1 with store := .pool key } s

/-! ## Spill (R275) -/

/-- spill_applies (R275). -/
def spillApplies (h : Nat) (x : Held) (s : State) : Bool :=
  x.via = .route && !x.trimmed && 1 ≤ x.vc && x.vc ≤ 4 && bit (hallSetting s h 6 1) x.vc &&
  ((queueAt s x.port x.vc).spilled ≠ [] ||
    ((hallAt s h).spilling && hallSetting s h 32 2 ≤ queueCells s x.port x.vc))

/-- Takes the tokens of a spill write: those that the bucket holds, and while spill writes contend at most what is left of its pool's
share (R295). -/
def spillTokens (h key n : Nat) (s : State) : Option State :=
  match (hallAt s h).shares with
  | none => takeTokens h 0 n s
  | some q =>
    if tget q key 0 < n then none
    else takeTokens h 0 n (modHall h (fun a => { a with shares := some (tset q key (tget q key 0 - n)) }) s)

/-- The shares of the SPILL bucket when the writes of a cycle need more tokens than it holds: one deficit round in which each pool that
offers is given tokens by its SPILL_WEIGHT (R256, R295; DESIGN CHOICE, log 64). `offers` lists pool and tokens. -/
def spillShares (s : State) (h : Nat) (offers : List (Nat × Nat)) : Option (Tbl Nat Nat) :=
  let have' := tokensIn s h 0
  let keys := (offers.map (·.1)).eraseDups
  let total := (keys.map fun k => (poolOf s k).spillWeight).sum
  if (offers.map (·.2)).sum ≤ have' then none
  else some (keys.map fun k => (k, have' * (poolOf s k).spillWeight / total))

/-- Why to_spill fails (Table 11.8): 1 the pool's share, 2 the partition, 3 the regulator; or the state after it. -/
def toSpill (h key : Nat) (x : Held) (s : State) : State ⊕ Nat :=
  let c := x.cells
  let cap := (poolOf s key).spillCap * spillCapacity s / 1024
  let use := tget (hallAt s h).spillUsed key 0
  if cap < use + c then .inr 1
  else if spillCapacity s < ((hallAt s h).spillUsed.map (·.2)).sum + c || h ∈ s.cellar.testing then .inr 2
  else
    match spillTokens h key (2 * c) s with
    | none => .inr 3
    | some s =>
      let m := markFrame x s
      let s := modHall h (fun a => { a with spillUsed := tset a.spillUsed key (use + c) }) m.2
      let q := queueAt s x.port x.vc
      let s := setQueue x.port x.vc { q with spilled := q.spilled ++ [{ hopOnce m.1 with store := .spill key }] } s
      let s := countLines h 0 1 (2 * c) (countHall h 31 c (countQueue x.port x.vc 5 1 s))
      .inl { s with buf := { s.buf with
        spillWrites := tset s.buf.spillWrites h (tget s.buf.spillWrites h [] ++ [x]) } }

/-! ## Push-out (R278, R279) -/

/-- Whether push-out may evict a queued frame (R278). -/
def evictable (key tc : Nat) (s : State) (y : Held) : Bool :=
  y.via = .route && (y.frame.kind = 0 || y.frame.kind = 6) && !y.frame.esc && 1 ≤ y.vc && y.vc ≤ 4 &&
  y.frame.tc < tc && poolKey s y.frame.latchkey = key &&
  (match y.store with | .pool k => k = key | _ => false)

/-- Insertion into a list sorted by lowest VC, then most cells, then port (R279). -/
def insertQueue (e : Nat × Nat × Nat) : List (Nat × Nat × Nat) → List (Nat × Nat × Nat)
  | [] => [e]
  | a :: r =>
    if e.2.1 < a.2.1 || (e.2.1 = a.2.1 && (a.2.2 < e.2.2 || (a.2.2 = e.2.2 && e.1 < a.1))) then e :: a :: r
    else a :: insertQueue e r

/-- The candidate queues of push-out in order: port, VC, cells; the first four (R279). -/
def pushOutQueues (h key tc : Nat) (s : State) : List (Nat × Nat × Nat) :=
  (((s.buf.queues.filter fun e => hallOf e.1.1 = h && e.2.frames.any (evictable key tc s)).map fun e =>
    (e.1.1, e.1.2, sumCells e.2.frames)).foldl (fun l e => insertQueue e l) []).take 4

/-- Cells an evicted frame frees (R279). -/
def evictGain (y : Held) : Nat := ceilDiv y.frame.length 128

/-- The fewest frames, at most four and from the start of a list, whose eviction frees `need` cells (R279). -/
def evictSet (need : Nat) (l : List Held) : Option (List Held) :=
  (List.range 5).findSome? fun n =>
    if 0 < n ∧ n ≤ l.length ∧ need ≤ ((l.take n).map evictGain).sum then some (l.take n) else none

/-- Push-out for a frame: the frames evicted from the first queue that has a set, or none (R279). -/
def pushOutPlan (h key tc need : Nat) (s : State) : Option (Nat × Nat × List Held) :=
  (pushOutQueues h key tc s).findSome? fun q =>
    (evictSet need ((queueAt s q.1 q.2.1).frames.reverse.filter (evictable key tc s))).map fun v => (q.1, q.2.1, v)

/-- Removes frames from a list, each once, the last occurrence first. -/
def removeEach (l : List Held) (v : List Held) : List Held :=
  (v.foldl (fun l y => l.erase y) l.reverse).reverse

/-- Evicts and trims the frames of a plan with cause PUSH_OUT (R279, R281). -/
def evict (h port vc : Nat) (v : List Held) (s : State) : State :=
  let q := queueAt s port vc
  let cells := sumCells q.frames
  let s := setQueue port vc { q with frames := removeEach q.frames v } s
  v.foldl (fun s y => trimFrame h 1 port cells y s) (countHall h 28 v.length s)

/-! ## Overflow and admission (R270 to R272) -/

/-- A frame is held in the reserve it occupies (R272). -/
def holdFrame (h : Nat) (x : Held) (s : State) : State :=
  let s := if bit x.waits 2 then s else countQueue x.port x.vc 4 1 s
  let x := if bit x.waits 2 then x else { x with waits := x.waits ||| 4, since := s.ns }
  modHall h (fun a => { a with held := a.held ++ [x] }) s

/-- overflow(F) (R271). -/
def overflow (h : Nat) (x : Held) (s : State) : State :=
  if 1 ≤ x.vc && x.vc ≤ 4 && (bit (hallSetting s h 5 1) x.frame.tc || x.frame.de) then
    trimFrame h 2 x.port (queueCells s x.port x.vc) x s
  else holdFrame h x s

/-- The HEADROOM step of R270, then overflow. -/
def headroomOr (h : Nat) (x : Held) (s : State) : State :=
  if (x.vc = 0 || x.vc = 6 || x.vc = 7) && (hallAt s h).headroomUse + x.cells ≤ headroomSize s h then
    let m := markFrame x s
    let s := modHall h (fun a => { a with headroomUse := a.headroomUse + x.cells }) (freeFrame x h m.2)
    countHall h 34 1 (linkTail { m.1 with store := .headroom } s)
  else overflow h x s

/-- Admission of a unicast or collective frame in the Hall of its egress port (R270). -/
def takeIn (h : Nat) (x : Held) (s : State) : State :=
  if !egressAllowed s x.port x.frame then freeFrame x h (latchkeyDrop x.port h 3 65 x.frame.latchkey s)
  else
    let key := poolKey s x.frame.latchkey
    if spillApplies h x s then
      match toSpill h key x s with
      | .inl s => s
      | .inr why =>
        overflow h x (raiseLimited 0x0882 h second (fun n s => raise 0x0882 (hallDie h) 3 h why n s)
          (countHall h 33 1 s))
    else
      let c := x.cells
      let f := freeCells s h key
      if c ≤ f then
        if underThreshold s h key x.vc (queueCells s x.port x.vc) c then linkCharged h key x s
        else
          let s := modHall h (fun a => { a with refusedVcs := a.refusedVcs ||| 2 ^ x.vc }) s
          if x.refused then headroomOr h x s
          else headroomOr h { x with refused := true } (countQueue x.port x.vc 3 1 s)
      else
        match pushOutPlan h key x.frame.tc (c - f) s with
        | some (p, v, l) => linkCharged h key x (evict h p v l s)
        | none => headroomOr h x (countHall h 29 1 s)

/-! ## Replication (R282, R283) -/

/-- Links the copies of a stored multicast frame in a Hall. `f0` is free(p) before the frame's own charge. -/
def linkCopies (h key id f0 : Nat) (x : Held) : List Nat → State → State
  | [], s => s
  | p :: r, s =>
    let y := { x with port := p, store := .shared id }
    let s :=
      if !egressAllowed s p x.frame then freeFrame y h (latchkeyDrop p h 3 65 x.frame.latchkey s)
      else if x.vc = 5 || (queueCells s p x.vc + x.cells) * 64 ≤ 2 ^ (hallAt s h).k.getD x.vc 0 * f0 then linkTail y s
      else freeFrame y h (countHall h 30 1 s)
    linkCopies h key id f0 x r s

/-- Stores a multicast frame once in a Hall, charged to its pool, and links its copies (R283). -/
def storeCopies (h key : Nat) (x : Held) (s : State) : State :=
  let f0 := freeCells s h key
  let s := chargePool h key x.cells (freeFrame x h s)
  let id := s.buf.nextShared
  let s := { s with buf := { s.buf with
    nextShared := id + 1
    shared := tset s.buf.shared id { hall := h, cells := x.cells, store := .pool key, copies := x.ports.length } } }
  linkCopies h key id f0 x x.ports s

/-- Admission of a multicast frame in a Hall (R283). -/
def admitMulticast (h : Nat) (x : Held) (s : State) : State :=
  let key := poolKey s x.frame.latchkey
  let f := freeCells s h key
  if x.cells ≤ f then storeCopies h key x s
  else if x.vc = 5 then
    match pushOutPlan h key x.frame.tc (x.cells - f) s with
    | some (p, v, l) => storeCopies h key x (evict h p v l s)
    | none => holdFrame h { x with port := x.ports.headD 0 } (countHall h 29 1 s)
  else freeFrame x h (countHall h 30 1 s)

/-! ## Turns (R273) -/

/-- The decision on a frame (R270, R283). -/
def admitNow (h : Nat) (x : Held) (s : State) : State := if x.ports ≠ [] then admitMulticast h x s else takeIn h x s

/-- The source that a frame comes from: 0 pipe 0, 1 pipe 1, 2 the cross-Hall reserves, 3 the Mangle reserve; 4 is a held frame's retry. -/
def sourceOf (x : Held) : Nat :=
  match x.store with
  | .cross _ _ => 2
  | .mangle => 3
  | _ => x.pipe

/-- A frame of a source is ready to be decided. It is decided at once while the cycle's capacity lasts and nothing waits; else it keeps its
cells and waits for its source's turn. -/
def offer (h src : Nat) (x : Held) (s : State) : State :=
  let a := hallAt s h
  let n := if a.decided.1 = s.ns then a.decided.2 else 0
  if !(a.held.any fun y => y.turn.isSome) && (n = 0 || n ≤ Config.admissionCapacity) then
    admitNow h x (modHall h (fun a => { a with decided := (s.ns, n + 1) }) s)
  else modHall h (fun a => { a with held := a.held ++ [{ x with turn := some src }] }) s

/-- One decision of a source, if it has a frame ready. -/
def decideFrom (h src : Nat) (s : State) : Option State :=
  match (hallAt s h).held.find? fun x => x.turn = some src with
  | none => none
  | some x => some (admitNow h { x with turn := none } (modHall h (fun a => { a with held := a.held.erase x }) s))

/-- One round through the five sources from a starting one, within what is left of the cycle's capacity. -/
def decideRound (h start : Nat) (r : Nat × State) : Nat × State :=
  (List.range 5).foldl (fun r i =>
    match r.1 with
    | 0 => r
    | n + 1 => match decideFrom h ((start + i) % 5) r.2 with | some s => (n, s) | none => r) r

/-- Runs decisions of one cycle under the shares that its spill writes leave each pool (R295). -/
def withShares (h : Nat) (offers : List Held) (f : State → State) (s : State) : State :=
  let need := (offers.filter fun x => x.ports = [] && spillApplies h x s).map fun x => (poolKey s x.frame.latchkey, 2 * x.cells)
  match spillShares s h need with
  | none => f s
  | q => modHall h (fun a => { a with shares := none }) (f (modHall h (fun a => { a with shares := q }) s))

/-- A HALLCLK cycle of a Hall in which frames wait: rounds from the cycle's starting source, for as long as its capacity allows. -/
def runCycle (h cycle : Nat) (s : State) : State :=
  let ready := (hallAt s h).held.filter fun x => x.turn.isSome
  if ready = [] then s
  else
    let cap := Config.admissionCapacity + 1
    withShares h (ready.take cap) (fun s =>
      let r := (List.range ready.length).foldl (fun r _ => decideRound h (cycle % 5) r) (cap, s)
      modHall h (fun a => { a with decided := (s.ns, cap - r.1) }) r.2) s

/-- The two HALLCLK cycles of a nanosecond, in every Hall. -/
def runCycles (s : State) : State :=
  (List.range 4).foldl (fun s h => runCycle h (2 * s.ns + 1) (runCycle h (2 * s.ns) s)) s

/-- A frame reaches the Hall of its egress: offered for admission there, a trimmed head linked at once. -/
def arrive (h : Nat) (x : Held) (s : State) : State :=
  if x.trimmed then placeHead h x s else offer h (sourceOf x) x s

/-- Step 9 of R207: a frame goes to its queue, crossing Seam first when the port lies in another Hall. -/
def enqueue (h : Nat) (x : Held) (s : State) : State :=
  if hallOf x.port = h then arrive h x s else sendAcross h x s

/-- Replicates a frame to ports of several Halls (R282): one stored frame or crossing per Hall. (DEDUCED, log 45.) -/
def replicate (h : Nat) (ports : List Nat) (x : Held) (s : State) : State :=
  let halls := (List.range 4).filter fun b => ports.any fun p => hallOf p = b
  if halls = [] then freeFrame x h s
  else
    let id := s.buf.nextShared
    let s := { s with buf := { s.buf with
      nextShared := id + 1
      shared := tset s.buf.shared id { hall := h, cells := x.cells, store := x.store, copies := halls.length } } }
    halls.foldl (fun s b =>
      let ps := ports.filter fun p => hallOf p = b
      let y := { x with store := .shared id, ports := ps, port := ps.headD 0 }
      if b = h then offer h (sourceOf x) y s else sendAcross h y s) s

/-! ## Ports that stop taking frames (R220) -/

/-- A RESULT or RELEASE is lost on its way down (R404). -/
def collLost (h : Nat) (x : Held) (s : State) : State :=
  if x.frame.kind = 3 || x.frame.kind = 10 then
    raise 0x0928 (hallDie h) 3 x.frame.ctx x.frame.chunk (x.frame.kind * 2 ^ 24 + x.port) (countHall h 46 1 s)
  else s

/-- A frame of an emptied queue that has no other way is discarded (R220, R404). -/
def discardMasked (h : Nat) (x : Held) (s : State) : State := collLost h x (freeFrame x h (countHall h 14 1 s))

/-- A frame of an emptied queue: looked up again from step 5 with pipe 0, or discarded (R220, R208). A frame that stays
in its Hall keeps its cells; one read back from spill is admitted afresh. -/
def relook (h : Nat) (spilled : Bool) (x : Held) (s : State) : State :=
  if x.via = .route && (x.vc ≤ 4 || x.vc = 6) then
    match routeStep h 0 x s with
    | (none, s) => s
    | (some y, s) =>
      if !egressAllowed s y.port y.frame then freeFrame y h (latchkeyDrop y.port h 3 65 y.frame.latchkey s)
      else if hallOf y.port ≠ h then sendAcross h y s
      else if spilled then takeIn h y s
      else linkTail y s
  else discardMasked h x s

/-- A held multicast frame without its copy for a port, none when that was its last. -/
def withoutCopy (p : Nat) (x : Held) : Option Held :=
  let r := x.ports.filter fun q => q ≠ p
  if x.ports.contains p && r.isEmpty then none
  else if x.ports.contains p then some { x with ports := r, port := r.headD 0 }
  else some x

/-- The copies of held multicast frames for a port are discarded as queued ones are, and the frame with its last copy (R220, R272). -/
def dropHeldCopies (p h : Nat) (s : State) : State :=
  let mine := (hallAt s h).held.filter fun x => x.ports.contains p
  let s := modHall h (fun a => { a with held := a.held.filterMap (withoutCopy p) }) s
  mine.foldl (fun s x =>
    let s := collLost h { x with port := p } (countHall h 14 1 s)
    if (withoutCopy p x).isNone then freeFrame x h s else s) s

/-- Empties the queues of a port, in queue order, but for the part's own link frames (DEDUCED, log 23), and treats the frames held for it as if they were queued
(R220, R272, R277). -/
def emptyPort (p : Nat) (s : State) : State :=
  let h := hallOf p
  let s := (List.range 8).foldl (fun s v =>
    let q := queueAt s p v
    let s := setQueue p v { frames := q.frames.filter fun x => x.via = .own } s
    let s := (q.frames.filter fun x => x.via ≠ .own).foldl (fun s x => relook h false x s) s
    q.spilled.foldl (fun s x => relook h true x s) s) s
  let s := dropHeldCopies p h s
  let mine := (hallAt s h).held.filter fun x => x.ports = [] && x.port = p
  let s := modHall h (fun a => { a with held := a.held.filter fun x => !(x.ports = [] && x.port = p) }) s
  mine.foldl (fun s x =>
    if x.via = .route && (x.vc ≤ 4 || x.vc = 6) then
      match routeStep h 0 x s with
      | (none, s) => s
      | (some y, s) => enqueue h y s
    else discardMasked h x s) s

/-! ## Meters (R311 to R316) -/

/-- Colours of a meter. -/
inductive Colour where
  | green | yellow | red
  deriving DecidableEq, Repr

/-- One meter run on a frame (R313): settings in the layout of METER_SET, input colour, length B. -/
def runMeter (v : Bytes) (m : Meter) (now : Nat) (input : Colour) (b : Nat) : Colour × Meter :=
  let dt := now - m.last
  let gc := creditOf dt (u32 v 8) m.restC
  let gp := creditOf dt (u32 v 16) m.restP
  let tc := min (u32 v 12 * 65536) (m.tc + gc.1)
  let tp := min (u32 v 20 * 65536) (m.tp + gp.1)
  let m := { m with tc, tp, restC := gc.2, restP := gp.2, last := now }
  let n := b * 65536
  if input = .red || tp < n then (.red, m)
  else if input = .yellow || tc < n then (.yellow, { m with tp := tp - n })
  else (.green, { m with tc := tc - n, tp := tp - n })

/-- Action strength (R315): 0 PASS, 1 MARK_DE, 2 TRIM, 3 DROP, of a meter for a colour. -/
def meterAction (m : Meter) : Colour → Nat
  | .green => 0
  | .yellow => if m.yellow = 0 then 1 else 0
  | .red => if m.red = 0 then 3 else if m.red = 1 then 2 else 1

/-- Counts a frame in a meter's counters (Table 13.3). -/
def countMeter (scope inst : Nat) (c : Colour) (b : Nat) (s : State) : State :=
  let i := match c with | .green => 0 | .yellow => 1 | .red => 2
  count scope inst (i + 3) b (count scope inst i 1 s)

/-- Meters a frame of an ingress port (R311, R312, R315): the action to take, and the state after it. -/
def meterFrame (x : Held) (s : State) : Nat × State :=
  let f := x.frame
  if !(f.kind = 0 || f.kind = 6 || f.kind = 4) || f.tc = 0 || 5 < f.tc || f.esc || 1280 ≤ x.inPort then (0, s)
  else
    let h := hallOf x.inPort
    let p := gangBase s x.inPort
    let b := 32 + f.length
    let inDe : Colour := if f.de then .yellow else .green
    let vp := liveValue s (.meterPort p f.tc)
    let vb := liveValue s (.meterBlock h f.latchkey f.tc)
    let pe := bit (u8 vp 4) 0
    let be := bit (u8 vb 4) 0
    let mp := tget s.sched.portMeters (p, f.tc) {}
    let mb := tget s.sched.blockMeters (h, f.latchkey, f.tc) {}
    let rp := runMeter vp mp s.ns (if bit (u8 vp 4) 1 then inDe else .green) b
    let inB : Colour := if pe then rp.1 else if bit (u8 vb 4) 1 then inDe else .green
    let rb := runMeter vb mb s.ns inB b
    let s := if pe then countMeter 3 (8 * p + f.tc) rp.1 b
        { s with sched := { s.sched with portMeters := tset s.sched.portMeters (p, f.tc) rp.2 } } else s
    let s := if be then countMeter 4 (32 * f.latchkey + 8 * h + f.tc) rb.1 b
        { s with sched := { s.sched with blockMeters := tset s.sched.blockMeters (h, f.latchkey, f.tc) rb.2 } } else s
    let ap := if pe then meterAction mp rp.1 else 0
    let ab := if be then meterAction mb rb.1 else 0
    let s := if pe && ap = 3 then count 3 (8 * p + f.tc) 6 1 s else s
    let s := if be && ab = 3 then count 4 (32 * f.latchkey + 8 * h + f.tc) 6 1 s else s
    (max ap ab, s)

/-- Metering of a frame in its ingress Hall: the frame goes on, perhaps with DE set, or is trimmed or dropped (R314). (DEDUCED, log 45.) -/
def metered (h : Nat) (x : Held) (s : State) : Option Held × State :=
  let r := meterFrame x s
  match r.1 with
  | 0 => (some x, r.2)
  | 1 => (some (if x.frame.de then x else { x with frame := rewrite (fun f => { f with de := true }) x.frame }), r.2)
  | 2 => (none, trimFrame h 3 x.inPort 0 x r.2)
  | _ => (none, freeFrame x h r.2)

/-! ## Frames the part originates -/

/-- A frame that enters the lookup at step 5 in a Hall and pipe (R88): routed, metered by nothing, and queued. (DEDUCED, log 45.) -/
def originate (h pipe : Nat) (f : Frame) (s : State) : State :=
  match routeStep h pipe { frame := sealFrame f, inPort := 1280, pipe, store := .nothing, hopped := true } s with
  | (none, s) => s
  | (some y, s) => enqueue h y s

end Sys2Proof.Machine
end

