-- ==== Sys2Proof/Machine/Arith.lean ====
section
/-!
DEFINITION. Reduction arithmetic (R356 to R373): element formats, exact values, accumulators, partials, conversion.
-/
namespace Sys2Proof.Machine

/-! ## Formats (R356 to R358) -/

/-- A float layout: exponent bits, significand bits, bias (Table 15.1). -/
structure FloatFmt where
  e : Nat
  m : Nat
  bias : Nat

/-- The float layout of a format code, element layout for MX formats. -/
def floatFmt (fmt : Nat) : Option FloatFmt :=
  match fmt with
  | 1 => some { e := 11, m := 52, bias := 1023 }
  | 2 => some { e := 8, m := 23, bias := 127 }
  | 3 => some { e := 8, m := 10, bias := 127 }
  | 4 => some { e := 8, m := 7, bias := 127 }
  | 5 => some { e := 5, m := 10, bias := 15 }
  | 6 | 8 => some { e := 4, m := 3, bias := 7 }
  | 7 => some { e := 5, m := 2, bias := 15 }
  | 9 => some { e := 3, m := 2, bias := 3 }
  | 10 => some { e := 2, m := 1, bias := 1 }
  | _ => none

/-- Whether a format is an integer format. -/
def isInt (fmt : Nat) : Bool := fmt = 0x10 || fmt = 0x11 || fmt = 0x12
/-- Whether a format is an MX format. -/
def isMx (fmt : Nat) : Bool := fmt = 8 || fmt = 9 || fmt = 10
/-- Whether a format code is not reserved (R356). -/
def fmtKnown (fmt : Nat) : Bool := isInt fmt || (floatFmt fmt).isSome

/-- Bits of an element as it is stored (Table 15.1). -/
def fmtBits (fmt : Nat) : Nat :=
  match fmt with
  | 1 => 64 | 2 | 3 | 0x10 => 32 | 4 | 5 | 0x11 => 16 | 9 => 6 | 10 => 4 | _ => 8

/-- Bytes of a chunk of `n` elements (R357, R358). -/
def chunkBytes (fmt n : Nat) : Nat :=
  if isMx fmt then
    let b := fmtBits fmt
    n / 32 * (1 + 4 * b) + (if n % 32 = 0 then 0 else 1 + ceilDiv (n % 32 * b) 8)
  else n * fmtBits fmt / 8

/-- Accumulator family: 0 INT, 1 LOW, 2 F32, 3 F64 (Table 15.3). -/
def fmtFamily (fmt : Nat) : Nat := if isInt fmt then 0 else if fmt = 1 then 3 else if fmt = 2 || fmt = 3 then 2 else 1
/-- Line bytes of a family. -/
def lineBytes (fam : Nat) : Nat := if fam = 0 then 16 else if fam = 3 then 288 else 48
/-- Bytes of a family's full-width accumulator. -/
def fullBytes (fam : Nat) : Nat := if fam = 3 then 280 else if fam = 2 then 44 else 40
/-- Minus the exponent of full-width bit 0. -/
def fullShift (fam : Nat) : Nat := if fam = 3 then 1120 else if fam = 2 then 176 else 160
/-- Extension records that a segment holds (R365). -/
def recordsPerSeg (fam : Nat) : Nat := 4096 / (4 + fullBytes fam)

/-! ## Exact values (R359) -/

/-- The exact value of an input element: `num` times 2^`exp`, an infinity, or NaN. -/
inductive Value where
  | fin (num exp : Int)
  | inf (neg : Bool)
  | nan
  deriving DecidableEq, Repr

/-- A value with its number made odd, unless it is zero (R362). -/
def oddValue (num exp : Int) : Value :=
  let n := num.natAbs
  if n = 0 then .fin 0 0
  else
    let k := Nat.log2 (Nat.gcd n (2 ^ Nat.log2 n))
    .fin (num / (2 ^ k : Nat)) (exp + k)

/-- The exact value of a float code. -/
def decodeFloat (fmt : Nat) (f : FloatFmt) (code : Nat) : Value :=
  let code := if fmt = 3 then code / 2 ^ 13 else code
  let man := code % 2 ^ f.m
  let ex := code / 2 ^ f.m % 2 ^ f.e
  let neg := bit code (f.e + f.m)
  let top := ex = 2 ^ f.e - 1
  if (fmt = 6 || fmt = 8) && top && man = 7 then .nan
  else if top && (fmt ≤ 5 || fmt = 7) then (if man = 0 then .inf neg else .nan)
  else
    let n := if ex = 0 then man else 2 ^ f.m + man
    oddValue (if neg then -(n : Int) else n) ((max ex 1 : Nat) - (f.bias : Int) - f.m)

/-- Bits `off` to `off + w - 1`, from the most significant, of a byte string. -/
def bitField (bs : Bytes) (off w : Nat) : Nat :=
  let first := off / 8
  let last := (off + w - 1) / 8
  field bs first (last + 1 - first) / 2 ^ (8 * (last + 1) - off - w) % 2 ^ w

/-- A value times a power of two. -/
def Value.scale (v : Value) (k : Int) : Value :=
  match v with
  | .fin n e => if n = 0 then v else .fin n (e + k)
  | _ => v

/-- The exact value of element `j` of a chunk (R357, R359). -/
def decodeElem (fmt : Nat) (p : Bytes) (j : Nat) : Value :=
  let b := fmtBits fmt
  match floatFmt fmt with
  | none => oddValue (signedOf b (bitField p (j * b) b)) 0
  | some f =>
    if isMx fmt then
      let base := j / 32 * (1 + 4 * b)
      let scale := u8 p base
      if scale = 0xFF then .nan
      else (decodeFloat fmt f (bitField p (8 * (base + 1) + j % 32 * b) b)).scale ((scale : Int) - 127)
    else decodeFloat fmt f (bitField p (j * b) b)

/-! ## Accumulators (R360 to R363) -/

/-- An integer times 2^`k`, rounded down where `k` is negative. -/
def shiftInt (x k : Int) : Int := if 0 ≤ k then x * (2 ^ k.toNat : Nat) else x / (2 ^ (-k).toNat : Nat)

/-- Whether a number fits the 128-bit window. -/
def fitsWindow (x : Int) : Bool := -(2 ^ 127 : Nat) ≤ x && x < (2 ^ 127 : Nat)

/-- The value an element takes from an addend, both as multiples of one unit (R362): the sum, the extreme or the bits. -/
def combine (op : Nat) (has : Bool) (old new : Int) : Int :=
  if op = 0 || op = 6 then old + new
  else if !has then new
  else
    match op with
    | 1 => min old new
    | 2 => max old new
    | _ =>
      let a := natOfInt 128 old
      let b := natOfInt 128 new
      signedOf 128 (if op = 3 then Nat.land a b else if op = 4 then Nat.lor a b else Nat.xor a b)

/-- An accumulator with its block's exponent, promotions and full-width addends counted. -/
structure Block' where
  exp : Option Int := none
  promoted : Nat := 0
  fullAdds : Nat := 0

/-- 2^`k` modulo 3 or 7: its powers repeat after 2 and 3 steps. -/
def pow2Mod (m : Nat) (k : Int) : Nat := 2 ^ (k.emod (if m = 3 then 2 else 3)).toNat

/-- The residue of an addend, as the generator of R378 derives it from its number and its shift. -/
def resid (m : Nat) (num k : Int) : Nat := ((if 0 ≤ k then num * pow2Mod m k else shiftInt num k).emod m).toNat

/-- The residues of an element that has taken an addend: the sum of theirs, or, for MIN and MAX, those of the value that replaced it; a bitwise
element carries none (R378). -/
def Elem.takeRes (op : Nat) (replaced : Bool) (num k : Int) (e : Elem) : Elem :=
  if op = 0 || op = 6 then { e with res3 := (e.res3 + resid 3 num k) % 3, res7 := (e.res7 + resid 7 num k) % 7 }
  else if replaced && op < 3 then { e with res3 := resid 3 num k, res7 := resid 7 num k }
  else e

/-- The residues of an element whose held number is multiplied by 2^`k`: for each shift of a window and each promotion (R378). -/
def Elem.shiftRes (op : Nat) (k : Int) (e : Elem) : Elem :=
  if 3 ≤ op && op ≤ 5 then e
  else if 0 ≤ k then { e with res3 := e.res3 * pow2Mod 3 k % 3, res7 := e.res7 * pow2Mod 7 k % 7 }
  else { e with res3 := resid 3 e.win k, res7 := resid 7 e.win k }

/-- The number that an element's line holds. -/
def Elem.held (e : Elem) : Int := e.full.getD e.win

/-- The check that an element's residues fail at FINAL, recomputed from what is stored (R378): 1 RES3, 2 RES7, 0 neither. -/
def Elem.residueCheck (e : Elem) : Nat :=
  if (e.held.emod 3).toNat ≠ e.res3 then 1 else if (e.held.emod 7).toNat ≠ e.res7 then 2 else 0

/-- Adds a finite value to a promoted element. -/
def addFull (fam op : Nat) (e : Elem) (num q : Int) : Elem :=
  let old := e.full.getD 0
  let new := combine op e.has old (shiftInt num (q + fullShift fam))
  { e.takeRes op (!e.has || new ≠ old) num (q + fullShift fam) with
    full := e.full.map fun _ => new, has := true
    cls := if (op = 1 && e.cls = 1) || (op = 2 && e.cls = 2) then 0 else e.cls }

/-- Promotes an element (R362). -/
def promote (fam op : Nat) (exp : Option Int) (e : Elem) : Elem :=
  let k := exp.getD 0 + fullShift fam
  { e.shiftRes op k with full := some (shiftInt e.win k), win := 0 }

/-- Adds a finite value to an element that is not promoted, promoting it where it does not fit (R362). -/
def addWindow (fam op : Nat) (exp : Option Int) (e : Elem) (num q : Int) : Elem × Bool :=
  let x := exp.getD 0
  let cls := if (op = 1 && e.cls = 1) || (op = 2 && e.cls = 2) then 0 else e.cls
  if num = 0 then
    let v := combine op e.has e.win 0
    ({ e.takeRes op (!e.has || v ≠ e.win) 0 0 with win := v, has := true, cls }, false)
  else
    let whole := decide (x ≤ q)
    let v := combine op e.has e.win (shiftInt num (q - x))
    let keeps := (op = 1 || op = 2) && e.has &&
      (if op = 1 then shiftInt e.win (x - min x q) ≤ shiftInt num (q - min x q)
       else shiftInt num (q - min x q) ≤ shiftInt e.win (x - min x q))
    if keeps then ({ e with cls }, false)
    else if whole && fitsWindow v then ({ e.takeRes op true num (q - x) with win := v, has := true, cls }, false)
    else (addFull fam op (promote fam op exp e) num q, true)

/-- The class of an element after a value that is not finite (Table 15.4), and whether infinities of both signs met. -/
def addClass (op : Nat) (e : Elem) (v : Value) : Elem × Bool :=
  match v with
  | .fin _ _ => (e, false)
  | .nan => ({ e with cls := 3 }, false)
  | .inf neg =>
    let c := if neg then 2 else 1
    let met := e.infs ||| c
    if op = 0 || op = 6 then
      ({ e with infs := met, cls := if e.cls = 3 || met = 3 then 3 else c }, decide (met = 3 ∧ e.infs ≠ 3))
    else if e.cls = 3 then (e, false)
    else if op = 1 then (if neg then { e with cls := 2 } else if e.has || e.cls ≠ 0 then e else { e with cls := 1 }, false)
    else if op = 2 then (if !neg then { e with cls := 1 } else if e.has || e.cls ≠ 0 then e else { e with cls := 2 }, false)
    else (e, false)

/-- What one step of an engine did: the block's exponent and elements, promotions, full-width addends, and whether
infinities of both signs met. -/
structure Step where
  exp : Option Int
  elems : List Elem
  promotions : Nat := 0
  fullAdds : Nat := 0
  nv : Bool := false

/-- Takes the addends of one block in one step (R362). `vs` gives a value, or none, for each element. -/
def addBlock (fam op : Nat) (exp : Option Int) (elems : List Elem) (vs : List (Option Value)) : Step :=
  let pairs := elems.zip vs
  let qs := pairs.filterMap fun p =>
    match p.1.full, p.2 with
    | none, some (.fin n q) => if n = 0 then none else some q
    | _, _ => none
  let qmin := qs.foldl min (qs.headD 0)
  let k := (exp.getD 0 - qmin).toNat
  let room := elems.all fun e => e.full.isSome ||
    (-(2 ^ 127 : Nat) ≤ e.win * (2 ^ k : Nat) && e.win * (2 ^ k : Nat) < (2 ^ 127 : Nat))
  let moved := qs ≠ [] && fam ≠ 0 && (match exp with | none => false | some x => qmin < x && room)
  let exp' := if fam = 0 then some 0 else if qs = [] then exp else
    match exp with
    | none => some qmin
    | some _ => if moved then some qmin else exp
  let shifted := if moved then elems.map (fun e => if e.full.isSome then e else { e.shiftRes op k with win := e.win * (2 ^ k : Nat) }) else elems
  (shifted.zip vs).foldl (fun (st : Step) p =>
    match p.2 with
    | none => { st with elems := st.elems ++ [p.1] }
    | some (.fin n q) =>
      if (n = 0) && (op = 0 || op = 6) then { st with elems := st.elems ++ [p.1] }
      else if p.1.full.isSome then
        { st with elems := st.elems ++ [addFull fam op p.1 n q], fullAdds := st.fullAdds + 1 }
      else
        let r := addWindow fam op exp' p.1 n q
        { st with elems := st.elems ++ [r.1], promotions := st.promotions + b2n r.2, fullAdds := st.fullAdds + b2n r.2 }
    | some v =>
      let r := addClass op p.1 v
      { st with elems := st.elems ++ [r.1], nv := st.nv || r.2 }) { exp := exp', elems := [] }

/-! ## Exact results -/

/-- The exact result of an element as a fraction of whole numbers: sign, numerator, denominator. -/
def exactOf (fam op nTotal : Nat) (exp : Option Int) (e : Elem) : Bool × Nat × Nat :=
  let n := match e.full with | some f => f | none => e.win
  let x : Int := match e.full with | some _ => -(fullShift fam : Int) | none => exp.getD 0
  let den := if op = 6 then nTotal else 1
  (n < 0, n.natAbs * 2 ^ x.toNat, den * 2 ^ (-x).toNat)

/-- floor(log2(n / d)) of a positive fraction. -/
def floorLog (n d : Nat) : Int :=
  let e : Int := (Nat.log2 n : Int) - Nat.log2 d
  if d * 2 ^ e.toNat ≤ n * 2 ^ (-e).toNat then e else e - 1

/-! ## SipHash-2-4 (R369) -/

/-- A 64-bit rotation to the left. -/
def rotl (x k : Nat) : Nat := (x * 2 ^ k + x / 2 ^ (64 - k)) % 2 ^ 64

/-- One SipRound. -/
def sipRound (v : Nat × Nat × Nat × Nat) : Nat × Nat × Nat × Nat :=
  let (v0, v1, v2, v3) := v
  let v0 := (v0 + v1) % 2 ^ 64
  let v1 := Nat.xor (rotl v1 13) v0
  let v0 := rotl v0 32
  let v2 := (v2 + v3) % 2 ^ 64
  let v3 := Nat.xor (rotl v3 16) v2
  let v0 := (v0 + v3) % 2 ^ 64
  let v3 := Nat.xor (rotl v3 21) v0
  let v2 := (v2 + v1) % 2 ^ 64
  let v1 := Nat.xor (rotl v1 17) v2
  let v2 := rotl v2 32
  (v0, v1, v2, v3)

/-- SipHash-2-4 of a byte string under a key of two words. -/
def sipHash (k0 k1 : Nat) (m : Bytes) : Nat :=
  let le (i : Nat) : Nat := beNat ((List.range 8).map fun j => m.getD (8 * i + 7 - j) 0)
  let n := m.length
  let tail := (n % 256) * 2 ^ 56 + le (n / 8) % 2 ^ 56
  let words := (List.range (n / 8)).map le ++ [tail]
  let v := words.foldl (fun v w =>
    let (v0, v1, v2, v3) := sipRound (sipRound (v.1, v.2.1, v.2.2.1, Nat.xor v.2.2.2 w))
    (Nat.xor v0 w, v1, v2, v3))
    (Nat.xor k0 0x736f6d6570736575, Nat.xor k1 0x646f72616e646f6d, Nat.xor k0 0x6c7967656e657261, Nat.xor k1 0x7465646279746573)
  let (v0, v1, v2, v3) := sipRound (sipRound (sipRound (sipRound (v.1, v.2.1, Nat.xor v.2.2.1 0xff, v.2.2.2))))
  Nat.xor (Nat.xor v0 v1) (Nat.xor v2 v3)

/-- U of R369. -/
def stochasticU (ctx gen epoch elem : Nat) : Nat :=
  sipHash 0 0 (beBytes 2 ctx ++ beBytes 1 gen ++ zeros 1 ++ beBytes 6 epoch ++ beBytes 6 elem) % 2 ^ 32

/-! ## Rounding (R368 to R372) -/

/-- A fraction rounded to whole units by ROUND, and whether it was exact. -/
def roundUnits (mode u n d : Nat) : Nat × Bool :=
  let k := n / d
  let r := n % d
  let up := match mode with
    | 0 => d < 2 * r || (2 * r = d && k % 2 = 1)
    | 1 => false
    | _ => u * d < r * 2 ^ 32
  (if up then k + 1 else k, r = 0)

/-- A written element: code, and the flags OV, UF, NX. -/
structure Written where
  code : Nat
  ov : Bool := false
  uf : Bool := false
  nx : Bool := false

/-- Conversion settings of a context: ROUND and OVF. -/
structure Rounding where
  mode : Nat
  ovf : Bool

/-- The code of the largest finite magnitude of a float format. -/
def maxCode (fmt : Nat) (f : FloatFmt) : Nat :=
  if fmt = 6 || fmt = 8 then 0x7E else if fmt = 9 || fmt = 10 then 2 ^ (f.e + f.m) - 1 else 2 ^ (f.e + f.m) - 2 ^ f.m - 1

/-- Writes a finite result, a fraction, into a float format with its elements' scale 2^`x` (R368, R370, R372). -/
def writeFloat (fmt : Nat) (f : FloatFmt) (x : Int) (rd : Rounding) (u : Nat) (v : Bool × Nat × Nat) : Written :=
  let (neg, n, d) := v
  let place (c : Nat) : Nat := if fmt = 3 then c * 2 ^ 13 else c
  let sign := if neg then 2 ^ (f.e + f.m) else 0
  if n = 0 then { code := 0 }
  else
    let n := n * 2 ^ (-x).toNat
    let d := d * 2 ^ x.toNat
    let emin : Int := 1 - (f.bias : Int)
    let g := max (floorLog n d) emin - f.m
    let un := n * 2 ^ (-g).toNat
    let ud := d * 2 ^ g.toNat
    let r := roundUnits rd.mode u un ud
    let tiny := n * 2 ^ (-emin).toNat < d * 2 ^ emin.toNat
    -- the largest finite magnitude and its spacing, in units of 2^gm
    let top := maxCode fmt f
    let ex := top / 2 ^ f.m
    let m := 2 ^ f.m + top % 2 ^ f.m
    let gm : Int := (ex : Int) - f.bias - f.m
    let a := n * 2 ^ (-gm).toNat
    let b := d * 2 ^ gm.toNat
    let away := (roundUnits rd.mode u a b).1 > m
    let above := match rd.mode with
      | 0 => (2 * m + 1) * b ≤ 2 * a
      | 1 => (m + 1) * b ≤ a
      | _ => (m + 1) * b ≤ a || (m * b < a && away)
    if above && !isMx fmt then
      let c := if !rd.ovf then top else if fmt = 6 then 0x7F else (2 ^ f.e - 1) * 2 ^ f.m
      { code := place (if rd.ovf && fmt = 6 then c else c + sign), ov := true, nx := true }
    else
      -- units of 2^g to a code
      let q := r.1
      let c := if q = 0 then 0 else (g - (emin - f.m)).toNat * 2 ^ f.m + q
      let clamped := top < c
      let c := min c top
      { code := if c = 0 then 0 else place (c + sign), uf := tiny && !r.2, nx := !r.2 || clamped }

/-- Writes a finite result into an integer format (R368, R370). -/
def writeInt (fmt : Nat) (rd : Rounding) (u : Nat) (v : Bool × Nat × Nat) : Written :=
  let (neg, n, d) := v
  let w := fmtBits fmt
  let m := if neg then 2 ^ (w - 1) else 2 ^ (w - 1) - 1
  let r := roundUnits rd.mode u n d
  let above := match rd.mode with
    | 0 => (2 * m + 1) * d ≤ 2 * n
    | 1 => (m + 1) * d ≤ n
    | _ => (m + 1) * d ≤ n || (m * d < n && m < r.1)
  let k : Int := if above then m else min r.1 m
  { code := natOfInt w (if neg then -k else k), ov := above, nx := above || !r.2 }

/-- The code of an element whose class is not FINITE, and whether NV is set (Table 15.7). -/
def writeClass (fmt cls : Nat) : Nat × Bool :=
  let w := fmtBits fmt
  if isInt fmt then
    (if cls = 1 then 2 ^ (w - 1) - 1 else if cls = 2 then 2 ^ (w - 1) else 0, true)
  else
    match floatFmt fmt with
    | none => (0, false)
    | some f =>
      let place (c : Nat) : Nat := if fmt = 3 then c * 2 ^ 13 else c
      let inf := (2 ^ f.e - 1) * 2 ^ f.m
      if fmt = 9 || fmt = 10 then (0, false)
      else if fmt = 6 || fmt = 8 then (0x7F, false)
      else if cls = 3 then (place (inf + 2 ^ (f.m - 1)), false)
      else (place (if cls = 2 then inf + 2 ^ (f.e + f.m) else inf), false)

/-- The written elements of a chunk or MX block: codes, special elements, and the flags OV, UF, NX, NV. -/
structure Output where
  codes : List Nat := []
  special : List Bool := []
  ov : Bool := false
  uf : Bool := false
  nx : Bool := false
  nv : Bool := false

/-- Adds a written element to an output. -/
def Output.add (o : Output) (w : Written) (special nv : Bool) : Output :=
  { codes := o.codes ++ [w.code], special := o.special ++ [special], ov := o.ov || w.ov, uf := o.uf || w.uf,
    nx := o.nx || w.nx, nv := o.nv || nv }

/-- One element to be written: class, exact result, U. -/
structure Exact where
  cls : Nat
  v : Bool × Nat × Nat
  u : Nat

/-- Whether the code of a finite result reads as an infinity or NaN (R373). -/
def readsSpecial (fmt : Nat) (code : Nat) : Bool :=
  match floatFmt fmt with
  | none => false
  | some f => match decodeFloat fmt f code with | .fin _ _ => false | _ => true

/-- Writes elements into a format without a shared scale. -/
def writePlain (fmt : Nat) (rd : Rounding) (l : List Exact) : Output :=
  l.foldl (fun o e =>
    if e.cls ≠ 0 then
      let r := writeClass fmt e.cls
      o.add { code := r.1 } true r.2
    else
      match floatFmt fmt with
      | none => o.add (writeInt fmt rd e.u e.v) false false
      | some f =>
        let w := writeFloat fmt f 0 rd e.u e.v
        o.add w (readsSpecial fmt w.code) false) {}

/-- Writes one block of an MX format (R372): scale code and elements. -/
def writeMxBlock (fmt : Nat) (rd : Rounding) (l : List Exact) : Nat × Output :=
  match floatFmt fmt with
  | none => (0, {})
  | some f =>
    let emax : Int := if fmt = 8 then 8 else if fmt = 9 then 4 else 2
    let logs := (l.filter fun e => e.cls = 0 && e.v.2.1 ≠ 0).map fun e => floorLog e.v.2.1 e.v.2.2
    let raw : Int := match logs with
      | [] => -127
      | a :: r => max (-127) (r.foldl max a - emax)
    let above := 127 < raw
    let dead := (above && rd.ovf) || (fmt ≠ 8 && l.any fun e => e.cls ≠ 0)
    if dead then
      let code := if fmt = 8 then 0x7F else 0
      (0xFF, { codes := l.map fun _ => code, special := l.map fun _ => true, ov := above, uf := false
               nx := (above && rd.ovf) || l.any fun e => e.cls = 0 })
    else
      let x := min raw 127
      let o := l.foldl (fun o e =>
        if e.cls ≠ 0 then o.add { code := (writeClass fmt e.cls).1 } true false
        else o.add (writeFloat fmt f x rd e.u e.v) false false) ({ ov := above, nx := above } : Output)
      ((x + 127).toNat, o)

/-- Packs codes of `w` bits, most significant first, padded to whole bytes (R357). -/
def packCodes (w : Nat) (codes : List Nat) : Bytes :=
  let bits := codes.length * w
  let n := codes.foldl (fun a c => a * 2 ^ w + c % 2 ^ w) 0
  let len := ceilDiv bits 8
  beBytes len (n * 2 ^ (8 * len - bits))

/-- Cuts a list into runs of `k`, with fuel for its length. -/
def chunksOf {α : Type} (k : Nat) : Nat → List α → List (List α)
  | 0, _ => []
  | n + 1, l => if l = [] then [] else l.take k :: chunksOf k n (l.drop k)

/-- Writes a chunk into its output format: bytes, special elements and flags (R368 to R373). -/
def writeChunk (fmt : Nat) (rd : Rounding) (l : List Exact) : Bytes × Output :=
  if isMx fmt then
    (chunksOf 32 l.length l).foldl (fun a b =>
      let r := writeMxBlock fmt rd b
      (a.1 ++ beBytes 1 r.1 ++ packCodes (fmtBits fmt) r.2.codes,
        { codes := [], special := a.2.special ++ r.2.special, ov := a.2.ov || r.2.ov, uf := a.2.uf || r.2.uf,
          nx := a.2.nx || r.2.nx, nv := a.2.nv || r.2.nv })) ([], {})
  else
    let o := writePlain fmt rd l
    (o.codes.flatMap (beBytes (fmtBits fmt / 8)), o)

end Sys2Proof.Machine
end

