-- ==== Sys2Proof/Machine/Seam.lean ====
section
/-!
DEFINITION. Seam links as every other meaning reads them (R13, R16 to R20, R24): their ends, lane groups and channels, the arbiter of
flit slots, and the routes between dies that share no link. `high` names the direction from the high end of a link.
-/
namespace Sys2Proof.Machine

/-! ## Links (R13, Table 1.3) -/

/-- The ends of a Seam link: low die, high die. -/
def linkEnds (k : Nat) : Nat × Nat :=
  if k = 0 then (0, 1)
  else if k < 5 then (0, k + 1)
  else if k < 9 then (1, k - 3)
  else if k < 11 then (0, k + 13)
  else if k < 13 then (1, k + 11)
  else if k < 19 then [(2, 3), (2, 4), (2, 5), (3, 4), (3, 5), (4, 5)].getD (k - 13) (2, 3)
  else if k < 23 then (k - 17, 22 + (k - 19) / 2)
  else if k < 31 then (2 + (k - 23) / 2, k + 1)
  else (k - 7, k + 1)

/-- Lane groups of a link, and the active lanes of each. -/
def linkGroups (k : Nat) : Nat × Nat :=
  if k < 9 then (1, 16) else if k < 13 then (1, 8) else if k < 19 then (8, 64) else if k < 23 then (4, 64)
  else if k < 31 then (1, 4) else (1, 2)

/-- A Seam link, at full width where nothing has failed. -/
def seamAt (s : State) (k : Nat) : SeamLink :=
  let full := List.replicate (linkGroups k).1 { spares := 2 : SeamGroup }
  tget s.seam k { low := full, high := full }

/-- The groups of a direction. -/
def SeamLink.dir (x : SeamLink) (high : Bool) : List SeamGroup := if high then x.high else x.low

/-- Changes a Seam link. -/
def modSeam (k : Nat) (g : SeamLink → SeamLink) (s : State) : State := { s with seam := tset s.seam k (g (seamAt s k)) }

/-- Active lanes of one direction (R22). -/
def activeLanes (s : State) (k : Nat) (high : Bool) : Nat :=
  let n := (linkGroups k).2
  (((seamAt s k).dir high).map fun g => if g.half = 0 then n else if g.half = 3 then 0 else n / 2).sum

/-- Whether a link has a group in service in each direction (R26). -/
def seamUp (s : State) (k : Nat) : Bool := activeLanes s k false ≠ 0 && activeLanes s k true ≠ 0

/-- Unused spares of one direction. -/
def sparesOf (s : State) (k : Nat) (high : Bool) : Nat := (((seamAt s k).dir high).map (·.spares)).sum

/-- Unused spares over every link of a die, both directions (Table 1.7). -/
def dieSpares (s : State) (d : Nat) : Nat :=
  (((List.range 39).filter fun k => (linkEnds k).1 = d || (linkEnds k).2 = d).map fun k =>
    sparesOf s k false + sparesOf s k true).sum

/-- The link between two dies; 39 where they share none (Table 1.3). -/
def linkBetween (a b : Nat) : Nat := ((List.range 39).find? fun k => linkEnds k = (min a b, max a b)).getD 39

/-! ## Channels and flit slots (R17 to R20) -/

/-- The channels that a link carries, by their numbers in Table 1.4: 0 IRQ, 1 COH, 2 MEM, 3 MGMT, 4 DBG (Table 1.3). -/
def linkChannels (k : Nat) : List Nat :=
  if k < 9 then [0, 1, 2, 3, 4] else if k < 13 then [0, 1, 3, 4] else if k < 23 then [0, 1, 2, 3, 4] else if k < 31 then [0, 3, 4]
  else [3, 4]

/-- One direction of a link as its transmitter has it. -/
def SeamLink.way (x : SeamLink) (high : Bool) : SeamWay := if high then x.highWay else x.lowWay

/-- A link with one direction's transmitter changed. -/
def SeamLink.setWay (x : SeamLink) (high : Bool) (w : SeamWay) : SeamLink := if high then { x with highWay := w } else { x with lowWay := w }

/-- Whether a channel has credit on a link: fewer flits stand unreturned than the receiver has room for (R17). -/
def SeamWay.hasCredit (w : SeamWay) (k c : Nat) : Bool := w.spent.getD c 0 ≤ Config.seamCredits k c

/-- Whether the caps of R18 let a channel take a slot. They hold while MEM, MGMT or DBG has a flit ready: IRQ takes at most 8 and COH
at most 16 of any 128 slots in a row. -/
def SeamWay.underCap (w : SeamWay) (ready c : Nat) : Bool :=
  let waiting := bit ready 2 || bit ready 3 || bit ready 4
  let had := ((w.taken.take 127).filter (· = some c)).length
  !waiting || (if c = 0 then had < 8 else if c = 1 then had < 16 else true)

/-- The order in which a slot is offered to the channels: the reserved slots first, then by priority (R18, Table 1.4). -/
def slotOrder (slot : Nat) : List Nat :=
  (if slot % 1024 = 512 then [4] else []) ++ (if slot % 64 = 0 then [3, 4] else []) ++ [0, 1, 2, 3, 4]

/-- The channel whose flit a transmitter sends at its present slot (R18); bit c of `ready` says that channel c has one. -/
def SeamWay.pick (w : SeamWay) (k ready : Nat) : Option Nat :=
  (slotOrder w.slot).find? fun c => (linkChannels k).contains c && bit ready c && w.hasCredit k c && w.underCap ready c

/-- One flit slot passes: the flit of the picked channel takes the next sequence number and a credit (R17, R18). -/
def SeamWay.send (w : SeamWay) (k ready : Nat) : Option (Nat × Nat) × SeamWay :=
  let c := w.pick k ready
  let w := { w with slot := w.slot + 1, taken := c :: w.taken.take 127 }
  match c with
  | none => (none, w)
  | some c => (some (w.seq, c), { w with seq := (w.seq + 1) % 1024, spent := lmod w.spent c (· + 1) })

/-- A flit reaches the far end. It is delivered when it passes its CRC and no flit before it is missing; else it waits, in the order
sent, to be replayed (R19, R20). -/
def SeamWay.receive (w : SeamWay) (flit : Nat × Nat) (crcOk : Bool) : SeamWay :=
  if crcOk && w.replay = [] then { w with expect := (flit.1 + 1) % 1024 } else { w with replay := w.replay ++ [flit] }

/-- Credit returns, by channel, for a direction. -/
def SeamWay.refund (w : SeamWay) (returns : List Nat) : SeamWay :=
  { w with spent := w.spent.zipIdx.map fun e => e.1 - returns.getD e.2 0 }

/-- A replay: every flit from the failed one on is sent again. With `ok` they arrive; else the replay has failed once more, and after 8
failures in a row the lane check runs and the count begins afresh (R20). -/
def SeamWay.again (w : SeamWay) (ok : Bool) : SeamWay :=
  if ok then { w with replay := [], fails := 0, expect := w.seq } else { w with fails := if w.fails = 7 then 0 else w.fails + 1 }

/-! ## Routes over more than one link (R16, R24, R25) -/

/-- Active lanes of the link between two dies, in the direction from the first to the second. -/
def legLanes (s : State) (x y : Nat) : Nat :=
  let k := linkBetween x y
  if k = 39 then 0 else activeLanes s k (decide ((linkEnds k).2 = x))

/-- Whether every link of a route, given by the dies it passes, is in service in the direction of the route. -/
def routeUp (s : State) : List Nat → Bool
  | x :: y :: r => legLanes s x y ≠ 0 && routeUp s (y :: r)
  | _ => true

/-- The routes from a Hall to a Mangle in the order in which R16 tries them. The last leads through the Hall's pair partner and the
Mangle of the pair, and goes on over the partner's own links (DEDUCED, log 66). -/
def mangleRoutes (a m : Nat) : List (List Nat) :=
  let h := hallDie a
  let g := hallDie (a + 1 - 2 * (a % 2))
  if a / 2 = m then [[h, mangleDie m], [h, g, mangleDie m]]
  else
    let b (x : Nat) := hallDie (2 * m + x)
    let near := a % 2
    [[h, b near, mangleDie m], [h, b (1 - near), mangleDie m], [h, g, mangleDie (a / 2), g, b (1 - near), mangleDie m],
      [h, g, mangleDie (a / 2), g, b near, mangleDie m]]

/-- The route that a Hall's contributions take to a Mangle: the first of R16 whose links are all in service. -/
def toMangle (s : State) (a m : Nat) : Option (List Nat) := (mangleRoutes a m).find? (routeUp s)

/-- The route from a Mangle to a Hall, the same in the other direction. -/
def fromMangle (s : State) (m a : Nat) : Option (List Nat) := ((mangleRoutes a m).map List.reverse).find? (routeUp s)

/-- The route from a Hall to the Cellars of another: the direct link, or through the lowest Hall whose links to both are in service
(R16). -/
def cellarRoute (s : State) (a b : Nat) : Option (List Nat) :=
  ([hallDie a, hallDie b] :: ((List.range 4).filter fun c => c ≠ a && c ≠ b).map fun c => [hallDie a, hallDie c, hallDie b]).find?
    (routeUp s)

/-- The route from a Hearth to the EIC or PIC of a Window, through the Hall that serves it (R16). -/
def windowRoute (hearth w : Nat) (pic : Bool) : List Nat :=
  [hearth, hallDie (w / 2), eicDie w] ++ (if pic then [eicDie w + 8] else [])

/-- The Hall–Hall routes that share the frames of one direction while its link is relayed (R24): direct, then through each other Hall, in
ascending order, with its remaining lanes. -/
def crossRoutes (s : State) (a b : Nat) : List Nat :=
  legLanes s (hallDie a) (hallDie b) ::
    ((List.range 4).filter fun c => c ≠ a && c ≠ b).map fun c =>
      min (legLanes s (hallDie a) (hallDie c)) (legLanes s (hallDie c) (hallDie b))

/-- Whether R24 relays frames between two Halls. -/
def crossRelayed (s : State) (a b : Nat) : Bool := (seamAt s (linkBetween (hallDie a) (hallDie b))).relayed

/-- The route of the next frame between two Halls, by its place in `crossRoutes`; none while no route is in service. Relayed frames are
shared in proportion to the lanes that remain: the route goes next that is furthest behind its share of the cells `sent` so far (DEDUCED,
log 66). -/
def pickRoute (s : State) (a b : Nat) (sent : List Nat) : Option Nat :=
  let lanes := crossRoutes s a b
  if !crossRelayed s a b then (if lanes.headD 0 = 0 then none else some 0)
  else
    (List.range 3).foldl (fun (best : Option Nat) i =>
      if lanes.getD i 0 = 0 then best
      else
        match best with
        | none => some i
        | some j => if sent.getD i 0 * lanes.getD j 0 < sent.getD j 0 * lanes.getD i 0 then some i else best) none

/-! ## The Sill (R14, R15) -/

/-- Bring-up of one direction of a Sill: each failed wire whose group of 32 has its spare left is moved to it (R14). -/
def SillWay.train (w : SillWay) : SillWay :=
  let r := w.broken.foldl (fun (a : List Nat × List Nat) n =>
    if a.2.any fun m => m / 32 = n / 32 then (a.1 ++ [n], a.2) else (a.1, a.2 ++ [n])) ([], w.spared)
  { w with broken := r.1, spared := r.2, replay := [] }

/-- The Sill of a Window after its bring-up: the count of resends begins afresh (R15). -/
def trainSill (w : Nat) (s : State) : State :=
  let x := tget s.sill w {}
  { s with sill := tset s.sill w { start := s.ns, up := x.up.train, down := x.down.train } }

end Sys2Proof.Machine
end

