-- ==== Sys2Proof/Machine/CollBase.lean ====
section
/-!
DEFINITION. Contexts and trees as their commands give them (R334, R337), what a Mangle hands to a Hall, chunk resets
(R394) and replays (R391, R392).
-/
namespace Sys2Proof.Machine

/-! ## Contexts and trees -/

/-- A context descriptor (Tables 14.2 and 14.3); a record holds GID, PORT and IN_FMT. -/
structure CtxConf where
  ctx : Nat
  gen : Nat
  stripe : Bool
  checkGid : Bool
  op : Nat
  oper : Nat
  outFmt : Nat
  round : Nat
  ovf : Bool
  home : Nat
  chunkElems : Nat
  elements : Nat
  rootMember : Nat
  upGid : Nat
  downGid : Nat
  slots : Nat
  nTotal : Nat
  recs : List (Nat × Nat × Nat)
  deriving DecidableEq, Repr

/-- A descriptor in the layout of CTX_CREATE. -/
def ctxConf (v : Bytes) : CtxConf :=
  { ctx := u16 v 0, gen := u8 v 2, stripe := bit (u8 v 3) 0, checkGid := bit (u8 v 3) 1, op := u8 v 4 % 4
    oper := u8 v 5 % 8, outFmt := u8 v 6, round := u8 v 7 % 4, ovf := bit (u8 v 7) 2, home := u8 v 8 % 2
    chunkElems := u16 v 10, elements := if field v 12 6 = 0 then 2 ^ 48 else field v 12 6
    rootMember := u16 v 18, upGid := u32 v 20 % 2 ^ 20, downGid := u32 v 24 % 2 ^ 20, slots := u32 v 28, nTotal := u32 v 32
    recs := (List.range (u8 v 9)).map fun r => (u32 v (48 + 8 * r) % 2 ^ 20, u16 v (52 + 8 * r), u8 v (54 + 8 * r)) }

/-- Whether a context reduces (Table 14.1). -/
def CtxConf.reduces (k : CtxConf) : Bool := k.op = 1 || k.op = 3

/-- CHUNKS (R338). -/
def CtxConf.chunks (k : CtxConf) : Nat := ceilDiv k.elements (max 1 k.chunkElems)

/-- Elements of a chunk by its index (R338). -/
def CtxConf.chunkLen (k : CtxConf) (i : Nat) : Nat :=
  if i % k.chunks = k.chunks - 1 then k.elements - (k.chunks - 1) * k.chunkElems else k.chunkElems

/-- RUN_CHUNKS (R384). -/
def CtxConf.runChunks (k : CtxConf) : Nat := min k.chunks (max 1 (k.slots / 2))

/-- First chunk of the run that holds a chunk, and the chunk after its last (R384). -/
def CtxConf.run (k : CtxConf) (i : Nat) : Nat × Nat :=
  let e := i / k.chunks * k.chunks
  let a := e + i % k.chunks / k.runChunks * k.runChunks
  (a, min (a + k.runChunks) (e + k.chunks))

/-- The accumulator family (R360). -/
def CtxConf.family (k : CtxConf) : Nat := (k.recs.map fun r => fmtFamily r.2.2).foldl max (fmtFamily k.outFmt)

/-- The Mangle that handles a chunk index (R340). -/
def CtxConf.mangle (k : CtxConf) (i : Nat) : Nat := if k.stripe then (k.home + i) % 2 else k.home

/-- Slots that a context reserves in a Mangle (R339). -/
def CtxConf.slotsIn (k : CtxConf) (m : Nat) : Nat :=
  if !k.reduces then 0 else if k.stripe then k.slots / 2 else if k.home = m then k.slots else 0

/-- Bytes of the partial of `n` elements without extension records (R365). -/
def partialBytes (n : Nat) : Nat := 16 * n + 2 * ceilDiv n 16

/-- A Hamper entry's size for a partial of `n` bytes (R388). -/
def entrySize (n : Nat) : Nat := ceilDiv (64 + n) 64 * 64

/-- A tree: K, S, J and the GIDs kept by position (R334). -/
structure TreeConf where
  k : Nat := 1
  s : Nat := 1
  j : Nat := 0
  gids : List (Nat × Nat) := []
  deriving DecidableEq, Repr

/-- A tree in the layout of the staged item: K, three bytes of zero, S, J, then positions with their GIDs. None gives a
root without children. -/
def treeConf (v : Bytes) : TreeConf :=
  if v = [] then {}
  else { k := u8 v 0, s := u32 v 4, j := u32 v 8
         gids := (List.range ((v.length - 12) / 8)).map fun i => (u32 v (12 + 8 * i), u32 v (16 + 8 * i)) }

/-- Child positions (R334). -/
def TreeConf.children (t : TreeConf) : List Nat :=
  let a := t.k * t.j + 1
  (List.range (min (t.k * t.j + t.k) (t.s - 1) + 1 - a)).map (a + ·)

/-- The parent position; only asked of a part that is not the root. -/
def TreeConf.parentPos (t : TreeConf) : Nat := (t.j - 1) / max 1 t.k

/-- PARENT_MEMBER. -/
def TreeConf.parentMember (t : TreeConf) : Nat := (t.j - 1) % max 1 t.k

/-- The positions whose GIDs the part uses (R334). -/
def TreeConf.uses (t : TreeConf) : List Nat := (if t.j = 0 then [] else [t.parentPos]) ++ t.children

/-- The live descriptor of a context. -/
def ctxOf (s : State) (c : Nat) : CtxConf := ctxConf (liveValue s (.ctx c))
/-- The live tree of a context. -/
def treeOf (s : State) (c : Nat) : TreeConf := treeConf (liveValue s (.tree c))
/-- Whether the part is the root of a context. -/
def isRoot (s : State) (c : Nat) : Bool := (treeOf s c).j = 0

/-- The running state of a context, if it is valid. -/
def ctxAt (s : State) (c : Nat) : Option CtxRun := tfind s.coll.ctxs c

/-- The valid contexts of a block. -/
def blockCtxs (s : State) (key : Nat) : List Nat := (s.coll.ctxs.map (·.1)).filter fun c => ctxOwner s c = some key

/-- Changes the running state of a context. -/
def modCtx (c : Nat) (g : CtxRun → CtxRun) (s : State) : State :=
  match ctxAt s c with
  | some r => { s with coll := { s.coll with ctxs := tset s.coll.ctxs c (g r) } }
  | none => s

/-- A Mangle. -/
def mangleAt (s : State) (m : Nat) : Mangle := s.coll.mangles.getD m {}

/-- Changes a Mangle. -/
def modMangle (m : Nat) (g : Mangle → Mangle) (s : State) : State :=
  { s with coll := { s.coll with mangles := s.coll.mangles.set m (g (mangleAt s m)) } }

/-- The state of the block that owns a context, RUNNING where no block does (R400). -/
def ctxRunning (s : State) (c : Nat) : Bool :=
  ((ctxOwner s c).bind (blockAt s)).all fun b => b.state = .running

/-- A chunk of a context. -/
def chunkAt (s : State) (c i : Nat) : Option Chunk := (ctxAt s c).bind fun r => tfind r.chunks i

/-- Changes a chunk that holds a slot. -/
def modChunk (c i : Nat) (g : Chunk → Chunk) (s : State) : State :=
  match chunkAt s c i with
  | some x => modCtx c (fun r => { r with chunks := tset r.chunks i (g x) }) s
  | none => s

/-- Insertion of a number in ascending order, each number once. -/
def insertNat (n : Nat) : List Nat → List Nat
  | [] => [n]
  | a :: r => if n < a then n :: a :: r else if n = a then a :: r else a :: insertNat n r

/-- Numbers in ascending order, each once. -/
def sortNat (l : List Nat) : List Nat := l.foldl (fun a n => insertNat n a) []

/-! ## Handing frames to a Hall (R267, R341, R347) -/

/-- The Hall by which a frame for a port leaves a Mangle: the first on the route of R16; while no route is in service, the first on the
route that R16 names first. -/
def gateHall (s : State) (m port : Nat) : Nat :=
  match fromMangle s m (hallOf port) with
  | some (_ :: d :: _) => d - 2
  | _ => if hallOf port / 2 = m then hallOf port else 2 * m + hallOf port % 2

/-- Whether a Hall's Mangle reserve has room for cells (R267), and a Mangle reaches the Hall (R25). -/
def mangleRoom (s : State) (m h c : Nat) : Bool := (hallAt s h).mangleUse + c ≤ 2048 && legLanes s (mangleDie m) (hallDie h) ≠ 0

/-- The header of a frame that the part originates in a context (Table 14.7). -/
def collFrame (s : State) (k : CtxConf) (kind gid fmt chunk member : Nat) (payload : Bytes) : Frame :=
  sealFrame { kind, tc := 5, latchkey := (ctxOwner s k.ctx).getD 0, destGid := gid
              srcGid := if s.maloa.selfGidValid then s.maloa.selfGid else 0, e2eSeq := chunk % 2 ^ 32
              length := payload.length, ctx := k.ctx, gen := k.gen, fmt, chunk := chunk % 2 ^ 32, member, payload }

/-- A frame in a Hall's Mangle reserve. -/
def enterReserve (h port : Nat) (f : Frame) (s : State) : Held × State :=
  ({ frame := f, inPort := 1280, via := .coll, store := .mangle, hopped := true, port, vc := 5 },
    modHall h (fun a => { a with mangleUse := a.mangleUse + cellsOf f }) s)

/-- Hands a frame of a Mangle to the Hall of its port; one whose port's mask bit is 0 is discarded. -/
def handOne (m port : Nat) (f : Frame) (s : State) : State :=
  let h := gateHall s m port
  let r := enterReserve h port f s
  if maskBit s port then enqueue h r.1 r.2 else discardMasked h r.1 r.2

/-- The ports of a group that take a copy (R215), and how many of its members take none. -/
def liveMembers (s : State) (c : Nat) (ports : List Nat) : List Nat × Nat :=
  let all := groupPorts (entryWords s 3 c)
  let live := all.filter fun p => ports.contains p && candidateLive s p
  (live, (all.filter fun p => ports.contains p).length - live.length)

/-- Replicates a frame of a Mangle to the group of its context (R336, R348). -/
def handGroup (m : Nat) (f : Frame) (s : State) : State :=
  [2 * m, 2 * m + 1].foldl (fun s h =>
    let mine := (groupPorts (entryWords s 3 f.ctx)).filter fun p => gateHall s m p = h
    let l := liveMembers s f.ctx mine
    let s := if l.2 = 0 then s else countHall h 13 l.2 s
    if l.1 = [] then s
    else
      let r := enterReserve h (l.1.headD 0) f s
      replicate h l.1 r.1 r.2) s

/-- Whether cells of a group frame have room in each Hall of its pair by which a Mangle hands it on. -/
def pairRoom (s : State) (m cells : Nat) : Bool :=
  let reach (h : Nat) : Bool := legLanes s (mangleDie m) (hallDie h) ≠ 0
  (reach (2 * m) || reach (2 * m + 1)) && [2 * m, 2 * m + 1].all fun h => !reach h || mangleRoom s m h cells

/-- Whether a group frame has room in each Hall by which it leaves. -/
def groupRoom (s : State) (m : Nat) (f : Frame) : Bool := pairRoom s m (cellsOf f)

/-- Hands on the frames that wait in a Mangle, in order, as far as there is room. (DEDUCED, log 47.) -/
def pushOut (m : Nat) (s : State) : State :=
  let r := (mangleAt s m).output.foldl (fun (a : List (Nat × Frame) × State) e =>
    if a.1 = [] && mangleRoom a.2 m (gateHall a.2 m e.1) (cellsOf e.2) then ([], handOne m e.1 e.2 a.2)
    else (a.1 ++ [e], a.2)) ([], s)
  modMangle m (fun x => { x with output := r.1 }) r.2

/-! ## Chunk resets (R394) -/

/-- Resets a chunk: nothing of it remains, and its DONE bit is 0. -/
def resetChunk (c i cause : Nat) (s : State) : State :=
  let m := (ctxOf s c).mangle i
  let s := modCtx c (fun r => { r with chunks := tdel r.chunks i, hamper := tdel r.hamper i, done := r.done.filter (· ≠ i)
                                       unlogged := r.unlogged.filter (· ≠ i), resets := r.resets + 1 }) s
  raiseLimited 0x0920 c second (fun n s => raise 0x0920 (mangleDie m) 2 c i (cause * 2 ^ 24 + n % 2 ^ 24) s) (countMangle m 18 1 s)

/-! ## Replay (R391, R392) -/

/-- A chunk that a replay needs cannot be replayed: reported, and reset (R392). -/
def hamperLost (c i why : Nat) (s : State) : State :=
  let m := (ctxOf s c).mangle i
  resetChunk c i 2 (raise 0x0922 (mangleDie m) 3 c i why (countMangle m 24 1 s))

/-- Replays one chunk: its entry's frames are read and wait to be handed on. -/
def replayEntry (c i : Nat) (e : Hamper) (s : State) : State :=
  let m := e.mangle
  let h := 2 * m + i % 2
  let lines := e.size / 64
  let s := if e.written then countLines h 1 0 lines (useTokens h 1 lines s) else s
  let port := ((ctxAt s c).bind (·.parent)).getD 0
  let s := modMangle m (fun x => { x with output := x.output ++ e.frames.map fun f => (port, f) }) s
  countMangle m 25 1 (modCtx c (fun r => { r with replayed := r.replayed + 1 }) s)

/-- The timer of R391: when it started and its REPLAY_WAIT. It starts when the oldest unreleased logged chunk is handed on, and afresh at
each RELEASE advance, replay and BLOCK_RESUME (R400); it does not run while nothing is logged. -/
def CtxRun.replayTimer (r : CtxRun) : Option (Nat × Nat) :=
  (r.hamper.map fun e => (e.2.since, e.2.wait)).foldl (fun (a : Option (Nat × Nat)) e =>
    match a with
    | none => some e
    | some b => if e.1 < b.1 then some e else a) none |>.map fun first =>
      match r.restart with
      | some t => if first.1 ≤ t.1 then t else first
      | none => first

/-- Replays the Hamper log of a context (R391). `lost` lists the chunks whose entries read back uncorrectable (1) or
poisoned (2). (DEDUCED, log 47.) -/
def replay (c : Nat) (lost : List (Nat × Nat)) (s : State) : State :=
  match ctxAt s c with
  | none => s
  | some r =>
    if isRoot s c || !(ctxOf s c).reduces || r.failed then s
    else
      let idx := (sortNat (r.hamper.map (·.1) ++ r.unlogged)).filter (r.rel ≤ ·)
      let out := idx.foldl (fun (a : List Nat × State) i =>
        match tfind r.hamper i with
        | none => (a.1, hamperLost c i 3 a.2)
        | some e =>
          match (if e.written then lost.find? fun x => x.1 = i else none) with
          | some x => (a.1, hamperLost c i (if x.2 = 2 then 2 else 1) a.2)
          | none => (a.1 ++ [i], replayEntry c i e a.2)) ([], s)
      let s := pushOut 1 (pushOut 0 (modCtx c (fun r => { r with restart := some (s.ns, s.coll.replayWait) }) out.2))
      match out.1 with
      | [] => s
      | i :: _ =>
        raiseLimited 0x0921 c second (fun _ s => raise 0x0921 (mangleDie (ctxOf s c).home) 2 c i out.1.length s) s

/-- The contexts whose parent port is `p` replay at once when it returns to the live set (R391). -/
def replayParent (p : Nat) (s : State) : State :=
  ((s.coll.ctxs.filter fun e => e.2.parent = some p).map (·.1)).foldl (fun s c => replay c [] s) s

end Sys2Proof.Machine
end

