-- ==== Sys2Proof/Machine/Mask.lean ====
section
/-!
DEFINITION. The fault table (R436), part states (R438), the live mask (R443 to R446), the frames by which Darning
advertises them (R441, R442), and the change of a port's state (R137, R138).
-/
namespace Sys2Proof.Machine

/-! ## Fault records -/

/-- Changes Darning's state. -/
def modDarn (g : Darn → Darn) (s : State) : State := { s with darn := g s.darn }

/-- Whether a record is the open record of a class, die and object. -/
def FaultRec.same (cls die object : Nat) (r : FaultRec) : Bool :=
  r.cls = cls && r.die = die && r.object = object && r.state ≠ 2

/-- Drops the oldest cleared record. -/
def dropCleared : List FaultRec → List FaultRec
  | [] => []
  | r :: l => if r.state = 2 then l else r :: dropCleared l

/-- Records a fault of a class at an object of a die (R436); `st` is 0 active, 1 covered by a spare. A full table of
1,024 records gives up its oldest cleared one; with none cleared the new fault is not recorded (DESIGN CHOICE, log 24). -/
def recordFault (cls st die object : Nat) (s : State) : State :=
  let d := s.darn
  if d.faults.any (FaultRec.same cls die object) then
    let upd (r : FaultRec) : FaultRec :=
      if r.same cls die object then { r with state := st, last := mantel s, times := r.times + 1 } else r
    modDarn (fun d => { d with faults := d.faults.map upd }) s
  else
    let kept := if d.faults.length < 1024 then d.faults else dropCleared d.faults
    if 1024 ≤ kept.length then s
    else modDarn (fun d => { d with
      nextFault := d.nextFault + 1
      faults := kept ++ [{ id := d.nextFault, cls, state := st, die, object, first := mantel s, last := mantel s, times := 1 }] }) s

/-- Marks the record of a fault cleared. -/
def clearFault (cls die object : Nat) (s : State) : State :=
  modDarn (fun d => { d with faults := d.faults.map fun r => if r.same cls die object then { r with state := 2 } else r }) s

/-! ## Part states (R438, R450) -/

/-- Whether a Window was declared out of service. -/
def windowOut (w : Window) : Bool := !w.inService && w.cause ≠ 0

/-- Whether some Seam link runs below full width. -/
def seamNarrow (s : State) : Bool :=
  s.seam.any fun e => e.2.relayed || (e.2.low ++ e.2.high).any fun g => g.half ≠ 0

/-- PHASE.DEGRADED (Table 2.6). -/
def phaseDegraded (s : State) : Bool :=
  s.boot.leadB || s.boot.bLeads || (1 ≤ s.boot.phase && !s.boot.standbyReady) || s.windows.any (fun e => windowOut e.2) ||
  seamNarrow s

/-- The DEGRADED flag of R438. -/
def degraded (s : State) : Bool :=
  phaseDegraded s || s.boot.dies.any (fun e => e.2.state = 2 || e.2.state = 3) ||
  s.darn.faults.any fun r => r.state = 0 && [4, 5, 6, 7, 0xA, 0xB].contains r.cls

/-- Whether Darning counts the part as FAILED. -/
def partFailed (s : State) : Bool := s.darn.state = 3

/-! ## DARNING frames (R441, R442) -/

/-- Darning's record of a port. -/
def darnPort (s : State) (p : Nat) : DarnPort := tget s.darn.ports p {}

/-- Changes Darning's record of a port. -/
def modDarnPort (p : Nat) (g : DarnPort → DarnPort) (s : State) : State :=
  modDarn (fun d => { d with ports := tset d.ports p (g (darnPort s p)) }) s

/-- The POD tag of a port; 0xFFF is none. -/
def podTag (s : State) (p : Nat) : Nat := if (liveValue s (.darnPort p)) = [] then 0xFFF else u16 (liveValue s (.darnPort p)) 0

/-- Whether the peer of a port is a switch (R441). -/
def switchPeer (s : State) (p : Nat) : Bool := (linkAt s p).peerType = 1 || (linkAt s p).peerType = 2

/-- Ports whose mask bit is 1. -/
def livePorts (s : State) : List Nat := (s.links.map (·.1)).filter (maskBit s)

/-- REACH (R442). -/
def reachOf (s : State) : Nat :=
  if s.darn.state = 1 then maskOf (((livePorts s).map (podTag s)).filter (· < 4095)) else 0

/-- Ports whose VERDICT is 1 (R442). -/
def verdictPorts (s : State) : List Nat :=
  (s.darn.ports.filter fun e => e.2.exclude || e.2.flapHeld).map (·.1)

/-- FLAGS of a DARNING frame (Table 18.4). -/
def darnFlags (s : State) (triggered : Bool) : Nat :=
  b2n (degraded s) + 2 * b2n triggered + 4 * b2n (!s.boot.standbyReady)

/-- Puts a frame of the part's own making at the tail of a queue of a port. -/
def sendOwn (p vc : Nat) (f : Frame) (s : State) : State :=
  linkTail { frame := sealFrame f, inPort := 1280, via := .own, store := .nothing, hopped := true, port := p, vc } s

/-- SELF_GID, or 0 when it is not valid. -/
def selfGid (s : State) : Nat := if s.maloa.selfGidValid then s.maloa.selfGid else 0

/-- Sends one DARNING frame on a port (R441). -/
def sendDarning (triggered : Bool) (s : State) (p : Nat) : State :=
  let d := darnPort s p
  let s := modDarnPort p (fun d => { d with seq := (d.seq + 1) % 65536 }) s
  let state := if failedAt s p then 3 else s.darn.state
  let payload := beBytes 1 1 ++ beBytes 1 state ++ beBytes 1 (darnFlags s triggered) ++
    beBytes 1 (b2n (d.exclude || d.flapHeld)) ++ beBytes 8 Config.deviceSerial ++ beBytes 2 p ++ beBytes 2 d.seq ++
    zeros 16 ++ bitmapBytes 512 (reachOf s)
  countPort p 71 1 (sendOwn p 6 { kind := 9, tc := 6, srcGid := selfGid s, length := 544, payload } s)

/-- The ports on which the part sends DARNING frames (R442, R439): UP, with a switch as peer, in a Hall in service. -/
def darnSenders (s : State) : List Nat :=
  if s.boot.phase < 6 then []
  else (s.links.map (·.1)).filter fun p =>
    carriesFrames s p && isUp s p && switchPeer s p && !(s.boot.dies.any fun e => e.1 = hallDie (hallOf p) && e.2.state = 3)

/-- Sends triggered frames when STATE, FLAGS, REACH or a VERDICT has changed (R442). -/
def advertise (s : State) : State :=
  let now := (s.darn.state, darnFlags s false, reachOf s, verdictPorts s)
  if now = s.darn.told then s
  else (darnSenders s).foldl (sendDarning true) (modDarn (fun d => { d with told := now }) s)

/-! ## The live mask (R443 to R446) -/

/-- Why a port in UP or UP_DEGRADED is not eligible to be live: a cause of PORT_MASKED (R443, Table 18.10). -/
def darnCause (s : State) (p : Nat) : Option Nat :=
  let d := darnPort s p
  let peer : Option Nat :=
    if !switchPeer s p then none
    else
      match d.rx with
      | none => some 3
      | some r =>
        if r.at' + r.limit < s.ns then some 3
        else if r.state ≠ 1 then some 4
        else if r.verdict ≠ 0 then some 5
        else if podTag s p < 4095 && !bit r.reach (podTag s p) then some 6
        else none
  if peer.isSome then peer
  else if d.exclude then some 7
  else if d.flapHeld then some 8
  else if (s.darn.state ≠ 1 && s.darn.state ≠ 2) || s.darn.hallFailed.contains (hallOf p) then some 9
  else none

/-- A port joins or leaves the eligible sets that name it: their round-robin states are reset to zero (R212). -/
def resetRounds (p : Nat) (s : State) : State :=
  let names (set : Nat) : Bool := (candidates (entryWords s 2 set)).any fun c => c.1 = p
  { s with fwd := { s.fwd with rr := s.fwd.rr.filter fun e => !names e.1.2.2 } }

/-- A port may have joined or left eligible sets: `before` tells whether it was a live candidate. -/
def roundsAfter (p : Nat) (before : Bool) (s : State) : State :=
  if candidateLive s p = before then s else resetRounds p s

/-- Clears a port's mask bit with a cause: counted and raised, the flap rule applied, its queues emptied (R443, R445,
R220). -/
def clearMask (p cause : Nat) (s : State) : State :=
  let die := hallDie (hallOf p)
  let s := roundsAfter p (candidateLive s p) (modDarn (fun d => { d with mask := d.mask - 2 ^ p }) s)
  let s := countPort p 75 1 s
  let s := raiseLimited 0x0B01 p second (fun _ s => raise 0x0B01 die 2 p cause (linkAt s p).peerSerial s) s
  let recent := ((darnPort s p).clears.filter fun t => s.ns - t < s.darn.flapWindow * second) ++ [s.ns]
  let held := (darnPort s p).flapHeld
  let s := modDarnPort p (fun d => { d with clears := recent, clearedAt := some s.ns, since := none, outSince := none }) s
  let s := if !held && s.darn.flapCount ≤ recent.length then
      raise 0x0B03 die 3 p recent.length s.darn.flapHold (modDarnPort p (fun d => { d with
        flapHeld := true, flapHold := { start := s.ns, limit := s.darn.flapHold * second } }) s)
    else s
  emptyPort p s

/-- Sets a port's mask bit (R443, R454); one that returns starts the replays of R391. -/
def setMask (p : Nat) (s : State) : State :=
  let s := roundsAfter p (candidateLive s p) (modDarn (fun d => { d with mask := d.mask ||| 2 ^ p }) s)
  let was := (darnPort s p).clearedAt
  let s := modDarnPort p (fun d => { d with clearedAt := none }) s
  match was with
  | none => s
  | some t => replayParent p <| raiseLimited 0x0B02 p second (fun _ s => raise 0x0B02 (hallDie (hallOf p)) 1 p ((s.ns - t) / 1000000) 0 s) s

/-- Judges a port's eligibility afresh. With `now`, a port that is eligible is set live without RESTORE_HOLD (R443, R444,
R446). -/
def judgePort (now : Bool) (p : Nat) (s : State) : State :=
  let st := (portAt s p).state
  if isUp s p && carriesFrames s p then
    let s := if (darnPort s p).outSince.isSome then modDarnPort p (fun d => { d with outSince := none }) s else s
    match darnCause s p with
    | some c => if maskBit s p then clearMask p c s else modDarnPort p (fun d => { d with since := none }) s
    | none =>
      if maskBit s p then s
      else if now then setMask p s
      else if (darnPort s p).since.isSome then s
      else modDarnPort p (fun d => { d with since := some { start := s.ns, limit := s.darn.restoreHold * 1000000 } }) s
  else if maskBit s p then
    if (st = .phyReady || st = .tuning) && (linkAt s p).state ≠ .down && carriesFrames s p then
      if (darnPort s p).outSince.isSome then s
      else modDarnPort p (fun d => { d with outSince := some { start := s.ns, limit := s.darn.maskHold * 1000 } }) s
    else clearMask p 2 s
  else if (darnPort s p).since.isSome then modDarnPort p (fun d => { d with since := none }) s
  else s

/-- Judges every port that has a link, in ascending order of first use, and advertises what changed. -/
def judgeAll (now : Bool) (s : State) : State :=
  advertise ((s.links.map (·.1)).foldl (fun s p => judgePort now p s) s)

/-- Moves the part to another Darning state (R438). -/
def setPartState (new cause : Nat) (s : State) : State :=
  if s.darn.state = new then s
  else
    let old := s.darn.state
    judgeAll (decide (new = 1 && old = 0))
      (raiseLead 0x0B04 4 old new cause (modDarn (fun d => { d with state := new }) s))

/-! ## Port states (R137, R138) -/

/-- Puts a port number in a state and tells Darning. -/
def setPortState (p : Nat) (new : PortState) (s : State) : State :=
  if (portAt s p).state = new then s
  else
    let was := candidateLive s p
    let s := modPort p (fun x => { x with state := new, since := s.ns }) s
    advertise (judgePort false p (roundsAfter p was s))

end Sys2Proof.Machine
end

