-- ==== Sys2Proof/Machine/Maloa.lean ====
section
/-!
DEFINITION. How a Maloa command is taken and answered (R62 to R89): the checks of R69, tokens, replies on each route,
and commands that complete later.
-/
namespace Sys2Proof.Machine

/-! ## Routes and replies -/

/-- Route codes of Table 22.1: 0 PCIe, 1 in-band, 2 Ethernet. -/
def routeOf : Source → Nat
  | .pcie => 0
  | .inband _ => 1
  | .eth _ _ => 2

/-- Counts an answered command in the filters of TYPE 0 (R520). `priv` is 0 for no level. -/
def countCommand (opcode priv route status : Nat) (s : State) : State :=
  countFilter 0 (fun f => bit f.priv priv && bit f.mask route && f.lo ≤ opcode && opcode ≤ f.hi && bit f.cls status) s

/-- Cuts a payload into segments of 4,080 bytes (R68), with fuel for its length. -/
def segments : Nat → Bytes → List Bytes
  | 0, bs => [bs]
  | n + 1, bs => if bs.length ≤ 4080 then [bs] else bs.take 4080 :: segments n (bs.drop 4080)

/-- The segments of a reply, numbered, all but the last with MORE (R68). -/
def numberSegments (r : ReplySeg) (k : Nat) : List Bytes → List ReplySeg
  | [] => []
  | [b] => [{ r with seg := k, more := false, payload := b }]
  | b :: bs => { r with seg := k, more := true, payload := b } :: numberSegments r (k + 1) bs

/-- Whether the mailbox may use DMA (R83). -/
def mailboxRuns (s : State) : Bool :=
  s.maloa.enable && s.boot.mailboxReady && s.boot.busMaster && s.maloa.err = 0

/-- Whether a reply slot is free (R84). -/
def replySlotFree (s : State) : Bool :=
  (s.maloa.rplTail + 65536 - s.maloa.rplHead) % 65536 < 2 ^ s.maloa.rplLog2

/-- Host address of the request slot of REQ_IDX.HEAD (R84). -/
def requestSlotAddr (s : State) : Nat :=
  s.maloa.reqBaseHi * 2 ^ 32 + s.maloa.reqBaseLo + s.maloa.reqHead % 2 ^ s.maloa.reqLog2 * 4096

/-- Host address of a reply slot (R84). -/
def replySlotAddr (s : State) : Nat :=
  s.maloa.rplBaseHi * 2 ^ 32 + s.maloa.rplBaseLo + s.maloa.rplTail % 2 ^ s.maloa.rplLog2 * 4096

/-- Writes one segment to the slot of RPL_IDX.TAIL, advances TAIL and signals MSI-X vector 0 (R84, Table 3.8). -/
def writeSlot (r : ReplySeg) (s : State) : State :=
  let s := emit (.slot (replySlotAddr s) r) s
  let s := { s with maloa := { s.maloa with rplTail := (s.maloa.rplTail + 1) % 65536 } }
  if s.maloa.rplIrqEn then emit (.msix 0) s else s

/-- Ends an outstanding command whose segments waited for slots. -/
def dropRingWait (tag : Nat) (s : State) : State :=
  { s with maloa := { s.maloa with outstanding := s.maloa.outstanding.filter fun o =>
      !(o.src = .pcie && o.tag = tag && o.wait = .ring) } }

/-- A segment of a PCIe reply waits for its slot, behind those that wait (R84); one of a command fetched before a RESET_RINGS is
discarded (Table 3.8). -/
def queueSlot (r : ReplySeg) (s : State) : State :=
  if r.ringGen ≠ s.maloa.ringGen then s
  else { s with maloa := { s.maloa with waiting := s.maloa.waiting ++ [r] } }

/-- The MALOA frame that carries an in-band reply segment (R88). -/
def replyFrame (r : ReplySeg) : Frame :=
  { kind := 7, tc := 6, latchkey := r.latchkey, srcGid := r.selfGid,
    destGid := (match r.src with | .inband g => g | _ => 0), length := 16 + r.payload.length, payload := r.bytes }

/-- Hands one segment to its route (R63, R84, R88, R89). -/
def routeSegment (r : ReplySeg) (s : State) : State :=
  match r.src with
  | .pcie => queueSlot r s
  | .inband _ => originate (hallOf r.ingress) (pipeOf r.ingress) (replyFrame r) s
  | .eth _ _ => emit (.datagram r.ingress r) s

/-- The last `n` entries of a list. -/
def lastOf {α : Type} (n : Nat) (l : List α) : List α := l.drop (l.length - n)

/-- Keeps the one-segment reply of a completed command of an Ethernet or in-band source, the last 64 of each (R77). -/
def cacheReply (c : CachedReply) (src : Source) (s : State) : State :=
  { s with maloa := { s.maloa with sources := s.maloa.sources.map fun e =>
      if e.src = src then
        { e with cache := lastOf 64 ((e.cache.filter fun d => d.tag ≠ c.tag) ++ [c]) }
      else e } }

/-- Sends a reply: its segments go to its route, a one-segment reply is cached, and a PCIe command stays outstanding until its last
segment is written (R68, R76, R77). A refusal at check 4 completes no command, and so is neither outstanding nor cached (DEDUCED,
log 60). `r.payload` is the whole payload. -/
def sendReply (r : ReplySeg) (crc priv : Nat) (s : State) : State :=
  let segs := numberSegments r 0 (segments 256 r.payload)
  let s := segs.foldl (fun s g => routeSegment g s) s
  let s := countCommand r.opcode priv (routeOf r.src) r.status s
  match r.src with
  | .pcie =>
    if r.ringGen = s.maloa.ringGen && !r.early then
      { s with maloa := { s.maloa with outstanding := s.maloa.outstanding ++
          [{ src := .pcie, tag := r.tag, opcode := r.opcode, wait := .ring, ringGen := r.ringGen }] } }
    else s
  | src => if r.payload.length ≤ 4080 && !r.early then cacheReply { tag := r.tag, opcode := r.opcode, crc, reply := r } src s else s

/-! ## Tokens (R71 to R73) -/

/-- What each command admits: its opcode, its levels, the grant a TENANT needs, the LENGTHs it takes, whether it only
reads (R47), and its use of TXN (R65). -/
structure OpSpec where
  opcode : Nat
  observer : Bool := false
  tenant : Bool := false
  owner : Bool := true
  grant : Option Nat := none
  coll : Bool := false             -- TENANT needs the COLL grant too (R258)
  tokenGrant : Bool := false
  lengths : Nat → Bool
  reads : Bool := false
  staging : Bool := false
  ownTxn : Bool := false

/-- Who sends an accepted command: its level, its TENANT block, and its route. -/
structure Caller where
  level : Nat
  key : Nat
  route : Nat
  deriving DecidableEq, Repr

/-- A refusal: STATUS, REASON, INFO. -/
structure Refuse where
  status : Nat
  reason : Nat := 0
  info : Nat := 0
  deriving DecidableEq, Repr

/-- OWNER's level code (Table 3.5). -/
def ownerLevel : Nat := 3

/-- The level and LATCHKEY that a token gives; token 0x0000 is OWNER on PCIe (R72). -/
def callerOf (s : State) (q : Request) : Caller :=
  if q.token = 0 then { level := ownerLevel, key := 0, route := routeOf q.src }
  else
    match tfind s.maloa.tokens q.token with
    | some t => { level := t.level, key := t.latchkey, route := routeOf q.src }
    | none => { level := 0, key := 0, route := routeOf q.src }

/-- The tests of R73 after test 1, on the token's entry: the reason of the first that fails. -/
def tokenTests (op : OpSpec) (q : Request) (t : Token) (inBlock : State → Nat → Bool) (s : State) : Option Nat :=
  if !bit t.routes (routeOf q.src) then some 2
  else if (match q.src with | .eth a _ => !bit t.bind 1 && a ≠ t.ethAddr | .inband g => !bit t.bind 0 && g ≠ t.inbandGid | _ => false)
    then some 3
  else if t.level = 2 && (blockAt s t.latchkey).isNone then some 6
  else if t.level = 2 && routeOf q.src = 1 && q.latchkey ≠ t.latchkey then some 0x0A
  else if !((t.level = 1 && op.observer) || (t.level = 2 && op.tenant) || (t.level = 3 && op.owner)) then some 4
  else if t.level = 2 && (match op.grant with
      | none => false
      | some g => !((blockAt s t.latchkey).any fun b => bit b.grants g)) then some 4
  else if t.level = 2 && op.coll && !((blockAt s t.latchkey).any fun b => bit b.grants 3) then some 4
  else if t.level = 2 && op.tokenGrant && !bit t.grants 0 then some 4
  else if t.level = 2 && !inBlock s t.latchkey then some 5
  else none

/-- Check 7 of R69: the reason for DENIED, if the token is refused (R72, R73). -/
def deniedReason (op : OpSpec) (q : Request) (inBlock : State → Nat → Bool) (s : State) : Option Nat :=
  if q.token = 0 then (if q.src = .pcie then (if op.owner then none else some 4) else some 9)
  else if 0x400 < q.token then some 1
  else
    match tfind s.maloa.tokens q.token with
    | none => some 1
    | some t => tokenTests op q t inBlock s

/-! ## Availability (R46, R47) -/

/-- Whether a command's group is accepted in the present phase (R46, Table 2.5). -/
def groupAccepted (op : OpSpec) (s : State) : Bool :=
  let g := op.opcode / 256
  if s.boot.recovery then g = 0x01 || g = 0x11
  else if 6 ≤ s.boot.phase then true
  else if s.boot.phase < 2 then false
  else
    g = 0x01 || (g = 0x10 && (s.boot.phase < 4 || (op.opcode ≠ 0x1000 && op.opcode ≠ 0x1001))) || g = 0x11 ||
    (3 ≤ s.boot.phase && (g = 0x0C || g = 0x0D || g = 0x0E || g = 0x0F)) ||
    (4 ≤ s.boot.phase && (g = 0x05 || g = 0x06 || g = 0x0B) && op.reads)

/-- Whether a route is open (Table 3.1, Table 2.5). -/
def routeOpen (src : Source) (s : State) : Bool :=
  !s.boot.lost && !s.boot.held && match src with
  | .pcie => s.boot.mailboxReady
  | .eth _ _ => 3 ≤ s.boot.phase && !s.boot.recovery
  | .inband _ => 6 ≤ s.boot.phase && s.maloa.selfGidValid

/-! ## Transactions as check 9 reads them (R233, R234, R247) -/

/-- The open transaction of a handle. -/
def txnAt (s : State) (h : Nat) : Option Txn := s.setup.txns.find? fun t => t.handle = h

/-- Replaces a transaction. -/
def setTxn (t : Txn) (s : State) : State :=
  { s with setup := { s.setup with txns := s.setup.txns.map fun u => if u.handle = t.handle then t else u } }

/-- Check 9 of R69 for a command of a given use of TXN: a wrong TXN (R65, R247). -/
def txnRefused (op : OpSpec) (q : Request) (s : State) : Option Refuse :=
  if op.ownTxn then none
  else if !op.staging then (if q.txn = 0 then none else some { status := 3, reason := 5, info := 0xFFFF })
  else if q.txn = 0 then some { status := 4, reason := 1 }
  else
    match txnAt s q.txn with
    | none => some { status := 4, reason := 2 }
    | some t =>
      if t.token ≠ q.token || t.route ≠ routeOf q.src then some { status := 6, reason := 7, info := q.token }
      else if t.state ≠ .opened then some { status := 5, reason := 0x82 }
      else none

/-- A command names a transaction: its idle time starts afresh (R235). (DEDUCED, log 48.) -/
def nameTxn (h : Nat) (s : State) : State :=
  match txnAt s h with
  | some t => setTxn { t with lastNamed := s.ns } s
  | none => s

/-! ## Taking a command (R69, R76 to R80) -/

/-- How a command's own part ends: with a reply, or outstanding until something happens. -/
inductive Done where
  | reply (status reason info : Nat) (payload : Bytes) (s : State)
  | wait (w : Wait) (s : State)

/-- A reply with STATUS OK. -/
def Done.ok (payload : Bytes) (s : State) : Done := .reply 0 0 0 payload s

/-- A refusal of the command's own checks. -/
def Done.refuse (r : Refuse) (s : State) : Done := .reply r.status r.reason r.info [] s

/-- The first check of a list that fails (R69, check 10). -/
def firstRefusal : List (Bool × Refuse) → Option Refuse
  | [] => none
  | (bad, r) :: l => if bad then some r else firstRefusal l

/-- A check that refuses with `r` when `bad` holds. -/
def chk (bad : Bool) (r : Refuse) : Bool × Refuse := (bad, r)

/-- Refuses by the first check that fails, else goes on. -/
def withChecks (cs : List (Bool × Refuse)) (s : State) (k : State → Done) : Done :=
  match firstRefusal cs with
  | some r => .refuse r s
  | none => k s

/-- BAD_PARAM (Table 3.4). -/
def badParam (reason info : Nat) : Refuse := { status := 3, reason, info }
/-- DENIED. -/
def denied (reason info : Nat) : Refuse := { status := 6, reason, info }

/-- Whether an outstanding command is one that its chapter marks deferred and that has not taken effect (R80). -/
def isDeferred (o : Outstanding) : Bool :=
  o.wait ≠ .ring && [0x0130, 0x0131, 0x0133, 0x0201, 0x0404, 0x0411, 0x0B03, 0x1103].contains o.opcode

/-- Whether an outstanding command waits for the store to take effect (R495). -/
def awaitsStore (o : Outstanding) : Bool := match o.wait with | .store _ => true | _ => false

/-- Whether a command of a source and group must wait: behind a deferred one of its group (R80), or behind one of any group that is
not deferred and has yet to take effect (R78). (DEDUCED, log 18.) -/
def mustWait (src : Source) (opcode : Nat) (s : State) : Bool :=
  s.maloa.outstanding.any fun o => o.src = src &&
    (if isDeferred o then o.opcode / 256 = opcode / 256 else awaitsStore o)

/-- Whether an earlier command of the same source must run first: one of its group is held, or one that nothing holds back any more
has yet to run (R78). (DEDUCED, log 18.) -/
def heldBefore (src : Source) (opcode : Nat) (s : State) : Bool :=
  s.maloa.held.any fun h => h.src = src && (h.opcode / 256 = opcode / 256 || !mustWait src h.opcode s)

/-- Commands of a source that are outstanding (R76). -/
def outstandingOf (src : Source) (s : State) : Nat :=
  (s.maloa.outstanding.filter fun o => o.src = src).length + (s.maloa.held.filter fun o => o.src = src).length

/-- A request packet arrives for the interpreter (R84, R87), an in-band one at a port and with a LATCHKEY. -/
def arrivePacket (src : Source) (ingress latchkey : Nat) (packet : Bytes) (s : State) : State :=
  let a : Arrival := { src, ingress, latchkey, ringGen := s.maloa.ringGen, selfGid := s.maloa.selfGid, packet }
  { s with maloa := { s.maloa with arrived := s.maloa.arrived ++ [a] } }

/-- The request's arrival is taken off the packets that wait for the interpreter; one that never waited there arrives now. (DESIGN CHOICE, log 14.) -/
def takeArrival (src : Source) (mine : Bytes → Bool) (s : State) : State :=
  let sel (a : Arrival) : Bool := a.src = src && mine a.packet
  let a := s.maloa.arrived.find? sel
  { s with maloa := { s.maloa with
      arrived := s.maloa.arrived.eraseP sel
      takenGen := (a.map (·.ringGen)).getD s.maloa.ringGen, takenGid := (a.map (·.selfGid)).getD s.maloa.selfGid } }

/-- A request is discarded without a reply: counted, and recorded at most once per route per second (R69, R95).
`cause` is 1 framing, 2 CRC, 3 duplicate TAG. -/
def discardRequest (route cause : Nat) (s : State) : State :=
  raiseLimited 0x0130 route second (fun n s => raiseLead 0x0130 2 route cause n s) (countRoute route (cause - 1) 1 s)

/-- The reply a request is owed, before STATUS and payload are known. -/
def replyTo (op : Nat) (q : Request) (s : State) : ReplySeg :=
  { src := q.src, ingress := q.ingress, latchkey := q.latchkey, selfGid := s.maloa.takenGid, ringGen := s.maloa.takenGen,
    tag := q.tag, status := 0, opcode := op }

/-- A cached reply goes out again, by the way the repeated request came in (R63, R77, R88). -/
def sendAgain (c : CachedReply) (q : Request) (s : State) : State :=
  countRoute (routeOf q.src) 3 1
    (routeSegment { c.reply with ingress := q.ingress, latchkey := q.latchkey, selfGid := s.maloa.takenGid } s)

/-- Answers a request refused at check 4 of R69, which no level counts (R520). -/
def refuseEarly (op : Nat) (q : Request) (r : Refuse) (s : State) : State :=
  sendReply { replyTo op q s with early := true, status := r.status, reason := r.reason, info := r.info } (requestCrc op q) 0 s

/-- Answers a refused request. Before check 7, or with an unknown token, no level counts (R520). -/
def refuseRequest (op : Nat) (q : Request) (r : Refuse) (priv : Nat) (s : State) : State :=
  sendReply { replyTo op q s with status := r.status, reason := r.reason, info := r.info } (requestCrc op q) priv s

/-- A cached reply that a repeated request of an Ethernet or in-band source matches (R77). -/
def cachedFor (op : Nat) (q : Request) (s : State) : Option CachedReply :=
  (s.maloa.sources.find? fun e => e.src = q.src).bind fun e =>
    e.cache.find? fun c => c.tag = q.tag && c.opcode = op && c.crc = requestCrc op q

/-- Tracks a source of the Ethernet and in-band routes; a request that matches a cached reply only in TAG replaces it (R76,
R77). -/
def trackSource (src : Source) (tag : Nat) (s : State) : State :=
  if src = .pcie then s
  else if s.maloa.sources.any fun e => e.src = src then
    { s with maloa := { s.maloa with sources := s.maloa.sources.map fun e =>
        if e.src = src then { e with cache := e.cache.filter fun c => c.tag ≠ tag } else e } }
  else { s with maloa := { s.maloa with sources := s.maloa.sources ++ [{ src }] } }

/-- Whether a command of a source with this TAG is outstanding (R77). -/
def duplicateTag (src : Source) (tag : Nat) (s : State) : Bool :=
  (s.maloa.outstanding.any fun o => o.src = src && o.tag = tag) ||
  s.maloa.held.any fun h => h.src = src && h.req.tag = tag

/-- Check 4 of R69, and the refusal of every request while a handover runs (R82). -/
def limitRefusal (src : Source) (s : State) : Option Refuse :=
  if s.boot.handover then
    some { status := 1, reason := 2, info := Config.handoverLeft s.boot.handoverCause (s.ns - s.boot.handoverStart) % 65536 }
  else if 64 ≤ outstandingOf src s then some { status := 1, reason := 1, info := 0xFFFF }
  else if src ≠ .pcie && !(s.maloa.sources.any fun e => e.src = src) && 256 ≤ s.maloa.sources.length then
    some { status := 8, reason := 1 }
  else none

/-- BUSY while a firmware activation runs (R451): most commands until the end of step 4, two of them until step 6 ends. (DEDUCED, log 50.) -/
def activationRefusal (opcode : Nat) (s : State) : Option Refuse :=
  let early : Bool := 1 ≤ s.fw.step && s.fw.step ≤ 4
  let exempt : Bool := [0x1104, 0x0100, 0x0101, 0x0140].contains opcode || opcode / 256 = 0x0F
  if (early && !exempt) || (1 ≤ s.fw.step && [0x0120, 0x0B03].contains opcode) then some { status := 1, reason := 3, info := 0xFFFF }
  else none

/-- Checks 6 to 9 of R69: the refusal, and the level it counts under. -/
def acceptRefusal (op : OpSpec) (q : Request) (inBlock : State → Nat → Bool) (s : State) : Option (Refuse × Nat) :=
  if !groupAccepted op s then some ({ status := 0x0B, reason := 1, info := s.boot.phase }, 0)
  else
    match deniedReason op q inBlock s with
    | some r => some (denied r q.token, (callerOf s q).level)
    | none =>
      if q.params.length % 4 ≠ 0 then some (badParam 2 0xFFFF, (callerOf s q).level)
      else if !op.lengths q.params.length then some (badParam 1 0xFFFF, (callerOf s q).level)
      else (txnRefused op q s).map fun r => (r, (callerOf s q).level)

/-- Answers a command with the outcome of its own part (R76): a reply at once, or an outstanding command. `since`: when it passed
check 4. -/
def finish (op : OpSpec) (q : Request) (c : Caller) (since : Nat) (d : Done) : State :=
  match d with
  | .reply st r i p s =>
    sendReply { replyTo op.opcode q s with status := st, reason := r, info := i, payload := p } (requestCrc op.opcode q) c.level s
  | .wait w s =>
    { s with maloa := { s.maloa with outstanding := s.maloa.outstanding ++
        [{ src := q.src, ingress := q.ingress, latchkey := q.latchkey, selfGid := s.maloa.takenGid,
           ringGen := s.maloa.takenGen, tag := q.tag, opcode := op.opcode, crc := requestCrc op.opcode q,
           token := q.token, level := c.level, since, params := q.params, wait := w }] } }

/-- Takes a command (R69). `i` is the command itself, kept when it must wait (R78, R80); `inBlock` tells whether every
parameter that names a resource names one of a TENANT's block (R73, test 9); `body` is its own part (check 10). A command that was
held runs under the token entry it was accepted with (R74). (DEDUCED, log 18.) -/
def runCommand (op : OpSpec) (i : Instr) (q : Request) (inBlock : State → Nat → Bool)
    (body : Caller → State → Done) (s : State) : Answer :=
  let run (c : Caller) (since : Nat) (s : State) : Answer := .next (finish op q c since (body c (nameTxn q.txn s)))
  match s.maloa.resumed with
  | some (level, key, since) =>
    let s := { s with maloa := { s.maloa with resumed := none } }
    match txnRefused op q s with
    | some r => .next (refuseRequest op.opcode q r level s)
    | none => run { level, key, route := routeOf q.src } since s
  | none =>
    let s := takeArrival q.src (fun b => u16 b 2 = q.tag) s
    if !routeOpen q.src s then .next s
    else if duplicateTag q.src q.tag s then .next (discardRequest (routeOf q.src) 3 s)
    else
      match cachedFor op.opcode q s with
      | some c => .next (sendAgain c q s)
      | none =>
        match limitRefusal q.src s with
        | some r => .next (refuseEarly op.opcode q r s)
        | none =>
          let s := trackSource q.src q.tag s
          match activationRefusal op.opcode s with
          | some r => .next (refuseRequest op.opcode q r 0 s)
          | none =>
            match acceptRefusal op q inBlock s with
            | some (r, priv) => .next (refuseRequest op.opcode q r priv s)
            | none =>
              let c := callerOf s q
              if mustWait q.src op.opcode s || heldBefore q.src op.opcode s then
                let h : HeldCommand := {
                  src := q.src, opcode := op.opcode, level := c.level, key := c.key, since := s.ns
                  ringGen := s.maloa.takenGen, selfGid := s.maloa.takenGid, req := q, instr := i }
                .next { s with maloa := { s.maloa with held := s.maloa.held ++ [h] } }
              else run c s.ns s

/-- No parameter of the command names a resource. -/
def anyBlock : State → Nat → Bool := fun _ _ => true

/-! ## Completing a command later -/

/-- Sends the reply of an outstanding command. -/
def answerLater (o : Outstanding) (status reason info : Nat) (payload : Bytes) (s : State) : State :=
  sendReply { src := o.src, ingress := o.ingress, latchkey := o.latchkey, selfGid := o.selfGid, ringGen := o.ringGen,
              tag := o.tag, status, reason, info, opcode := o.opcode, payload } o.crc o.level s

/-- Completes every command that waits for `w` with one reply. -/
def complete (w : Wait) (status reason info : Nat) (payload : Bytes) (s : State) : State :=
  let mine := s.maloa.outstanding.filter fun o => o.wait = w
  let s := { s with maloa := { s.maloa with outstanding := s.maloa.outstanding.filter fun o => o.wait ≠ w } }
  mine.foldl (fun s o => answerLater o status reason info payload s) s

/-- A held command that may start now (R80), with the state that no longer holds it. (DESIGN CHOICE, log 6.) (DEDUCED, log 18.) -/
def readyHeld (s : State) : Option (Instr × State) :=
  match s.maloa.held.find? fun h => !mustWait h.src h.opcode s with
  | none => none
  | some h =>
    let m := { s.maloa with held := s.maloa.held.erase h, resumed := some (h.level, h.key, h.since), takenGen := h.ringGen, takenGid := h.selfGid }
    some (h.instr, { s with maloa := m })

end Sys2Proof.Machine
end

