-- ==== Sys2Proof/Machine/Staging.lean ====
section
/-!
DEFINITION. Staging of items in transactions (R227 to R234), the blocks an item touches (R241), and the banks (R228).
-/
namespace Sys2Proof.Machine

/-! ## Touched blocks (R241) -/

/-- What an item touches: every block, or the listed blocks. -/
inductive Touch where
  | every
  | blocks (l : List Nat)
  deriving DecidableEq, Repr

/-- The values that open transactions stage for an item. -/
def stagedValues (s : State) (k : ItemKey) : List Bytes :=
  s.setup.txns.flatMap fun t => (t.items.filter fun i => i.key = k).map (·.value)

/-- The live and staged routing entries: GID and word. -/
def allRoutes (s : State) : List (Nat × Nat) :=
  (s.setup.live ++ s.setup.txns.flatMap fun t => t.items.map fun i => (i.key, i.value)).filterMap fun e =>
    match e.1 with
    | .entry 1 g => some (g, u32 e.2 0)
    | _ => none

/-- The owner of a port, as a list of at most one block. -/
def ownersOf (s : State) (ports : List Nat) : List Nat := (ports.filterMap (portOwner s)).eraseDups

/-- Ports touched by a Transom entry that goes from `old` to `new` (R186). -/
def transomTouched (index old new : Nat) : List Nat :=
  if old / 2 ^ 28 = new / 2 ^ 28 then []
  else
    let base := 1024 + index / 32 * 32 + index % 8
    let outs := [old, new].filterMap fun e => if e / 2 ^ 30 = 2 then some (base + 8 * (e / 2 ^ 28 % 4)) else none
    (1024 + index) :: outs

/-- The blocks that an item touches when it takes `value` (R241, Table 9.9). -/
def touched (s : State) (k : ItemKey) (value : Bytes) : Touch :=
  match k with
  | .entry 1 g => .blocks (gidOwner s g).toList
  | .entry 2 n => .blocks ((allRoutes s).filterMap fun e =>
      if e.2 / 2 ^ 31 = 1 ∧ e.2 / 1024 % 16384 = n then gidOwner s e.1 else none).eraseDups
  | .entry 4 c => .blocks ((allRoutes s).filterMap fun e =>
      if e.2 / 2 ^ 31 = 1 ∧ e.2 / 2 ^ 25 % 8 = c then gidOwner s e.1 else none).eraseDups
  | .entry 3 n => .blocks (ownersOf s ((liveValue s (.entry 3 n) :: value :: stagedValues s (.entry 3 n)).flatMap
      fun v => groupPorts (bytesWords 41 v)))
  | .entry 6 i => .blocks (ownersOf s (transomTouched i (entryWord s 6 i) (u32 value 0)))
  | .entry _ _ => .every
  | .gang n => .blocks (ownersOf s [8 * n])
  | .link p | .grant p | .meterPort p _ | .shaper p _ | .gates p | .mark p _ | .darnPort p => .blocks (ownersOf s [p])
  | .meterBlock _ key _ => .blocks [key]
  | .block key => .blocks [key]
  | .pool key => .blocks (if key = 0 then [] else [key])
  | .ctx c | .tree c => .blocks (ctxOwner s c).toList
  | .flowletCfg | .stairAll | .hallBuf _ | .xfer _ | .regulator _ _ => .every

/-! ## Staging (R229, R233, R234) -/

/-- The value a transaction has staged for an item. -/
def Txn.staged (t : Txn) (k : ItemKey) : Option Bytes := (t.items.find? fun i => i.key = k).map (·.value)

/-- The value of an item as a transaction would commit it. -/
def seenValue (s : State) (t : Option Txn) (k : ItemKey) : Bytes :=
  ((t.bind fun t => t.staged k)).getD (liveValue s k)

/-- Stages one item, replacing an earlier staging of it. -/
def Txn.put (t : Txn) (i : Item) : Txn :=
  if t.items.any fun j => j.key = i.key then { t with items := t.items.map fun j => if j.key = i.key then i else j }
  else { t with items := t.items ++ [i] }

/-- Whether another open transaction has an item reserved (R234). -/
def reservedElsewhere (s : State) (h : Nat) (k : ItemKey) : Bool :=
  s.setup.txns.any fun t => t.handle ≠ h && t.items.any fun i => i.key = k

/-- Whether a transaction of block scope may stage an item (R233). -/
def scopeAllows (s : State) (t : Txn) (i : Item) : Bool :=
  t.device || touched s i.key i.value = .blocks [t.latchkey]

/-- Stages items in the transaction that a request names, all or none (R233, R234). `off` is the offset of the first
parameter byte that names the items. -/
def stage (q : Request) (off : Nat) (items : List Item) (s : State) : State ⊕ Refuse :=
  match txnAt s q.txn with
  | none => .inr { status := 4, reason := 2 }
  | some t =>
    if items.any fun i => reservedElsewhere s t.handle i.key then .inr { status := 5, reason := 0x80, info := off }
    else
      let t' := items.foldl Txn.put t
      if items.all fun i => scopeAllows (setTxn t' s) t' i then .inl (setTxn t' s)
      else .inr (denied 5 q.token)

/-- A staging command's own part: checks, then its items, then an OK reply. -/
def stageDone (q : Request) (off : Nat) (items : List Item) (payload : Bytes) (s : State) : Done :=
  match stage q off items s with
  | .inl s => .ok payload s
  | .inr r => .refuse r s

/-! ## Parity of routing entries (R197, R199) -/

/-- Whether the number of ones among the listed bits is odd. -/
def oddOnes (w : Nat) (is : List Nat) : Bool := (is.filter (bit w)).length % 2 = 1

/-- A routing entry with reserved bit 24 zero and P computed (R199). -/
def withParity (w : Nat) : Nat :=
  let v := w % 2 ^ 32 - w % 2 ^ 31 + w % 2 ^ 29 - w % 2 ^ 25 + w % 2 ^ 24
  let hi := oddOnes v (31 :: (List.range 13).map (· + 16))
  let lo := oddOnes v (List.range 16)
  v + (if hi then 2 ^ 30 else 0) + (if lo then 2 ^ 29 else 0)

/-- The first candidate that R200 does not allow: REASON, and the offset of its byte from the first candidate. -/
def candidateBad (cs : List (Nat × Nat)) : Option (Nat × Nat) :=
  let is := List.range cs.length
  let c (i : Nat) : Nat × Nat := cs.getD i (0, 1)
  match is.find? (fun i => 1280 ≤ (c i).1 || (c i).2 = 0), is.find? (fun i => (List.range i).any fun j => (c j).1 = (c i).1) with
  | some i, _ => some (4, 2 * i + b2n ((c i).1 < 1280))
  | none, some i => some (6, 2 * i)
  | none, none => none

/-- The words of a path set as PATHSET_WRITE stages it: everything past COUNT is 0. -/
def pathsetWords (cands : List (Nat × Nat)) : List Nat :=
  cands.length :: (List.range 32).map fun j =>
    let c (i : Nat) : Nat := ((cands[i]?).map fun c => c.1 * 32 + c.2).getD 0
    c (2 * j) * 65536 + c (2 * j + 1)

/-- Why a route class word lies outside Table 8.3: REASON, and the offset of its byte. -/
def classBad (w : Nat) : Option (Nat × Nat) :=
  if w / 65536 = 0 then some (4, 0) else if 2 < w % 256 then some (3, 3) else none

/-- Whether a Transom entry is one that Table 7.1 allows. -/
def transomWordOk (w : Nat) : Bool :=
  let m := w / 2 ^ 30
  m ≠ 3 && (if m = 2 then w / 2 ^ 26 % 4 ≠ 0 else w / 2 ^ 26 % 16 = 0)

/-- Whether the map of a Window is consistent at each λ (R180). `e i` is entry i of the Window. -/
def transomConsistent (e : Nat → Nat) : Bool :=
  (List.range 8).all fun l => (List.range 4).all fun t =>
    let w := e (8 * t + l)
    w / 2 ^ 30 ≠ 2 ||
      (e (8 * (w / 2 ^ 28 % 4) + l) / 2 ^ 30 ≠ 1 &&
       (List.range 4).all fun u => u = t || e (8 * u + l) / 2 ^ 28 ≠ w / 2 ^ 28)

/-- The words that a WRITE stages for an entry, reserved bits 0 (R229), or why they are refused: REASON, and the offset from the
entry's first byte. The words of a path set past COUNT are ignored, not reserved (R200). -/
def cleanEntry (table : Nat) (ws : List Nat) : List Nat ⊕ (Nat × Nat) :=
  let w := ws.getD 0 0
  match table with
  | 1 => .inl [withParity w]
  | 2 =>
    if 64 < w % 128 then .inr (4, 3)
    else match candidateBad (candidates ws) with
      | some r => .inr (r.1, 4 + r.2)
      | none => .inl ((w % 128) :: ws.drop 1)
  | 3 => .inl ((w / 2 ^ 30 * 2 ^ 30) :: ws.drop 1)
  | 4 => match classBad w with | some r => .inr r | none => .inl ws
  | _ =>
    if w / 2 ^ 30 = 3 then .inr (3, 0)
    else if !transomWordOk w then .inr (4, 0)
    else .inl [w / 2 ^ 26 * 2 ^ 26 + w % 2 ^ 16]

end Sys2Proof.Machine
end

