-- ==== Sys2Proof/Machine/Tables.lean ====
section
/-!
DEFINITION. The forwarding table commands (R226), the table commands and the BAR0 table engine (R229 to R232), and the
opening, rolling back and reading of transactions (R233 to R235, R238).
-/
namespace Sys2Proof.Machine

/-! ## Forwarding commands (Tables 8.10 to 8.15) -/


/-- ROUTE_WRITE_RANGE: what it admits. -/
def opRouteWriteRange : OpSpec := { opcode := 0x0310, lengths := fun n => 16 ≤ n, staging := true }

/-- ROUTE_WRITE_RANGE (Table 8.10). -/
def execRouteWriteRange (q : Request) (s : State) : Answer :=
  runCommand opRouteWriteRange (.routeWriteRange q) q anyBlock (fun _ s =>
    let p := q.params
    let first := u32 p 0 % 2 ^ 20
    let n := u32 p 4
    let same := bit (u8 p 8) 0
    withChecks [(n = 0 || 1048576 < first + n, badParam 4 4), (!same && 1017 < n, badParam 4 4),
        (p.length ≠ (if same then 16 else 12 + 4 * n), badParam 1 0xFFFF)] s fun s =>
      stageDone q 0 ((List.range n).map fun i =>
        { key := .entry 1 (first + i), value := beBytes 4 (withParity (u32 p (if same then 12 else 12 + 4 * i))) }) [] s) s

/-- PATHSET_WRITE: what it admits. -/
def opPathsetWrite : OpSpec := { opcode := 0x0311, lengths := fun n => 4 ≤ n && n ≤ 132, staging := true }

/-- PATHSET_WRITE (Table 8.11). -/
def execPathsetWrite (q : Request) (s : State) : Answer :=
  runCommand opPathsetWrite (.pathsetWrite q) q anyBlock (fun _ s =>
    let p := q.params
    let n := u8 p 2
    let cs := (List.range (min n ((p.length - 4) / 2))).map fun i => (u16 p (4 + 2 * i) / 32, u16 p (4 + 2 * i) % 32)
    withChecks [(16384 ≤ u16 p 0, badParam 4 0), (64 < n, badParam 4 2),
        ((candidateBad cs).isSome, match candidateBad cs with | some r => badParam r.1 (4 + r.2) | none => badParam 4 4),
        (p.length ≠ 4 + 4 * ceilDiv n 2, badParam 1 0xFFFF)] s fun s =>
      stageDone q 0 [{ key := .entry 2 (u16 p 0), value := wordBytes (pathsetWords cs) }] [] s) s

/-- MCAST_WRITE: what it admits. -/
def opMcastWrite : OpSpec := { opcode := 0x0312, lengths := fun n => n = 164, staging := true }

/-- MCAST_WRITE (Table 8.12). -/
def execMcastWrite (q : Request) (s : State) : Answer :=
  runCommand opMcastWrite (.mcastWrite q) q anyBlock (fun _ s =>
    let p := q.params
    let w0 := b2n (bit (u8 p 2) 0) * 2 ^ 31 + b2n (bit (u8 p 2) 1) * 2 ^ 30
    stageDone q 0 [{ key := .entry 3 (u16 p 0), value := beBytes 4 w0 ++ p.drop 4 }] [] s) s

/-- FLOWLET_CONFIG: what it admits. -/
def opFlowletConfig : OpSpec := { opcode := 0x0313, lengths := fun n => n = 8, staging := true }

/-- FLOWLET_CONFIG (Table 8.13). -/
def execFlowletConfig (q : Request) (s : State) : Answer :=
  runCommand opFlowletConfig (.flowletConfig q) q anyBlock (fun _ s =>
    let p := q.params
    withChecks [(2 < u8 p 0, badParam 3 0), (u16 p 2 = 0 || 16384 < u16 p 2, badParam 4 2)] s fun s =>
      stageDone q 0 [{ key := .flowletCfg, value := [byteOf (u8 p 0), 0] ++ p.drop 2 }] [] s) s

/-- STAIR_CONFIG: what it admits. -/
def opStairConfig : OpSpec := { opcode := 0x0314, lengths := fun n => n = 32, staging := true }

/-- STAIR_CONFIG (Table 8.14): it stages the eight route classes, and the mark that touches every block (Table 9.9,
DESIGN CHOICE, log 20). -/
def execStairConfig (q : Request) (s : State) : Answer :=
  runCommand opStairConfig (.stairConfig q) q anyBlock (fun _ s =>
    let p := q.params
    let w (c : Nat) : Nat := u32 p (4 * c)
    let bad (k : Nat → Bool) : Option Nat := (List.range 8).find? fun c => k (w c)
    match bad (fun w => w / 65536 = 0), bad (fun w => 2 < w % 256) with
    | some c, _ => .refuse (badParam 4 (4 * c)) s
    | none, some c => .refuse (badParam 3 (4 * c + 3)) s
    | none, none =>
      stageDone q 0 ({ key := .stairAll, value := [] } :: (List.range 8).map fun c =>
        { key := .entry 4 c, value := beBytes 4 (w c) }) [] s) s

/-- A Chute record as CHUTE_READ returns it (Table 8.15). -/
def ChuteRec.bytes (r : ChuteRec) : Bytes :=
  beBytes 4 r.seq ++ beBytes 8 r.time ++ beBytes 1 r.cause ++ zeros 1 ++ beBytes 2 r.port ++ beBytes 4 r.index ++ r.head

/-- GAP of a ring whose oldest record is `oldest`, for a read from `first` (Tables 3.25, 8.15, 21.15). -/
def gapOf (first : Nat) (oldest : Option Nat) : Bool :=
  match oldest with
  | none => false
  | some o => first < o && 1 < o

/-- CHUTE_READ: what it admits. -/
def opChuteRead : OpSpec := { opcode := 0x0315, observer := true, lengths := fun n => n = 12, reads := true }

/-- CHUTE_READ (Table 8.15). -/
def execChuteRead (q : Request) (s : State) : Answer :=
  runCommand opChuteRead (.chuteRead q) q anyBlock (fun _ s =>
    let p := q.params
    withChecks [(3 < u8 p 0, badParam 4 0), (u8 p 8 = 0 || 27 < u8 p 8, badParam 4 8)] s fun s =>
      let c := chuteAt s (u8 p 0)
      let rs := (c.records.filter fun r => u32 p 4 ≤ r.seq).take (u8 p 8)
      .ok (beBytes 4 (c.nextSeq - 1) ++ beBytes 2 rs.length ++
        beBytes 1 (b2n (gapOf (u32 p 4) (c.records.head?.map (·.seq)))) ++ zeros 1 ++ rs.flatMap ChuteRec.bytes) s) s

/-! ## The flowlet sweep, published loads and repairs -/

/-- FLOWLET_SWEEP (R204): in the tick NOW, entries 16 (NOW mod 2^14) to that plus 15 of every Hall lose V when idle, and keep the rest. -/
def execFlowletSweep (s : State) : Answer :=
  let now := flowNow s
  let slot := now % 2 ^ 14
  let idle := flowIdle s
  let swept (e : (Nat × Nat) × Flowlet) : Bool :=
    e.1.2 / 16 = slot && idle ≤ (now % 65536 + 65536 - e.2.ts) % 65536
  .next { s with fwd := { s.fwd with
    flow := s.fwd.flow.map fun e => if swept e then (e.1, { e.2 with valid := false }) else e } }

/-- Every flowlet entry loses V (R409, Table 8.14); the rest of it stays. -/
def dropFlowlets (s : State) : State :=
  { s with fwd := { s.fwd with flow := s.fwd.flow.map fun e => (e.1, { e.2 with valid := false }), flowBad := [] } }

/-- QUEUE_LOAD_PUBLISH (R211): every Hall publishes the cells queued at its ports. -/
def execQueueLoadPublish (s : State) : Answer :=
  .next { s with fwd := { s.fwd with published :=
    (s.buf.queues.map fun e => (e.1, sumCells e.2.frames)).filter fun e => e.2 ≠ 0 } }

/-- The table a Chute cause names: table of the engine, and its code in TABLE_PARITY (Table 8.9). -/
def repairTable (r : ChuteRec) : Option (Nat × Nat) :=
  match r.cause with
  | 1 => some (1, r.pipe + 1)
  | 2 => some (2, 3)
  | 3 => some (3, 4)
  | _ => none

/-- The first record that `f` accepts, changed by `g`. -/
def mapFirst {α : Type} (f : α → Bool) (g : α → α) : List α → List α
  | [] => []
  | a :: l => if f a then g a :: l else a :: mapFirst f g l

/-- The table of a TABLE_PARITY code (Table 8.9): both pipes' copies of the routing table have their own code. -/
def codeTable (code : Nat) : Nat := if code < 3 then 1 else code - 1

/-- Repairs an entry that fails parity in a Hall (R222): rewritten from the Cellar shadow, or, when that is uncorrectable, written as the entry
that forwards nothing. -/
def repairEntry (code hall index : Nat) (shadowOk : Bool) (repairNs : Nat) (s : State) : State :=
  let die := hallDie hall
  let table := codeTable code
  let s := recordFault 0xF 0 die (code * 2 ^ 20 + index) s
  if shadowOk then
    clearFault 0xF die (code * 2 ^ 20 + index) <| raise 0x0350 die 3 code index repairNs
      { s with fwd := { s.fwd with bad := s.fwd.bad.filter (· ≠ (code, hall, index)) } }
  else
    let codes := if table = 1 then [1, 2] else [code]
    let words := entryWords s table index
    let empty := if table = 1 then [withParity (words.headD 0 % 2 ^ 31)] else
      if table = 2 then pathsetWords [] else (words.headD 0 % 2 ^ 31) :: words.drop 1
    let s := { s with
      fwd := { s.fwd with bad := s.fwd.bad.filter fun b => !(b.1 ∈ codes && b.2.2 = index) }
      setup := { s.setup with live := tset s.setup.live (.entry table index) (wordBytes empty) } }
    raise 0x0354 die 4 code index 0 (raise 0x0350 die 3 code index 0xFFFFFFFF s)

/-- CHUTE_REPAIR (R221, R222): firmware reads the oldest unread record of a Hall's Chute and repairs the entry that its
cause names. Every parity error is raised, that of a frame which met the entry before an earlier record's rewrite included. -/
def execChuteRepair (hall : Nat) (shadowOk : Bool) (repairNs : Nat) (s : State) : Answer :=
  let c := chuteAt s hall
  match c.records.find? fun r => !r.read with
  | none => guard (hall < 4) "Hall" s
  | some r =>
    let s := setChute hall { c with records := mapFirst (fun r => !r.read) (fun r => { r with read := true }) c.records } s
    match repairTable r with
    | none => .next s
    | some (_, code) =>
      .next (if (code, hall, r.index) ∈ s.fwd.bad then repairEntry code hall r.index shadowOk repairNs s
        else raise 0x0350 (hallDie hall) 3 code r.index repairNs s)

/-! ## Engine operations (R229) -/

/-- The words of a flowlet entry (R203). -/
def flowletWord (s : State) (h i : Nat) : Nat :=
  match tfind s.fwd.flow (h, i) with
  | none => 0
  | some f => b2n f.valid * 2 ^ 31 + f.tag * 2 ^ 27 + f.port * 2 ^ 16 + f.ts

/-- READ from the live bank of a Hall and pipe. A copy that fails parity reads as an open value (DESIGN CHOICE, log 2). -/
def readLive (h pipe table i : Nat) (s : State) : List Nat × State :=
  if table = 5 then ([flowletWord s h i], s)
  else if ((if table = 1 then pipe + 1 else table + 1), h, i) ∈ s.fwd.bad ∧ table ≤ 3 then
    (List.range (tableWords table)).foldl (fun a _ => let d := draw (2 ^ 32) a.2; (a.1 ++ [d.1], d.2)) ([], s)
  else (entryWords s table i, s)

/-- CLEAR_AGE on a flowlet entry of a Hall (R229). -/
def clearAge (h i : Nat) (s : State) : State :=
  match tfind s.fwd.flow (h, i) with
  | none => s
  | some f =>
    if f.valid then { s with fwd := { s.fwd with flow := tset s.fwd.flow (h, i) { f with ts := flowNow s % 65536 } } } else s

/-- A routing entry without P (R199). -/
def withoutParity (w : Nat) : Nat := w / 2 ^ 31 * 2 ^ 31 + w % 2 ^ 29

/-- Whether two values of an entry are equal, P ignored (R229). -/
def entryEqual (table : Nat) (a b : List Nat) : Bool :=
  if table = 1 then withoutParity (a.headD 0) = withoutParity (b.headD 0) else a = b

/-- What an engine operation ends with: STATUS and REASON with INFO, MATCH, and the words returned. -/
structure EngineEnd where
  refuse : Refuse := { status := 0 }
  matched : Bool := false
  words : List Nat := []

/-! ## Resumes held by a commit (R242) -/

/-- The blocks that a transaction touches, ascending (R241). -/
def txnTouched (s : State) (t : Txn) : List Nat :=
  let ts := t.items.map fun i => touched s i.key i.value
  let keys := if ts.contains .every then s.blocks.map (·.1)
    else ts.flatMap fun x => match x with | .every => [] | .blocks l => l
  (sortNat keys).eraseDups

/-- Whether a block is held QUIESCED by a commit (R242). -/
def commitHolds (s : State) (key : Nat) : Bool :=
  s.setup.txns.any fun t => t.state = .committing && (txnTouched s t).contains key

/-- Bytes of a BLOCK_QUIESCE reply: cells flushed, frames dropped since QUIESCING began, drain time in µs. -/
def quiescePayload (b : Block) (now flushed : Nat) : Bytes :=
  beBytes 4 flushed ++ beBytes 4 b.drops ++ beBytes 4 (match b.drain with | none => 0 | some d => (now - d.start) / 1000)

/-- The block is RUNNING again (R242, R400): a drain that runs is abandoned, and the timers of its contexts start afresh. -/
def resumeBlock (key : Nat) (s : State) : State :=
  match blockAt s key with
  | none => s
  | some b =>
    let s := match b.state with
      | .quiescing => complete (.quiesce key) 9 0x81 0 (quiescePayload b s.ns 0) s
      | _ => s
    let s := modBlock key (fun b => { b with state := .running, drain := none }) s
    let s := (blockCtxs s key).foldl (fun s c =>
      modCtx c (fun r => { r with restart := some (s.ns, s.coll.replayWait)
                                  runOpen := r.runOpen.map fun e => (e.1, { e.2 with start := s.ns, limit := s.coll.runLimit }) }) s) s
    raiseLead 0x0411 1 key 0 0 s

/-- Blocks that a deferred BLOCK_RESUME names. -/
def waitingResumes (s : State) : List Nat :=
  (s.maloa.outstanding.filterMap fun o => match o.wait with | .resume k => some k | _ => none).eraseDups

/-- Runs the deferred BLOCK_RESUMEs whose hold has ended (R242). -/
def releaseResumes (s : State) : State :=
  (waitingResumes s).foldl (fun s k =>
    if commitHolds s k then s
    else if (blockAt s k).isNone then complete (.resume k) 3 0x81 0 [] s
    else complete (.resume k) 0 0 0 [] (resumeBlock k s)) s

/-! ## Parity of shadow copies (R231) -/

/-- The transaction that has an item staged. -/
def stager (s : State) (k : ItemKey) : Option Txn := s.setup.txns.find? fun t => t.items.any fun i => i.key = k

/-- A staged value of a transaction is lost: the transaction is FAILED, and one that was COMMITTING replies FAULT, reason 0x81 (R231;
DESIGN CHOICE, log 62). -/
def loseStaged (t : Txn) (k : ItemKey) (s : State) : State :=
  let s := setTxn { t with state := .failed, items := t.items.filter fun i => i.key ≠ k } s
  if t.state = .committing then releaseResumes (complete (.commit t.handle) 9 0x81 0 [] s) else s

/-- Reads the shadow copy of an item for a transaction: its value, or the loss of a value that some transaction has staged. A copy that
fails parity and is not staged is rewritten from live (R231). -/
def readShadow (h : Nat) (k : ItemKey) (parityBad : Bool) (s : State) : Option Bytes × State :=
  if !parityBad then (some (seenValue s (txnAt s h) k), s)
  else
    let ti : Nat × Nat := match k with | .entry t i => (t, i) | _ => (0, 0)
    match stager s k with
    | some t => (none, loseStaged t k (raiseLead 0x0360 3 ti.1 ti.2 t.handle s))
    | none => (some (liveValue s k), count 10 ti.1 0 1 (raiseLead 0x0360 3 ti.1 ti.2 0 s))

/-! ## WRITE and COMPARE_WRITE -/

/-- Whether the map of a Window that a transaction would leave is consistent (R180). -/
def stagedMapOk (s : State) (h w : Nat) : Bool :=
  transomConsistent fun k => u32 (seenValue s (txnAt s h) (.entry 6 (32 * w + k))) 0

/-- WRITE of an entry in a named transaction. A staged Transom map stays consistent (R180). `off` is the offset of the parameter byte that
names the entry, `at'` that of its first word. -/
def engineWrite (q : Request) (off at' table i : Nat) (ws : List Nat) (s : State) : EngineEnd × State :=
  match cleanEntry table ws with
  | .inr r => ({ refuse := badParam r.1 (at' + r.2) }, s)
  | .inl ws =>
    match stage q off [{ key := .entry table i, value := wordBytes ws }] s with
    | .inr r => ({ refuse := r }, s)
    | .inl s' =>
      if table = 6 && !stagedMapOk s' q.txn (i / 32) then ({ refuse := badParam 6 at' }, s) else ({}, s')

/-- COMPARE_WRITE of an entry in a named transaction (R229, R231). It is refused for an item that another transaction has staged, whether
or not the values match (R234). -/
def engineCompareWrite (q : Request) (off at' table i : Nat) (bad : Bool) (cmp ws : List Nat) (s : State) :
    EngineEnd × State :=
  if reservedElsewhere s q.txn (.entry table i) then ({ refuse := { status := 5, reason := 0x80, info := off } }, s)
  else
    match readShadow q.txn (.entry table i) bad s with
    | (none, s) => ({ refuse := { status := 9, reason := 0x81 } }, s)
    | (some v, s) =>
      let old := bytesWords (tableWords table) v
      if entryEqual table old cmp then
        let r := engineWrite q off at' table i ws s
        ({ r.1 with matched := r.1.refuse.status = 0, words := old }, r.2)
      else ({ words := old }, s)

/-- Checks of TABLE and INDEX that every operation shares: `flow` tells whether table 0x05 may be named. -/
def tableChecks (flow : Bool) (table i : Nat) : List (Bool × Refuse) :=
  [(table = 0 || 6 < table, badParam 3 0), (!flow && table = 5, badParam 4 0), (tableSize table ≤ i, badParam 4 4)]

/-! ## Table commands (Tables 9.16 to 9.19) -/

/-- Check 9 of R69 for a command that may name a transaction in TXN (Table 9.8): `conflict` tells whether its state
allows the command. -/
def ownTxnRefused (q : Request) (anyHolder : Bool) (bad : TxnState → Bool) (s : State) : Option Refuse :=
  match txnAt s q.txn with
  | none => some { status := 4, reason := 2 }
  | some t =>
    if !anyHolder && (t.token ≠ q.token || t.route ≠ routeOf q.src) then some (denied 7 q.token)
    else if bad t.state then some { status := 5, reason := 0x82 }
    else none

/-- TABLE_READ: what it admits. -/
def opTableRead : OpSpec := { opcode := 0x0300, observer := true, lengths := fun n => n = 12, reads := true, ownTxn := true }

/-- TABLE_READ (Table 9.16). `bad` lists the indices whose shadow copy fails parity. -/
def execTableRead (q : Request) (bad : List Nat) (s : State) : Answer :=
  runCommand opTableRead (.tableRead q bad) q anyBlock (fun _ s =>
    let p := q.params
    let table := u8 p 0
    let live := u8 p 1 = 1
    let i := u32 p 4
    let n := u16 p 8
    match (if q.txn = 0 then none else if live then some (badParam 5 0xFFFF)
        else ownTxnRefused q false (· = .failed) s) with
    | some r => .refuse r s
    | none =>
      withChecks (tableChecks true table i ++ [chk (1 < u8 p 1) (badParam 4 1), (table = 5 && !live, badParam 6 1),
          (3 < u8 p 2, badParam 4 2), (1 < u8 p 3, badParam 4 3),
          (n = 0 || 1018 < n * tableWords table || tableSize table < i + n, badParam 4 8)]) s fun s =>
        let r : Option (List Nat) × State := (List.range n).foldl (fun a k =>
          match a.1 with
          | none => a
          | some ws =>
            if live then
              let v := readLive (u8 p 2) (u8 p 3) table (i + k) a.2
              (some (ws ++ v.1), v.2)
            else
              let v := readShadow q.txn (.entry table (i + k)) ((i + k) ∈ bad) a.2
              (v.1.map fun b => ws ++ bytesWords (tableWords table) b, v.2)) (some [], s)
        match r.1 with
        | none => .refuse { status := 9, reason := 0x81 } r.2
        | some ws => .ok (beBytes 4 i ++ beBytes 4 n ++ wordBytes ws) r.2) s

/-- TABLE_WRITE: what it admits. -/
def opTableWrite : OpSpec := { opcode := 0x0301, lengths := fun n => n = 12 || n = 140 || n = 172, staging := true }

/-- TABLE_WRITE (Table 9.17). (DEDUCED, log 48.) -/
def execTableWrite (q : Request) (s : State) : Answer :=
  runCommand opTableWrite (.tableWrite q) q anyBlock (fun _ s =>
    let p := q.params
    let table := u8 p 0
    withChecks (tableChecks false table (u32 p 4) ++ [chk (p.length ≠ 8 + 4 * tableWords table) (badParam 1 0xFFFF)]) s fun s =>
      let r := engineWrite q 4 8 table (u32 p 4) (bytesWords (tableWords table) (p.drop 8)) s
      if r.1.refuse.status = 0 then .ok [] r.2 else .refuse r.1.refuse r.2) s

/-- TABLE_COMPARE_WRITE: what it admits. -/
def opTableCompareWrite : OpSpec :=
  { opcode := 0x0302, lengths := fun n => n = 16 || n = 272 || n = 336, staging := true }

/-- TABLE_COMPARE_WRITE (Table 9.18). -/
def execTableCompareWrite (q : Request) (parityBad : Bool) (s : State) : Answer :=
  runCommand opTableCompareWrite (.tableCompareWrite q parityBad) q anyBlock (fun _ s =>
    let p := q.params
    let table := u8 p 0
    let n := tableWords table
    withChecks (tableChecks false table (u32 p 4) ++ [chk (p.length ≠ 8 + 8 * n) (badParam 1 0xFFFF)]) s fun s =>
      let r := engineCompareWrite q 4 (8 + 4 * n) table (u32 p 4) parityBad (bytesWords n (p.drop 8))
        (bytesWords n (p.drop (8 + 4 * n))) s
      if r.1.refuse.status = 0 then .ok (beBytes 1 (b2n r.1.matched) ++ zeros 3 ++ wordBytes r.1.words) r.2
      else .refuse r.1.refuse r.2) s

/-- TABLE_CLEAR_AGE: what it admits. -/
def opTableClearAge : OpSpec := { opcode := 0x0303, lengths := fun n => n = 8 }

/-- TABLE_CLEAR_AGE (Table 9.19). -/
def execTableClearAge (q : Request) (s : State) : Answer :=
  runCommand opTableClearAge (.tableClearAge q) q anyBlock (fun _ s =>
    let p := q.params
    withChecks [(u8 p 0 ≠ 5, badParam 4 0), (3 < u8 p 1, badParam 4 1), (262144 ≤ u32 p 4, badParam 4 4)] s fun s =>
      let s := clearAge (u8 p 1) (u32 p 4) s
      .ok (beBytes 4 (flowletWord s (u8 p 1) (u32 p 4))) s) s

/-! ## The BAR0 table engine (R232) -/

/-- Changes the table engine's registers. -/
def modTce (g : Tce → Tce) (s : State) : State := { s with setup := { s.setup with tce := g s.setup.tce } }

/-- Starts an engine operation from a write of TCE_CTRL with START = 1: the fields are taken, and the operation `f`
runs; its end is reported by TCE_OPERATION_DONE. While BUSY the write is discarded and sets OVERRUN. -/
def tceStart (ctrl : Nat) (f : State → EngineEnd × State) (s : State) : Answer :=
  bar0Write 0x20000 (fun s =>
    if s.setup.tce.busy then .next (modTce (fun t => { t with overrun := true }) s)
    else
      let s := modTce (fun t => { t with ctrl := bitsOf ctrl 19 8 * 256 + ctrl % 8, busy := true }) s
      let r := f s
      .next (modTce (fun t => { t with
        result := some (r.1.refuse.status, r.1.refuse.reason, r.1.matched, r.1.words) }) r.2)) s

/-- An engine operation's checks of TABLE, INDEX and BANK, then its own part. -/
def tceChecked (cs : List (Bool × Refuse)) (k : State → EngineEnd × State) (s : State) : EngineEnd × State :=
  match firstRefusal cs with
  | some r => ({ refuse := r }, s)
  | none => k s

/-- The transaction named in TCE_TXN as a staging request of its holder: BAR0 carries no token (R232). -/
def tceRequest (s : State) : Request := { src := .pcie, tag := 0, txn := s.setup.tce.handle }

/-- Why an operation may not stage in the transaction of TCE_TXN (R234, R247). -/
def tceTxnRefused (s : State) : Option Refuse :=
  if s.setup.tce.handle = 0 then some { status := 4, reason := 1 }
  else ownTxnRefused (tceRequest s) true (· ≠ .opened) s

/-- TCE_READ: a READ started from TCE_CTRL (R229, R231). (DESIGN CHOICE, log 15.) (DEDUCED, log 46.) -/
def execTceRead (ctrl : Nat) (parityBad : Bool) (s : State) : Answer :=
  tceStart (ctrl - ctrl % 8 + 1) (fun s =>
    let t := s.setup.tce
    let table := bitsOf ctrl 15 8
    let live := bit ctrl 16
    tceChecked (tableChecks true table t.index ++ [(table = 5 && !live, badParam 6 0)]) (fun s =>
      if live then
        let v := readLive (bitsOf ctrl 18 17) (bitsOf ctrl 19 19) table t.index s
        ({ words := v.1 }, v.2)
      else
        match (if t.handle = 0 then none else ownTxnRefused (tceRequest s) true (· = .failed) s) with
        | some r => ({ refuse := r }, s)
        | none =>
          match readShadow t.handle (.entry table t.index) parityBad s with
          | (none, s) => ({ refuse := { status := 9, reason := 0x81 } }, s)
          | (some v, s) => ({ words := bytesWords (tableWords table) v }, s)) s) s

/-- TCE_WRITE: a WRITE started from TCE_CTRL (R229). -/
def execTceWrite (ctrl : Nat) (s : State) : Answer :=
  tceStart (ctrl - ctrl % 8 + 2) (fun s =>
    let t := s.setup.tce
    let table := bitsOf ctrl 15 8
    tceChecked (tableChecks false table t.index ++ [(bit ctrl 16, badParam 6 0)]) (fun s =>
      match tceTxnRefused s with
      | some r => ({ refuse := r }, s)
      | none => engineWrite (tceRequest s) 0 0 table t.index (t.data.take (tableWords table)) s) s) s

/-- TCE_COMPARE_WRITE: a COMPARE_WRITE started from TCE_CTRL (R229, R231). (DESIGN CHOICE, log 15.) -/
def execTceCompareWrite (ctrl : Nat) (parityBad : Bool) (s : State) : Answer :=
  tceStart (ctrl - ctrl % 8 + 3) (fun s =>
    let t := s.setup.tce
    let table := bitsOf ctrl 15 8
    tceChecked (tableChecks false table t.index ++ [(bit ctrl 16, badParam 6 0)]) (fun s =>
      match tceTxnRefused s with
      | some r => ({ refuse := r }, s)
      | none => engineCompareWrite (tceRequest s) 0 0 table t.index parityBad (t.cmp.take (tableWords table))
          (t.data.take (tableWords table)) s) s) s

/-- TCE_CLEAR_AGE: a CLEAR_AGE started from TCE_CTRL (R229). -/
def execTceClearAge (ctrl : Nat) (s : State) : Answer :=
  tceStart (ctrl - ctrl % 8 + 4) (fun s =>
    let t := s.setup.tce
    let h := bitsOf ctrl 18 17
    tceChecked [(bitsOf ctrl 15 8 ≠ 5, badParam 4 0), (!bit ctrl 16, badParam 6 0), (262144 ≤ t.index, badParam 4 4)]
      (fun s =>
        let s := clearAge h t.index s
        ({ words := [flowletWord s h t.index] }, s)) s) s

/-- TCE_OPERATION_DONE (R232): the running operation ends, with DONE, its status and its words. -/
def execTceOperationDone (s : State) : Answer :=
  match s.setup.tce.result with
  | none => .next s
  | some (st, rs, m, ws) =>
    .next (modTce (fun t => { t with
      busy := false, done := true, matched := m, status := st, reason := rs, result := none,
      data := ws ++ t.data.drop ws.length }) s)

/-! ## Transactions (Tables 9.12, 9.14, 9.15) -/

/-- The items that count as staged: the mark of STAIR_CONFIG is none (DESIGN CHOICE, log 20). -/
def Txn.count (t : Txn) : Nat := (t.items.filter fun i => i.key ≠ .stairAll).length

/-- Closes a transaction. -/
def closeTxn (h : Nat) (s : State) : State :=
  { s with setup := { s.setup with txns := s.setup.txns.filter fun t => t.handle ≠ h } }

/-- Rolls a transaction back (R235, R238): its items are discarded, it closes, and the cause is raised. -/
def rollBack (t : Txn) (cause : Nat) (s : State) : State :=
  raiseLead 0x0202 2 t.handle cause t.count (closeTxn t.handle s)

/-- TXN_BEGIN: what it admits. -/
def opTxnBegin : OpSpec := { opcode := 0x0200, tenant := true, grant := some 1, lengths := fun n => n = 8 }

/-- TXN_BEGIN (Table 9.12). -/
def execTxnBegin (q : Request) (s : State) : Answer :=
  runCommand opTxnBegin (.txnBegin q) q
    (fun _ own => u8 q.params 0 ≠ 0 || u16 q.params 2 = own) (fun c s =>
    let p := q.params
    let dev := u8 p 0 = 1
    let key := u16 p 2
    withChecks [(dev && c.level ≠ ownerLevel, denied 4 q.token), (1 < u8 p 0, badParam 3 0),
        (dev && key ≠ 0, badParam 6 2), (!dev && (blockAt s key).isNone, badParam 0x81 2),
        (3600 < u16 p 4, badParam 4 4),
        (s.setup.txns.any fun t => t.device = dev && t.latchkey = key, { status := 5, reason := 0x81 })] s fun s =>
      let h := s.setup.nextHandle
      let t : Txn := { handle := h, device := dev, latchkey := key, token := q.token, route := c.route,
                       idle := if u16 p 4 = 0 then 60 else u16 p 4, lastNamed := s.ns }
      .ok (beBytes 4 h) { s with setup := { s.setup with
        txns := s.setup.txns ++ [t], nextHandle := if h + 1 = 2 ^ 32 then 1 else h + 1 } }) s

/-- TXN_ROLLBACK: what it admits. -/
def opTxnRollback : OpSpec := { opcode := 0x0202, tenant := true, grant := some 1, lengths := fun n => n = 0, ownTxn := true }

/-- TXN_ROLLBACK (Table 9.14, R238). -/
def execTxnRollback (q : Request) (s : State) : Answer :=
  runCommand opTxnRollback (.txnRollback q) q anyBlock (fun c s =>
    if q.txn = 0 then .refuse { status := 4, reason := 1 } s
    else
      match ownTxnRefused q (c.level = ownerLevel) (· = .committing) s, txnAt s q.txn with
      | some r, _ => .refuse r s
      | none, none => .refuse { status := 4, reason := 2 } s
      | none, some t => .ok (beBytes 4 t.count) (rollBack t 1 s)) s

/-- TXN_STATUS: what it admits. -/
def opTxnStatus : OpSpec :=
  { opcode := 0x0203, observer := true, tenant := true, lengths := fun n => n = 4, reads := true }

/-- TXN_STATUS (Table 9.15). (DESIGN CHOICE, log 20.) -/
def execTxnStatus (q : Request) (s : State) : Answer :=
  runCommand opTxnStatus (.txnStatus q) q
    (fun s own => match txnAt s (u32 q.params 0) with
      | none => true
      | some t => !t.device && t.latchkey = own) (fun _ s =>
    match txnAt s (u32 q.params 0) with
    | none => .refuse { status := 4, reason := 2 } s
    | some t =>
      let st := match t.state with | .opened => 0 | .committing => 1 | .failed => 2
      .ok (beBytes 1 st ++ beBytes 1 (b2n t.device) ++ beBytes 2 t.latchkey ++ beBytes 2 t.token ++ beBytes 1 t.route ++
        zeros 1 ++ beBytes 4 t.count ++ beBytes 2 t.idle ++ beBytes 2 (min 0xFFFF ((s.ns - t.lastNamed) / second)) ++
        beBytes 8 (if t.state = .committing then t.t else 0)) s) s

/-- TXN_IDLE_TIMEOUT (R235): a transaction in OPEN or FAILED that no command has named for IDLE seconds is rolled back. Before that,
nothing happens. -/
def execTxnIdleTimeout (handle : Nat) (s : State) : Answer :=
  match txnAt s handle with
  | none => .next s
  | some t => .next (if t.state = .committing || s.ns < t.lastNamed + t.idle * second then s else rollBack t 2 s)

end Sys2Proof.Machine
end

