-- ==== Sys2Proof/Machine/Store.lean ====
section
/-!
DEFINITION. The non-volatile store (R490 to R511): geometry, states, transactions and their effects, the scrub, wear
levelling, the persistent log, and the store commands.
-/
namespace Sys2Proof.Machine

/-! ## Geometry and states (R492, R502) -/

/-- Changes the store. -/
def modNv (g : Nv → Nv) (s : State) : State := { s with nv := g s.nv }

/-- A device of the store. -/
def nvDev (s : State) (d : Nat) : NvDevice := s.nv.devices.getD d {}

/-- Changes a device of the store. -/
def modDev (d : Nat) (g : NvDevice → NvDevice) (s : State) : State :=
  modNv (fun n => { n with devices := n.devices.set d (g (nvDev s d)) }) s

/-- Data bytes of a block: 64 pages, 15/16 of their main area (R494). -/
def NvDevice.blockBytes (d : NvDevice) : Nat := d.pageKiB * 61440

/-- The device whose geometry the logical layout follows: the smaller one that answers (R492). -/
def nvSmaller (s : State) : NvDevice :=
  let a := nvDev s 0
  let b := nvDev s 1
  if a.blocks = 0 then b else if b.blocks = 0 || a.capMbit ≤ b.capMbit then a else b

/-- SLOT_SIZE in bytes (Table 21.1). -/
def NvDevice.slotSize (d : NvDevice) : Nat := min 67108864 (d.capMbit * 131072 / 4)

/-- Blocks of an image slot, skip spares included (Table 21.1). -/
def NvDevice.slotBlocks (d : NvDevice) : Nat :=
  let n := ceilDiv d.slotSize d.blockBytes
  n + ceilDiv n 16

/-- Blocks of the managed area. -/
def NvDevice.managed (d : NvDevice) : Nat := d.blocks - 8 - 2 * d.slotBlocks

/-- Bytes of logical space (R492). -/
def NvDevice.logical (d : NvDevice) : Nat := (d.managed - 64) * 7 / 8 * d.blockBytes

/-- Bytes of the SNAPSHOT region: what SYSTEM, USER and LOG leave (Table 21.2). -/
def snapshotBytes (s : State) : Nat := (nvSmaller s).logical - 14680064

/-- SNAPSHOT bytes used. -/
def snapshotUsed (s : State) : Nat := (s.nv.snapshots.map fun n => n.content.length).sum

/-- Whether the store takes writes: some device is OK (R502). -/
def storeUp (s : State) : Bool := s.nv.devices.any fun d => d.state = 1

/-- STORE of NV_STATUS: 0 unavailable, 1 single, 2 mirrored (R502). -/
def storeState (s : State) : Nat := (s.nv.devices.filter fun d => d.state = 1).length

/-- Puts a device in a state, and raises NV_DEVICE_STATE (R502, Table 21.8). -/
def setDeviceState (d new : Nat) (s : State) : State :=
  let old := (nvDev s d).state
  if old = new then s
  else
    let s := modDev d (fun x => { x with state := new }) s
    raiseLead 0x0E01 (if new = 4 || !storeUp s then 4 else 3) d (old * 256 + new) (nvDev s d).freeManaged s

/-- Counts in a device's counters (R510). -/
def countNv (d idx n : Nat) (s : State) : State := count 0x10 d idx n s

/-- The blocks of an anchor page and of the image slots, which the anchor's own bad-block table covers (Table 21.1). -/
def NvDevice.direct (d : NvDevice) : Nat := 8 + 2 * d.slotBlocks

/-- Whether a device takes reads: OK, or worn and read only (Table 21.3). -/
def readable (s : State) (d : Nat) : Bool := (nvDev s d).state = 1 || (nvDev s d).state = 3

/-- Whether a device takes writes: OK, or being filled (Table 21.3). -/
def writable (s : State) (d : Nat) : Bool := (nvDev s d).state = 1 || (nvDev s d).state = 2

/-- The next page of the anchor blocks in cyclic order, those of bad blocks left out (R493). -/
def NvDevice.nextAnchor (d : NvDevice) : Nat :=
  (((List.range 512).map fun i => (d.anchorPage + 1 + i) % 512).find? fun p => !d.bad.contains (p / 64)).getD d.anchorPage

/-- A new anchor copy, with ANCHOR_SEQ one higher, on each device that takes writes; a block is erased before its first page is written
(R493). -/
def anchorWrite (s : State) : State :=
  let seq := (s.nv.devices.map (·.anchorSeq)).foldl max 0 + 1
  [0, 1].foldl (fun s d =>
    if writable s d then
      let p := (nvDev s d).nextAnchor
      countNv d 1 1 (countNv d 2 (if p % 64 = 0 then 1 else 0) (modDev d (fun x => { x with anchorSeq := seq, anchorPage := p }) s))
    else s) s

/-- Pages that hold `n` data bytes (R494). -/
def NvDevice.pages (d : NvDevice) (n : Nat) : Nat := ceilDiv n (d.pageKiB * 960)

/-- The last JSEQ committed on any device. -/
def lastJseq (s : State) : Nat := (s.nv.devices.map (·.jseq)).foldl max 0

/-! ## The boot configuration (R505) -/

/-- The boot configuration with every field at its default, without its CRC (Table 21.4). -/
def defaultBootcfg : Bytes :=
  beBytes 2 1 ++ beBytes 1 0 ++ beBytes 1 12 ++ beBytes 2 16 ++ beBytes 2 8 ++ beBytes 2 32 ++ zeros 2 ++ beBytes 4 0 ++
  ([0, 0, 128, 0].map byteOf ++ beBytes 2 16 ++ zeros 2 ++ beBytes 4 1000) ++
  (zeros 4 ++ beBytes 2 100 ++ [4, 4].map byteOf ++ beBytes 2 300 ++ zeros 2 ++ beBytes 4 100 ++ beBytes 4 60 ++
    beBytes 4 600) ++
  [0, 95, 100, 110, 1, 95, 100, 110, 2, 95, 100, 110, 3, 88, 95, 103, 4, 90, 95, 105, 5, 75, 80, 90].map byteOf ++
  zeros 176

/-- A record with its CRC. -/
def sealBootcfg (b : Bytes) : Bytes := b.take 252 ++ beBytes 4 (crc32c (b.take 252))

/-- The boot configuration as stored. (DEDUCED, log 13.) -/
def bootcfg (s : State) : Bytes := if s.nv.bootcfg = [] then sealBootcfg defaultBootcfg else s.nv.bootcfg

/-- A byte string with bytes `v` put at `off`. -/
def putBytes (b : Bytes) (off : Nat) (v : Bytes) : Bytes := b.take off ++ v ++ b.drop (off + v.length)

/-- The boot configuration with parts replaced. -/
def patchBootcfg (parts : List (Nat × Bytes)) (s : State) : Bytes :=
  sealBootcfg (parts.foldl (fun b p => putBytes b p.1 p.2) (bootcfg s))

/-! ## What a transaction changes -/

/-- Rolls back the transactions in OPEN and FAILED that a token holds (R235). -/
def rollBackHeld (token : Nat) (s : State) : State :=
  (s.setup.txns.filter fun t => t.token = token && t.state ≠ .committing).foldl (fun s t => rollBack t 3 s) s

/-- The part of an effect that acts on the running part: tokens, SELF_GID and grants (R74, R80, R258). -/
def applyLive (e : NvEffect) (s : State) : State :=
  match e with
  | .token id t route =>
    let old := tfind s.maloa.tokens id
    let s := { s with maloa := { s.maloa with
      tokens := match t with | some t => tset s.maloa.tokens id t | none => tdel s.maloa.tokens id } }
    let same := match old, t with | some a, some b => a.level = b.level && a.latchkey = b.latchkey | _, _ => false
    let s := if same then s else rollBackHeld id s
    raiseLead 0x0133 2 id ((t.map (·.level)).getD 0) route s
  | .selfGid v g => { s with maloa := { s.maloa with selfGidValid := v, selfGid := g } }
  | .grants key g route =>
    raiseLead 0x0403 2 key g route (modBlock key (fun b => { b with grants := g }) s)
  | _ => s

/-- A snapshot's copy is cached in the Cellar SHADOW partition (R243). -/
def cacheSnapshot (d : Nat) (s : State) : State :=
  if s.cellar.snapshots.contains d then s else { s with cellar := { s.cellar with snapshots := s.cellar.snapshots ++ [d] } }

/-- The cached copy of a snapshot is discarded (R306). -/
def dropCached (d : Nat) (s : State) : State :=
  { s with cellar := { s.cellar with snapshots := s.cellar.snapshots.filter (· ≠ d) } }

/-- The part of an effect that the store keeps. It follows the live part. -/
def applyStored (e : NvEffect) (s : State) : State :=
  match e with
  | .token _ _ _ => modNv (fun n => { n with storedTokens := s.maloa.tokens }) s
  | .selfGid v g => modNv (fun n => { n with bootcfg := patchBootcfg [(12, beBytes 4 (b2n v * 2 ^ 31 + g))] s }) s
  | .bootcfg parts => modNv (fun n => { n with bootcfg := patchBootcfg parts s }) s
  | .limits z r => modNv (fun n => { n with bootcfg := patchBootcfg [(52 + 4 * z, r)] s }) s
  | .portTime first rs => modNv (fun n => { n with
      portTime := (List.range rs.length).foldl (fun t i => tset t (first + i) (rs.getD i 0)) n.portTime }) s
  | .user off data => modNv (fun n => { n with user := memWrite n.user off data }) s
  | .snapSave sn =>
    if s.nv.snapshots.any fun x => x.digest = sn.digest then s
    else raiseLead 0x0361 1 (sn.digest % 2 ^ 32) (sn.digest / 2 ^ 32) sn.content.length
      (cacheSnapshot sn.digest (modNv (fun n => { n with snapshots := n.snapshots ++ [sn] }) s))
  | .snapDelete d => modNv (fun n => { n with
      snapshots := n.snapshots.filter fun x => x.digest ≠ d
      bootcfg := if n.snapshots.any fun x => x.digest = d && x.boot then patchBootcfg [(76, zeros 8)] s else n.bootcfg })
      (dropCached d s)
  | .snapBoot d => modNv (fun n => { n with
      snapshots := n.snapshots.map fun x => { x with boot := x.digest = d }
      bootcfg := patchBootcfg [(76, beBytes 8 d)] s }) s
  | .blocks => modNv (fun n => { n with storedBlocks := s.blocks }) s
  | .grants _ _ _ => modNv (fun n => { n with storedBlocks := s.blocks }) s
  | .ownerKey _ a b c => modNv (fun n => { n with ownerKey := some (a, b, c) }) s
  | .none => s

/-- Data bytes that a transaction writes, where the manual gives them. -/
def NvEffect.size : NvEffect → Nat
  | .token _ _ _ => 28672
  | .selfGid _ _ | .bootcfg _ | .snapBoot _ | .limits _ _ => 256
  | .portTime _ _ => 5120
  | .user _ d => d.length
  | .snapSave sn => sn.content.length
  | _ => 0

/-- Whether an effect takes hold at once, unstored, when the store is unavailable. -/
def NvEffect.always : NvEffect → Bool
  | .token _ _ _ | .selfGid _ _ | .grants _ _ _ | .limits _ _ => true
  | _ => false

/-- Queues a store transaction (R495, R497). -/
def nvQueue (t : NvTxn) (s : State) : State :=
  modNv (fun n => { n with queue := n.queue ++ [{ t with id := n.nextId }], nextId := n.nextId + 1 }) s

/-- A command whose effect is a store transaction: it waits for the commit, or is refused with FAULT, reason 0x80, by an
unavailable store. -/
def storeThen (t : NvTxn) (s : State) : Done :=
  if storeUp s then .wait (.store s.nv.nextId) (nvQueue t s) else .refuse { status := 9, reason := 0x80 } s

/-- A deferred command that an unavailable store lets take effect at once, with DEGRADED, reason 0x80 (R80). -/
def storeOrApply (e : NvEffect) (s : State) : Done :=
  if storeUp s then .wait (.store s.nv.nextId) (nvQueue { id := 0, effect := e } s)
  else .reply 0x0E 0x80 0 [] (applyLive e s)

/-! ## The journal (R495, R497) -/

/-- The pages of the journal and mapping area, of 64 blocks (Table 21.2; DESIGN CHOICE, log 21). -/
def journalPages : Nat := 4096

/-- A checkpoint of the mapping, once the journal of some device is three-quarters full: the anchor points at it (R495). -/
def checkpoint (s : State) : State :=
  if s.nv.devices.any fun d => 3 * journalPages ≤ 4 * d.journal then
    anchorWrite (modNv (fun n => { n with devices := n.devices.map fun d => { d with journal := 0 } }) s)
  else s

/-- Writes a transaction's pages and its commit record on every device that takes writes. -/
def commitPages (e : NvEffect) (s : State) : State :=
  let j := lastJseq s + 1
  checkpoint ([0, 1].foldl (fun s d =>
    if writable s d then
      countNv d 1 ((nvDev s d).pages e.size + 1) (modDev d (fun x => { x with jseq := j, journal := x.journal + 1, fails := 0 }) s)
    else s) s)

/-! ## Defects (R499, R502) -/

/-- A device in service with fewer than 2 % of its managed blocks free is worn (Table 21.3). -/
def judgeWear (d : Nat) (s : State) : State :=
  if (nvDev s d).state = 1 && 50 * (nvDev s d).freeManaged < (nvDev s d).managed then setDeviceState d 3 s else s

/-- Retires a block of a device, unless it is retired already (R499): recorded in the mapping, or in the anchor for the anchor and image
slots. `why`: as NV_BLOCK_RETIRED. -/
def retireBlock (d block why : Nat) (s : State) : State :=
  if (nvDev s d).bad.contains block then s
  else
    let direct := decide (block < (nvDev s d).direct)
    let s := modDev d (fun x => { x with
      retired := x.retired + 1, freeManaged := if direct then x.freeManaged else x.freeManaged - 1, bad := x.bad ++ [block] }) s
    judgeWear d (raiseLead 0x0E02 2 d block why (if direct then anchorWrite s else s))

/-- An operation of a device has failed; the sixteenth in a row fails the device (Table 21.3). -/
def opFailed (d : Nat) (s : State) : State :=
  let s := modDev d (fun x => { x with fails := x.fails + 1 }) s
  if 16 ≤ (nvDev s d).fails then setDeviceState d 4 s else s

/-- NV_TRANSACTION_COMMIT (R495): the running transaction's commit record is written, the change takes effect, and the
command that waits on it replies; a new owner key is in service only if no Porch alarm has zeroised its share (Table 20.14). When the store
has become unavailable the command ends as that store lets it. `failed`: device and block of each program, or erase, that reported failure,
whose data went to another block (R499). -/
def execNvTransactionCommit (failed : List (Nat × Nat × Bool)) (s : State) : Answer :=
  match s.nv.queue with
  | [] => .next s
  | t :: rest =>
    let s := modNv (fun n => { n with queue := rest }) s
    let s := failed.foldl (fun s e => retireBlock e.1 e.2.1 (if e.2.2 then 2 else 1) (opFailed e.1 s)) s
    if storeUp s then
      let s := applyStored t.effect (applyLive t.effect (commitPages t.effect s))
      match t.effect with
      | .ownerKey route a b share =>
        if s.porch.share = share then
          .next (complete (.store t.id) 0 0 0 t.payload (raiseLead 0x0D40 3 (beNat (Config.sha384 (a ++ b)) % 2 ^ 32) route 0 s))
        else .next (complete (.store t.id) 9 0x83 0 [] s)
      | _ => .next (complete (.store t.id) t.status t.reason 0 t.payload s)
    else if t.effect.always then .next (complete (.store t.id) 0x0E 0x80 0 [] (applyLive t.effect s))
    else .next (complete (.store t.id) 9 0x80 0 [] s)

/-! ## Reading (R494, R498) -/

/-- Codewords of a read that are not good: more than 32 bit errors, or a CRC that does not match (R494). -/
def nandLost (r : NandRead) : Nat :=
  let n := (r.errors.filter (32 < ·)).length
  if n = 0 && !r.crcOk then 1 else n

/-- Bits that the code corrects in a read. -/
def nandCorrected (r : NandRead) : Nat := (r.errors.filter (· ≤ 32)).sum

/-- Whether some codeword of a read is at its refresh level: 16 or more corrections, or the device's own report (R494). -/
def nandAtRefresh (r : NandRead) : Bool := r.refresh || r.errors.any fun n => 16 ≤ n && n ≤ 32

/-- The device a read is served from: device 0, or device 1 when device 0 is not OK, or one that is only read (R498). -/
def readDevice (s : State) : Nat :=
  if (nvDev s 0).state = 1 then 0 else if (nvDev s 1).state = 1 then 1 else if (nvDev s 0).state = 3 then 0 else 1

/-- Pages are read from a device: its counters (R510). -/
def noteRead (d pages : Nat) (r : NandRead) (s : State) : State :=
  let s := countNv d 4 (nandLost r) (countNv d 3 (nandCorrected r) (countNv d 0 pages s))
  if nandLost r = 0 then modDev d (fun x => { x with fails := 0 }) s else opFailed d s

/-- A read of pages from device `d` (R498, R499): where it is not good the other device is read, the block is rewritten from a good copy,
and a block with a read that is not good is retired. -/
def readPages (d region pages : Nat) (obs : NvReadObs) (s : State) : State :=
  let o := 1 - d
  let s := noteRead d pages obs.first s
  if nandLost obs.first = 0 then s
  else if !readable s o then retireBlock d obs.first.block 3 s
  else
    let s := noteRead o pages obs.second s
    if nandLost obs.second = 0 then
      let s := countNv d 1 64 s
      let s := raiseLimited 0x0E03 0 second (fun _ s => raiseLead 0x0E03 3 d obs.first.block region s) s
      retireBlock d obs.first.block 3 s
    else retireBlock o obs.second.block 3 (retireBlock d obs.first.block 3 s)

/-- Whether no device that can be read gives a good copy. -/
def nvLost (obs : NvReadObs) (s : State) : Bool :=
  nandLost obs.first ≠ 0 && !(readable s (1 - readDevice s) && nandLost obs.second = 0)

/-- What a read of `bytes` bytes of a region leaves behind. -/
def nvReadEffects (region bytes : Nat) (obs : NvReadObs) (s : State) : State :=
  let d := readDevice s
  readPages d region ((nvDev s d).pages bytes) obs s

/-! ## Scrub and wear (R500, R501, R503) -/

/-- Blocks of a device that hold data: those neither retired nor free (DESIGN CHOICE, log 21). -/
def NvDevice.dataBlocks (d : NvDevice) : Nat := if d.state = 1 then d.blocks - d.retired - d.freeManaged else 0

/-- Starts a scrub pass. -/
def startScrub (fast : Bool) (s : State) : State :=
  modNv (fun n => { n with scrubRun := true, scrubFast := fast, scrubDone := 0, scrubRewritten := 0,
                           scrubTotal := (n.devices.map NvDevice.dataBlocks).sum, scrubStart := s.ns }) s

/-- One hour in ns. -/
def hour : Nat := 3600 * second

/-- NV_SCRUB_BLOCK (R501, R499): the scrub reads the next block of a device, rewrites it at its refresh level, and retires it when it was
rewritten within 24 h before. The last block ends the pass. -/
def execNvScrubBlock (device region : Nat) (obs : NvReadObs) (s : State) : Answer :=
  if 2 ≤ device then .refused (.noSuchObject "NAND device")
  else if !readable s device then .next s
  else
    let block := obs.first.block
    let s := if s.nv.scrubRun then s else startScrub false s
    let s := readPages device region 64 obs s
    let refresh := decide (nandLost obs.first = 0) && nandAtRefresh obs.first
    let again := (tfind (nvDev s device).refreshed block).any fun t => s.ns < t + 24 * hour
    let s := if refresh then countNv device 1 64 (modDev device (fun x => { x with refreshed := tset x.refreshed block s.ns }) s) else s
    let s := if refresh && again then retireBlock device block 4 s else s
    let s := modNv (fun n => { n with
      scrubDone := n.scrubDone + 1, scrubRewritten := n.scrubRewritten + b2n (refresh || decide (nandLost obs.first ≠ 0)) }) s
    if s.nv.scrubTotal ≤ s.nv.scrubDone then
      let s := raiseLead 0x0E04 1 s.nv.scrubDone s.nv.scrubRewritten ((s.ns - s.nv.scrubStart) / hour) s
      .next (modNv (fun n => { n with
        scrubRun := false, scrubFast := false
        devices := n.devices.map fun d => if d.state = 1 then { d with lastPass := some s.ns } else d }) s)
    else .next s

/-- NV_WEAR_LEVEL (R500): when the erase counts of live blocks differ by more than 2,000, the least-erased block's data
moves, at most one block per second; `newMin` is the least count among the live blocks afterwards. -/
def execNvWearLevel (device newMin : Nat) (s : State) : Answer :=
  if 2 ≤ device then .refused (.noSuchObject "NAND device")
  else
    let d := nvDev s device
    if d.minErase + 2000 < d.maxErase && !(d.lastMove.any fun t => s.ns < t + second) then
      .next (countNv device 2 1 (countNv device 1 64 (countNv device 0 64
        (modDev device (fun x => { x with
          minErase := newMin, maxErase := max x.maxErase (x.minErase + 1), lastMove := some s.ns }) s))))
    else .next s

/-- NV_RESYNC_DONE (R503): a device in RESYNC is OK. -/
def execNvResyncDone (device copied : Nat) (s : State) : Answer :=
  if 2 ≤ device then .refused (.noSuchObject "NAND device")
  else if (nvDev s device).state = 2 then
    let secs := (s.ns - (nvDev s device).resyncStart) / second
    let j := lastJseq s
    .next (raiseLead 0x0E06 2 device copied secs
      (setDeviceState device 1 (modDev device (fun x => { x with resync := 1000, jseq := j }) s)))
  else .next s

/-! ## The persistent log (R507) -/

/-- An event record waits for the persistent log, or is lost (R507). -/
def queueLog (r : EventRec) (s : State) : State :=
  if s.nv.logQueue.length < 4096 then modNv (fun n => { n with logQueue := n.logQueue ++ [r] }) s
  else raiseLimited 0x0E07 0 second (fun n s => raiseLead 0x0E07 3 n 0 0 s) s

/-- NV_LOG_WRITE (R507): the records that wait are written to LOG, which keeps the latest 174,762. -/
def execNvLogWrite (s : State) : Answer :=
  if storeUp s && s.nv.logQueue ≠ [] then
    let recs := (List.range s.nv.logQueue.length).map fun i =>
      { index := s.nv.nextIndex + i, boot := s.nv.boots, secs := s.time.cal.sec
        event := s.nv.logQueue.getD i { seq := 0, msg := { code := 0, die := 0, severity := 0 } } : NvLogRec }
    let s := commitPages .none s
    .next (modNv (fun n => { n with log := lastOf 174762 (n.log ++ recs), nextIndex := n.nextIndex + recs.length,
                                    logQueue := [] }) s)
  else .next s

/-- The eight words of an event record (Table 3.14). -/
def EventRec.words (r : EventRec) : List Nat :=
  let m := r.msg
  [r.seq % 2 ^ 32, r.seq / 2 ^ 32, m.time % 2 ^ 32, m.time / 2 ^ 32,
    b2n m.locked * 2 ^ 31 + m.severity * 2 ^ 28 + m.die * 2 ^ 22 + m.code, m.arg0, m.arg1, m.arg2]

/-- The 32 bytes of an event record (Table 3.14). -/
def EventRec.bytes (r : EventRec) : Bytes := wordBytes r.words

/-- The 48 bytes of a persistent record (R507). -/
def NvLogRec.bytes (r : NvLogRec) : Bytes := beBytes 4 r.index ++ beBytes 4 r.boot ++ beBytes 8 r.secs ++ r.event.bytes

/-! ## Store commands (Tables 21.9 to 21.15) -/

/-- Record of a device in NV_STATUS; `resync`: how far its resync is, per mille. -/
def NvDevice.bytes (d : NvDevice) (now resync : Nat) : Bytes :=
  beBytes 1 d.state ++ beBytes 1 d.pageKiB ++ beBytes 2 d.capMbit ++ beBytes 4 d.blocks ++ beBytes 4 d.retired ++
  beBytes 4 d.freeManaged ++ beBytes 4 d.maxErase ++ beBytes 4 d.meanErase ++
  beBytes 2 (match d.lastPass with | none => 0xFFFF | some t => min 0xFFFF ((now - t) / (24 * hour))) ++
  beBytes 2 resync ++ beBytes 4 d.readId

/-- NV_STATUS: what it admits. -/
def opNvStatus : OpSpec := { opcode := 0x0E00, observer := true, lengths := fun n => n = 0, reads := true }

/-- How far the resync of a device is; while it runs the manual does not say (DESIGN CHOICE, log 2). -/
def resyncDone (d : Nat) (s : State) : Nat × State :=
  if (nvDev s d).state = 2 then draw 1000 s else ((nvDev s d).resync, s)

/-- NV_STATUS (Table 21.9). -/
def execNvStatus (q : Request) (s : State) : Answer :=
  runCommand opNvStatus (.nvStatus q) q anyBlock (fun _ s =>
    let a := resyncDone 0 s
    let b := resyncDone 1 a.2
    .ok (beBytes 1 (storeState s) ++ beBytes 1 (b2n s.nv.scrubRun) ++
      beBytes 2 (if s.nv.scrubTotal = 0 then 0 else s.nv.scrubDone * 1000 / s.nv.scrubTotal) ++ beBytes 4 (lastJseq s) ++
      (nvDev s 0).bytes s.ns a.1 ++ (nvDev s 1).bytes s.ns b.1 ++ beBytes 4 (snapshotUsed s) ++
      beBytes 4 (snapshotBytes s - snapshotUsed s) ++ beBytes 1 s.nv.snapshots.length ++ zeros 3 ++
      beBytes 4 s.nv.log.length ++ beBytes 4 s.nv.boots) b.2) s

/-- NV_READ: what it admits. -/
def opNvRead : OpSpec := { opcode := 0x0E01, observer := true, lengths := fun n => n = 8, reads := true }

/-- NV_READ (Table 21.10). -/
def execNvRead (q : Request) (obs : NvReadObs) (s : State) : Answer :=
  runCommand opNvRead (.nvRead q obs) q anyBlock (fun _ s =>
    let off := u32 q.params 0
    let n := u32 q.params 4
    withChecks [(off % 4 ≠ 0, badParam 4 0), (n < 4 || 4080 < n || n % 4 ≠ 0 || 4194304 < off + n, badParam 4 4)] s fun s =>
      let lost := nvLost obs s
      if !(readable s 0 || readable s 1) then .refuse { status := 9, reason := 0x80 } s
      else
        let s := nvReadEffects 4 n obs s
        if lost then .refuse { status := 9, reason := 0x81 } s
        else .ok ((List.range n).map fun i => memGet s.nv.user (off + i)) s) s

/-- NV_WRITE: what it admits. -/
def opNvWrite : OpSpec := { opcode := 0x0E02, lengths := fun n => 12 ≤ n && n ≤ 4080 }

/-- NV_WRITE (Table 21.11). -/
def execNvWrite (q : Request) (s : State) : Answer :=
  runCommand opNvWrite (.nvWrite q) q anyBlock (fun _ s =>
    let off := u32 q.params 0
    let data := q.params.drop 8
    withChecks [(off % 4 ≠ 0 || 4194304 < off + data.length, badParam 4 0)] s fun s =>
      storeThen { id := 0, effect := .user off data } s) s

/-- NV_SCRUB: what it admits. -/
def opNvScrub : OpSpec := { opcode := 0x0E03, lengths := fun n => n = 4 }

/-- NV_SCRUB (Table 21.12). -/
def execNvScrub (q : Request) (s : State) : Answer :=
  runCommand opNvScrub (.nvScrub q) q anyBlock (fun _ s =>
    let op := u8 q.params 0
    withChecks [(1 < op, badParam 3 0), (op = 0 && s.nv.scrubRun, { status := 1, reason := 4, info := 0xFFFF })] s fun s =>
      if op = 0 then
        let s := startScrub true s
        .ok (beBytes 4 s.nv.scrubTotal) s
      else .ok (zeros 4) (modNv (fun n => { n with scrubRun := false, scrubFast := false }) s)) s

/-- BOOTCFG_READ: what it admits. -/
def opBootcfgRead : OpSpec := { opcode := 0x0E04, observer := true, lengths := fun n => n = 0, reads := true }

/-- BOOTCFG_READ (Table 21.13). -/
def execBootcfgRead (q : Request) (obs : NvReadObs) (s : State) : Answer :=
  runCommand opBootcfgRead (.bootcfgRead q obs) q anyBlock (fun _ s =>
    let lost := nvLost obs s
    if !(readable s 0 || readable s 1) then .refuse { status := 9, reason := 0x80 } s
    else
      let s := nvReadEffects 3 256 obs s
      if lost then .refuse { status := 9, reason := 0x80 } s else .ok (bootcfg s) s) s

/-- BOOTCFG_WRITE: what it admits. -/
def opBootcfgWrite : OpSpec := { opcode := 0x0E05, lengths := fun n => n = 12 }

/-- BOOTCFG_WRITE (Table 21.14). -/
def execBootcfgWrite (q : Request) (s : State) : Answer :=
  runCommand opBootcfgWrite (.bootcfgWrite q) q anyBlock (fun _ s =>
    let p := q.params
    let f := u8 p 0
    let layout := bit f 2
    withChecks [(f = 0 || 8 ≤ f, badParam 3 0), (bit f 0 && 1 < u8 p 1, badParam 4 1),
        (bit f 1 && (u8 p 2 = 0 || 168 < u8 p 2), badParam 4 2),
        (layout && (u16 p 4 < 8 || 32 < u16 p 4), badParam 4 4), (layout && (u16 p 6 < 2 || 16 < u16 p 6), badParam 4 6),
        (layout && 128 < u16 p 8, badParam 4 8), (layout && 224 < 4 + u16 p 4 + u16 p 6 + u16 p 8, badParam 6 4)] s fun s =>
      storeThen { id := 0, effect := .bootcfg (
        (if bit f 0 then [(2, (p.drop 1).take 1)] else []) ++ (if bit f 1 then [(3, (p.drop 2).take 1)] else []) ++
        (if layout then [(4, (p.drop 4).take 6)] else [])) } s) s

/-- NV_LOG_READ: what it admits. -/
def opNvLogRead : OpSpec := { opcode := 0x0E06, observer := true, lengths := fun n => n = 8, reads := true }

/-- NV_LOG_READ (Table 21.15). `lost` lists the indices in codewords that no device reads back good, which are skipped and
counted, 20 records to a codeword (Table 21.5). A store that cannot be read gives none. -/
def execNvLogRead (q : Request) (lost : List Nat) (s : State) : Answer :=
  runCommand opNvLogRead (.nvLogRead q lost) q anyBlock (fun _ s =>
    let p := q.params
    let max := u8 p 5
    withChecks [(max = 0 || 84 < max, badParam 4 5)] s fun s =>
      let held := if readable s 0 || readable s 1 then s.nv.log else []
      let bad := held.filter fun r => lost.contains r.index
      let rs := (held.filter fun r => u32 p 0 ≤ r.index && u8 p 4 % 8 ≤ r.event.msg.severity && !lost.contains r.index).take max
      let words := (bad.map fun r => (r.index - 1) % 174762 / 20).eraseDups.length
      let s := countNv 1 4 words (countNv 0 4 words (countNv (readDevice s) 0 ((nvDev s (readDevice s)).pages (48 * rs.length)) s))
      .ok (beBytes 4 (s.nv.nextIndex - 1) ++ beBytes 2 rs.length ++
        beBytes 1 (b2n (gapOf (u32 p 0) (s.nv.log.head?.map (·.index)))) ++ zeros 9 ++ rs.flatMap NvLogRec.bytes) s) s

end Sys2Proof.Machine
end

