-- ==== Sys2Proof/Machine/Partitions.lean ====
section
/-!
DEFINITION. Latchkey partitions: the block commands (R259, R262), and the layout that a transaction would leave.
-/
namespace Sys2Proof.Machine

/-! ## Layouts as bytes (R262) -/

/-- The layout in a BLOCK_CREATE request (Table 10.9), put over a block that keeps its pool, grants and state. -/
def layoutOf (p : Bytes) (b : Block) : Block :=
  { b with
    hasCtx := bit (u8 p 2) 1, ctxFirst := u16 p 4, ctxLast := u16 p 6
    pairs := bitmapNat ((p.drop 12).take 16), transom := bitmapNat ((p.drop 28).take 32)
    ranges := (List.range (u8 p 3)).map fun i => (u32 p (60 + 8 * i) % 2 ^ 20, u32 p (64 + 8 * i)) }

/-- The settings in a BLOCK_POOL_SET request (Table 10.12). -/
def poolFrom (p : Bytes) : Pool :=
  { landingReserve := u16 p 4, landingCap := u16 p 6, spillCap := u16 p 8, hamperReserve := u16 p 10, spillWeight := u8 p 12 }

/-- Bytes 4 to 15 of BLOCK_POOL_SET for a pool, with 4 reserved bytes after them. -/
def Pool.bytes (p : Pool) : Bytes :=
  beBytes 2 p.landingReserve ++ beBytes 2 p.landingCap ++ beBytes 2 p.spillCap ++ beBytes 2 p.hamperReserve ++
  beBytes 1 p.spillWeight ++ zeros 7

/-- A deletion is staged as the four bytes of its request; a layout is longer. -/
def isDeletion (v : Bytes) : Bool := v.length < 60

/-- Whether a key is in use in the layout that a transaction has staged so far (R259). -/
def keyInUse (s : State) (t : Option Txn) (key : Nat) : Bool :=
  match t.bind fun t => t.staged (.block key) with
  | some v => !isDeletion v
  | none => (blockAt s key).isSome

/-- The transaction that a request names. -/
def namedTxn (q : Request) (s : State) : Option Txn := txnAt s q.txn

/-- A block command is staged only in a device transaction (R259). -/
def notDevice (q : Request) (s : State) : Bool × Refuse :=
  (!((namedTxn q s).any fun t => t.device), denied 5 q.token)

/-- The code of a block's state: 0 RUNNING, 1 QUIESCING, 2 QUIESCED. -/
def BlockState.code : BlockState → Nat
  | .running => 0
  | .quiescing => 1
  | .quiesced => 2

/-! ## Commands (Tables 10.9 to 10.13) -/

/-- The offset of the first record of GID ranges that lies out of bounds: FIRST_GID past the end, or else COUNT (Table 10.9). -/
def rangeOutside (rs : List (Nat × Nat)) : Option Nat :=
  ((List.range rs.length).find? fun i => let r := rs.getD i (0, 1); r.2 = 0 || 1048576 < r.1 + r.2).map fun i => 64 + 8 * i

/-- The offset of the first record that overlaps an earlier one. -/
def rangeOverlap (rs : List (Nat × Nat)) : Option Nat :=
  ((List.range rs.length).find? fun i =>
    let r := rs.getD i (0, 0)
    (rs.take i).any fun x => r.1 < x.1 + x.2 && x.1 < r.1 + r.2).map fun i => 60 + 8 * i

/-- BLOCK_CREATE: what it admits. -/
def opBlockCreate : OpSpec :=
  { opcode := 0x0400, lengths := fun n => 60 ≤ n && n ≤ 572 && n % 8 = 4, staging := true }

/-- BLOCK_CREATE (Table 10.9). -/
def execBlockCreate (q : Request) (s : State) : Answer :=
  runCommand opBlockCreate (.blockCreate q) q anyBlock (fun _ s =>
    let p := q.params
    let key := u16 p 0
    let n := u8 p 3
    let b := layoutOf p {}
    let carried := b.ranges.take ((p.length - 60) / 8)
    let replace := bit (u8 p 2) 0
    let used := keyInUse s (namedTxn q s) key
    withChecks [notDevice q s, (key = 0 || key = 0xFFFF, badParam 3 0), (64 < n, badParam 4 3),
        (b.hasCtx && b.ctxLast < b.ctxFirst, badParam 4 6), (!b.hasCtx && (b.ctxFirst ≠ 0 || b.ctxLast ≠ 0), badParam 6 (if b.ctxFirst ≠ 0 then 4 else 6)),
        ((rangeOutside carried).isSome, badParam 4 ((rangeOutside carried).getD 0)),
        ((rangeOverlap carried).isSome, badParam 6 ((rangeOverlap carried).getD 0)),
        (p.length ≠ 60 + 8 * n, badParam 1 0xFFFF), (replace && !used, badParam 0x81 0),
        (!replace && used, badParam 0x82 0)] s fun s =>
      stageDone q 0 [{ key := .block key, value := p }] [] s) s

/-- BLOCK_DELETE: what it admits. -/
def opBlockDelete : OpSpec := { opcode := 0x0401, lengths := fun n => n = 4, staging := true }

/-- BLOCK_DELETE (Table 10.10). -/
def execBlockDelete (q : Request) (s : State) : Answer :=
  runCommand opBlockDelete (.blockDelete q) q anyBlock (fun _ s =>
    let key := u16 q.params 0
    withChecks [notDevice q s, (!keyInUse s (namedTxn q s) key, badParam 0x81 0)] s fun s =>
      stageDone q 0 [{ key := .block key, value := beBytes 2 key ++ zeros 2 }] [] s) s

/-- Insertion of a block record in ascending key order. -/
def insertKey (e : Nat × Block) : List (Nat × Block) → List (Nat × Block)
  | [] => [e]
  | a :: r => if e.1 < a.1 then e :: a :: r else a :: insertKey e r

/-- The blocks in ascending key order. -/
def sortedBlocks (s : State) : List (Nat × Block) := s.blocks.foldl (fun l e => insertKey e l) []

/-- BLOCK_READ: what it admits. -/
def opBlockRead : OpSpec := { opcode := 0x0402, observer := true, tenant := true, lengths := fun n => n = 4, reads := true }

/-- BLOCK_READ (Table 10.11). -/
def execBlockRead (q : Request) (s : State) : Answer :=
  runCommand opBlockRead (.blockRead q) q (fun _ own => u16 q.params 0 = own) (fun _ s =>
    let key := u16 q.params 0
    if key = 0 then
      let l := sortedBlocks s
      .ok (beBytes 2 l.length ++ zeros 2 ++ l.flatMap fun e => beBytes 2 e.1 ++ zeros 1 ++ beBytes 1 e.2.state.code) s
    else
      match blockAt s key with
      | none => .refuse (badParam 0x81 0) s
      | some b =>
        .ok (beBytes 2 key ++ beBytes 1 b.state.code ++ beBytes 1 b.grants ++ beBytes 2 b.ctxFirst ++ beBytes 2 b.ctxLast ++
          beBytes 1 (b2n b.hasCtx) ++ beBytes 1 b.ranges.length ++ zeros 2 ++ bitmapBytes 16 b.pairs ++
          bitmapBytes 32 b.transom ++ b.pool.bytes ++ ((List.range 4).flatMap fun h => beBytes 4 (poolUse s h key)) ++
          b.ranges.flatMap fun r => beBytes 4 r.1 ++ beBytes 4 r.2) s) s

/-- BLOCK_POOL_SET: what it admits. -/
def opBlockPoolSet : OpSpec := { opcode := 0x0403, lengths := fun n => n = 16, staging := true }

/-- BLOCK_POOL_SET (Table 10.12). -/
def execBlockPoolSet (q : Request) (s : State) : Answer :=
  runCommand opBlockPoolSet (.blockPoolSet q) q anyBlock (fun _ s =>
    let p := q.params
    let key := u16 p 0
    withChecks [notDevice q s, (2048 < u16 p 4, badParam 4 4), (u16 p 6 = 0 || 3072 < u16 p 6, badParam 4 6),
        (1024 < u16 p 8, badParam 4 8), (1024 < u16 p 10, badParam 4 10), (u8 p 12 = 0, badParam 4 12),
        (u16 p 6 < u16 p 4, badParam 6 4), (key ≠ 0 && !keyInUse s (namedTxn q s) key, badParam 0x81 0)] s fun s =>
      stageDone q 0 [{ key := .pool key, value := beBytes 2 key ++ zeros 2 ++ (poolFrom p).bytes.take 9 ++ zeros 3 }] [] s) s

/-- GRANT_SET: what it admits. -/
def opGrantSet : OpSpec := { opcode := 0x0404, lengths := fun n => n = 4 }

/-- GRANT_SET (Table 10.13). -/
def execGrantSet (q : Request) (s : State) : Answer :=
  runCommand opGrantSet (.grantSet q) q anyBlock (fun c s =>
    let p := q.params
    withChecks [(16 ≤ u8 p 2, badParam 3 2), ((blockAt s (u16 p 0)).isNone, badParam 0x81 0)] s fun s =>
      storeOrApply (.grants (u16 p 0) (u8 p 2) c.route) s) s

end Sys2Proof.Machine
end

