-- ==== Sys2Proof/Machine/Link.lean ====
section
/-!
DEFINITION. The Nydar link of a port (R98 to R127): sending, acknowledgements, replay, credits and training, memory errors
met by a read (R284 to R286), crossings between Halls (R267, R321), and head timers at their checks (R216).
-/
namespace Sys2Proof.Machine

/-! ## Settings -/

/-- A field of a port's link settings, in the layout of LINK_WEIGHTS_SET. -/
def linkSetting (s : State) (p off k : Nat) : Nat := field (liveValue s (.link p)) off k

/-- Brings B6 and B7 of a port up to now; called at each frame boundary and before its active lanes change (R119). -/
def fillCaps (p : Nat) (s : State) : State :=
  let l := linkAt s p
  let dt := s.ns - l.bLast
  let g (off : Nat) : Int := (credited dt (linkSetting s p off 2 * l.lanes) : Nat)
  modLink p (fun l => { l with b6 := min 1073741824 (l.b6 + g 12), b7 := min 268435456 (l.b7 + g 14), bLast := s.ns }) s

/-- Raises LINK_PROTOCOL, at most once per port per second (R126). -/
def linkProtocol (p cause : Nat) (s : State) : State :=
  raiseLimited 0x0544 p second (fun n s => raise 0x0544 (eicDie (windowOf p)) 3 p cause n s) s

/-! ## Grants (R117, R118, R265) -/

/-- Cells of a list of frames that one port's ingress reserve holds for a VC. -/
def ingressCells (p v : Nat) (l : List Held) : Nat := sumCells (l.filter fun x => x.store = .ingress p v)

/-- Cells that the ingress reserve of a port and VC holds. -/
def ingressUse (s : State) (p v : Nat) : Nat :=
  let h := hallOf p
  ingressCells p v (hallAt s h).held + (((hallAt s h).xfer.map fun e => ingressCells p v e.2).sum) +
  ingressCells p v (tget s.buf.spillWrites h []) +
  ((s.buf.shared.filter fun e => e.2.store = .ingress p v).map fun e => e.2.cells).sum +
  (s.coll.mangles.map fun m => ingressCells p v ((m.input.filter fun y => y.buffer.isNone).map (·.frame))).sum

/-- The ingress reserve of a port and VC on a number of lanes (R265). -/
def reserveOf (s : State) (p v lanes : Nat) : Nat := u16 (liveValue s (.grant p)) (2 * v) * lanes

/-- Whether the part grants credit on a VC (R48, R439). -/
def grantsOn (s : State) (p v : Nat) : Bool :=
  if v < 6 then 7 ≤ s.boot.phase && !failedAt s p else 6 ≤ s.boot.phase

/-- CREDIT_GRANT that the part announces on a port (R117). -/
def grantNow (s : State) (p : Nat) : List Nat :=
  (List.range 8).map fun v => if grantsOn s p v then reserveOf s p v (usableLanes s p) - ingressUse s p v else 0

/-- Raises the grants of the listed VCs on every ACTIVE link; credit reports tell the raise (R118). -/
def raiseGrants (vcs : List Nat) (s : State) : State :=
  (s.links.map (·.1)).foldl (fun s p =>
    if (linkAt s p).state ≠ .active then s
    else vcs.foldl (fun s v =>
      let l := linkAt s p
      let more := l.reserve.getD v 0 - ingressUse s p v - l.granted.getD v 0 - l.owed.getD v 0
      modLink p (fun l => { l with owed := lmod l.owed v (· + more) }) s) s) s

/-! ## Leaving ACTIVE (R116, R123, R124) -/

/-- The link's part of leaving ACTIVE, in every case: no credit, nothing agreed with the peer. -/
def Link.fallen (l : Link) : Link :=
  { l with locked := false, ann := none, probes := 0, rttMax := 0, selfActive := false, peerActive := false,
           peerNak := false, nak := false, replayNext := none, replayAck := none, sameAck := 0, stalled := false,
           credit := List.replicate 8 0, granted := List.replicate 8 0, owed := List.replicate 8 0, uncorr := [], tx := {}, rx := {} }

/-- A port's state follows its link, but in DISABLED, FAILED, TEST and the like. -/
def followLink (p : Nat) (new : PortState) (s : State) : State :=
  let st := (portAt s p).state
  if isUp s p || st = .phyReady then setPortState p new s else s

/-- A training begins: TX_PRESET applies (Table 5.9). -/
def takePreset (p : Nat) (s : State) : State := modPort p (fun x => { x with fir := x.txPreset }) s

/-- The link enters RETRAIN (R116, R124). (DEDUCED, log 43.) -/
def retrain (p cause : Nat) (fresh : Bool) (s : State) : State :=
  let l := linkAt s p
  let s := raise 0x0541 (eicDie (windowOf p)) 2 p cause l.lastAck s
  let s := countPort p 29 1 (fillCaps p s)
  let s := modLink p (fun l => { l.fallen with state := .retrain, fresh := l.fresh || fresh, attempts := 0 }) (takePreset p s)
  touchHeads p (followLink p .phyReady s)

/-- The link goes DOWN: its replay buffer is flushed and the port is reported to Darning (R123). -/
def linkDown (p : Nat) (s : State) : State :=
  let l := linkAt s p
  if l.state = .down then s
  else
    let n := l.unacked.length
    let s := raise 0x0542 (eicDie (windowOf p)) 4 p l.failReason n (countPort p 30 1 (countPort p 28 n (fillCaps p s)))
    let s := modLink p (fun l => { l.fallen with state := .down, fresh := true, unacked := [], lanes := 0, attempts := 0,
                                                 reserve := List.replicate 8 0 }) s
    let s := touchHeads p (followLink p .phyReady (updateSpilling (hallOf p) s))
    complete (.link p) 9 0x81 0 [] (advertise (judgePort false p s))

/-- A training attempt fails (R123): it is repeated, or after 3 failures within 10 ms the link goes DOWN. -/
def trainFail (p reason : Nat) (s : State) : State :=
  let l := linkAt s p
  let again := 0 < l.attempts && s.ns - l.firstFail ≤ 10000000
  let n := if again then l.attempts + 1 else 1
  let s := raise 0x0545 (eicDie (windowOf p)) 3 p reason n s
  let s := modLink p (fun l => { l with attempts := n, firstFail := if again then l.firstFail else s.ns, failReason := reason }) s
  if 3 ≤ n then linkDown p s
  else modLink p (fun l => { l.fallen with state := if l.state = .retrain then .retrain else .locking }) s

/-- Training starts when the PHY is ready (R122). -/
def startTraining (p : Nat) (s : State) : State :=
  if (linkAt s p).state = .down then
    updateSpilling (hallOf p) <| modLink p (fun l => { l.fallen with
      state := .locking, fresh := true, attempts := 0
      reserve := (List.range 8).map fun v => reserveOf s p v (usableLanes s p) }) (takePreset p s)
  else s

/-- Lock is complete: what the part announces is settled, and the reserve that backs it is held (R117, R122, R265). -/
def announceGrant (p : Nat) (s : State) : State :=
  updateSpilling (hallOf p) <| modLink p (fun l => { l with
    locked := true, announced := grantNow s p, reserve := (List.range 8).map fun v => reserveOf s p v (usableLanes s p) }) s

/-! ## Becoming ACTIVE (R122, R123) -/

/-- The first four bytes of LINK_STATUS_READ. -/
def linkHead (s : State) (p : Nat) : Bytes :=
  let code := match (linkAt s p).state with | .down => 0 | .locking => 1 | .exchange => 2 | .active => 3 | .retrain => 4
  beBytes 2 p ++ beBytes 1 code ++ beBytes 1 (gangWidth s p)

/-- The link becomes ACTIVE with the peer of an ANNOUNCE (R123). -/
def linkActive (p : Nat) (m : TrainMsg) (s : State) : State :=
  let l := linkAt s p
  let lanes := usableLanes s p
  let s := fillCaps p s
  let grant := grantNow s p
  let told := l.announced
  let fresh := l.fresh || m.fresh
  let covered (u : Unacked) : Bool := (m.expectLseq + 4095 - u.lseq) % 4096 < 2048
  let keep := if fresh then [] else l.unacked.filter fun u => !covered u
  let s := if fresh then countPort p 28 l.unacked.length s else s
  let g (l : Link) : Link :=
    { l with state := .active, lanes, fresh := false, attempts := 0
             peerType := m.peerType, peerPort := m.port, peerSerial := m.serial, peerCaps := m.caps, rttMeas := l.rttMax
             txSeq := if fresh then 0 else l.txSeq, expect := if fresh then 0 else l.expect
             lastAck := if fresh then 4095 else (m.expectLseq + 4095) % 4096
             unacked := keep.map fun u => { u with paid := false }, replayNext := if keep = [] then none else some m.expectLseq
             credit := m.grant, lastCred := List.replicate 8 0, freed := List.replicate 8 0, granted := told
             owed := (List.range 8).map fun v => grant.getD v 0 - told.getD v 0
             reserve := (List.range 8).map fun v => reserveOf s p v lanes
             tx := {}, rx := { index := l.rx.index } }
  let s := updateSpilling (hallOf p) (modLink p g s)
  let s := raise 0x0540 (eicDie (windowOf p)) 1 p (gangWidth s p * 256 + lanes) l.rttMax s
  let full := lanes = gangWidth s p
  let s := touchHeads p (followLink p (if full then .up else .upDegraded) s)
  complete (.link p) (if full then 0 else 0x0E) (if full then 0 else 0x80) 0 (linkHead s p) s

/-- Whether training of a port is in progress. -/
def isTraining (s : State) (p : Nat) : Bool :=
  let st := (linkAt s p).state
  st = .locking || st = .exchange || st = .retrain

/-- CODEWORD_LOCK (R122): lock is complete on every lane, and announcement begins. -/
def execCodewordLock (port : Nat) (s : State) : Answer :=
  if !isPort port then .refused (.noSuchObject "port")
  else if (linkAt s port).state = .locking then
    .next (sendTrain port 1 0 (announceGrant port (modLink port (fun l => { l with state := .exchange }) s)))
  else if (linkAt s port).state = .retrain then .next (sendTrain port 1 0 (announceGrant port s))
  else .next s

/-- The echo of a probe has come back after `rtt` ns; with the eighth the round trip is known (R122, R123). -/
def probeEchoed (port rtt : Nat) (s : State) : State :=
  let l := linkAt s port
  let worst := max l.rttMax rtt
  let s := modLink port (fun l => { l with probes := l.probes + 1, rttMax := worst }) s
  if l.probes + 1 < 8 then sendTrain port 3 s.ns s
  else if 20000 < worst then trainFail port 3 s
  else
    let s := sendTrain port 5 0 (modLink port (fun l => { l with selfActive := true }) s)
    match l.ann with
    | some m => if l.peerActive then linkActive port m s else s
    | none => s

/-- TRAINING_MESSAGE_RECEIVED (R122, R123): the oldest message that the port's codewords have brought. The order in which one message calls
for the next is the model's (DESIGN CHOICE, log 25); of the messages other than ANNOUNCE, which come alike on every lane, those of the first
lane count (DESIGN CHOICE, log 61). -/
def execTrainingMessageReceived (port : Nat) (s : State) : Answer :=
  if !isPort port then .refused (.noSuchObject "port")
  else
    match (linkAt s port).rx.train with
    | [] => .next s
    | (lane, msg) :: r =>
      let s := modLink port (fun l => { l with rx := { l.rx with train := r } }) s
      let l := linkAt s port
      if !msg.tcrcOk || msg.version ≠ 1 || !l.locked || !isTraining s port then .next s
      else if msg.kind = 1 then
        if msg.gang ≠ gangWidth s port then .next (trainFail port 2 s)
        else
          let s := modLink port (fun l => { l with ann := some msg, rx := { l.rx with index := tset l.rx.index lane msg.laneIndex } }) s
          .next (if l.ann.isSome then s else sendTrain port 3 s.ns (sendTrain port 2 0 s))
      else if laneIndex s port lane ≠ 0 then .next s
      else
        match msg.kind with
        | 3 => .next (sendTrain port 4 msg.probeTime s)
        | 4 => .next (if 8 ≤ l.probes then s else probeEchoed port (s.ns - msg.probeTime) s)
        | 5 =>
          let s := modLink port (fun l => { l with peerActive := true }) s
          match l.ann with
          | some m => .next (if l.selfActive then linkActive port m s else s)
          | none => .next s
        | _ => .next s

/-- TRAINING_ATTEMPT_TIMEOUT (R123): 100 µs have passed without ACTIVE. (DESIGN CHOICE, log 25.) -/
def execTrainingAttemptTimeout (port : Nat) (s : State) : Answer :=
  if !isPort port then .refused (.noSuchObject "port")
  else if isTraining s port then .next (trainFail port (if (linkAt s port).locked then 4 else 1) s)
  else .next s

/-- TRAINING_RETRY (R123): a DOWN link tries fresh training while its PHY is ready. -/
def execTrainingRetry (port : Nat) (s : State) : Answer :=
  guard (isPort port) "port" (if phyReady s port then startTraining port s else s)

/-! ## Receiving codewords and link words -/

/-- Counts one decoded codeword of a lane; `none` is an uncorrectable one (Table 4.12). -/
def countCodeword (port : Nat) (c : Option Nat) (s : State) : State :=
  let s := countPort port 0 1 s
  match c with
  | none => countPort port 11 1 (modLink port (fun l => { l with uncWindow := l.uncWindow + 1, cwWindow := l.cwWindow + 1 }) s)
  | some n => countPort port (2 + n) 1 (countPort port 1 n
      (modLink port (fun l => { l with symWindow := l.symWindow + n, cwWindow := l.cwWindow + 1 }) s))

/-- The uncorrectable codewords of a lane: 8 of any 64 in a row retrain an ACTIVE link (R116). -/
def judgeLane (port lane : Nat) (a b : Bool) (s : State) : State :=
  let h1 := (a :: tget (linkAt s port).uncorr lane []).take 64
  let h2 := (b :: h1).take 64
  let bad (h : List Bool) : Bool := 8 ≤ (h.filter id).length
  let s := modLink port (fun l => { l with uncorr := tset l.uncorr lane h2 }) s
  if bad h1 || bad h2 then retrain port 1 false s else s

/-- CODEWORD_PAIR_DECODED (R98 to R100, R102, R116): the 2,720 PAM4 levels of a pair that lane `lane` of a port received. -/
def execCodewordPairDecoded (port lane : Nat) (levels : List Nat) (s : State) : Answer :=
  if !isPort port || 8 ≤ lane then .refused (.noSuchObject "lane")
  else if !bit (activeMask s port) lane then .next s
  else
    let c := parted (levelSymbols levels)
    let a := readCodeword c.1
    let b := readCodeword c.2
    let s := countCodeword port (b.map (·.1)) (countCodeword port (a.map (·.1)) s)
    let l := linkAt s port
    if l.state = .active then
      let idx := tget l.rx.index lane (laneIndex s port lane)
      .next (judgeLane port lane a.isNone b.isNone (modLink port (fun l => { l with rx := takePair idx l.width a b l.rx }) s))
    else if isTraining s port && l.locked then .next (modLink port (fun l => { l with rx := takeTraining lane a b l.rx }) s)
    else .next s

/-- LINK_FEC_HIGH (R126): the end of a 1 s window. -/
def execLinkFecHigh (port : Nat) (s : State) : Answer :=
  let l := linkAt s port
  let high := l.cwWindow * 272 < l.symWindow * 100000
  let s1 := modLink port (fun l => { l with symLast := l.symWindow, uncLast := l.uncWindow, symWindow := 0, uncWindow := 0,
                                            cwWindow := 0, fecHigh := high }) s
  guard (isPort port) "port"
    (if high then raiseLimited 0x0543 port second
        (fun _ s => raise 0x0543 (eicDie (windowOf port)) 3 port l.symWindow l.uncWindow s) s1 else s1)

/-- A replay starts from an ACK_SEQ, at the next boundary of codeword pairs (R115); the sixteenth in a row from one ACK_SEQ retrains the link (R116). -/
def startReplay (port ack : Nat) (s : State) : State :=
  let l := linkAt s port
  let n := if l.replayAck = some ack then l.sameAck + 1 else 1
  if 16 ≤ n then retrain port 2 false s
  else
    modLink port (fun l => { l with replayAck := some ack, sameAck := n
                                    replayNext := if l.unacked = [] then none else some ((ack + 1) % 4096) }) (cutFrame port s)

/-- What a good link word tells: acknowledgement, credit reports and NAK (R113 to R117, R124). -/
def applyWord (port : Nat) (lw : LinkWord) (s : State) : State :=
  let l := linkAt s port
  if lw.train then retrain port 3 false (linkProtocol port 3 s)
  else
    let cred (v c : Nat) (l : Link) : Link :=
      { l with credit := lmod l.credit v (· + (c + 256 - l.lastCred.getD v 0) % 256), lastCred := l.lastCred.set v c }
    let ack (l : Link) : Link :=
      { l with lastAck := lw.ackSeq, peerNak := lw.nak
               unacked := l.unacked.filter fun u => !((lw.ackSeq + 4096 - u.lseq) % 4096 < 2048) }
    let s := modLink port (fun l => cred lw.cvcB lw.credB (cred lw.cvcA lw.credA (ack l))) s
    let s := if lw.nak && !l.peerNak then countPort port 24 1 s else s
    let s := touchHeads port s
    if lw.nak && l.replayAck ≠ some lw.ackSeq then startReplay port lw.ackSeq s else s

/-- LINK_WORD_RECEIVED (R113): the oldest link word that an ACTIVE port's codewords have brought. -/
def execLinkWordReceived (port : Nat) (s : State) : Answer :=
  if !isPort port then .refused (.noSuchObject "port")
  else if (linkAt s port).state ≠ .active then .next s
  else
    match (linkAt s port).rx.words with
    | [] => .next s
    | lw :: r => .next (applyWord port lw (modLink port (fun l => { l with rx := { l.rx with words := r } }) s))

/-- REPLAY_TIMEOUT (R115): it has passed with frames unacknowledged and no change in ACK_SEQ. -/
def execReplayTimeout (port : Nat) (s : State) : Answer :=
  let l := linkAt s port
  guard (isPort port) "port"
    (if l.state = .active && l.unacked ≠ [] then startReplay port l.lastAck (countPort port 26 1 s) else s)

/-! ## Memory errors (R284 to R286) -/

/-- A Landing bank is retired (R286). `why`: 1 an uncorrectable error, 2 the rate of corrected ones. Bank 33g + k is bank
k of group g, and bank 33g + 32 its spare (DESIGN CHOICE, log 26). (DEDUCED, log 45.) -/
def retireBank (h bank why : Nat) (s : State) : State :=
  let a := hallAt s h
  if bank ∈ a.retired then s
  else
    let g := bank / 33
    let spare := (tfind a.spareUsed g).isNone && bank % 33 ≠ 32
    let s := raise 0x0884 (hallDie h) 3 bank why (b2n spare) (modHall h (fun a => { a with retired := a.retired ++ [bank] }) s)
    if spare then
      recordFault 7 1 (hallDie h) bank (raise 0x0885 (hallDie h) 2 bank (33 * g + 32) 0
        (modHall h (fun a => { a with spareUsed := tset a.spareUsed g bank }) s))
    else if bank % 33 = 32 && (tfind a.spareUsed g).isNone then
      modHall h (fun a => { a with spareUsed := tset a.spareUsed g bank }) s
    else
      let left := a.active - 3072
      advertise (recordFault 7 0 (hallDie h) bank (raise 0x0886 (hallDie h) 4 bank left 0
        (updateSpilling h (modHall h (fun a => { a with active := left }) s))))

/-- A corrected error of a bank: more than 16 within 1 s retire it (R286). -/
def correctedIn (h bank : Nat) (s : State) : State :=
  let recent := ((tget (hallAt s h).fixes bank []).filter fun t => s.ns < t + second) ++ [s.ns]
  let s := modHall h (fun a => { a with fixes := tset a.fixes bank recent }) s
  if 16 < recent.length then retireBank h bank 2 s else s

/-- What a read of a frame's cells found, but for the frame's own fate (R284, R285). -/
def noteReadError (h : Nat) (e : ReadError) (s : State) : State :=
  match e with
  | .none => s
  | .corrected bank => correctedIn h bank (countHall h 35 1 s)
  | .header bank cell => retireBank h bank 1 (raise 0x0883 (hallDie h) 3 bank cell 1 (countHall h 36 1 s))
  | .payload bank cell _ => retireBank h bank 1 (raise 0x0883 (hallDie h) 3 bank cell 2 (countHall h 36 1 s))

/-- Whether a read lost the frame, and whether its header was lost. -/
def lostHeader : ReadError → Option Bool
  | .none => none
  | .corrected _ => none
  | .header _ _ => some true
  | .payload _ _ _ => some false

/-- What becomes of a frame that a read lost (R285). -/
def lostFrame (h cause port : Nat) (header : Bool) (x : Held) (s : State) : State :=
  if !header && trimEligible x.frame && x.via = .route then trimFrame h cause port (queueCells s x.port x.vc) x s
  else collLost h x (freeFrame x h s)

/-! ## Sending (R114, R115, R119) -/

/-- The Calendar's SEC, NS and FRAC as payload bytes 48 to 61 of a MANTEL frame. -/
def calendarBytes (s : State) : Bytes := beBytes 8 s.time.cal.sec ++ beBytes 4 s.time.cal.ns ++ beBytes 2 s.time.cal.frac

/-- A MANTEL frame at its transmit point (R413): T_TX, and the Calendar when CAL_VALID is set; the point is remembered. -/
def stampFrame (port : Nat) (f : Frame) (s : State) : Frame × State :=
  if f.kind ≠ 8 then (f, s)
  else
    let b := putBytes f.payload 16 (beBytes 8 s.time.count ++ beBytes 2 s.time.frac)
    let b := if bit (u8 f.payload 1) 3 then putBytes b 48 (calendarBytes s) else b
    let m := tget s.time.ports port {}
    (sealFrame { f with payload := b },
      { s with time := { s.time with ports := tset s.time.ports port { m with sent := m.sent ++ [(s.time.count, s.time.frac)] } } })

/-- A frame starts on the link: its bytes, and when it ends, in ns (R103). -/
def startFrame (port v lseq : Nat) (rtx : Bool) (f : Frame) (s : State) : State :=
  emit (.frame port v lseq rtx f) (modLink port (fun l => { l with
    busyUntil := s.ns + bytesTime s port (wireBytes f), busyVc := v
    tx := { l.tx with current := some (frameWire lseq rtx f, s.ns) } }) s)

/-- The next frame of a running replay goes out with RTX = 1 (R115). One that has taken no credit since the link last became ACTIVE takes it
now, or waits for it (R117). -/
def sendReplay (port : Nat) (n : Nat) (s : State) : State :=
  let l := linkAt s port
  match l.unacked.find? fun u => (u.lseq + 4096 - n) % 4096 < 2048 with
  | none => modLink port (fun l => { l with replayNext := none }) s
  | some u =>
    let c := if u.paid then 0 else cellsOf u.frame
    let last := u.lseq = (l.txSeq + 4095) % 4096
    if l.credit.getD u.vc 0 < c then idleFill port s
    else
      countPort port 25 1 (startFrame port u.vc u.lseq true u.frame
        (modLink port (fun l => { l with replayNext := if last then none else some ((u.lseq + 1) % 4096)
                                         credit := lmod l.credit u.vc (· - c)
                                         unacked := l.unacked.map fun x => if x.lseq = u.lseq then { x with paid := true } else x }) s))

/-- Counts the first waits of the head frames of VC1 to VC5 for their shapers and gates (Table 13.3). -/
def markWaits (port : Nat) (s : State) : State :=
  [1, 2, 3, 4, 5].foldl (fun s v =>
    let q := queueAt s port v
    match q.frames with
    | [] => s
    | x :: r =>
      let sw := !bit x.waits 0 && !shaperAllows s port v
      let gw := !bit x.waits 1 && gateAnswer s port v x.frame = .wait
      let s := if sw then countQueue port v 6 1 s else s
      let s := if gw then countQueue port v 7 1 s else s
      if sw || gw then
        setQueue port v { q with frames := { x with waits := x.waits ||| (b2n sw + 2 * b2n gw) } :: r } s
      else s) s

/-- Whether frames of a VC are sent in the present phase: in P6 those of VC6 and VC7, from P7 on all (R48, Table 2.5). -/
def vcOpen (s : State) (v : Nat) : Bool := 7 ≤ s.boot.phase || (s.boot.phase = 6 && 6 ≤ v)

/-- The head frame of a queue when it is eligible (R119, R320). -/
def eligibleHead (s : State) (port v : Nat) : Option Held :=
  if !vcOpen s v then none
  else match (queueAt s port v).frames with
  | [] => none
  | x :: _ =>
    if x.cells ≤ (linkAt s port).credit.getD v 0 && paceAllows s port v x.frame then some x else none

/-- The VC that sends at a frame boundary, and the round after the choice (R119). -/
def pickVc (s : State) (port : Nat) : Option Nat × Round :=
  let l := linkAt s port
  let size (v : Nat) : Option Nat := (eligibleHead s port v).map fun x => wireBytes x.frame
  if (size 7).isSome && 0 ≤ l.b7 then (some 7, l.round)
  else if (size 6).isSome && 0 ≤ l.b6 then (some 6, l.round)
  else if (size 0).isSome then (some 0, l.round)
  else l.round.next (linkSetting s port 4 1) (linkSetting s port 5 1) ((List.range 4).map fun i => linkSetting s port (6 + i) 1)
      (size 5) ((List.range 4).map fun i => size (i + 1))

/-- Whether a frame has no room in the replay buffer or the window (R114). -/
def windowFull (s : State) (port : Nat) (f : Frame) : Bool :=
  let l := linkAt s port
  2047 ≤ l.unacked.length || 65536 * gangWidth s port < ((l.unacked.map fun u => wireBytes u.frame).sum) + wireBytes f

/-- Takes the head frame off a queue. -/
def popHead (port v : Nat) (s : State) : State :=
  setQueue port v { queueAt s port v with frames := (queueAt s port v).frames.drop 1 } s

/-- A gated frame that can never fit starts: counted and raised (R325). -/
def noteOversize (port v : Nat) (f : Frame) (s : State) : State :=
  if 1 ≤ v && v ≤ 5 && gateAnswer s port v f = .oversize then
    raiseLimited 0x0801 port second (fun n s =>
        raise 0x0801 (hallDie (hallOf port)) 3 port (v * 2 ^ 24 + (linkAt s port).lanes) n s)
      (countQueue port v 8 1 s)
  else s

/-- A new frame starts on the link: LSEQ, credit, shaper, caps and counters; its cells are freed (R112, R117, R119). -/
def sendNew (port v : Nat) (x : Held) (round : Round) (s : State) : State :=
  let s := noteOversize port v x.frame s
  let st := stampFrame port x.frame (spendShaper port v x.frame s)
  let f := st.1
  let s := st.2
  let n := wireBytes f * 65536
  let seq := (linkAt s port).txSeq
  let g (l : Link) : Link :=
    { l with round, txSeq := (seq + 1) % 4096, unacked := l.unacked ++ [{ lseq := seq, vc := v, frame := f }]
             credit := lmod l.credit v (· - x.cells), stalled := false
             b6 := if v = 6 then l.b6 - (n : Nat) else l.b6, b7 := if v = 7 then l.b7 - (n : Nat) else l.b7 }
  let s := modLink port g s
  let s := countPort port (55 + v) (bodyBytes f) (countPort port (39 + v) 1 (countQueue port v 2 1 s))
  freeFrame x (hallOf port) (startFrame port v seq false f s)

/-- FRAME_TRANSMIT (R119): the transmitter of a port is at a frame boundary (DEDUCED, log 27); before the frame in progress has ended nothing
happens. `err` is what the read of the frame's cells finds. (DEDUCED, log 43.) -/
def execFrameTransmit (port : Nat) (err : ReadError) (s : State) : Answer :=
  if !isPort port then .refused (.noSuchObject "port")
  else if (linkAt s port).state ≠ .active || s.ns < (linkAt s port).busyUntil then .next s
  else
    let s := markWaits port (fillCaps port (endFrame port s))
    match (linkAt s port).replayNext with
    | some n => .next (touchHeads port (sendReplay port n s))
    | none =>
      let pick := pickVc s port
      match pick.1.bind fun v => (eligibleHead s port v).map fun x => (v, x) with
      | none => .next (touchHeads port (idleFill port (modLink port (fun l => { l with round := pick.2 }) s)))
      | some (v, x) =>
        if windowFull s port x.frame then
          .next (idleFill port (if (linkAt s port).stalled then s
            else countPort port 27 1 (modLink port (fun l => { l with stalled := true }) s)))
        else
          let s := noteReadError (hallOf port) err (popHead port v s)
          match lostHeader err with
          | none => .next (touchHeads port (sendNew port v x pick.2 s))
          | some header =>
            let s := match err with
              | .payload _ _ true => abandonFrame port ((frameWire (linkAt s port).txSeq false x.frame).take 36) s
              | _ => s
            .next (touchHeads port (lostFrame (hallOf port) 4 port header x s))

/-! ## Crossings between Halls (R267, R321) -/

/-- The first frame of a VC that waits to cross to a Hall and has transfer credit. -/
def crossHead (s : State) (src dst v : Nat) : Option Held :=
  match (tget (hallAt s src).xfer dst []).find? fun x => x.vc = v with
  | none => none
  | some x => if tget (hallAt s dst).crossUse (src, v) 0 + x.cells ≤ xres s dst then some x else none

/-- The VC whose frame crosses next, and the round after the choice (R321). Sizes are whole cells (DEDUCED, log 28). -/
def pickCross (s : State) (src dst : Nat) : Option Nat × Round :=
  let r := tget (hallAt s src).rounds dst {}
  let size (v : Nat) : Option Nat := (crossHead s src dst v).map fun x => 128 * x.cells
  let w := liveValue s (.xfer src)
  if (size 7).isSome then (some 7, r) else if (size 6).isSome then (some 6, r) else if (size 0).isSome then (some 0, r)
  else r.next (u8 w 1) (u8 w 2) ((List.range 4).map fun i => u8 w (4 + i)) (size 5) ((List.range 4).map fun i => size (i + 1))

/-- Counts the cells of a frame that crosses on the route that relaying has picked for it (R24). -/
def countRelay (src dst route cells : Nat) (s : State) : State :=
  if !crossRelayed s src dst then s
  else modHall src (fun a => { a with relay := tset a.relay dst (lmod (tget a.relay dst [0, 0, 0]) route (· + cells)) }) s

/-- CROSS_HALL_ARRIVAL (R24, R267): the next frame's last cell has crossed, by the direct link or relayed through another Hall; it leaves its
reserve and its admission is decided in the destination Hall. While no route is in service nothing crosses (R25). -/
def execCrossHallArrival (src dst : Nat) (s : State) : Answer :=
  if 4 ≤ src || 4 ≤ dst then .refused (.noSuchObject "Hall")
  else
    match pickRoute s src dst (tget (hallAt s src).relay dst [0, 0, 0]) with
    | none => .next s
    | some route =>
    let pick := pickCross s src dst
    let s := modHall src (fun a => { a with rounds := tset a.rounds dst pick.2 }) s
    match pick.1.bind fun v => crossHead s src dst v with
    | none => .next s
    | some x =>
      let s := countRelay src dst route x.cells s
      let s := modHall src (fun a => { a with xfer := tset a.xfer dst ((tget a.xfer dst []).erase x) }) s
      let s := countHall src (48 + 8 * dst + x.vc) 1 (freeFrame x src s)
      let s := modHall dst (fun a => { a with crossUse := tset a.crossUse (src, x.vc) (tget a.crossUse (src, x.vc) 0 + x.cells) }) s
      .next (arrive dst { x with store := .cross src x.vc } s)

/-! ## Head timers (R216 to R218) -/

/-- STAIR_WAIT of a frame's route class, in ns (R202). -/
def stairWait (s : State) (f : Frame) : Nat :=
  entryWord s 4 (entryWord s 1 f.destGid / 2 ^ 25 % 8) / 65536 * 8

/-- Places a moved frame at the tail of its new queue, crossing Seam when the port lies in another Hall. -/
def moveFrame (h : Nat) (y : Held) (s : State) : State :=
  if !egressAllowed s y.port y.frame then freeFrame y h (latchkeyDrop y.port h 3 65 y.frame.latchkey s)
  else if hallOf y.port = h then linkTail y s
  else sendAcross h { y with waitSince := none, waited := 0 } s

/-- The candidate that a re-steer takes (R216, rule 1). -/
def resteerTo (s : State) (h : Nat) (x : Held) : Option Nat :=
  let set := entryWord s 1 x.frame.destGid / 1024 % 16384
  let cs := (eligibleSet s set).filter fun c =>
    c.1 ≠ x.port && (linkAt s c.1).state = .active && x.cells ≤ (linkAt s c.1).credit.getD x.vc 0
  (leastLoaded s h x.vc cs).map (·.1)

/-- The head timer of a frame has reached STAIR_WAIT: it is re-steered or escapes (R216). The Hall reads pipe 0's copy of the routing
entry and the path set, and a copy that fails parity sends the frame to the Chute (R208). -/
def expireHead (port v : Nat) (x : Held) (s : State) : State :=
  let h := hallOf port
  let s := popHead port v s
  let gid := x.frame.destGid
  let entry := entryWord s 1 gid
  let set := entry / 1024 % 16384
  let may := x.method = .spray && !x.resteered
  if (1, h, gid) ∈ s.fwd.bad then (dispose h x (toChute h 1 gid 0 x (countHall h 20 1 s))).2
  else if entry / 2 ^ 31 = 0 then (dispose h x (countHall h 0 1 s)).2
  else if may && (3, h, set) ∈ s.fwd.bad then (dispose h x (toChute h 2 set 0 x (countHall h 21 1 s))).2
  else
    match (if may then resteerTo s h x else none) with
    | some p => moveFrame h { x with port := p, resteered := true } (countHall h 10 1 s)
    | none =>
      let y := { x with frame := rewrite (fun f => { f with esc := true }) x.frame }
      match stairChoice h entry y s with
      | (none, s) => s
      | (some y, s) => moveFrame h y (countHall h 11 1 s)

/-- The check of one port's heads. -/
def checkHeads (port : Nat) (s : State) : State :=
  let s := touchHeads port s
  [1, 2, 3, 4].foldl (fun s v =>
    match (queueAt s port v).frames with
    | [] => s
    | x :: _ =>
      if x.via = .route && x.waitSince.isSome && stairWait s x.frame ≤ x.waited then touchHeads port (expireHead port v x s)
      else s) s

/-- HEAD_TIMER_CHECK (R216): the check of every queue of every Hall, which falls every 64 ns. -/
def execHeadTimerCheck (s : State) : Answer :=
  .next (((s.buf.queues.map fun e => e.1.1).eraseDups).foldl (fun s p => checkHeads p s) s)

/-! ## Commands (Tables 4.14 to 4.16) -/

/-- Whether the port in the first two parameter bytes is a TENANT's. -/
def portInBlock (q : Request) (s : State) (key : Nat) : Bool := (blockAt s key).any fun b => b.hasPort (u16 q.params 0)

/-- The checks of a range of ports at bytes 0 to 3. -/
def portRange (p : Bytes) : List (Bool × Refuse) :=
  [(1280 ≤ u16 p 0, badParam 4 0), (u16 p 2 = 0 || 1280 < u16 p 0 + u16 p 2, badParam 4 2)]

/-- One item for each port of a range at bytes 0 to 3. -/
def portItems (p : Bytes) (k : Nat → ItemKey) (v : Bytes) : List Item :=
  (List.range (u16 p 2)).map fun i => { key := k (u16 p 0 + i), value := v }

/-- LINK_WEIGHTS_SET: what it admits. -/
def opLinkWeightsSet : OpSpec := { opcode := 0x0510, lengths := fun n => n = 16, staging := true }

/-- LINK_WEIGHTS_SET (Table 4.14). -/
def execLinkWeightsSet (q : Request) (s : State) : Answer :=
  runCommand opLinkWeightsSet (.linkWeightsSet q) q anyBlock (fun _ s =>
    let p := q.params
    let zero : List (Bool × Refuse) := (List.range 6).map fun i => chk (u8 p (4 + i) = 0) (badParam 4 (4 + i))
    withChecks (portRange p ++ zero ++ [chk (u16 p 12 < 1000 || 25000 < u16 p 12) (badParam 4 12),
        chk (u16 p 14 < 100 || 10000 < u16 p 14) (badParam 4 14)]) s fun s =>
      stageDone q 0 (portItems p .link (zeros 4 ++ (p.drop 4).take 6 ++ zeros 2 ++ p.drop 12)) [] s) s

/-- LINK_STATUS_READ: what it admits. -/
def opLinkStatusRead : OpSpec :=
  { opcode := 0x0511, observer := true, tenant := true, lengths := fun n => n = 4, reads := true }

/-- LINK_STATUS_READ (Table 4.15). -/
def execLinkStatusRead (q : Request) (s : State) : Answer :=
  runCommand opLinkStatusRead (.linkStatusRead q) q (portInBlock q) (fun _ s =>
    let n := u16 q.params 0
    let l := linkAt s n
    let v := liveValue s (.link n)
    withChecks [(1280 ≤ n, badParam 4 0)] s fun s =>
      .ok (linkHead s n ++ beBytes 1 l.lanes ++ beBytes 1 l.peerType ++ beBytes 2 l.peerPort ++ beBytes 8 l.peerSerial ++
        beBytes 4 l.rttMeas ++ beBytes 2 l.txSeq ++ beBytes 2 l.lastAck ++ beBytes 2 l.expect ++
        beBytes 2 l.unacked.length ++ beBytes 4 ((l.unacked.map fun u => wireBytes u.frame).sum) ++
        l.credit.flatMap (beBytes 2) ++ (v.drop 4).take 6 ++ (v.drop 12).take 4 ++
        beBytes 1 (b2n l.replayNext.isSome + 2 * b2n l.stalled + 4 * b2n l.fecHigh) ++ zeros 1 ++
        beBytes 4 l.symLast ++ beBytes 4 l.uncLast) s) s

/-- LINK_RETRAIN: what it admits. -/
def opLinkRetrain : OpSpec := { opcode := 0x0512, lengths := fun n => n = 4 }

/-- LINK_RETRAIN (Table 4.16). A DOWN link trains afresh. -/
def execLinkRetrain (q : Request) (s : State) : Answer :=
  runCommand opLinkRetrain (.linkRetrain q) q anyBlock (fun _ s =>
    let n := u16 q.params 0
    withChecks [(1280 ≤ n, badParam 4 0), (!phyReady s n, { status := 9, reason := 0x80 }),
        (isTraining s n, { status := 1, reason := 4, info := 0xFFFF })] s fun s =>
      let fresh := bit (u8 q.params 2) 0 || (linkAt s n).state = .down
      .wait (.link n) (retrain n 4 fresh s)) s

end Sys2Proof.Machine
end

