-- ==== Sys2Proof/Machine/Scheduling.lean ====
section
/-!
DEFINITION. The commands of meters, shapers, gates, marks and transfer weights (R311 to R332).
-/
namespace Sys2Proof.Machine

/-- GATE_ENTRY_CHANGE (R323): an entry of a port's gate list begins, and the held head frames are judged afresh. -/
def execGateEntryChange (port : Nat) (s : State) : Answer :=
  guard (isPort port) "port" (touchHeads port (markWaits port s))

/-- Check 9 of R69 for a command that is transactional only in some of its forms. -/
def formTxnRefused (op : OpSpec) (transactional : Bool) (q : Request) (s : State) : List (Bool × Refuse) :=
  match txnRefused { op with ownTxn := false, staging := transactional } q s with
  | some r => [(true, r)]
  | none => []

/-! ## Meters -/

/-- The actions of a meter change live (R316). -/
def setActions (y r : Nat) (m : Meter) : Meter := { m with yellow := y, red := r }

/-- The live setting of a meter with other actions: the live set-up holds them too, so that a snapshot takes what is live (R243, R316). -/
def layActions (k : ItemKey) (p : Bytes) (s : State) : State :=
  let old := padTo 24 (liveValue s k)
  let v := (if liveValue s k = [] then p.take 4 else old.take 4) ++ (old.drop 4).take 1 ++ (p.drop 5).take 2 ++ old.drop 7
  let live := if (v.drop 4).all (· = 0) then tdel s.setup.live k else tset s.setup.live k v
  { s with setup := { s.setup with live } }

/-- METER_SET: what it admits. -/
def opMeterSet : OpSpec := { opcode := 0x0800, lengths := fun n => n = 24, ownTxn := true }

/-- METER_SET (Table 13.5). -/
def execMeterSet (q : Request) (s : State) : Answer :=
  runCommand opMeterSet (.meterSet q) q anyBlock (fun c s =>
    let p := q.params
    let port := u8 p 0 = 0
    let tc := u8 p 1
    let n := u16 p 2
    let only := bit (u8 p 4) 2
    let halls := setBits 4 (u8 p 7)
    let range (off lo hi : Nat) : Bool × Refuse := (u32 p off < lo || hi < u32 p off, badParam 4 off)
    let whole : List (Bool × Refuse) :=
      if only then [] else
        [range 8 1 1600000, range 12 4128 16777216, (1600000 < u32 p 16, badParam 4 16), range 20 4128 16777216,
         (u32 p 16 < u32 p 8, badParam 6 16)]
    let inUse := if only then (blockAt s n).isSome else keyInUse s (namedTxn q s) n
    withChecks (formTxnRefused opMeterSet (!only) q s ++
        [chk (1 < u8 p 0) (badParam 3 0), (tc = 0 || 5 < tc, badParam 4 1), (port && 1280 ≤ n, badParam 4 2),
         (!only && 8 ≤ u8 p 4, badParam 3 4), (1 < u8 p 5, badParam 3 5), (2 < u8 p 6, badParam 3 6), (16 ≤ u8 p 7, badParam 3 7),
         (port && halls ≠ [], badParam 4 7), (!port && halls = [], badParam 4 7)] ++ whole ++ [chk (!port && !inUse) (badParam 0x81 2)]) s fun s =>
      if only then
        let s :=
          if port then
            let m := setActions (u8 p 5) (u8 p 6) (tget s.sched.portMeters (n, tc) {})
            layActions (.meterPort n tc) p { s with sched := { s.sched with portMeters := tset s.sched.portMeters (n, tc) m } }
          else halls.foldl (fun s h =>
            let m := setActions (u8 p 5) (u8 p 6) (tget s.sched.blockMeters (h, n, tc) {})
            layActions (.meterBlock h n tc) p
              { s with sched := { s.sched with blockMeters := tset s.sched.blockMeters (h, n, tc) m } }) s
        .ok [] (raiseLead 0x0803 2 (u8 p 0 * 2 ^ 24 + tc * 2 ^ 16 + n) (u8 p 5 * 256 + u8 p 6) c.route s)
      else
        let v := p.take 7 ++ zeros 1 ++ p.drop 8
        stageDone q 2 (if port then [{ key := .meterPort n tc, value := v }]
          else halls.map fun h => { key := .meterBlock h n tc, value := v }) [] s) s

/-- METER_READ: what it admits. -/
def opMeterRead : OpSpec := { opcode := 0x0801, observer := true, tenant := true, lengths := fun n => n = 8, reads := true }

/-- METER_READ (Table 13.6). -/
def execMeterRead (q : Request) (s : State) : Answer :=
  runCommand opMeterRead (.meterRead q) q
    (fun s key => if u8 q.params 0 = 0 then portInBlock { q with params := q.params.drop 2 } s key else u16 q.params 2 = key)
    (fun _ s =>
      let p := q.params
      let port := u8 p 0 = 0
      let tc := u8 p 1
      let n := u16 p 2
      let h := u8 p 4
      withChecks [(1 < u8 p 0, badParam 3 0), (tc = 0 || 5 < tc, badParam 4 1), (port && 1280 ≤ n, badParam 4 2),
          (3 < h || (port && h ≠ 0), badParam 4 4), (!port && (blockAt s n).isNone, badParam 0x81 2)] s fun s =>
        let v := padTo 24 (liveValue s (if port then .meterPort n tc else .meterBlock h n tc))
        let m := if port then tget s.sched.portMeters (n, tc) {} else tget s.sched.blockMeters (h, n, tc) {}
        let dt := s.ns - m.last
        let tok (cur rest rate burst : Nat) : Nat := min (burst * 65536) (cur + (creditOf dt rate rest).1) / 65536
        .ok (p.take 4 ++ beBytes 1 (u8 v 4 % 4) ++ beBytes 1 m.yellow ++ beBytes 1 m.red ++
          beBytes 1 (if port then 0 else 2 ^ h) ++ v.drop 8 ++ beBytes 4 (tok m.tc m.restC (u32 v 8) (u32 v 12)) ++
          beBytes 4 (tok m.tp m.restP (u32 v 16) (u32 v 20))) s) s

/-! ## Shapers -/

/-- SHAPER_SET: what it admits. -/
def opShaperSet : OpSpec := { opcode := 0x0802, lengths := fun n => n = 24, staging := true }

/-- SHAPER_SET (Table 13.7). -/
def execShaperSet (q : Request) (s : State) : Answer :=
  runCommand opShaperSet (.shaperSet q) q anyBlock (fun _ s =>
    let p := q.params
    let vc := u8 p 4
    let frames := bit (u8 p 5) 1
    let rate : Nat := if frames then 1000000 else 1600000
    let burst : Nat := if frames then 65536 else 16777216
    let range (off hi : Nat) : Bool × Refuse := (u32 p off = 0 || hi < u32 p off, badParam 4 off)
    let above := signedOf 16 (u16 p 6)
    withChecks (portRange p ++ [chk (vc = 0 || 5 < vc) (badParam 4 4), (4 ≤ u8 p 5, badParam 3 5),
        (above < -32 || 255 < above, badParam 4 6), range 8 rate, range 12 burst, range 16 rate, range 20 burst,
        (u32 p 16 < u32 p 8, badParam 6 16)]) s fun s =>
      stageDone q 0 (portItems p (fun n => .shaper n vc) (zeros 4 ++ p.drop 4)) [] s) s

/-- A bucket in whole tokens, signed. -/
def wholeTokens (t : Int) : Nat := natOfInt 32 (t / 65536)

/-- SHAPER_READ: what it admits. -/
def opShaperRead : OpSpec := { opcode := 0x0803, observer := true, tenant := true, lengths := fun n => n = 4, reads := true }

/-- SHAPER_READ (Table 13.8). -/
def execShaperRead (q : Request) (s : State) : Answer :=
  runCommand opShaperRead (.shaperRead q) q (portInBlock q) (fun _ s =>
    let p := q.params
    let vc := u8 p 2
    withChecks [(1280 ≤ u16 p 0, badParam 4 0), (vc = 0 || 5 < vc, badParam 4 2)] s fun s =>
      let t := shaperNow s (u16 p 0) vc
      .ok (p.take 2 ++ beBytes 2 1 ++ beBytes 1 vc ++ (shaperSetting s (u16 p 0) vc).drop 5 ++
        beBytes 4 (wholeTokens t.c) ++ beBytes 4 (wholeTokens t.p)) s) s

/-! ## Gate lists -/

/-- GATE_LIST_WRITE: what it admits. -/
def opGateListWrite : OpSpec :=
  { opcode := 0x0804, lengths := fun n => 12 ≤ n && n ≤ 1036, staging := true }

/-- GATE_LIST_WRITE (Table 13.9). -/
def execGateListWrite (q : Request) (s : State) : Answer :=
  runCommand opGateListWrite (.gateListWrite q) q anyBlock (fun _ s =>
    let p := q.params
    let n := u16 p 2
    let g := (gateListOf p).getD { base := 0, entries := [] }
    let carried := g.entries.take ((p.length - 12) / 4)
    let never (v : Nat) : Bool := g.entries.all fun e => !bit e.2 v
    let short := (List.range carried.length).find? fun i => (carried.getD i (8, 0)).1 < 8
    withChecks [(1280 ≤ u16 p 0, badParam 4 0), (256 < n, badParam 4 2), (short.isSome, badParam 4 (12 + 4 * short.getD 0)),
        (p.length ≠ 12 + 4 * n, badParam 1 0xFFFF), (1000000000 < g.cycle, badParam 4 12),
        (n ≠ 0 && (never 1 || never 2 || never 3 || never 4 || never 5), badParam 6 15)] s fun s =>
      stageDone q 0 [{ key := .gates (u16 p 0), value := if n = 0 then [] else zeros 2 ++ p.drop 2 }] (beBytes 4 g.cycle) s) s

/-- GATE_LIST_READ: what it admits. -/
def opGateListRead : OpSpec := { opcode := 0x0805, observer := true, tenant := true, lengths := fun n => n = 4, reads := true }

/-- GATE_LIST_READ (Table 13.10). The position reads 0 before BASE and with no list. -/
def execGateListRead (q : Request) (s : State) : Answer :=
  runCommand opGateListRead (.gateListRead q) q (portInBlock q) (fun _ s =>
    let n := u16 q.params 0
    withChecks [(1280 ≤ n, badParam 4 0)] s fun s =>
      match gateList s n with
      | none => .ok (beBytes 2 n ++ zeros 14 ++ beBytes 2 0xFFFF ++ zeros 6) s
      | some g =>
        let before := mantel s < g.base
        let pos := if before then 0 else (mantel s - g.base) % g.cycle
        .ok (beBytes 2 n ++ beBytes 2 g.entries.length ++ beBytes 8 g.base ++ beBytes 4 g.cycle ++
          beBytes 2 (if before then 0xFFFF else (entryAt g.entries 0 pos).1) ++ zeros 2 ++ beBytes 4 pos ++
          (liveValue s (.gates n)).drop 12) s) s

/-! ## Marks and transfer weights -/

/-- MARK_SET: what it admits. -/
def opMarkSet : OpSpec := { opcode := 0x0806, lengths := fun n => n = 16, staging := true }

/-- MARK_SET (Table 13.11). -/
def execMarkSet (q : Request) (s : State) : Answer :=
  runCommand opMarkSet (.markSet q) q anyBlock (fun _ s =>
    let p := q.params
    let vc := u8 p 4
    withChecks (portRange p ++ [chk (vc = 0 || 4 < vc) (badParam 4 4), (2 ≤ u8 p 5, badParam 3 5),
        (u16 p 6 = 0 || 256 < u16 p 6, badParam 4 6), (3145728 < u32 p 12, badParam 4 12),
        (u32 p 12 ≤ u32 p 8, badParam 6 12)]) s fun s =>
      stageDone q 0 (portItems p (fun n => .mark n vc) (zeros 5 ++ p.drop 5)) [] s) s

/-- SCHED_WEIGHTS_SET: what it admits. -/
def opSchedWeightsSet : OpSpec := { opcode := 0x0807, lengths := fun n => n = 8, staging := true }

/-- SCHED_WEIGHTS_SET (Table 13.12). -/
def execSchedWeightsSet (q : Request) (s : State) : Answer :=
  runCommand opSchedWeightsSet (.schedWeightsSet q) q anyBlock (fun _ s =>
    let p := q.params
    let halls := setBits 4 (u8 p 0)
    let zero (off : Nat) : Bool × Refuse := (u8 p off = 0, badParam 4 off)
    withChecks [(halls = [], badParam 4 0), zero 1, zero 2, zero 4, zero 5, zero 6, zero 7] s fun s =>
      let v := zeros 1 ++ (p.drop 1).take 2 ++ zeros 1 ++ p.drop 4
      stageDone q 0 (halls.map fun h => { key := .xfer h, value := v }) [] s) s

end Sys2Proof.Machine
end

