-- ==== Sys2Proof/Machine/Buffers.lean ====
section
/-!
DEFINITION. Held frames (R272), the buffer loop (R274), spill (R275 to R277) and the buffer commands (R290).
-/
namespace Sys2Proof.Machine

/-- Raises HOLD_STALL for the frames of a Hall that have been held for more than 1 ms since the last look (R272, R289). -/
def holdStall (h : Nat) (s : State) : State :=
  let above (x : Held) : Bool := x.turn.isNone && 1000000 < s.ns - x.since
  let l := (hallAt s h).held
  match l.find? fun x => above x && !x.stalled with
  | none => s
  | some x =>
    raiseLimited 0x0880 h second (fun _ s =>
        raise 0x0880 (hallDie h) 3 x.port (x.vc * 2 ^ 24 + x.frame.latchkey) (l.filter above).length s)
      (modHall h (fun a => { a with held := l.map fun x => if above x then { x with stalled := true } else x }) s)

/-- HELD_FRAME_RETRY (R272): a Hall retries its held frames, oldest first; they are one of its sources of decisions (R273). -/
def execHeldFrameRetry (hall : Nat) (s : State) : Answer :=
  let s := holdStall hall s
  let l := (hallAt s hall).held.filter fun x => x.turn.isNone
  guard (hall < 4) "Hall"
    (if l = [] then s
     else withShares hall l (fun s => l.foldl (fun s x => offer hall 4 x s)
       (modHall hall (fun a => { a with held := a.held.filter fun x => x.turn.isSome }) s)) s)

/-- Whether some queue of a Hall on a VC holds cells. -/
def vcHolds (s : State) (h v : Nat) : Bool := s.buf.queues.any fun e => hallOf e.1.1 = h && e.1.2 = v && e.2.frames ≠ []

/-- BUFFER_LOOP (R274): the loop of a Hall changes K of at most one VC. -/
def execBufferLoop (hall : Nat) (s : State) : Answer :=
  let a := hallAt s hall
  let sh := sharedSpace s hall
  let free := (sh - sharedUsed s hall) * 256
  let k (v : Nat) : Nat := a.k.getD v 0
  let s0 := modHall hall (fun a => { a with refusedVcs := 0 }) s
  let set (v n : Nat) (s : State) : State := modHall hall (fun a => { a with k := a.k.set v n }) s
  guard (hall < 4) "Hall"
    (if !bit (hallSetting s hall 4 1) 0 then s0
     else if free < hallSetting s hall 24 2 * sh then
       match [1, 2, 3, 4].find? fun v => vcHolds s hall v && hallSetting s hall (15 + v) 1 < k v with
       | some v => countHall hall 37 1 (set v (k v - 1) s0)
       | none => s0
     else if hallSetting s hall 26 2 * sh < free then
       match [4, 3, 2, 1].find? fun v => bit a.refusedVcs v && k v < hallSetting s hall (19 + v) 1 with
       | some v => countHall hall 38 1 (set v (k v + 1) s0)
       | none => s0
     else s0)

/-- SPILL_WRITE_ACK (R275): the oldest spill write of a Hall is acknowledged, and its frame leaves its reserve. -/
def execSpillWriteAck (hall : Nat) (s : State) : Answer :=
  match tget s.buf.spillWrites hall [] with
  | [] => guard (hall < 4) "Hall" s
  | x :: r => .next (freeFrame x hall { s with buf := { s.buf with spillWrites := tset s.buf.spillWrites hall r } })

/-! ## Commands (Tables 11.9 and 11.10) -/

/-- The checks of Hall settings (Tables 11.3 and 11.9). -/
def hallChecks (p : Bytes) : List (Bool × Refuse) :=
  let rng8 (off hi : Nat) : Bool × Refuse := (hi < u8 p off, badParam 4 off)
  let rng16 (off lo hi : Nat) : Bool × Refuse := (u16 p off < lo || hi < u16 p off, badParam 4 off)
  [chk (p.length ≠ 44) (badParam 1 0xFFFF), (16 ≤ u8 p 1, badParam 3 1), (2 ≤ u8 p 4, badParam 3 4),
   (Nat.land (u8 p 5) 0xE1 ≠ 0, badParam 3 5), (Nat.land (u8 p 6) 0xE1 ≠ 0, badParam 3 6), (setBits 4 (u8 p 1) = [], badParam 4 1)] ++
  ((List.range 16).map fun i => rng8 (8 + i) 9) ++
  [rng16 24 1 255, rng16 26 1 255, rng16 28 1 240, rng16 30 1 240, rng16 32 1 65535, rng16 34 8 1024,
   chk (u32 p 36 < 1024 || 65536 < u32 p 36) (badParam 4 36), rng16 40 64 4096] ++
  ((List.range 4).map fun i => chk (u8 p (9 + i) < u8 p (16 + i) || u8 p (20 + i) < u8 p (9 + i)) (badParam 6 (9 + i))) ++
  [chk (u16 p 26 ≤ u16 p 24) (badParam 6 24), chk (u16 p 28 ≤ u16 p 30) (badParam 6 28)]

/-- The checks of port grants (Tables 11.1 and 11.9). -/
def grantChecks (p : Bytes) : List (Bool × Refuse) :=
  [chk (p.length ≠ 24) (badParam 1 0xFFFF), (1280 ≤ u16 p 4, badParam 4 4), (u16 p 6 = 0 || 1280 < u16 p 4 + u16 p 6, badParam 4 6)] ++
  ((List.range 8).map fun v => chk (u16 p (8 + 2 * v) < (if v = 7 then 4 else 33) || 4096 < u16 p (8 + 2 * v)) (badParam 4 (8 + 2 * v)))

/-- BUFFER_CONFIG: what it admits. -/
def opBufferConfig : OpSpec := { opcode := 0x0810, lengths := fun n => n = 44 || n = 24, staging := true }

/-- BUFFER_CONFIG (Table 11.9). -/
def execBufferConfig (q : Request) (s : State) : Answer :=
  runCommand opBufferConfig (.bufferConfig q) q anyBlock (fun _ s =>
    let p := q.params
    match u8 p 0 with
    | 0 => withChecks (hallChecks p) s fun s =>
        let v := zeros 4 ++ (p.drop 4).take 3 ++ zeros 1 ++ (p.drop 8).take 34 ++ zeros 2
        stageDone q 0 ((setBits 4 (u8 p 1)).map fun h => { key := .hallBuf h, value := v }) [] s
    | 1 => withChecks (grantChecks p) s fun s =>
        stageDone q 4 ((List.range (u16 p 6)).map fun i => { key := .grant (u16 p 4 + i), value := p.drop 8 }) [] s
    | _ => .refuse (badParam 3 0) s) s

/-- The record of one queue in BUFFER_READ. -/
def queueRecord (s : State) (h p v : Nat) : Bytes :=
  let q := queueAt s p v
  let key := (portOwner s p).getD 0
  beBytes 4 (sumCells q.frames) ++ beBytes 4 (sumCells q.spilled) ++ beBytes 4 (q.frames.length + q.spilled.length) ++
  beBytes 4 (2 ^ (hallAt s h).k.getD v 0 * freeCells s h key / 64)

/-- BUFFER_READ: what it admits. -/
def opBufferRead : OpSpec := { opcode := 0x0811, observer := true, lengths := fun n => n = 4, reads := true }

/-- BUFFER_READ (Table 11.10). -/
def execBufferRead (q : Request) (s : State) : Answer :=
  runCommand opBufferRead (.bufferRead q) q anyBlock (fun _ s =>
    let p := q.params
    let h := u8 p 0
    let n := u16 p 2
    let withPort := bit (u8 p 1) 0
    withChecks [(3 < h, badParam 4 0),
        (withPort && (1280 ≤ n || hallOf n ≠ h || gangBase s n ≠ n), badParam 4 2)] s fun s =>
      let a := hallAt s h
      .ok (beBytes 1 h ++ beBytes 1 (hallSetting s h 4 1 + 2 * b2n a.spilling) ++ zeros 2 ++ beBytes 4 a.active ++
        beBytes 4 (ingressReserve s h) ++ beBytes 4 (otherReserve s h) ++ beBytes 4 (sharedSpace s h) ++
        beBytes 4 (sharedUsed s h) ++ beBytes 4 a.headroomUse ++ beBytes 4 ((a.spillUsed.map (·.2)).sum) ++
        a.k.flatMap (beBytes 1) ++ beBytes 2 (32 - a.spareUsed.length) ++ beBytes 2 ((3145728 - a.active) / 3072) ++
        beBytes 4 (a.held.filter fun x => x.turn.isNone).length ++ zeros 4 ++
        (if withPort then (List.range 8).flatMap (queueRecord s h n) else [])) s) s

end Sys2Proof.Machine
end

