-- ==== Sys2Proof/Machine/LineCode.lean ====
section
/-!
DEFINITION. The symbol code of a Cellar line (R297, R298): RS(72,64) over GF(2^8), and its two modes of decoding.
-/
namespace Sys2Proof.Machine

/-! ## Lines (R297) -/

/-- The 72 symbols of a line: its 64 data bytes, then 8 check symbols. The first symbol is the coefficient of the highest power (DESIGN
CHOICE, log 63). -/
def encodeLine (data : List Nat) : List Nat := gf8.encode 8 data

/-- The two symbols that a chunk carries. -/
def chunkSymbols (j : Nat) : List Nat := [2 * j, 2 * j + 1]

/-- The chunk that a data wire of a channel belongs to. -/
def wireChunk (wire : Nat) : Nat := wire / 4

/-! ## Decoding (R298) -/

/-- What decoding finds of a line. -/
inductive LineFind where
  | good
  | corrected (chunk symbols : Nat)
  | uncorrectable
  | poisoned
  deriving DecidableEq, Repr

/-- Syndromes with the part of the error that lies at symbol `i` cancelled; there is one fewer of them. -/
def cancelSymbol (syn : List Nat) (i : Nat) : List Nat :=
  List.zipWith (fun a b => Nat.xor (gf8.mul (gf8.alpha (71 - i)) a) b) syn (syn.drop 1)

/-- Whether symbol `i` is wrong, when every error lies at it or at one of `others`. -/
def symbolWrong (syn : List Nat) (i : Nat) (others : List Nat) : Bool :=
  (((others.filter (· ≠ i)).foldl cancelSymbol syn).headD 0) ≠ 0

/-- How many symbols are wrong when the whole error lies in some chunks; none when it does not. -/
def errorsIn (syn : List Nat) (chunks : List Nat) : Option Nat :=
  let is := chunks.flatMap chunkSymbols
  if (is.foldl cancelSymbol syn).all (· = 0) then some ((is.filter fun i => symbolWrong syn i is).length) else none

/-- The first chunk of a list that holds the error, beside a chunk whose symbols are erasures, and how many symbols are wrong. -/
def findChunk (syn : List Nat) (marked : Option Nat) : List Nat → Option (Nat × Nat)
  | [] => none
  | j :: l =>
    match errorsIn syn (marked.toList.filter (· ≠ j) ++ [j]) with
    | some n => some (j, n)
    | none => findChunk syn marked l

/-- The decoder (R298): an error confined to one chunk is corrected, and with a chunk marked one that lies in it and one other. The
erasures of a marked chunk alone are corrected as that chunk's. -/
def decodeLine (marked : Option Nat) (symbols : List Nat) : LineFind :=
  let syn := gf8.syndromes 8 symbols
  if syn.all (· = 0) then .good
  else match findChunk syn marked (marked.toList ++ List.range 36) with
    | some (j, n) => .corrected j n
    | none => .uncorrectable

end Sys2Proof.Machine
end

