-- ==== Sys2Proof/Machine/CellarMem.lean ====
section
/-!
DEFINITION. Cellar (R291 to R310): addresses, the scrub, repairs by spare rows and chunks, refresh, regulators and tests.
-/
namespace Sys2Proof.Machine

/-! ## Addresses and partitions (R292, R293) -/

/-- The line address A[35:6] of line `n` of channel `c` of a Hall (Table 12.2). (DESIGN CHOICE, log 29.) -/
def lineOf (c n : Nat) : Nat :=
  let row := n / 1024
  let bank := n / 32 % 32
  let col := n % 32
  row * 2 ^ 17 + col * 2 ^ 12 + bank * 2 ^ 7 + Nat.xor c (col % 4 * 32 + bank)

/-- Channel index, row, bank and column of a line address. -/
def lineParts (a : Nat) : Nat × Nat × Nat × Nat :=
  (Nat.xor (a % 128) (a / 2 ^ 7 % 128), a / 2 ^ 17, a / 2 ^ 7 % 32, a / 2 ^ 12 % 32)

/-- The die of a channel index of a Hall. -/
def cellarDieId (h c : Nat) : Nat := 6 + 4 * h + c / 32

/-- Whether a die ID is a Cellar's. -/
def isCellar (d : Nat) : Bool := 6 ≤ d && d < 22

/-- The Hall of a Cellar die. -/
def hallOfCellar (d : Nat) : Nat := (d - 6) / 4

/-- The PARTITION code of a line address. -/
def partOfLine (s : State) (a : Nat) : Nat :=
  let u := a / 2 ^ 22
  if u < 4 then 4 else if u < partBase s 3 then 2 else if u < partBase s 1 then 3 else if u < partBase s 0 then 1 else 0

/-- Counts in the counters of a partition of a Hall (Table 12.8). -/
def countPart (h part idx n : Nat) (s : State) : State := count 0xB (5 * h + part) idx n s

/-! ## State -/

/-- A Cellar die. -/
def cellarDie (s : State) (d : Nat) : CellarDie := tget s.cellar.dies d {}

/-- Changes a Cellar die. -/
def modCellar (d : Nat) (g : CellarDie → CellarDie) (s : State) : State :=
  { s with cellar := { s.cellar with dies := tset s.cellar.dies d (g (cellarDie s d)) } }

/-- A channel of a Cellar die. -/
def CellarDie.channel (d : CellarDie) (c : Nat) : Channel := tget d.channels c {}

/-- Changes a channel of a Cellar die. -/
def modChannel (d c : Nat) (g : Channel → Channel) (s : State) : State :=
  modCellar d (fun x => { x with channels := tset x.channels c (g (x.channel c)) }) s

/-- The scrub of a Hall. -/
def scrubAt (s : State) (h : Nat) : Scrub := tget s.cellar.scrubs h {}

/-- Changes the scrub of a Hall. -/
def modScrub (h : Nat) (g : Scrub → Scrub) (s : State) : State :=
  { s with cellar := { s.cellar with scrubs := tset s.cellar.scrubs h (g (scrubAt s h)) } }

/-! ## Uncorrectable lines and repair triggers (R299 to R304) -/

/-- Raises CELLAR_UNCORR, at most 16 times per Hall per second (R309). SOURCE: 0 demand, 1 scrub, 2 repair. -/
def cellarUncorr (h line source : Nat) (s : State) : State :=
  let b := scrubAt s h
  let sameSecond := s.ns < b.uncStart + second
  if sameSecond && 16 ≤ b.uncCount then modScrub h (fun b => { b with uncMissed := b.uncMissed + 1 }) s
  else
    let start := if sameSecond then b.uncStart else s.ns
    let n := if sameSecond then b.uncCount + 1 else 1
    raise 0x1013 (hallDie h) 4 (cellarDieId h (lineParts line).1) line
      (min b.uncMissed 0xFFFF * 2 ^ 16 + source * 256 + partOfLine s line)
      (modScrub h (fun b => { b with uncStart := start, uncCount := n, uncMissed := 0 }) s)

/-- A row is to be spared (R301, R302): its copy is queued, or its bank has no spare row left. -/
def spareRow (h d : Nat) (k : RowKey) (s : State) : State :=
  let x := cellarDie s d
  let bank := (k.1, k.2.1)
  if k ∈ x.copies || k ∈ x.spared then s
  else if 128 ≤ ((x.spared ++ x.copies).filter fun r => r.1 = k.1 && r.2.1 = k.2.1).length then
    if bank ∈ x.exhausted then s
    else recordFault 8 0 d (k.1 * 256 + k.2.1) (raise 0x1018 (hallDie h) 4 d (k.1 * 256 + k.2.1) 0
      (modCellar d (fun x => { x with exhausted := x.exhausted ++ [bank] }) s))
  else modCellar d (fun x => { x with copies := x.copies ++ [k] }) s

/-- A channel fails (R304). `why`: 1 no valid response, 2 a second chunk. -/
def failChannel (h d c why : Nat) (s : State) : State :=
  if ((cellarDie s d).channel c).failed then s
  else recordFault 8 0 d c (raise 0x1016 (hallDie h) 5 d c why (modChannel d c (fun x => { x with failed := true }) s))

/-- A chunk of a channel has reached its trigger (R301, R303, R304). -/
def markChunk (h d c chunk rows : Nat) (s : State) : State :=
  match ((cellarDie s d).channel c).marked with
  | none =>
    count 0xC d 1 1 (recordFault 8 1 d (c * 256 + chunk) (raise 0x1010 (hallDie h) 3 d (c * 256 + chunk) rows
      (modChannel d c (fun x => { x with marked := some chunk }) s)))
  | some _ => failChannel h d c 2 s

/-- A corrected line feeds the triggers of its chunk and its row (R301). -/
def feedTriggers (h line chunk : Nat) (s : State) : State :=
  let l := lineParts line
  let d := cellarDieId h l.1
  let c := l.1 % 32
  let row := l.2.1
  let ch := (cellarDie s d).channel c
  if ch.marked = some chunk then s
  else
    let recent := ch.fixes.filter fun f => s.ns - f.2.2 < second
    let fixes := if recent.any fun f => f.1 = chunk && f.2.1 = row then recent else recent ++ [(chunk, row, s.ns)]
    let rows := (fixes.filter fun f => f.1 = chunk).length
    let s := modChannel d c (fun x => { x with fixes }) s
    if 16 ≤ rows then (if ch.failed then s else markChunk h d c chunk rows s)
    else
      let k : RowKey := (c, l.2.2.1, row)
      let day := 86400 * second
      let old := (tget (cellarDie s d).fixed k []).filter fun f => s.ns - f.2 < day && f.1 ≠ l.2.2.2
      let lines := old ++ [(l.2.2.2, s.ns)]
      let s := modCellar d (fun x => { x with fixed := tset x.fixed k lines }) s
      if 4 ≤ lines.length then spareRow h d k s else s

/-- The channel line number of a line address (Table 12.2). -/
def lineNumber (line : Nat) : Nat :=
  let l := lineParts line
  l.2.1 * 1024 + l.2.2.1 * 32 + l.2.2.2

/-- The chunk whose symbols the decoder takes as erasures at a line: a marked one, below the pointer of a rewrite no longer (R298, R303). -/
def erasedAt (s : State) (h line : Nat) : Option Nat :=
  let l := lineParts line
  let ch := (cellarDie s (cellarDieId h l.1)).channel (l.1 % 32)
  match ch.rewriting with
  | some start => if lineNumber line < (s.ns - start) / 16 then none else ch.marked
  | none => ch.marked

/-- What the decoder finds of a line that a channel has returned; a poisoned one keeps its flag (R298, R299). -/
def findLine (s : State) (h line : Nat) (obs : LineObs) : LineFind :=
  match obs with
  | .silent => .uncorrectable
  | .read symbols poisoned _ => if poisoned then .poisoned else decodeLine (erasedAt s h line) symbols

/-- What a returned line tells beside its data: a channel that gives none has failed (R304), and a line read without the poison pattern has
been written again (R299). -/
def noteLine (h line : Nat) (obs : LineObs) (s : State) : State :=
  let l := lineParts line
  match obs with
  | .silent => failChannel h (cellarDieId h l.1) (l.1 % 32) 1 s
  | .read _ poisoned _ =>
    if poisoned then s else { s with cellar := { s.cellar with poisoned := s.cellar.poisoned.filter (· ≠ (h, line)) } }

/-- A line that the scrub or a memory test has read, by what the decoder finds (R300). -/
def scrubLine (h line : Nat) (obs : LineObs) (s : State) : State :=
  let part := partOfLine s line
  let overtaken := match obs with | .read _ _ o => o | .silent => true
  let find := findLine s h line obs
  let s := noteLine h line obs s
  match find with
  | .good => s
  | .poisoned => s
  | .corrected chunk n =>
    let s := countPart h part 4 1 (countPart h part 3 n s)
    feedTriggers h line chunk (if overtaken then s else countPart h part 9 1 s)
  | .uncorrectable =>
    let l := lineParts line
    let s := cellarUncorr h line 1 (countPart h part 5 1 s)
    spareRow h (cellarDieId h l.1) (l.1 % 32, l.2.2.1, l.2.1) s

/-- A line that the decoder corrects or loses as a partition's own read (R298, R301, R306). A line that was already poisoned is no
new error. -/
def demandLine (h part line : Nat) (find : LineFind) (s : State) : State :=
  match find with
  | .good => s
  | .corrected chunk n => feedTriggers h line chunk (countPart h part 4 1 (countPart h part 3 n s))
  | .poisoned => countPart h part 6 1 s
  | .uncorrectable =>
    let l := lineParts line
    let s := cellarUncorr h line 0 (countPart h part 5 1 s)
    spareRow h (cellarDieId h l.1) (l.1 % 32, l.2.2.1, l.2.1) s

/-! ## The order in which a channel serves (R291, R296) -/

/-- The place of an access in the order of R296. -/
def AccessKind.rank : AccessKind → Nat
  | .refresh => 1
  | .repair => 2
  | .scrub => 3
  | .firmware => 4
  | .shadow => 5
  | .hamper => 6
  | .spillRead => 7
  | .spillWrite => 8
  | .telemetry => 9
  | .background => 10

/-- The pending access that a channel serves next: the first of the highest priority. -/
def nextAccess : List Access → Option Access
  | [] => none
  | a :: l =>
    match nextAccess l with
    | none => some a
    | some b => if a.kind.rank ≤ b.kind.rank then some a else some b

/-- The accesses of two in a CELLARCLK cycle that are left when a refresh and a rewrite's line, which come first, have taken theirs. -/
def slotsLeft (s : State) (d c : Nat) : Nat :=
  let x := cellarDie s d
  let ch := x.channel c
  let refresh := 0 < s.ns && x.lastRefresh = s.ns
  let rewrite := match ch.rewriting with | some t => (s.ns - t) % 16 = 0 | none => false
  2 - b2n refresh - b2n rewrite - (if ch.served.1 = s.ns then ch.served.2 else 0)

/-- An access is served: its read is judged. -/
def serveAccess (h : Nat) (a : Access) (s : State) : State :=
  match a.kind with
  | .scrub | .background => scrubLine h a.line a.obs s
  | _ => demandLine h (partOfLine s a.line) a.line (findLine s h a.line a.obs) (noteLine h a.line a.obs s)

/-- A channel counts an access served in the present cycle. -/
def countServed (d c : Nat) (s : State) : State :=
  modChannel d c (fun x => { x with served := (s.ns, (if x.served.1 = s.ns then x.served.2 else 0) + 1) }) s

/-- An access of a line is asked for: served at once when its channel has a place for it in this cycle and nothing waits there, else it
waits. -/
def askAccess (h : Nat) (a : Access) (s : State) : State :=
  let l := lineParts a.line
  let d := cellarDieId h l.1
  let c := l.1 % 32
  if ((cellarDie s d).channel c).waiting = [] && 0 < slotsLeft s d c then serveAccess h a (countServed d c s)
  else modChannel d c (fun x => { x with waiting := x.waiting ++ [a] }) s

/-- A channel serves the first of its pending accesses while the cycle has a place. -/
def serveChannel (d c : Nat) (s : State) : State :=
  match nextAccess ((cellarDie s d).channel c).waiting with
  | none => s
  | some a =>
    if slotsLeft s d c = 0 then s
    else serveAccess (hallOfCellar d) a (countServed d c (modChannel d c (fun x => { x with waiting := x.waiting.erase a }) s))

/-- One CELLARCLK cycle of every channel in which accesses wait. -/
def serveCellars (s : State) : State :=
  s.cellar.dies.foldl (fun s e => e.2.channels.foldl (fun s x =>
    if x.2.waiting = [] then s else serveChannel e.1 x.1 (serveChannel e.1 x.1 s)) s) s

/-- What a scrub read of a channel counts as: one line per 4 µs is within its floor (R296). -/
def scrubKind (s : State) (d c : Nat) : AccessKind :=
  match ((cellarDie s d).channel c).scrubbed with
  | none => .scrub
  | some t => if s.ns < t + 4000 then .background else .scrub

/-- Whether the scrub skips a line: poisoned, in a row being copied, or in a channel being rewritten (R300). -/
def scrubSkips (s : State) (h line : Nat) : Bool :=
  let l := lineParts line
  let d := cellarDie s (cellarDieId h l.1)
  (h, line) ∈ s.cellar.poisoned || d.copies.head? = some (l.1 % 32, l.2.2.1, l.2.1) ||
  (d.channel (l.1 % 32)).rewriting.isSome

/-- Per mille of the scrub pass done. -/
def Scrub.perMille (b : Scrub) : Nat := b.pos * 1000 / 2 ^ 30

/-- CELLAR_SCRUB (R296, R300): the scrubber reads the next line of a Hall, in its turn of the channel. The walk takes the 128 channels in turn (DESIGN CHOICE, log 29). -/
def execCellarScrub (hall : Nat) (obs : LineObs) (s : State) : Answer :=
  let b := scrubAt s hall
  let line := lineOf (b.pos % 128) (b.pos / 128)
  let period := u8 (bootcfg s) 3 * hour
  let late := period < s.ns - b.start && !b.late
  let s := if late then raise 0x1017 (hallDie hall) 3 hall b.perMille 0 (modScrub hall (fun b => { b with late := true }) s) else s
  let l := lineParts line
  let d := cellarDieId hall l.1
  let kind := scrubKind s d (l.1 % 32)
  let s := if scrubSkips s hall line then s
    else
      let s := if kind = .scrub then modChannel d (l.1 % 32) (fun x => { x with scrubbed := some s.ns }) s else s
      askAccess hall { kind, line, obs } (countPart hall (partOfLine s line) 8 1 s)
  guard (hall < 4) "Hall"
    (if b.pos + 1 = 2 ^ 30 then modScrub hall (fun b => { b with pos := 0, start := s.ns, lastEnd := some s.ns, late := false }) s
     else modScrub hall (fun b => { b with pos := b.pos + 1 }) s)

/-- Writes a line poisoned, with its record (R299, R302, R303). -/
def poisonLine (h : Nat) (s : State) (line : Nat) : State :=
  cellarUncorr h line 2 { s with cellar := { s.cellar with poisoned := ((h, line) :: s.cellar.poisoned).eraseDups } }

/-- CELLAR_ROW_SPARED (R302): the running row copy of a die completes; `lost` lists the columns that it found
uncorrectable. -/
def execCellarRowSpared (die : Nat) (lost : List Nat) (s : State) : Answer :=
  let x := cellarDie s die
  let h := hallOfCellar die
  match x.copies with
  | [] => guard (isCellar die) "Cellar" s
  | k :: rest =>
    let c := (die - 6) % 4 * 32 + k.1
    let s := (lost.filter (· < 32)).foldl (fun s col => poisonLine h s (lineOf c (k.2.2 * 1024 + k.2.1 * 32 + col))) s
    let s := modCellar die (fun x => { x with copies := rest, spared := x.spared ++ [k], fixed := tdel x.fixed k }) s
    let used := ((cellarDie s die).spared.filter fun r => r.1 = k.1 && r.2.1 = k.2.1).length
    .next (count 0xC die 0 1 (recordFault 8 1 die (k.1 * 2 ^ 24 + k.2.1 * 2 ^ 16 + k.2.2)
      (raise 0x1012 (hallDie h) 2 die (k.1 * 2 ^ 24 + k.2.1 * 2 ^ 16 + k.2.2) (128 - used) s)))

/-- CHUNK_REWRITE_START (R303): the rewrite of a marked channel onto its unused spare chunk starts. -/
def execChunkRewriteStart (die channel : Nat) (s : State) : Answer :=
  let x := (cellarDie s die).channel channel
  guard (isCellar die && channel < 32) "channel"
    (if x.marked.isSome && !x.spareUsed && x.rewriting.isNone then
      modChannel die channel (fun x => { x with rewriting := some s.ns }) s else s)

/-- CELLAR_CHUNK_SPARED (R303): a running rewrite ends; `lost` lists the channel line numbers found uncorrectable. -/
def execCellarChunkSpared (die channel : Nat) (lost : List Nat) (s : State) : Answer :=
  let x := (cellarDie s die).channel channel
  let h := hallOfCellar die
  if !(isCellar die && channel < 32) then .refused (.noSuchObject "channel")
  else
    match x.rewriting, x.marked with
    | some start, some chunk =>
      let c := (die - 6) % 4 * 32 + channel
      let s := (lost.filter (· < 8388608)).foldl (fun s n => poisonLine h s (lineOf c n)) s
      let s := modChannel die channel (fun x => { x with marked := none, spareUsed := true, rewriting := none, fixes := [] }) s
      .next (count 0xC die 2 1 (raise 0x1011 (hallDie h) 2 die (channel * 256 + chunk) ((s.ns - start) / 1000000) s))
    | _, _ => .next s

/-! ## Refresh (R305) -/

/-- CELLAR_REFRESH (R305): a per-bank refresh of a die falls due and runs. -/
def execCellarRefresh (die : Nat) (s : State) : Answer :=
  guard (isCellar die) "Cellar" (modCellar die (fun x => { x with lastRefresh := s.ns }) s)

/-- The refresh mode that a reading calls for, in 1/256 °C (Table 12.5). -/
def refreshModeOf (t : Int) : Nat := if t < 85 * 256 then 0 else if t < 95 * 256 then 1 else if t < 105 * 256 then 2 else 3

/-- CELLAR_REFRESH_MODE (R305): a reading of a die's hottest sensor. The mode rises at once, and falls once every reading
of 10 ms lies 2 °C below its lower edge, to the mode the reading calls for (DEDUCED, log 30). -/
def execCellarRefreshMode (die : Nat) (hottest : Int) (s : State) : Answer :=
  let x := cellarDie s die
  let new := refreshModeOf hottest
  let edge : Int := ((75 + 10 * x.mode : Nat) : Int) * 256
  let cool := 0 < x.mode && hottest ≤ edge - 512
  let since := if cool then some (x.coolSince.getD s.ns) else none
  let falls := cool && 10000000 ≤ s.ns - x.coolSince.getD s.ns
  let mode := if x.mode < new || falls then new else x.mode
  let s1 := modCellar die (fun x => { x with hottest, mode, coolSince := if mode = x.mode then since else none }) s
  let t := natOfInt 32 hottest
  let s2 := if mode = x.mode then s1 else raise 0x1014 (hallDie (hallOfCellar die)) 2 die mode t s1
  guard (isCellar die) "Cellar"
    (if mode = 3 && x.mode ≠ 3 then raise 0x1015 (hallDie (hallOfCellar die)) 4 die t 0 s2 else s2)

/-! ## Spilled frames that return (R276, R277) -/

/-- SPILL_RETURN (R276, R277): the oldest spilled frame of a queue has been read back. It is linked when its pool has
room; a frame that the read lost is handled as R285 states. `lines` gives the lines that did not read good: line address and symbols.
Nothing is read while the queue holds PREFETCH cells and the 128 that may be in flight (R276). (DEDUCED, log 45.) -/
def execSpillReturn (port vc : Nat) (err : ReadError) (lines : List (Nat × LineObs)) (s : State) : Answer :=
  if !isPort port || 8 ≤ vc then .refused (.noSuchObject "queue")
  else
    let q := queueAt s port vc
    let h := hallOf port
    match q.spilled with
    | [] => .next s
    | x :: r =>
      if hallSetting s h 34 2 + 128 ≤ sumCells q.frames then .next s
      else
      let key := poolKey s x.frame.latchkey
      let s := countLines h 0 0 (2 * x.cells) (useTokens h 0 (2 * x.cells) s)
      let s := lines.foldl (fun s l => askAccess h { kind := .spillRead, line := l.1, obs := l.2 } s) s
      match lostHeader err with
      | some header =>
        let at' : Nat × Nat := match err with | .header b c => (b, c) | .payload b c _ => (b, c) | _ => (0, 0)
        let s := raise 0x0883 (hallDie h) 3 at'.1 at'.2 (if header then 1 else 2) (countHall h 36 1 s)
        .next (lostFrame h 4 port header x (setQueue port vc { q with spilled := r } s))
      | none =>
        if freeCells s h key < x.cells then .next s   -- the frame stays in Cellar
        else
          let s := setQueue port vc { q with spilled := r } s
          let s := countHall h 32 x.cells (chargePool h key x.cells (freeFrame x h s))
          .next (linkTail { x with store := .pool key } s)

/-! ## Commands (Tables 12.10 to 12.12) -/

/-- A Cellar command before P3 has completed (R310). -/
def cellarNotReady (s : State) : Bool × Refuse := (s.boot.phase < 4, { status := 0x0B, reason := 4 })

/-- The record of one level in CELLAR_STATUS. -/
def levelRecord (s : State) (h l : Nat) : Bytes :=
  let x := cellarDie s (6 + 4 * h + l)
  let n (f : Channel → Bool) : Nat := (x.channels.filter fun e => f e.2).length
  beBytes 1 l ++ beBytes 1 x.mode ++ beBytes 2 (natOfInt 16 x.hottest) ++ beBytes 1 (n fun c => c.spareUsed) ++
  beBytes 1 (n fun c => c.marked.isSome) ++ beBytes 1 (n fun c => c.failed) ++ zeros 1 ++ beBytes 4 x.spared.length ++
  beBytes 4 (131072 - x.spared.length)

/-- CELLAR_STATUS: what it admits. -/
def opCellarStatus : OpSpec := { opcode := 0x1010, observer := true, lengths := fun n => n = 4, reads := true }

/-- CELLAR_STATUS (Table 12.10). -/
def execCellarStatus (q : Request) (s : State) : Answer :=
  runCommand opCellarStatus (.cellarStatus q) q anyBlock (fun _ s =>
    let h := u8 q.params 0
    withChecks [(3 < h, badParam 4 0), cellarNotReady s] s fun s =>
      let b := scrubAt s h
      let busy := (List.range 4).any fun l =>
        let x := cellarDie s (6 + 4 * h + l)
        x.copies ≠ [] || x.channels.any fun e => e.2.rewriting.isSome
      .ok (beBytes 1 h ++ beBytes 1 (b2n (tfind s.cellar.tests h).isSome + 2 * b2n busy) ++ zeros 2 ++
        beBytes 2 b.perMille ++ beBytes 2 (match b.lastEnd with | some t => min 0xFFFE ((s.ns - t) / hour) | none => 0xFFFF) ++
        ((List.range 5).flatMap fun k =>
          beBytes 1 k ++ zeros 1 ++ beBytes 2 (partBase s k) ++ beBytes 2 (partSize s k) ++ zeros 2 ++
          beBytes 4 (regulatorRate s h k).1 ++ beBytes 4 (regulatorRate s h k).2) ++
        (List.range 4).flatMap (levelRecord s h)) s) s

/-- CELLAR_REGULATOR_SET: what it admits. -/
def opCellarRegulatorSet : OpSpec := { opcode := 0x1011, lengths := fun n => n = 12, staging := true }

/-- CELLAR_REGULATOR_SET (Table 12.11). -/
def execCellarRegulatorSet (q : Request) (s : State) : Answer :=
  runCommand opCellarRegulatorSet (.cellarRegulatorSet q) q anyBlock (fun _ s =>
    let p := q.params
    let halls := setBits 4 (u8 p 0)
    withChecks [(16 ≤ u8 p 0, badParam 3 0), (halls = [], badParam 4 0), (4 < u8 p 1, badParam 3 1),
        (u32 p 4 = 0 || 262144 < u32 p 4, badParam 4 4), (u32 p 8 < 64 || 4194304 < u32 p 8, badParam 4 8),
        cellarNotReady s] s fun s =>
      stageDone q 0 (halls.map fun h => { key := .regulator h (u8 p 1), value := p.drop 4 }) [] s) s

/-- CELLAR_MEMTEST: what it admits. -/
def opCellarMemtest : OpSpec := { opcode := 0x1012, lengths := fun n => n = 12 }

/-- CELLAR_MEMTEST (Table 12.12). -/
def execCellarMemtest (q : Request) (s : State) : Answer :=
  runCommand opCellarMemtest (.cellarMemtest q) q anyBlock (fun _ s =>
    let p := q.params
    let h := u8 p 0
    let pattern := u8 p 1 = 1
    let first := u32 p 4
    let n := u32 p 8
    let inSpill := partBase s 0 * 2 ^ 22 ≤ first
    withChecks [(3 < h, badParam 4 0), (1 < u8 p 1, badParam 4 1), (2 ^ 30 ≤ first, badParam 4 4),
        (n = 0 || 2 ^ 30 < first + n, badParam 4 8), (pattern && !inSpill, badParam 6 4), cellarNotReady s,
        (2 ≤ (tget s.zones (hallDie h) {}).level, { status := 1, reason := 4, info := 0xFFFF }),
        ((tfind s.cellar.tests h).isSome || (pattern && 0 < ((hallAt s h).spillUsed.map (·.2)).sum),
          { status := 1, reason := 4, info := 0xFFFF })] s fun s =>
      .wait (.memtest h) { s with cellar := { s.cellar with
        tests := tset s.cellar.tests h (u8 p 1, first, n)
        testing := if pattern then h :: s.cellar.testing else s.cellar.testing } }) s

/-- Rows spared or queued, and chunks marked, of a Hall. -/
def repairCount (s : State) (h : Nat) : Nat × Nat :=
  let ds := (List.range 4).map fun l => cellarDie s (6 + 4 * h + l)
  ((ds.map fun d => d.copies.length + d.spared.length).sum,
   (ds.map fun d => (d.channels.filter fun e => e.2.marked.isSome).length).sum)

/-- CELLAR_MEMTEST_DONE (R310): a test ends; `found` lists the lines that were not good, in ascending order. -/
def execCellarMemtestDone (hall : Nat) (found : List (Nat × LineObs)) (s : State) : Answer :=
  match tfind s.cellar.tests hall with
  | none => guard (hall < 4) "Hall" s
  | some (_, first, n) =>
    let found := found.filter fun f => first ≤ f.1 && f.1 < first + n
    let finds := found.map fun f => (f.1, findLine s hall f.1 f.2)
    let before := repairCount s hall
    let s := found.foldl (fun s f => scrubLine hall f.1 f.2 s) s
    let after := repairCount s hall
    let s := { s with cellar := { s.cellar with
      tests := tdel s.cellar.tests hall, testing := s.cellar.testing.filter (· ≠ hall) } }
    let bad := finds.filter fun f => f.2 = .uncorrectable
    let fixed := finds.filter fun f => match f.2 with | .corrected _ _ => true | _ => false
    let st : Nat × Nat := if bad = [] then (0, 0) else (0x0E, 0x80)
    .next (complete (.memtest hall) st.1 st.2 0
      (beBytes 4 n ++ beBytes 4 fixed.length ++ beBytes 4 bad.length ++ beBytes 4 ((bad.head?.map (·.1)).getD 0xFFFFFFFF) ++
        beBytes 2 (after.1 - before.1) ++ beBytes 1 (after.2 - before.2) ++ zeros 1) s)

end Sys2Proof.Machine
end

