-- ==== Sys2Proof/Machine/Windows.lean ====
section
/-!
DEFINITION. Windows (R128 to R149): bring-up, lane faults, the spare wavelength, rings and equalisers, and their commands.
A fibre pair number is its port number over 8: 0 to 127 are data pairs, 128 to 159 are Transom fibres.
-/
namespace Sys2Proof.Machine

/-! ## Selection of light (R156) -/

/-- A laser module position. -/
def moduleAt (s : State) (m : Nat) : LaserModule := tget s.modules m {}
/-- Changes a laser module position. -/
def modModule (m : Nat) (g : LaserModule → LaserModule) (s : State) : State :=
  { s with modules := tset s.modules m (g (moduleAt s m)) }
/-- The light of a Window. -/
def lightAt (s : State) (w : Nat) : Light := tget s.light w {}
/-- Changes the light of a Window, noting when a takeover or planned switch ends (R467). -/
def modLight (w : Nat) (g : Light → Light) (s : State) : State :=
  let old := lightAt s w
  let new := g old
  let busy (x : Light) : Bool := x.switch.isSome || x.takeovers ≠ []
  let new := if busy old && !busy new then { new with busyEnd := some s.ns } else new
  { s with light := tset s.light w new }

/-- A ring of a wavelength loses lock somewhere on a Window. -/
def noteRingLost (w l : Nat) (s : State) : State := modLight w (fun x => { x with ringLost := tset x.ringLost l s.ns }) s

/-- A monitor point of a Window. -/
def pointAt (s : State) (w : Nat) (k : Nat × Nat × Nat) : MonitorPoint := tget (lightAt s w).points k {}

/-- The settings of a class at reset (Table 6.5). -/
def classAtReset (source : Nat) : MonitorClass :=
  (({} : Light).classes).getD (min source 2) { integ := 0, avg := 1, los := 0, lowAlarm := 0, lowWarn := 0, highWarn := 0, highAlarm := 0 }

/-- The settings of the class of a monitor source as last configured (Tables 6.14, 6.15). -/
def classOf (s : State) (w source : Nat) : MonitorClass := (lightAt s w).classes.getD (min source 2) (classAtReset source)

/-- The settings in force at a point: those of its last window boundary (Table 6.15). -/
def pointClass (s : State) (w : Nat) (k : Nat × Nat × Nat) : MonitorClass := (pointAt s w k).cls.getD (classAtReset k.1)

/-- Changes a monitor point of a Window. -/
def modPoint (w : Nat) (k : Nat × Nat × Nat) (g : MonitorPoint → MonitorPoint) (s : State) : State :=
  modLight w (fun x => { x with points := tset x.points k (g (tget x.points k {})) }) s

/-- The comparator of a point at its LOS level (R167). -/
def setLos (w : Nat) (k : Nat × Nat × Nat) (los : Bool) (s : State) : State := modPoint w k (fun p => { p with los }) s

/-- INDEX of a fibre pair in its Window (Table 6.14). -/
def fibreIndex (pair : Nat) : Nat := if pair < 128 then pair % 16 else pair % 4

/-- The data-feed point of a side of a Window: 1 module A, 2 module B. -/
def feedPoint (s : State) (w side l : Nat) : MonitorPoint := pointAt s w (side + 1, 0, l)

/-- The last value of a point, −30.01 dBm where it reads none. -/
def MonitorPoint.last (p : MonitorPoint) : Int := ((p.windows.head?.bind fun x => x.2.1)).getD (-3001)

/-- Whether a side may be selected for a wavelength: its module is ready and its laser is not FAILED. -/
def sideReady (s : State) (w side l : Nat) : Bool :=
  let m := moduleAt s (2 * w + side - 1)
  m.state = 2 && !(m.lasers.getD l {}).failed

/-- The settings in force at a side's data feed. -/
def feedClass (s : State) (w side l : Nat) : MonitorClass := pointClass s w (side + 1, 0, l)

/-- Whether a side gives light above its LOS level on a wavelength, by the comparator (R157, R167). -/
def sideLit (s : State) (w side l : Nat) : Bool := sideReady s w side l && !(feedPoint s w side l).los

/-- The module that R156 selects for a wavelength. -/
def selectFor (s : State) (w l : Nat) : Nat :=
  let high (side : Nat) : Bool := sideReady s w side l && (feedClass s w side l).lowAlarm ≤ (feedPoint s w side l).last
  if high 1 then 1 else if high 2 then 2 else if sideLit s w 1 l then 1 else if sideLit s w 2 l then 2 else 0

/-- A lost wavelength has light again, from a side that is now selected: LIGHT_RESTORED (R160). -/
def lightFound (w l side : Nat) (s : State) : State :=
  if bit (lightAt s w).lost l then
    let m := 2 * w + side - 1
    raise 0x0613 (eicDie w) 2 w (2 ^ l) m (clearFault 3 (eicDie w) (16 * (2 * w + 1) + l) (clearFault 3 (eicDie w) (16 * (2 * w) + l)
      (modLight w (fun x => { x with lost := x.lost - 2 ^ l }) s)))
  else s

/-- Moves the selector of a wavelength to a side that gives light, which then has to lock (R152, R160). -/
def takeLight (w l side : Nat) (s : State) : State :=
  lightFound w l side (modLight w (fun x => { x with
    sel := x.sel.set l side, relight := if x.relight.contains l then x.relight else x.relight ++ [l] }) s)

/-- Selects a module for every wavelength of a Window (R156). -/
def selectLight (w : Nat) (s : State) : State :=
  (List.range 9).foldl (fun s l =>
    match selectFor s w l with
    | 0 => modLight w (fun x => { x with sel := x.sel.set l 0 }) s
    | side => takeLight w l side s) s

/-! ## Ports of a Window -/

/-- The port numbers of a Window that can carry frames. -/
def windowPorts (s : State) (w : Nat) : List Nat :=
  (List.range 1280).filter fun p => windowOf p = w && carriesFrames s p

/-- Ports of a Window in PHY_READY or better. -/
def readyPorts (s : State) (w : Nat) : Nat := ((windowPorts s w).filter fun p => phyReady s p).length

/-- Takes every port of a Window to WINDOW_DOWN and flushes the links (R139, R140). -/
def downPorts (w : Nat) (s : State) : State :=
  (windowPorts s w).foldl (fun s p => setPortState p .windowDown (linkDown p s)) s

/-- Ends the WINDOW_RESET that waits for a Window (Table 5.13). -/
def answerWindow (w : Nat) (s : State) : State :=
  let x := windowAt s w
  let lost := (windowPorts s w).any fun p =>
    (portAt s p).enabled && ((portAt s p).state = .failed || (portAt s p).state = .noLight)
  let st : Nat × Nat := if !x.inService then (9, 0x80) else if lost then (0x0E, 0x80) else (0, 0)
  complete (.window w) st.1 st.2 0 (beBytes 1 w ++ beBytes 1 (b2n x.inService) ++ beBytes 2 (readyPorts s w)) s

/-- Starts the bring-up of a Window (R139, R140). -/
def startBringUp (w : Nat) (keepLight : Bool) (s : State) : State :=
  let s := downPorts w s
  let lit := (lightAt s w).sel.any (· ≠ 0)
  let s := if keepLight && lit then s else selectLight w s
  modWindow w (fun x => { x with inService := false, bringUp := true, keepLight }) s

/-- A Window goes out of service with a cause of WINDOW_OUT (R49, R139, Table 5.8). -/
def windowOutOfService (w cause : Nat) (s : State) : State :=
  let s := modWindow w (fun x => { x with inService := false, bringUp := false, cause }) s
  let s := raise 0x0502 (eicDie w) 5 w cause 0 (downPorts w s)
  answerWindow w (advertise (recordFault 4 0 (eicDie w) w s))

/-- Temperature of a Window's PIC in 1/256 °C, as its hottest sensor last gave it (R457). -/
def picTemp (s : State) (w : Nat) : Option Int := (tget s.zones (32 + w) {}).reading

/-- Whether a Window's rings are held unlocked: P4, with its PIC below 10 °C (R549). -/
def picCold (s : State) (w : Nat) : Bool := s.boot.phase = 4 && (picTemp s w).any (· < 2560)

/-- Whether the 1.5 s that a Window's rings have to lock are held up, by its PIC's temperature (R549). -/
def lockHeld (s : State) (w : Nat) : Bool := picCold s w || (windowAt s w).warmAt.any fun t => s.ns < t + 1500000000

/-- WINDOW_LIGHT_TIMEOUT (R49): no light, or with `rings` no ring lock, so the Window is declared out of service. While its PIC was too cold
the time for the rings has not begun (R549). -/
def execWindowLightTimeout (window : Nat) (rings : Bool) (s : State) : Answer :=
  guard (window < 8) "Window"
    (if (windowAt s window).bringUp && !(rings && lockHeld s window) then windowOutOfService window (if rings then 2 else 1) s else s)

/-! ## Equalisers (R136) -/

/-- An open setting of an equaliser. -/
def drawEqualiser (s : State) : Equaliser × State :=
  let c := draw 16 s
  let f := (List.range 8).foldl (fun (a : List Int × State) _ =>
    let d := drawInt a.2
    (a.1 ++ [d.1], d.2)) ([], c.2)
  let e := drawInt f.2
  ({ ctle := c.1, ffe := f.1, dfe := e.1 }, e.2)

/-- The equalisers of a port converge; their settings, which the spec leaves open, become the stored preset (R136). -/
def convergePort (p : Nat) (s : State) : State :=
  (List.range (gangWidth s p)).foldl (fun s i =>
    let d := drawEqualiser s
    modPort p (fun x => { x with eq := x.eq.set i d.1, storedEq := x.storedEq.set i d.1 }) d.2) s

/-- A port enters TUNING: its receive equalisers start from the stored preset (R136, R139). -/
def tunePort (p : Nat) (s : State) : State := modPort p (fun x => { x with eq := x.storedEq }) (setPortState p .tuning s)

/-- One coefficient takes a step down or up, or none; which is open (R136). -/
def stepInt (v : Int) (s : State) : Int × State :=
  let d := draw 3 s
  (v + (d.1 : Int) - 1, d.2)

/-- One step of adaptation of an equaliser: every coefficient moves by at most one step (R136). -/
def stepEqualiser (e : Equaliser) (s : State) : Equaliser × State :=
  let c := stepInt e.ctle s
  let f := e.ffe.foldl (fun (a : List Int × State) v =>
    let d := stepInt v a.2
    (a.1 ++ [d.1], d.2)) ([], c.2)
  let g := stepInt e.dfe f.2
  ({ ctle := min 15 c.1.toNat, ffe := f.1, dfe := g.1, stepped := some s.ns }, g.2)

/-! ## Readiness of a port -/

/-- Whether the drop of some lane of a port is temporary (R146). -/
def lightDropped (s : State) (p : Nat) : Bool :=
  (fibreAt s (p / 8)).lightDrop / 2 ^ (p % 8) % 2 ^ gangWidth s p ≠ 0

/-- The state to which an enabled port comes when nothing but its lanes and its Window hold it back (R137, R144, R147). -/
def settlePort (p : Nat) (s : State) : State :=
  if !(windowAt s (windowOf p)).inService then setPortState p .windowDown s
  else if usableLanes s p = 0 then setPortState p (if lightDropped s p then .noLight else .failed) s
  else tunePort p s

/-- PORT_PHY_READY (R137, R139): a port has converged, and its link trains. -/
def execPortPhyReady (port : Nat) (s : State) : Answer :=
  let st := (portAt s port).state
  if !isPort port then .refused (.noSuchObject "port")
  else if !carriesFrames s port || !(windowAt s (windowOf port)).inService || !(st = .tuning || st = .noLight) || usableLanes s port = 0 then
    .next s
  else
    let s := startTraining port (setPortState port .phyReady (convergePort port s))
    let w := windowOf port
    .next (if (windowPorts s w).any fun p => (portAt s p).state = .tuning then s else answerWindow w s)

/-! ## Lane faults and the spare (R141 to R147) -/

/-- The port of the gang that holds a wavelength of a fibre pair. -/
def portOfLane (s : State) (pair k : Nat) : Nat := gangBase s (8 * pair + k)

/-- FIBRE as the events of a Window name it; Transom fibre t is 16 + t (DESIGN CHOICE, log 65). -/
def fibreNo (pair : Nat) : Nat := if pair < 128 then pair % 16 else 16 + pair % 4

/-- The physical wavelength that carries a lane. -/
def physOf (s : State) (pair k : Nat) : Nat := if (fibreAt s pair).spare = .carries k then 8 else k

/-- Changes the record of a physical wavelength. -/
def modLambda (pair l : Nat) (g : Lambda → Lambda) (s : State) : State :=
  modFibre pair (fun x => { x with lambdas := x.lambdas.set l (g (x.lambdas.getD l {})) }) s

/-- Whether a wavelength is in fault at this end, in either direction (R141). -/
def Lambda.inFault (l : Lambda) : Bool := l.txFault || l.rxFault

/-- A wavelength carries idle codewords from now on (R131). -/
def sendIdle (pair l : Nat) (s : State) : State := emit (.idle pair l idlePair) s

/-- The wavelengths of a port carry idle codewords from now on: it is DISABLED (Table 5.4). -/
def idlePort (p : Nat) (s : State) : State :=
  if !(windowAt s (windowOf p)).inService then s
  else (List.range (gangWidth s p)).foldl (fun s i => sendIdle (p / 8) (physOf s (p / 8) (p % 8 + i)) s) s

/-- Parks the transmitter of a wavelength: its ring is detuned, and it carries no light (R142). -/
def park (pair l k : Nat) (s : State) : State := emit (.lane pair l 2 k) (modLambda pair l (fun x => { x with parked := true }) s)

/-- Whether the spare of a fibre pair may be used (R143, R149). -/
def spareAuto (s : State) (pair : Nat) : Bool := pair < 128 && (portAt s (8 * pair)).spareAuto

/-- A port loses its last lane: FAILED, or NO_LIGHT when the drop is temporary (R144, R146). A port in DISABLED or TEST keeps its state. -/
def lastLane (p k cls : Nat) (temp : Bool) (s : State) : State :=
  let st := (portAt s p).state
  let s := linkDown p s
  if st = .disabled || st = .test || st = .windowDown || st = .failed then s
  else if temp then setPortState p .noLight s
  else recordFault 2 0 (eicDie (windowOf p)) p (raise 0x0515 (eicDie (windowOf p)) 4 p k cls (setPortState p .failed s))

/-- Drops logical wavelength `k` of a fibre pair (R144): its light is parked, unless it is missing anyway (class 7), and its gang goes on
without it. A temporary drop ends when light returns (R146). A Transom port that is FAILED reports that alone (R147). -/
def dropLane (pair k cls : Nat) (temp : Bool) (s : State) : State :=
  let p := portOfLane s pair k
  if bit (fibreAt s pair).dropped k then s
  else
    let s := fillCaps p s
    let s := if cls = 7 then s else park pair (physOf s pair k) k s
    let m := 2 ^ k
    let s := modFibre pair (fun x => { x with dropped := x.dropped ||| m, lightDrop := if temp then x.lightDrop ||| m else x.lightDrop }) s
    let s := recordFault 1 0 (eicDie (windowOf p)) (8 * pair + k)
      (if 128 ≤ pair && !temp then s else raise 0x0513 (eicDie (windowOf p)) 3 p k cls s)
    if usableLanes s p = 0 then lastLane p k cls (temp || lightDropped s p) s
    else if (linkAt s p).state = .active then retrain p 1 false s else s

/-- The spare of a fibre pair fails (R144). `tx`: the direction. -/
def failSpare (pair : Nat) (tx : Bool) (s : State) : State :=
  let w := pair / 16
  recordFault 0x0E 0 (eicDie w) (pair % 16) (raise 0x0512 (eicDie w) 3 w (fibreNo pair * 256 + b2n tx) 0
    (modFibre pair (fun x => { x with spare := .failed, selected := false }) s))

/-- This end bridges lane `k` onto λ8 (R142). -/
def bridge (pair k cls : Nat) (s : State) : State :=
  emit (.lane pair 8 1 k) (modFibre pair (fun x => { x with spare := .bridging k, swapClass := cls, since := s.ns, selected := false }) s)

/-- Whether a swap for `k` may begin (R143). -/
def swapAllowed (s : State) (pair k : Nat) : Bool :=
  let x := fibreAt s pair
  let p := portOfLane s pair k
  spareAuto s pair && x.spare = .standby && (portAt s p).enabled && (portAt s p).state ≠ .test &&
  (x.lambdas.filter Lambda.inFault).length = 1

/-- Data wavelengths of a fibre pair whose faults were detected within the last pair period of 25.6 ns (R146). -/
def faultsNow (s : State) (pair : Nat) : Nat :=
  ((List.range 8).filter fun l =>
    let x := (fibreAt s pair).lambdas.getD l {}
    x.inFault && s.ns - x.faultAt ≤ 25).length

/-- This end withdraws its bridge of lane `k`: λ8 is standby again (R143). -/
def withdrawBridge (pair k : Nat) (s : State) : State :=
  sendIdle pair 8 (emit (.lane pair 8 4 k) (modFibre pair (fun x => { x with spare := .standby, selected := false }) s))

/-- A fault on logical wavelength `k` of a data pair: a swap begins, waits, or the lane drops (R142 to R146). Of two faults within one pair
period the lower takes the spare; three or more leave it unused. What drops through faults at once drops for a time only. (DEDUCED, log 44.) -/
def laneFaulty (pair k cls : Nat) (s : State) : State :=
  let x := fibreAt s pair
  match x.spare with
  | .bridging j =>
    if j = k then s
    else if 25 < s.ns - x.since || x.selected then modFibre pair (fun x => { x with waiting := x.waiting ++ [(k, cls)] }) s
    else if 2 < faultsNow s pair then dropLane pair k cls true (dropLane pair j x.swapClass true (withdrawBridge pair j s))
    else if k < j then dropLane pair j x.swapClass true (bridge pair k cls s)
    else dropLane pair k cls true s
  | .mirroring j => if j = k then s else modFibre pair (fun x => { x with waiting := x.waiting ++ [(k, cls)] }) s
  | _ => if swapAllowed s pair k then bridge pair k cls s else dropLane pair k cls (1 < faultsNow s pair) s

/-- Handles the faults found while a swap ran, once it has ended (R146). -/
def settleWaiting (pair : Nat) (s : State) : State :=
  let l := (fibreAt s pair).waiting
  l.foldl (fun s f => dropLane pair f.1 f.2 false s) (modFibre pair (fun x => { x with waiting := [] }) s)

/-- The logical wavelength that physical wavelength `l` of a fibre pair carries. -/
def carriedOn (x : Fibre) (l : Nat) : Option Nat :=
  if l = 8 then (match x.spare with | .carries k => some k | _ => none)
  else if x.spare = .carries l then none else some l

/-- The condition of Table 5.5 on what the detector measures: the received power in 0.01 dBm for LOS and POWER, the symbol error ratio in
10^-9 for SER. A CDR, a ring and a driver tell their faults themselves. -/
def faultHolds (s : State) (pair lambda fclass : Nat) (level : Int) : Bool :=
  let c := pointClass s (windowOf (8 * pair)) (if pair < 128 then 0 else 1, fibreIndex pair, lambda)
  let port := portOfLane s pair (((carriedOn (fibreAt s pair) lambda).getD lambda) % 8)
  match fclass with
  | 1 => level < c.los
  | 5 => (portAt s port).degradeSer * 10000 < level
  | 6 => level < c.lowAlarm
  | _ => true

/-- Whether the light of a wavelength's feed is missing, by the feed power that the transmitter's detector measures (R159, Table 5.5). -/
def feedMissing (s : State) (pair lambda : Nat) (level : Int) : Bool :=
  let w := windowOf (8 * pair)
  level < (feedClass s w (max 1 ((lightAt s w).sel.getD lambda 0)) lambda).los

/-- The lanes that a fault of a wavelength touches (R141 to R147). `missing`: the light of its feed is missing. -/
def faultLanes (pair lambda fclass : Nat) (tx missing : Bool) (s : State) : State :=
  let x := fibreAt s pair
  if 128 ≤ pair then
    if !carriesFrames s (8 * pair + lambda) then s
    else dropLane pair lambda (if missing then 7 else fclass) missing s
  else if missing then (match carriedOn x lambda with | some k => dropLane pair k 7 true s | none => s)
  else if lambda = 8 then
    match x.spare with
    | .carries k => modFibre pair (fun x => { x with spare := .failed, selected := false }) (dropLane pair k fclass false s)
    | .bridging k | .mirroring k =>
      settleWaiting pair (dropLane pair k fclass false (modFibre pair (fun x => { x with spare := .failed, selected := false }) s))
    | .failed => s
    | _ => failSpare pair tx s
  else if x.spare = .carries lambda || bit x.dropped lambda then s
  else laneFaulty pair lambda fclass s

/-- A fault of a class of Table 5.8 is detected on a physical wavelength; `tx`: in the transmitter. A DEGRADING one leaves codewords
correctable. -/
def laneFault (pair lambda fclass : Nat) (tx missing : Bool) (s : State) : State :=
  let w := windowOf (8 * pair)
  let ring := fclass = 3
  let sudden := fclass < 5
  let g (l : Lambda) : Lambda :=
    { l with txFault := l.txFault || tx, rxFault := l.rxFault || !tx, faultAt := s.ns, lastFault := fclass
             txOk := l.txOk && !(tx && sudden), rxOk := l.rxOk && !(!tx && sudden)
             txLock := l.txLock && !(ring && tx), rxLock := l.rxLock && !(ring && !tx) }
  let s := modLambda pair lambda g s
  let s := if fclass = 1 then setLos w (if pair < 128 then 0 else 1, fibreIndex pair, lambda) true s else s
  let s := if ring then noteRingLost w lambda (raise 0x0520 (eicDie w) 3 w (fibreNo pair * 256 + lambda * 16 + b2n tx) 0 s) else s
  if (windowAt s w).inService then faultLanes pair lambda fclass tx missing s else s

/-- LANE_FAULT (R141, R144, R147): the EIC classifies a fault on a physical wavelength (Table 5.5); one whose condition `level` does not meet
is none. For class TX `level` is the power of the feed in 0.01 dBm. (DEDUCED, log 44.) -/
def execLaneFault (pair lambda fclass : Nat) (tx : Bool) (level : Int) (s : State) : Answer :=
  if 160 ≤ pair || 8 < lambda || fclass = 0 || 6 < fclass || (128 ≤ pair && lambda = 8) then .refused (.noSuchObject "wavelength")
  else if (if tx then !(fclass = 3 || fclass = 4) else fclass = 4) then .refused (.noSuchObject "fault class")
  else if !faultHolds s pair lambda fclass level then .next s
  else .next (laneFault pair lambda fclass tx (fclass = 4 && feedMissing s pair lambda level) s)

/-- LAMBDA_BRIDGE_IDENTIFIED (R142, R143, R146): λ8 has changed from idle; `k` is the lane that its codewords identify. At the end that
mirrors, LAMBDA_SPARED will name the last fault of λk found there, 0 if there was none (DESIGN CHOICE, log 65). (DEDUCED, log 44.) -/
def execLambdaBridgeIdentified (pair : Nat) (k : Option Nat) (s : State) : Answer :=
  if 128 ≤ pair then .refused (.noSuchObject "fibre pair")
  else
    let x := fibreAt s pair
    let mirror (k : Nat) (s : State) : State :=
      emit (.lane pair 8 1 k) (modFibre pair (fun x => { x with
        spare := .mirroring k, swapClass := (x.lambdas.getD k {}).lastFault, since := s.ns, selected := false }) s)
    match k with
    | none =>
      if x.spare = .standby then
        .next (raise 0x0511 (eicDie (pair / 16)) 3 (portOfLane s pair 0) (fibreNo pair * 256) 0
          (modFibre pair (fun x => { x with spare := .unmatched }) s))
      else .next s
    | some k =>
      if 8 ≤ k then .refused (.noSuchObject "wavelength")
      else
        match x.spare with
        | .standby | .unmatched => .next (mirror k s)
        | .bridging j =>
          if k = j then .next s
          else if k < j then .next (dropLane pair j x.swapClass false (mirror k (withdrawBridge pair j s)))
          else .next (dropLane pair k (x.lambdas.getD k {}).lastFault false s)
        | _ => .next s

/-- LAMBDA_SPARE_SELECT (R142): this end's receiver selects λ8 in place of λk. -/
def execLambdaSpareSelect (pair : Nat) (s : State) : Answer :=
  let x := fibreAt s pair
  let sel (k : Nat) : State :=
    let p := portOfLane s pair k
    recordFault 1 1 (eicDie (windowOf p)) (8 * pair + k)
      (raise 0x0510 (eicDie (windowOf p)) 2 p (fibreNo pair * 256 + k) x.swapClass
        (emit (.lane pair 8 3 k) (modFibre pair (fun x => { x with selected := true }) s)))
  guard (pair < 128) "fibre pair"
    (if x.selected then s else match x.spare with | .bridging k | .mirroring k => sel k | _ => s)

/-- LAMBDA_PARK (R142): 10 µs after its own receiver switched, this end parks λk, and the swap is complete. -/
def execLambdaPark (pair : Nat) (s : State) : Answer :=
  let x := fibreAt s pair
  let done (k : Nat) : State := settleWaiting pair (park pair k k (modFibre pair (fun x => { x with spare := .carries k }) s))
  guard (pair < 128) "fibre pair"
    (if x.selected then match x.spare with | .bridging k | .mirroring k => done k | _ => s else s)

/-- SPARE_BRIDGE_TIMEOUT (R143): no matching bridge has come within 20 µs of this end's; the bridge is withdrawn and the lane dropped.
An unmatched λ8 is standby again once its peer has withdrawn. -/
def execSpareBridgeTimeout (pair : Nat) (s : State) : Answer :=
  let x := fibreAt s pair
  let giveUp (k : Nat) : State := settleWaiting pair (dropLane pair k x.swapClass false (withdrawBridge pair k s))
  guard (pair < 128) "fibre pair"
    (if x.selected then s
     else match x.spare with
      | .bridging k => if s.ns < x.since + 20000 then s else giveUp k
      | .mirroring k => giveUp k
      | .unmatched => modFibre pair (fun x => { x with spare := .standby }) s
      | _ => s)

/-- A wavelength whose light has returned carries idle codewords again (R146, R158). -/
def resumeIdle (pair l : Nat) (s : State) : State :=
  let s := if ((fibreAt s pair).lambdas.getD l {}).parked then
      emit (.lane pair l 6 l) (modLambda pair l (fun x => { x with parked := false }) s) else s
  sendIdle pair l s

/-- PORT_LANE_RESTORED (R146): a wavelength whose drop was temporary is clean at both ends for 1 ms. The cause that the
retrain reports is open. (DEDUCED, log 43.) -/
def execPortLaneRestored (pair lambda : Nat) (s : State) : Answer :=
  if 160 ≤ pair || 8 ≤ lambda then .refused (.noSuchObject "wavelength")
  else
    let p := portOfLane s pair lambda
    let l := physOf s pair lambda
    let s := modLambda pair l (fun l => { l with txFault := false, rxFault := false, txOk := true, rxOk := true }) s
    if !bit (fibreAt s pair).lightDrop lambda then .next s
    else
      let m := 2 ^ lambda
      let s := modFibre pair (fun x => { x with dropped := x.dropped - m, lightDrop := x.lightDrop - m }) (fillCaps p s)
      let s := if ((fibreAt s pair).lambdas.getD l {}).parked then
          emit (.lane pair l 6 lambda) (modLambda pair l (fun x => { x with parked := false }) s) else s
      let s := clearFault 1 (eicDie (windowOf p)) (8 * pair + lambda)
        (raise 0x0514 (eicDie (windowOf p)) 2 p lambda (usableLanes s p) s)
      if (portAt s p).state = .noLight then .next (startTraining p (setPortState p .phyReady s))
      else if (linkAt s p).state = .active then
        let d := draw 4 s
        .next (retrain p (d.1 + 1) false d.2)
      else .next s

/-! ## Rings and equalisers (R135, R136) -/

/-- RING_HEADROOM (R135): a tracking loop's heater headroom, raised below 10 %, at most once per ring per minute; a ring with none left
loses its lock. -/
def execRingHeadroom (pair lambda : Nat) (tx : Bool) (pct : Nat) (s : State) : Answer :=
  let w := windowOf (8 * pair)
  let key := (pair * 16 + lambda) * 2 + b2n tx
  let x := (fibreAt s pair).lambdas.getD lambda {}
  let s1 := modLambda pair lambda (fun l => if tx then { l with txHead := pct } else { l with rxHead := pct }) s
  let s2 := if pct < 10 then raiseLimited 0x0521 key (60 * second)
      (fun _ s => raise 0x0521 (eicDie w) 3 w (fibreNo pair * 256 + lambda * 16 + b2n tx) pct s) s1 else s1
  guard (pair < 160 && lambda < 9 && !(128 ≤ pair && lambda = 8)) "ring"
    (if pct = 0 && (if tx then x.txLock else x.rxLock) then laneFault pair lambda 3 tx false s2 else s2)

/-- Whether a lane's equaliser is held because a ring of the lane is acquiring lock (R467). -/
def eqHeld (s : State) (pair k : Nat) : Bool :=
  let x := (fibreAt s pair).lambdas.getD (physOf s pair k) {}
  !(x.rxLock && x.txLock)

/-- EQ_ADAPT_STEP (R136, R467): an equaliser in service that is neither frozen nor held takes one step, 10 ms or more after its last; the
lane's EQ_MARGIN is measured. -/
def execEqAdaptStep (port lane : Nat) (margin : Nat) (s : State) : Answer :=
  let x := portAt s port
  let e := x.eq.getD lane {}
  let stays := x.eqFreeze || eqHeld s (port / 8) (port % 8 + lane) || e.stepped.any fun t => s.ns < t + 10000000
  let d := stepEqualiser e s
  let s1 := if stays then s else modPort port (fun x => { x with eq := x.eq.set lane d.1 }) d.2
  guard (isPort port && lane < 8) "lane" (modPort port (fun x => { x with eqMargin := x.eqMargin.set lane margin }) s1)

/-- EQ_MARGIN_LOW (R136). -/
def execEqMarginLow (port lane margin : Nat) (s : State) : Answer :=
  guard (isPort port && lane < 8) "lane"
    (raise 0x0522 (eicDie (windowOf port)) 3 port lane margin (modPort port (fun x => { x with eqMargin := x.eqMargin.set lane margin }) s))

/-! ## Commands (Tables 5.9 to 5.16) -/

/-- PORT_CONFIG: what it admits. -/
def opPortConfig : OpSpec := { opcode := 0x0500, lengths := fun n => n = 8 }

/-- PORT_CONFIG (Table 5.9). -/
def execPortConfig (q : Request) (s : State) : Answer :=
  runCommand opPortConfig (.portConfig q) q anyBlock (fun _ s =>
    let p := q.params
    withChecks (portRange p ++ [chk (7 < u8 p 5) (badParam 4 5), (u8 p 6 = 0 || 100 < u8 p 6, badParam 4 6)]) s fun s =>
      .ok [] ((List.range (u16 p 2)).foldl (fun s i => modPort (u16 p 0 + i) (fun x => { x with
        spareAuto := bit (u8 p 4) 0, eqFreeze := bit (u8 p 4) 1, txPreset := u8 p 5, degradeSer := u8 p 6 }) s) s)) s

/-- The code of a port's state (Table 5.4). -/
def portCode (s : State) (p : Nat) : Nat :=
  if p < 1024 && gangBase s p ≠ p then 8
  else if 1024 ≤ p && !terminated s p then 0
  else match (portAt s p).state with
    | .disabled => 0 | .windowDown => 1 | .noLight => 2 | .tuning => 3 | .phyReady => 4
    | .up => 5 | .upDegraded => 6 | .failed => 7 | .test => 9

/-- SPARE_FOR (Table 5.10). -/
def spareFor (s : State) (p : Nat) : Nat :=
  if 1024 ≤ p || !spareAuto s (p / 8) then 0xF
  else match (fibreAt s (p / 8)).spare with
    | .carries k | .bridging k | .mirroring k => k
    | .failed => 0xE
    | _ => 8

/-- PORT_STATE_READ: what it admits. -/
def opPortStateRead : OpSpec :=
  { opcode := 0x0501, observer := true, tenant := true, lengths := fun n => n = 4, reads := true }

/-- PORT_STATE_READ (Table 5.10). A margin that its byte cannot hold is open (DESIGN CHOICE, log 31). -/
def execPortStateRead (q : Request) (s : State) : Answer :=
  runCommand opPortStateRead (.portStateRead q) q (portInBlock q) (fun _ s =>
    let n := u16 q.params 0
    withChecks [(1280 ≤ n, badParam 4 0)] s fun s =>
      let b := gangBase s n
      let x := portAt s n
      let wd := gangWidth s n
      let mg := (List.range 8).foldl (fun (a : Bytes × State) i =>
        let m := if i < wd then (portAt s b).eqMargin.getD i 0 else 0
        if m < 256 then (a.1 ++ beBytes 1 m, a.2) else
          let d := draw 256 a.2
          (a.1 ++ beBytes 1 d.1, d.2)) ([], s)
      let head (i : Nat) : Bytes :=
        let l := (fibreAt s (b / 8)).lambdas.getD (physOf s (b / 8) (b % 8 + i)) {}
        beBytes 1 (if i < wd then min l.txHead l.rxHead else 0)
      .ok (beBytes 2 n ++ beBytes 1 (portCode s n) ++ beBytes 1 wd ++ beBytes 2 b ++ beBytes 1 (usableLanes s b) ++
        beBytes 1 (activeMask s b) ++ beBytes 1 (spareFor s n) ++ beBytes 1 (b2n x.spareAuto + 2 * b2n x.eqFreeze) ++
        beBytes 1 x.txPreset ++ beBytes 1 x.degradeSer ++ mg.1 ++
        (List.range 8).flatMap head ++ beBytes 4 (min 0xFFFFFFFF ((s.ns - x.since) / 1000000))) mg.2) s

/-- Enables or disables one port number (Table 5.11). -/
def enablePort (on : Bool) (s : State) (p : Nat) : State :=
  let s := modPort p (fun x => { x with enabled := on }) s
  if !carriesFrames s p then s
  else if on then if (portAt s p).state = .disabled then settlePort p s else s
  else idlePort p (setPortState p .disabled (linkDown p s))

/-- PORT_ENABLE: what it admits. -/
def opPortEnable : OpSpec := { opcode := 0x0502, lengths := fun n => n = 8 }

/-- PORT_ENABLE (Table 5.11). -/
def execPortEnable (q : Request) (s : State) : Answer :=
  runCommand opPortEnable (.portEnable q) q anyBlock (fun _ s =>
    let p := q.params
    let ports := (List.range (u16 p 2)).map (u16 p 0 + ·)
    withChecks (portRange p ++ [chk (ports.any fun n => (windowAt s (windowOf n)).bringUp) { status := 1, reason := 4, info := 0xFFFF }]) s fun s =>
      .ok [] (ports.foldl (enablePort (bit (u8 p 4) 0)) s)) s

/-- Whether eight widths keep the alignment of R132. -/
def widthsOk (ws : List Nat) : Bool :=
  (List.range 8).all fun i =>
    let n := ws.getD i 0
    (n = 1 || n = 2 || n = 4 || n = 8) && (List.range 8).all fun j => i / n ≠ j / n || ws.getD j 0 = n

/-- GANG_SET: what it admits. -/
def opGangSet : OpSpec := { opcode := 0x0503, lengths := fun n => n = 12, staging := true }

/-- GANG_SET (Table 5.12). -/
def execGangSet (q : Request) (s : State) : Answer :=
  runCommand opGangSet (.gangSet q) q anyBlock (fun _ s =>
    let p := q.params
    withChecks [(7 < u8 p 0, badParam 4 0), (15 < u8 p 1, badParam 4 1),
        (!widthsOk ((List.range 8).map fun i => u8 p (4 + i)), badParam 6 4)] s fun s =>
      stageDone q 0 [{ key := .gang (16 * u8 p 0 + u8 p 1), value := p.drop 4 }] [] s) s

/-- WINDOW_RESET: what it admits. -/
def opWindowReset : OpSpec := { opcode := 0x0504, lengths := fun n => n = 4 }

/-- WINDOW_RESET (Table 5.13, R140). -/
def execWindowReset (q : Request) (s : State) : Answer :=
  runCommand opWindowReset (.windowReset q) q anyBlock (fun _ s =>
    let w := u8 q.params 0
    withChecks [(7 < w, badParam 4 0), ((windowAt s w).bringUp, { status := 1, reason := 4, info := 0xFFFF })] s fun s =>
      let s := raise 0x0502 (eicDie w) 5 w 5 0 (modWindow w (fun x => { x with cause := 5 }) s)
      .wait (.window w) (advertise (startBringUp w (bit (u8 q.params 1) 0) s))) s

/-- The record of one physical wavelength in LAMBDA_MAP_READ. -/
def lambdaRecord (s : State) (pair i : Nat) : Bytes :=
  let x := fibreAt s pair
  let l := x.lambdas.getD i {}
  let k :=
    if i = 8 then (match x.spare with | .carries k | .bridging k | .mirroring k => k | .failed => 0xF | _ => 8)
    else if x.spare = .carries i || bit x.dropped i then 0xF else i
  beBytes 1 k ++ beBytes 1 (b2n l.txOk + 2 * b2n l.rxOk + 4 * b2n l.txLock + 8 * b2n l.rxLock + 16 * b2n l.parked +
    32 * (l.lastFault % 8)) ++ beBytes 1 l.txHead ++ beBytes 1 l.rxHead

/-- LAMBDA_MAP_READ: what it admits. -/
def opLambdaMapRead : OpSpec := { opcode := 0x0505, observer := true, lengths := fun n => n = 4, reads := true }

/-- LAMBDA_MAP_READ (Table 5.14). -/
def execLambdaMapRead (q : Request) (s : State) : Answer :=
  runCommand opLambdaMapRead (.lambdaMapRead q) q anyBlock (fun _ s =>
    let p := q.params
    let pair := 16 * u8 p 0 + u8 p 1
    withChecks [(7 < u8 p 0, badParam 4 0), (15 < u8 p 1, badParam 4 1)] s fun s =>
      .ok (p.take 2 ++ zeros 2 ++ liveValue s (.gang pair) ++ (List.range 9).flatMap (lambdaRecord s pair)) s) s

/-- PORT_LOOPBACK: what it admits. -/
def opPortLoopback : OpSpec := { opcode := 0x1000, lengths := fun n => n = 4 }

/-- PORT_LOOPBACK (Table 5.15). -/
def execPortLoopback (q : Request) (s : State) : Answer :=
  runCommand opPortLoopback (.portLoopback q) q anyBlock (fun _ s =>
    let n := u16 q.params 0
    let mode := u8 q.params 2
    let st := portCode s n
    withChecks [(1280 ≤ n, badParam 4 0), (3 < mode, badParam 3 2),
        (!(st = 0 || st = 9), badParam 6 0),
        (!(windowAt s (windowOf n)).inService, { status := 0x0B, reason := 4 })] s fun s =>
      let s := modPort n (fun x => { x with loopback := mode }) (linkDown n s)
      if mode = 0 then .ok [] (idlePort n (setPortState n .disabled s))
      else
        let s := setPortState n .test s
        .ok [] (if mode < 3 && carriesFrames s n then startTraining n s else s)) s

/-- PRBS_RUN: what it admits. -/
def opPrbsRun : OpSpec := { opcode := 0x1001, lengths := fun n => n = 8 }

/-- PRBS_RUN (Table 5.16). -/
def execPrbsRun (q : Request) (s : State) : Answer :=
  runCommand opPrbsRun (.prbsRun q) q anyBlock (fun _ s =>
    let p := q.params
    let n := u16 p 0
    let st := (portAt s n).state
    let code := portCode s n
    withChecks [(1280 ≤ n, badParam 4 0), (1 < u8 p 2, badParam 3 2), (u32 p 4 = 0 || 60000 < u32 p 4, badParam 4 4),
        (!(code = 0 || code = 9), badParam 6 0),
        (!(windowAt s (windowOf n)).inService, { status := 0x0B, reason := 4 }),
        ((portAt s n).prbs.isSome, { status := 1, reason := 4, info := 0xFFFF })] s fun s =>
      .wait (.prbs n) (setPortState n .test (modPort n (fun x => { x with prbs := some st }) s))) s

/-- PRBS_RUN_END (R149): the run ends; `counts` gives bits checked and bit errors of each active lane. -/
def execPrbsRunEnd (port : Nat) (counts : List (Nat × Nat)) (s : State) : Answer :=
  match (portAt s port).prbs with
  | none => guard (isPort port) "port" s
  | some st =>
    let s := setPortState port st (modPort port (fun x => { x with prbs := none }) s)
    .next (complete (.prbs port) 0 0 0 (beBytes 1 counts.length ++ zeros 3 ++
      counts.flatMap fun c => beBytes 8 c.1 ++ beBytes 8 c.2) s)

end Sys2Proof.Machine
end

