-- ==== Sys2Proof/Machine/Light.lean ====
section
/-!
DEFINITION. Light supply (R150 to R175): laser modules, takeover, planned switches, monitors, the light loop.
Module 2w is module A of Window w (side 1), module 2w + 1 is module B (side 2).
-/
namespace Sys2Proof.Machine

/-- The side of a module in its Window. -/
def sideOf (m : Nat) : Nat := m % 2 + 1
/-- The module of a side of a Window. -/
def moduleOf (w side : Nat) : Nat := 2 * w + side - 1
/-- The wavelengths that a side supplies. -/
def activeOn (s : State) (w side : Nat) : List Nat := (List.range 9).filter fun l => (lightAt s w).sel.getD l 0 = side
/-- Changes a laser of a module. -/
def modLaser (m l : Nat) (g : Laser → Laser) (s : State) : State :=
  modModule m (fun x => { x with lasers := x.lasers.set l (g (x.lasers.getD l {})) }) s
/-- Whether a planned switch or a takeover runs in a Window (Table 6.1). -/
def lightBusy (s : State) (w : Nat) : Bool := (lightAt s w).switch.isSome || (lightAt s w).takeovers ≠ []

/-! ## Moving a selector -/

/-- The data pairs of a Window. -/
def dataPairs (w : Nat) : List Nat := (List.range 16).map (16 * w + ·)

/-- The terminated Transom ports of a Window that transmit on a wavelength. -/
def transomPorts (s : State) (w l : Nat) : List Nat :=
  if l = 8 then [] else ((List.range 4).map fun t => 1024 + 32 * w + 8 * t + l).filter (terminated s)

/-- A transmit ring whose light is missing loses its lock, and its transmitter is in fault (Table 5.5, R135). -/
def darkenRing (pair l : Nat) (s : State) : State :=
  let w := windowOf (8 * pair)
  let x := (fibreAt s pair).lambdas.getD l {}
  let s := if x.txLock then raise 0x0520 (eicDie w) 3 w (fibreNo pair * 256 + l * 16 + 1) 0 s else s
  modLambda pair l (fun x => { x with txOk := false, txLock := false, txFault := true, faultAt := s.ns, lastFault := 4 }) s

/-- Fibre pairs on which the part's own light of a wavelength goes out: those with data lanes, and terminated Transom ports. -/
def litPairs (s : State) (w l : Nat) : List Nat := dataPairs w ++ (transomPorts s w l).map (· / 8)

/-- Feed light of a wavelength is missing (R159): its transmit rings lose lock, and the lanes carried on it drop for a time. -/
def darken (w l : Nat) (s : State) : State :=
  let ps := litPairs s w l
  let s := ps.foldl (fun s n => darkenRing n l s) (noteRingLost w l s)
  if (windowAt s w).inService then ps.foldl (fun s n => faultLanes n l 4 true true s) s else s

/-- Whether every transmit ring of a wavelength that carries light of the selector is locked. -/
def allLocked (s : State) (w l : Nat) : Bool :=
  (dataPairs w).all (fun n =>
    let x := (fibreAt s n).lambdas.getD l {}
    x.txLock || x.parked) &&
  (transomPorts s w l).all fun p => ((fibreAt s (p / 8)).lambdas.getD l {}).txLock

/-- Light of the active module on a wavelength is gone (R157, R160): a takeover, or LIGHT_LOST. -/
def lightGone (m l : Nat) (s : State) : State :=
  let w := m / 2
  let side := sideOf m
  if (lightAt s w).sel.getD l 0 ≠ side || bit (lightAt s w).lost l then s
  else
    let s := darken w l s
    let partner := 3 - side
    if sideLit s w partner l then
      let s := recordFault 3 1 (eicDie w) (16 * m + l) (modLaser m l (fun x => { x with failed := true }) (takeLight w l partner s))
      modLight w (fun x => { x with
        takeovers := x.takeovers ++ [(m, l, s.ns)]
        switch := x.switch.map fun y => { y with odd := y.odd.filter (· ≠ l) } }) s
    else
      recordFault 3 0 (eicDie w) (16 * m + l)
        (raise 0x0612 (eicDie w) 4 w (2 ^ l) 0 (modLight w (fun x => { x with lost := x.lost ||| 2 ^ l }) s))

/-- FEED_LOS (R157, R167): the comparator of a data feed finds no light for 2 µs. -/
def execFeedLos (m lambda : Nat) (s : State) : Answer :=
  guard (m < 16 && lambda < 9) "feed" (lightGone m lambda (setLos (m / 2) (sideOf m + 1, 0, lambda) true s))

/-- LASER_INTERRUPT (R154, R157): a module reports faults of lasers; a fault of an active one is a loss of its light. -/
def execLaserInterrupt (m : Nat) (faulty : List Nat) (s : State) : Answer :=
  guard (m < 16) "laser module" (faulty.foldl (fun s l => if l < 9 then lightGone m l s else s) s)

/-- LIGHT_RESTORED (R160): an accepted module gives light above LOW_ALARM on a wavelength that has none, and is selected. A laser marked
FAILED that gives light again is selected like any other: Table 6.1 has either module (DESIGN CHOICE, log 65). -/
def execLightRestored (m lambda : Nat) (s : State) : Answer :=
  let w := m / 2
  guard (m < 16 && lambda < 9) "feed"
    (if (bit (lightAt s w).lost lambda || (lightAt s w).sel.getD lambda 0 = 0) && (moduleAt s m).state = 2 then
      takeLight w lambda (sideOf m) (setLos w (sideOf m + 1, 0, lambda) false s)
     else s)

/-! ## Modules (R153 to R156) -/

/-- Selects light for the wavelengths of a Window that have none, as a module becomes ready (R156, R160). -/
def selectMissing (w : Nat) (s : State) : State :=
  (List.range 9).foldl (fun s l =>
    if (lightAt s w).sel.getD l 0 = 0 then
      match selectFor s w l with
      | 0 => s
      | side => takeLight w l side s
    else s) s

/-- Why R153 rejects a module (Table 6.10), 0 when it is accepted: in the order ELSFP, management and bias reports, grid, power. -/
def rejectCode (o : ModuleObs) : Nat :=
  let near (v : Int) : Bool := -200 ≤ v && v ≤ 200
  if !o.elsfp then 1
  else if !o.cmis || !o.bias then 4
  else if o.offsets.length ≠ 9 || !o.offsets.all near then 2
  else if o.dataPower.length ≠ 9 || o.transomPower.length ≠ 8 || (o.dataPower ++ o.transomPower).any (· < 1900) ||
      1600 < o.setLow || o.setHigh < 2000 || 50 < o.setStep then 3
  else 0

/-- LASER_MODULE_READY (R153, R155, R156): a module that fails a requirement is rejected; another reaches ready with its lasers on, fine-tunable
from ±5 GHz. The setpoint that meets FEED_TARGET depends on the fibre and is open, within the range R153 requires. (DEDUCED, log 44.) -/
def execLaserModuleReady (m : Nat) (obs : ModuleObs) (s : State) : Answer :=
  let w := m / 2
  let why := rejectCode obs
  let tune := decide (50 ≤ obs.tuning)
  if 16 ≤ m then .refused (.noSuchObject "laser module")
  else if (moduleAt s m).state = 2 || s.boot.phase < 3 then .next s
  else if why ≠ 0 then
    .next (raise 0x0603 (eicDie w) 4 m why 0
      (modModule m (fun x => { x with state := 3, serial := obs.serial, cmisOk := obs.cmis }) s))
  else
    let d := draw 81 s
    let on (x : Laser) : Laser := { x with on := true, setpoint := 1600 + 5 * (d.1 : Int) }
    let s := modModule m (fun x => { x with
      state := 2, fineTune := tune, serial := obs.serial, cmisOk := true, lasers := x.lasers.map on }) d.2
    let s := raise 0x0601 (eicDie w) 1 m (sideOf m) (b2n tune) s
    .next (if (moduleAt s (moduleOf w (3 - sideOf m))).state = 0 then selectLight w s
           else if s.boot.phase < 4 then s else selectMissing w s)

/-- LASER_MODULE_INSERTED (R160): the module is brought up, and no laser of the position is marked FAILED (R157). -/
def execLaserModuleInserted (m : Nat) (s : State) : Answer :=
  guard (m < 16) "laser module" (modModule m (fun x => { x with
    state := 1, fineTune := false, cmisOk := false, serial := [], temp := 0, power := 0, lasers := List.replicate 9 {} }) s)

/-- LASER_MODULE_REMOVED (R160): an active module takes the light of its wavelengths with it. -/
def execLaserModuleRemoved (m : Nat) (s : State) : Answer :=
  let w := m / 2
  if 16 ≤ m then .refused (.noSuchObject "laser module")
  else if (moduleAt s m).state = 0 then .next s
  else
    let act := activeOn s w (sideOf m)
    let s := raise 0x0602 (eicDie w) 3 m (maskOf act) 0 (modModule m (fun x => { x with
      state := 0, fineTune := false, cmisOk := false, serial := [], temp := 0, power := 0, lasers := List.replicate 9 {} }) s)
    .next (act.foldl (fun s l => lightGone m l s) s)

/-! ## Planned switches (R161) -/

/-- Whether the target of a switch can take a wavelength (R161). -/
def switchable (s : State) (w side l : Nat) : Bool :=
  sideReady s w side l && (feedClass s w side l).lowAlarm ≤ (feedPoint s w side l).last

/-- Moves a group of wavelengths of a planned switch; those the target cannot take stay. -/
def moveGroup (w side : Nat) (ls : List Nat) (s : State) : State :=
  ls.foldl (fun s l =>
    if (lightAt s w).sel.getD l 0 = side then s
    else if switchable s w side l then
      modLight w (fun x => { x with switch := x.switch.map fun y => { y with moved := y.moved ++ [l] } })
        (takeLight w l side (darken w l s))
    else modLight w (fun x => { x with switch := x.switch.map fun y => { y with stayed := true } }) s) s

/-- The selection word of LASER_SWITCH: bit λ set for module B. -/
def selWord (s : State) (w : Nat) : Nat := maskOf (activeOn s w 2)

/-- A wavelength whose light has returned and locked on every ring carries idle codewords again (R146, R158). -/
def settleRelight (w : Nat) (s : State) : State :=
  (lightAt s w).relight.foldl (fun s l =>
    if (litPairs s w l).all (fun n => let x := (fibreAt s n).lambdas.getD l {}; x.txLock || x.parked) then
      (litPairs s w l).foldl (fun s n => if ((fibreAt s n).lambdas.getD l {}).parked then s else sendIdle n l s)
        (modLight w (fun x => { x with relight := x.relight.erase l }) s)
    else s) s

/-- Ends a planned switch whose last wavelength is locked (Table 6.13). -/
def settleSwitch (w : Nat) (s : State) : State :=
  match (lightAt s w).switch with
  | none => s
  | some y =>
    if y.odd = [] && y.moved.all (allLocked s w) then
      let s := modLight w (fun x => { x with switch := none }) s
      let s := raise 0x0611 (eicDie w) 2 w (selWord s w) y.cause s
      complete (.laser w) (if y.stayed then 0x0E else 0) (if y.stayed then 0x80 else 0) 0 (beBytes 2 (selWord s w) ++ zeros 2) s
    else s

/-- Starts a planned switch of wavelengths `ls` to a side; none when no wavelength can move. -/
def startSwitch (w side cause : Nat) (stagger : Bool) (ls : List Nat) (s : State) : Option State :=
  let go := ls.filter fun l => (lightAt s w).sel.getD l 0 ≠ side
  if !go.any (switchable s w side) then none
  else
    let even := go.filter (· % 2 = 0)
    let first := if stagger && even.any (switchable s w side) then even else go
    let y : LaserSwitch := { target := side, odd := go.filter fun l => !first.contains l, cause }
    some (moveGroup w side first (modLight w (fun x => { x with switch := some y }) s))

/-- A planned switch is given up: what has moved moves back (R81). -/
def undoSwitch (w : Nat) (s : State) : State :=
  match (lightAt s w).switch with
  | none => s
  | some y => y.moved.foldl (fun s l => takeLight w l (3 - y.target) (darken w l s)) (modLight w (fun x => { x with switch := none }) s)

/-- Ends the takeovers of a Window whose light is locked again (R158). -/
def settleTakeovers (w : Nat) (s : State) : State :=
  (lightAt s w).takeovers.foldl (fun s t =>
    if allLocked s w t.2.1 then
      raise 0x0610 (eicDie w) 3 t.1 (2 ^ t.2.1) ((s.ns - t.2.2) / 1000)
        (modLight w (fun x => { x with takeovers := x.takeovers.erase t }) s)
    else s) s

/-- Whether the partner of a laser may take its wavelength on a bias alarm (R170): no bias warning, and no LOW condition on either feed. -/
def biasPartnerGood (s : State) (w partner l : Nat) : Bool :=
  let low (k : Nat × Nat × Nat) : Bool := (pointAt s w k).lowWarn || (pointAt s w k).lowAlarm
  !((moduleAt s (moduleOf w partner)).lasers.getD l {}).biasWarn && !low (partner + 1, 0, l) && !(l < 8 && low (partner + 3, 0, l))

/-- Starts the next switch of one wavelength that a bias alarm has queued, once nothing else runs in the Window (R170; DEDUCED, log 44). -/
def settleQueued (w : Nat) (s : State) : State :=
  (lightAt s w).queued.foldl (fun s q =>
    if lightBusy s w then s
    else
      let s := modLight w (fun x => { x with queued := x.queued.erase q }) s
      if (lightAt s w).sel.getD q.2 0 = 3 - q.1 && biasPartnerGood s w q.1 q.2 then (startSwitch w q.1 2 false [q.2] s).getD s else s) s

/-- What follows when rings of a Window have locked or a group of wavelengths has moved. -/
def settleLight (w : Nat) (s : State) : State := settleQueued w (settleRelight w (settleSwitch w (settleTakeovers w s)))

/-- STAGGER_ODD_GROUP (R161). -/
def execStaggerOddGroup (window : Nat) (s : State) : Answer :=
  guard (window < 8) "Window"
    (match (lightAt s window).switch with
     | none => s
     | some y =>
       settleLight window (moveGroup window y.target y.odd
         (modLight window (fun x => { x with switch := some { y with odd := [] } }) s)))

/-- Mode of a Transom entry (Table 7.1). -/
def transomMode (s : State) (i : Nat) : Nat := entryWord s 6 i / 2 ^ 30

/-- PATH_ID of a Transom entry. -/
def pathId (s : State) (i : Nat) : Nat := entryWord s 6 i % 65536

/-- Changes the rings of a routed wavelength. -/
def modRoute (i : Nat) (g : Route → Route) (s : State) : State :=
  match tfind s.transom.routes i with
  | none => s
  | some r => { s with transom := { s.transom with routes := tset s.transom.routes i (g r) } }

/-- Sets the rings of a routed wavelength. -/
def setRoute (i : Nat) (r : Route) (s : State) : State := { s with transom := { s.transom with routes := tset s.transom.routes i r } }

/-- The heater setting of a calibrated ring at the present die temperature (R188). -/
def ringSetting (s : State) (w ring : Nat) : Int :=
  match tfind s.transom.calib (w, ring) with
  | none => 0
  | some c => c.setting + c.slope * ((picTemp s w).getD c.temp - c.temp)

/-- The rings of a route at their calibrated settings (R188, R191). -/
def Route.heated (s : State) (i : Nat) (r : Route) : Route :=
  let w := i / 32
  let l := i % 8
  { r with matrixHeat := ringSetting s w (8 * (4 * (i / 8 % 4) + r.out) + l), addHeat := ringSetting s w (128 + 8 * r.out + l) }

/-- Output of a PASS entry (Table 7.1). -/
def entryOut (s : State) (i : Nat) : Nat := entryWord s 6 i / 2 ^ 28 % 4

/-- The rings of a route lock (R188, R191). -/
def lockRoute (i : Nat) (s : State) : State :=
  modRoute i (fun r => { r with switch := true, matrix := true, add := true, holding := false }) s

/-- RING_LOCK_ACQUIRED (R135, R549): a loop acquires lock; takeovers and switches end when all rings of a wavelength lock. What a receive
ring of a dropped wavelength locks to is light that has returned, so this end resumes idle codewords on it (R146). -/
def execRingLockAcquired (pair lambda : Nat) (tx : Bool) (s : State) : Answer :=
  let w := windowOf (8 * pair)
  let g (l : Lambda) : Lambda :=
    if tx then { l with txLock := true, txOk := true, txFault := false } else { l with rxLock := true, rxOk := true, rxFault := false }
  let s1 := if 128 ≤ pair && lambda < 8 && !tx then lockRoute (8 * (pair - 128) + lambda) s else s
  let s2 := modLambda pair lambda g s1
  let s3 := if !tx && bit (fibreAt s pair).lightDrop lambda && ((fibreAt s pair).lambdas.getD lambda {}).parked then
      resumeIdle pair lambda s2 else s2
  guard (pair < 160 && lambda < 9) "ring" (if picCold s w then s else settleLight w s3)

/-- LASER_SWITCH: what it admits. -/
def opLaserSwitch : OpSpec := { opcode := 0x0602, lengths := fun n => n = 4 }

/-- LASER_SWITCH (Table 6.13). -/
def execLaserSwitch (q : Request) (s : State) : Answer :=
  runCommand opLaserSwitch (.laserSwitch q) q anyBlock (fun _ s =>
    let p := q.params
    let w := u8 p 0
    let side := u8 p 1 + 1
    let m := moduleOf w side
    withChecks [chk (7 < w) (badParam 4 0), (1 < u8 p 1, badParam 3 1), (lightBusy s w, { status := 1, reason := 4, info := 0xFFFF }),
        ((moduleAt s m).state ≠ 2, { status := 9, reason := 0x80 })] s fun s =>
      let s := if bit (u8 p 2) 1 then
          modModule m (fun x => { x with lasers := x.lasers.map fun y => { y with failed := false } }) s else s
      match startSwitch w side 1 (bit (u8 p 2) 0) (List.range 9) s with
      | none => .refuse { status := 9, reason := 0x80 } s
      | some s => .wait (.laser w) s) s

/-! ## Module monitors and bias (R154, R170) -/

/-- The bias conditions of a laser after a reading (R170), with their events and the switch that BIAS_ALARM asks for. -/
def judgeBias (m l : Nat) (s : State) : State :=
  let w := m / 2
  let x := (moduleAt s m).lasers.getD l {}
  let warn := if x.biasWarn then 780 ≤ x.bias else 800 ≤ x.bias
  let alarm := if x.biasAlarm then 930 ≤ x.bias else 950 ≤ x.bias
  let s := modLaser m l (fun y => { y with biasWarn := warn, biasAlarm := alarm }) s
  let s := if warn && !x.biasWarn then
      raiseLimited 0x0620 (16 * m + l) (60 * second) (fun _ s => raise 0x0620 (eicDie w) 3 m l x.bias s) s else s
  if alarm && !x.biasAlarm then
    let s := raise 0x0621 (eicDie w) 4 m l x.bias s
    let partner := 3 - sideOf m
    if (moduleAt s m).autoSwitch && (lightAt s w).sel.getD l 0 = sideOf m && biasPartnerGood s w partner l then
      modLight w (fun x => { x with queued := x.queued ++ [(partner, l)] }) s
    else s
  else s

/-- MODULE_MONITOR_READ (R154): temperature, power, and each laser's bias (0.1 % of end of life) and offset (0.1 GHz). -/
def execModuleMonitorRead (m : Nat) (temp : Int) (power : Nat) (lasers : List (Nat × Int)) (s : State) : Answer :=
  if 16 ≤ m || 9 < lasers.length then .refused (.noSuchObject "laser module")
  else if (moduleAt s m).state = 0 then .next s
  else
    let s := modModule m (fun x => { x with temp, power, cmisOk := true }) s
    let read (s : State) (l : Nat) : State :=
      let r := lasers.getD l (0, 0)
      modLaser m l (fun x => { x with bias := r.1, offset := r.2 }) s
    let ls := List.range lasers.length
    .next (settleQueued (m / 2) (ls.foldl (fun s l => judgeBias m l s) (ls.foldl read s)))

/-- FREQUENCY_MATCH (R158): each fine-tunable standby laser lies within ±2 GHz of its active laser; where within is open. -/
def execFrequencyMatch (m : Nat) (s : State) : Answer :=
  let w := m / 2
  let partner := 3 - sideOf m
  let far (s : State) (l : Nat) : Bool :=
    let a := ((moduleAt s (moduleOf w partner)).lasers.getD l {}).offset
    let b := ((moduleAt s m).lasers.getD l {}).offset
    a + 20 < b || b + 20 < a
  guard (m < 16) "laser module"
    (if (moduleAt s m).state = 2 && (moduleAt s m).fineTune then
      (activeOn s w partner).foldl (fun s l =>
        if far s l then
          let d := draw 41 s
          modLaser m l (fun x => { x with
            offset := ((moduleAt s (moduleOf w partner)).lasers.getD l {}).offset + (d.1 : Int) - 20 }) d.2
        else s) s
     else s)

/-! ## Monitors (R162 to R167) -/

/-- Linear power of a value in 0.01 dBm, in units of 2^-64 of that at −30.00 dBm: a power of 10^(1/1000). -/
def linear (v : Int) : Nat :=
  (List.range (v + 3000).toNat).foldl (fun a _ => a * 18489268210561536987 / 2 ^ 64) (2 ^ 64)

/-- The greatest value from `lo` up whose linear power, `n` times, is at most `sum`, with fuel. -/
def dbmOf : Nat → Int → Nat → Nat → Int
  | 0, lo, _, _ => lo
  | k + 1, lo, n, sum => if linear (lo + 1) * n ≤ sum then dbmOf k (lo + 1) n sum else lo

/-- The windows that the average of a point takes: its last AVG unflagged ones, and how many flagged ones lie between. -/
def avgWindows : Nat → List (Nat × Option Int × Bool) → List (Option Int) × Nat
  | 0, _ => ([], 0)
  | _, [] => ([], 0)
  | n + 1, (_, v, flag) :: l =>
    if flag then
      let r := avgWindows (n + 1) l
      (r.1, r.2 + 1)
    else
      let r := avgWindows n l
      (v :: r.1, r.2)

/-- The mean in linear power of window values (R166); a value too low to read counts as no power. Its rounding to
0.01 dBm is open. -/
def averageOf (vs : List (Option Int)) (s : State) : Option Int × State :=
  match vs.filterMap id with
  | [] => (none, s)
  | x :: xs =>
    let lo := xs.foldl min x
    let hi := xs.foldl max x
    let sum := ((x :: xs).map linear).sum
    let start := if (x :: xs).length = vs.length then lo else -3001
    let a := dbmOf (hi - start).toNat start vs.length sum
    if a < -3000 then (none, s)
    else if linear a * vs.length = sum then (some a, s)
    else
      let d := draw 2 s
      (some (a + (d.1 : Int)), d.2)

/-- A power field: signed, 0.01 dBm, 0x8000 for no value (R175). -/
def powerField (v : Option Int) : Bytes := beBytes 2 (match v with | none => 0x8000 | some v => natOfInt 16 v)

/-- Windows worth keeping: those of the last 1 ms and those up to the 64th unflagged one. -/
def keepWindows (now : Nat) : Nat → List (Nat × Option Int × Bool) → List (Nat × Option Int × Bool)
  | _, [] => []
  | n, x :: l => if n = 0 && x.1 + 1000000 < now then [] else x :: keepWindows now (if x.2.2 then n else n - 1) l

/-- A condition decided on the windows of the last 1 ms (R166): set when all are beyond, cleared when all are within. -/
def decide1ms (old : Bool) (vs : List Int) (beyond : Int → Bool) : Bool :=
  if vs = [] then old else if vs.all beyond then true else if vs.all (fun v => !beyond v) then false else old

/-- By how much the power at a point as reported exceeds that at its photodiode, in 0.01 dB: the 1 % tap of a feed (R162, R164). -/
def tapLoss (source : Nat) : Int := if source < 2 then 0 else 2000

/-- Whether power `v` at the photodiode, in 0.01 dBm, lies below the switch point from range `r` to `r + 1` (Table 6.4: 0.8 mW, 100 µW,
12.5 µW). -/
def belowRange (r : Nat) (v : Int) : Bool := match r with | 0 => v ≤ -97 | 1 => v < -1000 | 2 => v ≤ -1904 | _ => false

/-- Whether power `v` at the photodiode lies above the switch point from range `r` to `r − 1` (Table 6.4: 0.9 mW, 112.5 µW, 14.06 µW). -/
def aboveRange (r : Nat) (v : Int) : Bool := match r with | 1 => -45 ≤ v | 2 => -948 ≤ v | 3 => -1851 ≤ v | _ => false

/-- Full scale of range 0 at a point, as reported (Table 6.4). -/
def fullScale (source : Nat) : Int := 900 + tapLoss source

/-- A monitor point after a window (R164 to R167, Table 6.15): its flag, its range, its LOS comparator and its conditions. A window flagged
RANGE_STEP decides nothing. New settings of the class apply from here on, and conditions are then decided afresh. -/
def MonitorPoint.windowEnd (p : MonitorPoint) (source ns : Nat) (conf : MonitorClass) (o : MonitorObs) : MonitorPoint :=
  let c := p.cls.getD (classAtReset source)
  let full := fullScale source
  let value := o.value.bind fun v => if v < -3000 then none else some (min v full)
  let t := tapLoss source
  let flag := belowRange p.range (o.lowest - t) || aboveRange p.range (o.highest - t)
  let range := if belowRange p.range (o.last - t) then p.range + 1 else if aboveRange p.range (o.last - t) then p.range - 1 else p.range
  let los := if c.los + 100 ≤ o.last then false else if (if source < 2 then 1000 else 2000) ≤ o.below then true else p.los
  let ws := keepWindows ns 64 ((ns, value, flag) :: p.windows)
  let vs := (ws.filter fun x => ns < x.1 + 1000000 && !x.2.2).map fun x => x.2.1.getD (-3001)
  let dec (old : Bool) (beyond : Int → Bool) : Bool := if flag then old else decide1ms old vs beyond
  { range, los
    windows := if conf = c then ws else ws.map fun y => (y.1 - min y.1 1000001, y.2)
    lowWarn := dec p.lowWarn (· < c.lowWarn), lowAlarm := dec p.lowAlarm (· < c.lowAlarm)
    highWarn := dec p.highWarn (c.highWarn < ·)
    highAlarm := (!flag && o.value.any fun v => full < v) || dec p.highAlarm (c.highAlarm < ·)
    cls := some conf }

/-- Whether a monitor point exists (R162, Table 6.14). -/
def isPoint (w source index lambda : Nat) : Bool :=
  w < 8 && (match source with
    | 0 => index < 16 && lambda < 9 | 1 => index < 4 && lambda < 8
    | 2 | 3 => index = 0 && lambda < 9 | 4 | 5 => index = 0 && lambda < 8 | _ => false)

/-- A power as an event gives it, signed: that of the last window; 0x8000, sign-extended, where it reads no value (DESIGN CHOICE, log 65). -/
def powerWord (p : MonitorPoint) : Nat := natOfInt 32 ((p.windows.head?.bind fun x => x.2.1).getD (-32768))

/-- The events of a point whose LOW conditions have newly set (R174, R190, R194). -/
def reportLow (w source index lambda : Nat) (old new : MonitorPoint) (s : State) : State :=
  let key := ((w * 6 + source) * 16 + index) * 16 + lambda
  let power := powerWord new
  if !((new.lowWarn && !old.lowWarn) || (new.lowAlarm && !old.lowAlarm)) then s
  else if source < 2 then
    let e := 8 * index + lambda
    let s := if source = 1 && transomMode s (32 * w + e) = 2 && new.lowAlarm && !old.lowAlarm then
        raiseLimited 0x0704 (32 * w + e) (60 * second)
          (fun _ s => raise 0x0704 (eicDie w) 3 w (power % 65536 * 65536 + e) (pathId s (32 * w + e)) s) s
      else s
    raiseLimited 0x0631 key (60 * second) (fun _ s => raise 0x0631 (eicDie w) 2 w (source * 256 + index * 16 + lambda) power s) s
  else
    raiseLimited 0x0630 key (60 * second) (fun _ s => raise 0x0630 (eicDie w) 3 (2 * w + source % 2)
      (lambda + (if 4 ≤ source then 16 else 0) + (if new.lowAlarm then 32 else 0)) power s) s

/-- MONITOR_WINDOW_END (R164 to R167): a window ends. (DEDUCED, log 44.) -/
def execMonitorWindowEnd (window source index lambda : Nat) (obs : MonitorObs) (s : State) : Answer :=
  let k := (source, index, lambda)
  let old := pointAt s window k
  let new := old.windowEnd source s.ns (classOf s window source) obs
  guard (isPoint window source index lambda) "monitor point"
    (reportLow window source index lambda old new (modPoint window k (fun _ => new) s))

/-! ## The light loop (R169) -/

/-- One lit laser in a pass of the light loop (R169): one that is on and whose feed shows light. -/
def loopLaser (w side l : Nat) (s : State) : State :=
  let m := moduleOf w side
  let x := moduleAt s m
  let y := x.lasers.getD l {}
  let p := feedPoint s w side l
  let c := feedClass s w side l
  let lost := (tfind (lightAt s w).ringLost l).any fun t => s.ns < t + 10 * second
  if x.state ≠ 2 || !y.on || p.los || x.loopHold || lost || p.windows.head?.any (fun v => v.2.2) then s
  else
    let a := averageOf (avgWindows c.avg p.windows).1 s
    match a.1 with
    | none => a.2
    | some v =>
      if v + 10 < c.target then
        if x.ceiling * 10 ≤ y.bias then a.2 else modLaser m l (fun y => { y with setpoint := y.setpoint + 5 }) a.2
      else if c.target + 10 < v then modLaser m l (fun y => { y with setpoint := y.setpoint - 5 }) a.2
      else a.2

/-- The settings of BIAS_LIMITS_SET that wait apply (Table 6.16). -/
def takeLimits (m : Nat) (s : State) : State :=
  modModule m (fun x => match x.limits with
    | none => x
    | some (c, a, h) => { x with ceiling := c, autoSwitch := a, loopHold := h, limits := none }) s

/-- Whether R467 holds the light loop of a Window: a takeover or planned switch runs there, or ended within 1 s. -/
def lightHeld (s : State) (w : Nat) : Bool := lightBusy s w || (lightAt s w).busyEnd.any fun t => s.ns < t + second

/-- LIGHT_LOOP_PASS (R169, R467): every 10 s, each lit laser of the modules of a Window. -/
def execLightLoopPass (window : Nat) (s : State) : Answer :=
  guard (window < 8) "Window"
    (let s := takeLimits (2 * window + 1) (takeLimits (2 * window) s)
     if lightHeld s window then s else [1, 2].foldl (fun s side => (List.range 9).foldl (fun s l => loopLaser window side l s) s) s)

/-! ## Commands (Tables 6.11 to 6.16) -/

/-- STATE of a module position (Table 6.11). -/
def moduleCode (s : State) (m : Nat) : Nat :=
  let x := moduleAt s m
  if x.state ≠ 2 then (if x.state = 3 then 5 else x.state)
  else if x.lasers.all (·.failed) then 4
  else if activeOn s (m / 2) (sideOf m) = [] then 3 else 2

/-- The record of one laser in LASER_STATE_READ; its feed powers are those of the last window (DESIGN CHOICE, log 65). -/
def laserRecord (s : State) (m l : Nat) : Bytes :=
  let w := m / 2
  let y := (moduleAt s m).lasers.getD l {}
  let p := feedPoint s w (sideOf m) l
  let lastOfPoint (p : MonitorPoint) : Option Int := p.windows.head?.bind fun x => x.2.1
  beBytes 1 l ++ beBytes 1 (b2n (decide ((lightAt s w).sel.getD l 0 = sideOf m)) + 2 * b2n y.failed + 4 * b2n p.los +
    8 * b2n p.lowWarn + 16 * b2n p.lowAlarm + 32 * b2n y.biasWarn + 64 * b2n y.biasAlarm) ++ powerField (lastOfPoint p) ++
    powerField (if l = 8 then none else lastOfPoint (pointAt s w (sideOf m + 3, 0, l))) ++ beBytes 2 y.bias ++
    beBytes 2 (natOfInt 16 y.offset) ++ zeros 2

/-- LASER_STATE_READ: what it admits. -/
def opLaserStateRead : OpSpec := { opcode := 0x0600, observer := true, lengths := fun n => n = 4, reads := true }

/-- The bias settings of a module position as last written (Table 6.16). -/
def limitsOf (x : LaserModule) : Nat × Bool × Bool := x.limits.getD (x.ceiling, x.autoSwitch, x.loopHold)

/-- LASER_STATE_READ (Table 6.11). -/
def execLaserStateRead (q : Request) (s : State) : Answer :=
  runCommand opLaserStateRead (.laserStateRead q) q anyBlock (fun _ s =>
    let m := u8 q.params 0
    let x := moduleAt s m
    withChecks [(15 < m, badParam 4 0)] s fun s =>
      .ok (beBytes 1 m ++ beBytes 1 (moduleCode s m) ++
        beBytes 1 (b2n x.cmisOk + 2 * b2n x.fineTune + 4 * b2n (limitsOf x).2.1 + 8 * b2n (limitsOf x).2.2) ++ beBytes 1 (limitsOf x).1 ++
        padTo 16 x.serial ++ beBytes 2 (natOfInt 16 x.temp) ++ beBytes 2 x.power ++ zeros 4 ++
        (List.range 9).flatMap (laserRecord s m)) s) s

/-- LASER_CMIS_ACCESS: what it admits. -/
def opLaserCmisAccess : OpSpec := { opcode := 0x0601, lengths := fun n => 8 ≤ n }

/-- LASER_CMIS_ACCESS (Table 6.12): `ack` and `data` are what the module answers. -/
def execLaserCmisAccess (q : Request) (ack : Bool) (data : Bytes) (s : State) : Answer :=
  runCommand opLaserCmisAccess (.laserCmisAccess q ack data) q anyBlock (fun _ s =>
    let p := q.params
    let m := u8 p 0
    let n := u8 p 5
    let wr := u8 p 1 = 1
    let up (k : Nat) : Nat := ceilDiv k 4 * 4
    let address := ((u8 p 2 * 256 + u8 p 3) * 256 + u8 p 4) * 256 + n
    withChecks [chk (15 < m) (badParam 4 0), (1 < u8 p 1, badParam 3 1), (n = 0 || 128 < n || 256 < u8 p 4 + n, badParam 4 5),
        (p.length ≠ 8 + (if wr then up n else 0), badParam 1 0xFFFF),
        (wr && (u8 p 4 < 128 || 16 ≤ u8 p 3) && activeOn s (m / 2) (sideOf m) ≠ [], badParam 0x80 0),
        ((moduleAt s m).state < 2, { status := 0x0B, reason := 4 })] s fun s =>
      let s := emit (.laser m address (if wr then beNat ((p.drop 8).take n) else 0)) s
      let s := modModule m (fun x => { x with cmisOk := ack }) s
      if !ack then .refuse { status := 9, reason := 0x80 } s
      else .ok (beBytes 1 n ++ zeros 3 ++ (if wr then [] else padTo (up n) (data.take n))) s) s

/-- RX_POWER_READ: what it admits. -/
def opRxPowerRead : OpSpec :=
  { opcode := 0x0603, observer := true, tenant := true, lengths := fun n => n = 4, reads := true }

/-- Whether every port on the fibre or Transom input of a request lies in a block. -/
def rxInBlock (q : Request) (s : State) (key : Nat) : Bool :=
  let p := q.params
  let base := if u8 p 1 = 0 then 128 * u8 p 0 + 8 * u8 p 2 else 1024 + 32 * u8 p 0 + 8 * u8 p 2
  u8 p 1 < 2 && (blockAt s key).any fun b => (List.range 8).all fun l => b.hasPort (base + l)

/-- The record of one wavelength in RX_POWER_READ, and the state whose draws its average used. -/
def powerRecord (w source index l : Nat) (s : State) : Bytes × State :=
  let p := pointAt s w (source, index, l)
  let x := avgWindows (pointClass s w (source, index, l)).avg p.windows
  let a := averageOf x.1 s
  (powerField (p.windows.head?.bind fun y => y.2.1) ++ powerField a.1 ++
    beBytes 1 (p.range + 4 * b2n (p.windows.head?.any fun y => y.2.2) + 8 * b2n p.los + 16 * b2n p.lowWarn +
      32 * b2n p.lowAlarm + 64 * b2n p.highWarn + 128 * b2n p.highAlarm) ++ beBytes 1 x.2 ++ zeros 2, a.2)

/-- RX_POWER_READ (Table 6.14). -/
def execRxPowerRead (q : Request) (s : State) : Answer :=
  runCommand opRxPowerRead (.rxPowerRead q) q (rxInBlock q) (fun _ s =>
    let p := q.params
    let src := u8 p 1
    withChecks [(7 < u8 p 0, badParam 4 0), (5 < src, badParam 4 1),
        ((if src = 0 then 15 else if src = 1 then 3 else 0) < u8 p 2, badParam 4 2)] s fun s =>
      let r := (List.range 9).foldl (fun (a : Bytes × State) l =>
        let b := powerRecord (u8 p 0) src (u8 p 2) l a.2
        (a.1 ++ b.1, b.2)) ([], s)
      .ok (p.take 3 ++ zeros 1 ++ r.1) r.2) s

/-- MONITOR_CONFIG: what it admits. -/
def opMonitorConfig : OpSpec := { opcode := 0x0604, lengths := fun n => n = 16 }

/-- MONITOR_CONFIG (Table 6.15). -/
def execMonitorConfig (q : Request) (s : State) : Answer :=
  runCommand opMonitorConfig (.monitorConfig q) q anyBlock (fun _ s =>
    let p := q.params
    let v (i : Nat) : Int := signedOf 16 (u16 p i)
    let cls := u8 p 1
    let rising := v 4 < v 6 && v 6 < v 8 && v 8 < v 10 && v 10 < v 12
    withChecks [chk (7 < u8 p 0 && u8 p 0 ≠ 255) (badParam 4 0), (2 < cls, badParam 4 1), (3 < u8 p 2, badParam 4 2),
        (u8 p 3 = 0 || 64 < u8 p 3, badParam 4 3), (cls = 2 && (v 14 < 1400 || 1800 < v 14), badParam 4 14),
        (!rising || (cls = 2 && !(v 8 < v 14 && v 14 < v 10)), badParam 6 4)] s fun s =>
      let c : MonitorClass := { integ := u8 p 2, avg := u8 p 3, los := v 4, lowAlarm := v 6, lowWarn := v 8,
                                highWarn := v 10, highAlarm := v 12, target := if cls = 2 then v 14 else 0 }
      let set (s : State) (w : Nat) : State :=
        modLight w (fun x => { x with classes := x.classes.set cls c }) s
      .ok [] ((if u8 p 0 = 255 then List.range 8 else [u8 p 0]).foldl set s)) s

/-- BIAS_LIMITS_SET: what it admits. -/
def opBiasLimitsSet : OpSpec := { opcode := 0x0605, lengths := fun n => n = 4 }

/-- BIAS_LIMITS_SET (Table 6.16). -/
def execBiasLimitsSet (q : Request) (s : State) : Answer :=
  runCommand opBiasLimitsSet (.biasLimitsSet q) q anyBlock (fun _ s =>
    let p := q.params
    withChecks [(15 < u8 p 0 && u8 p 0 ≠ 255, badParam 4 0), (u8 p 1 < 95 || 100 < u8 p 1, badParam 4 1)] s fun s =>
      let set (s : State) (m : Nat) : State := modModule m (fun x => { x with
        limits := some (u8 p 1, bit (u8 p 2) 0, bit (u8 p 2) 1) }) s
      .ok [] ((if u8 p 0 = 255 then List.range 16 else [u8 p 0]).foldl set s)) s

end Sys2Proof.Machine
end

