-- ==== Sys2Proof/Machine/Transom.lean ====
section
/-!
DEFINITION. Transom pass-through wavelengths (R176 to R195): the change of a map at commit, routed light, the commands.
Entry 32w + 8t + λ is input t, wavelength λ of Window w; its port is 1024 plus that number.
-/
namespace Sys2Proof.Machine

/-- Whether a commit that takes an entry from `old` to `new` touches it (R186). -/
def entryTouched (old new : Nat) : Bool := old / 2 ^ 28 ≠ new / 2 ^ 28

/-- The ring calibration of a Window, step 2 of its bring-up (R188): every matrix ring and add ring. What it finds is open. -/
def calibrate (w : Nat) (s : State) : State :=
  (List.range 160).foldl (fun s ring =>
    let a := drawInt s
    let b := drawInt a.2
    let t := drawInt b.2
    let c : RingCal := { setting := a.1, slope := b.1, temp := (picTemp s w).getD t.1 }
    let s := { t.2 with transom := { t.2.transom with calib := tset t.2.transom.calib (w, ring) c } }
    s) s

/-- The rings of a Window's new routes move to their calibrated settings, and lock on the light at their inputs (R187, R188, R191). -/
def setRoutes (is : List Nat) (s : State) : State :=
  is.foldl (fun s i =>
    if transomMode s i ≠ 2 || (tfind s.transom.routes i).isSome then s
    else
      let r : Route := Route.heated s i { out := entryOut s i }
      if (pointAt s (i / 32) (1, i / 8 % 4, i % 8)).los then setRoute i { r with holding := true } s
      else lockRoute i (setRoute i r s)) s

/-- Removes the routes of entries that no longer pass their input to the same output (R187, R189). -/
def dropRoutes (is : List Nat) (s : State) : State :=
  is.foldl (fun s i =>
    match tfind s.transom.routes i with
    | none => s
    | some r =>
      if transomMode s i = 2 && r.out = entryOut s i then s
      else { s with transom := { s.transom with routes := tdel s.transom.routes i } }) s

/-- The modulator of an output is parked where its Transom port is not terminated (R179). -/
def parkOutputs (is : List Nat) (s : State) : State :=
  is.foldl (fun s i =>
    let p := 1024 + i
    let parked := ((fibreAt s (p / 8)).lambdas.getD (p % 8) {}).parked
    if terminated s p then modLambda (p / 8) (p % 8) (fun x => { x with parked := false }) s
    else if parked then s
    else park (p / 8) (p % 8) 0 (modLambda (p / 8) (p % 8) (fun x => { x with txOk := false, txLock := false }) s)) s

/-- The start of a map change (R187): `was` lists the entries that a commit wrote and their words before it. The links of
touched ports that were terminated go down; a Window in service parks the modulators of outputs that stop being LOCAL, detunes the removed
routes, and begins its change. The matrix of a Window out of service changes at its next bring-up (R189). -/
def changeTransom (was : List (Nat × Nat)) (s : State) : State :=
  let hit := (was.filter fun e => entryTouched e.2 (entryWord s 6 e.1)).map (·.1)
  let s := hit.foldl (fun s i =>
    let p := 1024 + i
    let before := maskBit s p && isUp s p
    let s := linkDown p s
    let s := if before then resetRounds p s else s
    let s := modPort p (fun x => { x with state := if (windowAt s (windowOf p)).inService then .disabled else .windowDown, since := s.ns }) s
    advertise (judgePort false p s)) s
  (List.range 8).foldl (fun s w =>
    let mine := hit.filter (· / 32 = w)
    if mine = [] || !(windowAt s w).inService then s
    else
      let s := dropRoutes mine (parkOutputs (mine.filter fun i => !terminated s (1024 + i)) s)
      { s with transom := { s.transom with changing := tset s.transom.changing w (tget s.transom.changing w [] ++ [(s.ns, mine)]) } }) s

/-- TRANSOM_MAP_APPLIED (R187): the rings of new routes are at their settings, and newly terminated ports tune; the oldest change of the
Window is complete. An entry that a later change has touched again waits for that one. -/
def execTransomMapApplied (window : Nat) (s : State) : Answer :=
  match tget s.transom.changing window [] with
  | [] => guard (window < 8) "Window" s
  | (t, is) :: rest =>
    let mine := is.filter fun i => !rest.any fun c => c.2.contains i
    let changing := if rest = [] then tdel s.transom.changing window else tset s.transom.changing window rest
    let s := setRoutes mine { s with transom := { s.transom with changing } }
    let s := raise 0x0701 (eicDie window) 1 window is.length ((s.ns - t) / 1000) s
    .next (mine.foldl (fun s i =>
      let p := 1024 + i
      if terminated s p && (portAt s p).enabled && (portAt s p).state = .disabled then settlePort p (parkOutputs [i] s)
      else if terminated s p then parkOutputs [i] s else s) s)

/-- The wavelengths of a fibre pair at the end of step 2 of a bring-up (R139): nothing parked, and every transmit ring that has light
locked. `lit`: the wavelengths that have. -/
def Fibre.fresh (lit : Nat → Bool) (x : Fibre) : Fibre :=
  { x with spare := .standby, selected := false, dropped := 0, lightDrop := 0, waiting := []
           lambdas := (List.range 9).map fun l => { x.lambdas.getD l {} with
             parked := false, txFault := !lit l, rxFault := false, txOk := lit l, txLock := lit l } }

/-- WINDOW_UP (R139): steps 1 to 3 have succeeded, so the Window is in service and its enabled ports tune. Every λ8 and every wavelength
without a lane carries idle codewords; the rings of the Transom matrix are calibrated, and the matrix takes what the live map gained while
the Window was out (R188, R189). A wavelength for which no light is selected drops its lanes at once (R49). While the PIC is too cold no
ring locks (R549). -/
def execWindowUp (window : Nat) (ms : Nat) (s : State) : Answer :=
  if 8 ≤ window then .refused (.noSuchObject "Window")
  else if !(windowAt s window).bringUp || picCold s window then .next s
  else
    let s := trainSill window (modWindow window (fun x => { x with inService := true, bringUp := false, cause := 0 }) s)
    let entries := (List.range 32).map (32 * window + ·)
    let pairs := dataPairs window ++ (List.range 4).map (128 + 4 * window + ·)
    let sel := (lightAt s window).sel
    let s := calibrate window (pairs.foldl (fun s n => modFibre n (Fibre.fresh fun l => sel.getD l 0 ≠ 0) s) s)
    let s := { s with transom := { s.transom with changing := tdel s.transom.changing window } }
    let s := setRoutes entries (dropRoutes entries (parkOutputs entries s))
    let s := (dataPairs window).foldl (fun s n => sendIdle n 8 s) (modLight window (fun x => { x with relight := [] }) s)
    let s := (windowPorts s window).foldl (fun s p =>
      if (portAt s p).enabled then settlePort p s else idlePort p (setPortState p .disabled s)) s
    let dark := (List.range 9).filter fun l => sel.getD l 0 = 0
    let s := dark.foldl (fun s l => (litPairs s window l).foldl (fun s n => faultLanes n l 4 true true s) s) s
    .next (advertise (clearFault 6 (eicDie window) window <| clearFault 4 (eicDie window) window (raise 0x0501 (eicDie window) 1 window (readyPorts s window) ms s)))

/-- The heaters of routes that hold are corrected for a new die temperature (R191). -/
def correctHeaters (w : Nat) (s : State) : State :=
  { s with transom := { s.transom with routes := s.transom.routes.map fun e =>
      if e.1 / 32 = w && e.2.holding then (e.1, Route.heated s e.1 e.2) else e } }

/-- TRANSOM_PASS_LOS (R190, R191): a routed input goes below LOS, and the rings of its route hold their heaters. -/
def execTransomPassLos (window entry : Nat) (s : State) : Answer :=
  let i := 32 * window + entry
  let s1 := setLos window (1, entry / 8, entry % 8) true s
  guard (window < 8 && entry < 32) "Transom entry"
    (if transomMode s i = 2 then
      raise 0x0702 (eicDie window) 3 window entry (pathId s i) (modRoute i (fun r => { r with switch := false, matrix := false, add := false, holding := true }) s1)
     else s1)

/-- TRANSOM_PASS_RESTORED (R191): light returns to a routed input, and its rings lock again. -/
def execTransomPassRestored (window entry : Nat) (s : State) : Answer :=
  let i := 32 * window + entry
  let s1 := setLos window (1, entry / 8, entry % 8) false s
  guard (window < 8 && entry < 32) "Transom entry"
    (if transomMode s i = 2 then raise 0x0703 (eicDie window) 2 window entry (pathId s i) (lockRoute i s1) else s1)

/-- TRANSOM_RING_UNLOCK (R191): a routed ring loses lock while light is present; `ring` is 0 ring switch, 1 matrix,
2 add. -/
def execTransomRingUnlock (window entry ring : Nat) (s : State) : Answer :=
  let i := 32 * window + entry
  let g (r : Route) : Route :=
    { r with switch := r.switch && ring ≠ 0, matrix := r.matrix && ring ≠ 1, add := r.add && ring ≠ 2 }
  guard (window < 8 && entry < 32 && ring < 3) "Transom ring"
    (if transomMode s i = 2 then
      raiseLimited 0x0705 i (60 * second) (fun _ s => raise 0x0705 (eicDie window) 3 window (ring * 256 + entry) (pathId s i) s)
        (modRoute i g s)
     else s)

/-! ## Commands (Tables 7.7 to 7.9) -/

/-- Whether entry `i` of a Window takes part in a conflict under R180. `e` gives the entries. -/
def entryConflict (e : Nat → Nat) (i : Nat) : Bool :=
  let l := i % 8
  let names (j : Nat) (o : Nat) : Bool := e j / 2 ^ 30 = 2 && e j / 2 ^ 28 % 4 = o
  let others := (List.range 4).map fun t => 8 * t + l
  if e i / 2 ^ 30 = 2 then
    e (8 * (e i / 2 ^ 28 % 4) + l) / 2 ^ 30 = 1 || others.any fun j => j ≠ i && names j (e i / 2 ^ 28 % 4)
  else e i / 2 ^ 30 = 1 && others.any fun j => names j (i / 8)

/-- The checks of one entry word that TRANSOM_MAP_WRITE makes, at an offset. -/
def transomWordChecks (off w : Nat) : List (Bool × Refuse) :=
  [chk (w / 2 ^ 30 = 3) (badParam 3 off), (!transomWordOk w, badParam 4 off)]

/-- TRANSOM_MAP_WRITE: what it admits. -/
def opTransomMapWrite : OpSpec := { opcode := 0x0700, lengths := fun n => 8 ≤ n && n ≤ 132 && n % 4 = 0, staging := true }

/-- TRANSOM_MAP_WRITE (Table 7.7). (DEDUCED, log 46.) -/
def execTransomMapWrite (q : Request) (s : State) : Answer :=
  runCommand opTransomMapWrite (.transomMapWrite q) q anyBlock (fun _ s =>
    let p := q.params
    let w := u8 p 0
    let first := u8 p 1
    let n := u8 p 2
    let word (i : Nat) : Nat := u32 p (4 + 4 * i)
    let clean (x : Nat) : Nat := x / 2 ^ 26 * 2 ^ 26 + x % 2 ^ 16
    let after (i : Nat) : Nat :=
      if first ≤ i && i < first + n then word (i - first) else u32 (seenValue s (txnAt s q.txn) (.entry 6 (32 * w + i))) 0
    withChecks ([chk (7 < w) (badParam 4 0), (31 < first, badParam 4 1), (n = 0 || 32 < first + n, badParam 4 2)] ++
        ((List.range (min n ((p.length - 4) / 4))).flatMap fun i => transomWordChecks (4 + 4 * i) (word i)) ++
        [chk (p.length ≠ 4 + 4 * n) (badParam 1 0xFFFF)]) s fun s =>
      match (List.range n).find? fun i => entryConflict after (first + i) with
      | some i => .refuse (badParam 6 (4 + 4 * i)) s
      | none =>
        stageDone q 0 ((List.range n).map fun i =>
          { key := .entry 6 (32 * w + first + i), value := beBytes 4 (clean (word i)) }) [] s) s

/-- SRC and FROM of an output (R179, Table 7.8). -/
def outputSource (s : State) (w o l : Nat) : Nat :=
  if transomMode s (32 * w + 8 * o + l) = 1 then 1
  else match (List.range 4).find? fun t =>
      let e := entryWord s 6 (32 * w + 8 * t + l)
      e / 2 ^ 30 = 2 && e / 2 ^ 28 % 4 = o with
    | some t => 2 + 4 * t
    | none => 0

/-- The input power average of a Transom input wavelength. -/
def inputAverage (w e : Nat) (s : State) : Bytes × State :=
  let a := averageOf (avgWindows (pointClass s w (1, e / 8, e % 8)).avg (pointAt s w (1, e / 8, e % 8)).windows).1 s
  (powerField a.1, a.2)

/-- TRANSOM_MAP_READ: what it admits. -/
def opTransomMapRead : OpSpec := { opcode := 0x0701, observer := true, lengths := fun n => n = 4, reads := true }

/-- TRANSOM_MAP_READ (Table 7.8). (DEDUCED, log 44.) -/
def execTransomMapRead (q : Request) (s : State) : Answer :=
  runCommand opTransomMapRead (.transomMapRead q) q anyBlock (fun _ s =>
    let w := u8 q.params 0
    withChecks [(7 < w, badParam 4 0)] s fun s =>
      let r := (List.range 32).foldl (fun (a : Bytes × State) i =>
        let x := tget s.transom.routes (32 * w + i) {}
        let v := inputAverage w i a.2
        (a.1 ++ beBytes 4 (entryWord s 6 (32 * w + i)) ++ beBytes 1 (outputSource s w (i / 8) (i % 8)) ++
          beBytes 1 (b2n x.switch + 2 * b2n x.matrix + 4 * b2n x.add + 8 * b2n x.holding) ++ v.1, v.2)) ([], s)
      .ok (beBytes 1 w ++ beBytes 1 (b2n (decide (tget s.transom.changing w [] ≠ []))) ++ zeros 2 ++ r.1) r.2) s

/-- A loss or power as a 16-bit field; one that no such field can hold is open (DESIGN CHOICE, log 31). -/
def loss16 (v : Int) (s : State) : Bytes × State :=
  if -32768 < v && v < 32768 then (beBytes 2 (natOfInt 16 v), s)
  else
    let d := draw 65536 s
    (beBytes 2 d.1, d.2)

/-- TRANSOM_PATH_CHECK: what it admits. -/
def opTransomPathCheck : OpSpec := { opcode := 0x0702, observer := true, lengths := fun n => n = 8, reads := true }

/-- TRANSOM_PATH_CHECK (R185, Table 7.9). (DEDUCED, log 44.) -/
def execTransomPathCheck (q : Request) (s : State) : Answer :=
  runCommand opTransomPathCheck (.transomPathCheck q) q anyBlock (fun _ s =>
    let p := q.params
    let w := u8 p 0
    let n := u8 p 2
    withChecks [(7 < w, badParam 4 0), (31 < u8 p 1, badParam 4 1), (7 < n, badParam 4 2)] s fun s =>
      let launch : Int := if bit (u8 p 3) 0 then signedOf 16 (u16 p 4) else 390
      let span : Int := if u16 p 6 = 0xFFFF then 60 * (n + 1) else u16 p 6
      let dstOther := bit (u8 p 3) 1
      let received := launch - span - 270 * n - (if dstOther then 0 else 130)
      let required : Int := if dstOther then -860 else -900 + 20 * n
      let verdict := if 3 < n then 2 else if bit (u8 p 3) 0 && (launch < 340 || 440 < launch) then 3
        else if received < required then 1 else 0
      let a := loss16 received s
      let m := loss16 (received - required) a.2
      let v := inputAverage w (u8 p 1) m.2
      .ok (p.take 3 ++ beBytes 1 (u8 p 3 % 4) ++ a.1 ++ beBytes 2 (natOfInt 16 required) ++ m.1 ++ beBytes 1 verdict ++
        beBytes 1 (transomMode s (32 * w + u8 p 1)) ++ v.1 ++ zeros 2) v.2) s

end Sys2Proof.Machine
end

