-- ==== Sys2Proof/Machine/Package.lean ====
section
/-!
DEFINITION. Dies, Seam links and the Sill (R11 to R31). `high` names the direction from the high end of a link.
-/
namespace Sys2Proof.Machine

/-! ## Dies -/

/-- A die as discovery found it. -/
def dieAt (s : State) (d : Nat) : DieRec := tget s.boot.dies d {}

/-- Changes the record of a die. -/
def modDie (d : Nat) (g : DieRec → DieRec) (s : State) : State :=
  { s with boot := { s.boot with dies := tset s.boot.dies d (g (dieAt s d)) } }

/-- A die in service is degraded (Table 1.7). -/
def degradeDie (s : State) (d : Nat) : State := modDie d (fun x => if x.state = 1 then { x with state := 2 } else x) s

/-! ## Flits and lanes (R20 to R25) -/

/-- SEAM_FLIT_RECEIVED (R17 to R20): a flit slot of one direction passes. The arbiter picks the flit among the channels in `ready`; with
none to send the slot goes unused. The flit carries `returns`, the credits of the other direction by channel; one that fails its CRC is
discarded and counted, and brings none. A direction with no group in service carries nothing. -/
def execSeamFlitReceived (link : Nat) (high : Bool) (ready : Nat) (returns : List Nat) (crcOk : Bool) (s : State) : Answer :=
  let x := seamAt s link
  let sent := (x.way high).send link ready
  let s1 :=
    if activeLanes s link high = 0 then s
    else
      match sent.1 with
      | none => modSeam link (fun x => x.setWay high sent.2) s
      | some flit =>
        let x := x.setWay high (sent.2.receive flit crcOk)
        let s := modSeam link (fun _ => if crcOk then x.setWay (!high) ((x.way (!high)).refund returns) else x) s
        if crcOk then s else count 13 link 0 1 s
  guard (link < 39) "Seam link" s1

/-- A group after a failure of one of its `n` lanes that no spare can take (R22). -/
def SeamGroup.failLane (g : SeamGroup) (n lane : Nat) : SeamGroup :=
  let f := g.failed ++ [lane]
  let low := f.any fun l => l < n / 2
  let high := f.any fun l => n / 2 ≤ l
  let half := if g.half = 0 then (if low && high then 3 else if low then 2 else 1)
    else if g.half = 1 then (if lane < n / 2 then 3 else 1)
    else if g.half = 2 then (if lane < n / 2 then 2 else 3) else 3
  { g with half, failed := f }

/-- OBJECT of a fault of class SEAM: link, direction, group, lane (DESIGN CHOICE, log 32). -/
def seamObject (k : Nat) (high : Bool) (group lane : Nat) : Nat := k * 2 ^ 17 + b2n high * 2 ^ 16 + group * 256 + lane

/-- A handover begins: until it is done new requests are refused (R82, R448). `cause`: as HEARTH_HANDOVER_DONE. -/
def beginHandover (cause : Nat) (s : State) : State :=
  if s.boot.handover then s
  else { s with boot := { s.boot with handover := true, handoverStart := s.ns, handoverCause := cause } }

/-- The link by which the other Hearth reaches the die at the high end of a link from a Hearth to a Hall or Mangle. -/
def otherHearthLink (k : Nat) : Nat :=
  if k < 5 then k + 4 else if k < 9 then k - 4 else if k < 11 then k + 2 else k - 2

/-- What a link that has lost lanes brings about (R16, R24, R25, R448). `was`: it had a group in service in each direction. -/
def narrowLink (k : Nat) (was : Bool) (s : State) : State :=
  let low := (linkEnds k).1
  let fewer := min (activeLanes s k false) (activeLanes s k true)
  let s :=
    if 13 ≤ k && k < 19 && fewer < 256 && !(seamAt s k).relayed then
      recordFault 5 0 low (seamObject k false 0 0)
        (raise 0x0113 low 4 k 0 fewer (modSeam k (fun x => { x with relayed := true }) s))
    else if was && !seamUp s k && 13 ≤ k && k < 23 then raise 0x0113 low 4 k 0 fewer s
    else s
  if was && !seamUp s k && 23 ≤ k then windowOutOfService (if k < 31 then k - 23 else k - 31) 3 s
  else if was && !seamUp s k && 1 ≤ k && k < 13 && low = leadDie s && s.boot.standbyReady && seamUp s (otherHearthLink k) then
    beginHandover 4 s
  else s

/-- A lane fails (R21 to R25): a spare takes it, or the group halves or goes out of service. -/
def failLane (link : Nat) (high : Bool) (group lane : Nat) (s : State) : State :=
  let n := (linkGroups link).2
  let g := ((seamAt s link).dir high).getD group { spares := 0 }
  let low := (linkEnds link).1
  let set (g' : SeamGroup) (s : State) : State := modSeam link (fun x =>
    if high then { x with high := x.high.set group g' } else { x with low := x.low.set group g' }) s
  let arg := b2n high * 65536 + group * 256
  let s := degradeDie (degradeDie s low) (linkEnds link).2
  if 0 < g.spares then
    let s := raise 0x0110 low 2 link (arg + lane) (g.spares - 1) (set { g with spares := g.spares - 1 } s)
    advertise (recordFault 5 1 low (seamObject link high group lane) s)
  else
    let was := seamUp s link
    let g' := g.failLane n lane
    let s := set g' s
    if g'.half = g.half then advertise s
    else
      let s := raise (if g'.half = 3 then 0x0112 else 0x0111) low (if g'.half = 3 then 4 else 3) link arg (activeLanes s link high) s
      advertise (narrowLink link was (recordFault 5 0 low (seamObject link high group lane) s))

/-- Whether a link has a lane of that group and number. -/
def isLane (link group lane : Nat) : Bool := link < 39 && group < (linkGroups link).1 && lane < (linkGroups link).2

/-- SEAM_LANE_FAILED (R21 to R25): a lane passes its error limit or loses lock. -/
def execSeamLaneFailed (link : Nat) (high : Bool) (group lane : Nat) (s : State) : Answer :=
  if !isLane link group lane then .refused (.noSuchObject "Seam lane") else .next (failLane link high group lane s)

/-- SEAM_REPLAY (R20): the sender replays every flit from the failed one on. `ok`: they arrive this time. After 8 failed replays in a row the
lane check runs on the lanes of that direction, and `failing` names those that it finds beyond their limit, by group and lane. -/
def execSeamReplay (link : Nat) (high : Bool) (ok : Bool) (failing : List (Nat × Nat)) (s : State) : Answer :=
  let w := (seamAt s link).way high
  if 39 ≤ link then .refused (.noSuchObject "Seam link")
  else if w.replay = [] then .next s
  else
    let s := modSeam link (fun x => x.setWay high (w.again ok)) (count 13 link 1 1 s)
    .next (if !ok && w.fails = 7 then
        (failing.filter fun e => isLane link e.1 e.2).foldl (fun s e => failLane link high e.1 e.2 s) s
      else s)

/-! ## The Sill (R14, R15) -/

/-- A cell arrives over one direction of a Sill: the first of the replay buffer, or a new one. One that fails its CRC stays in the
buffer and is resent; `wire` is the data wire that spoilt it, if a wire has failed (R14, R15). -/
def SillWay.cell (w : SillWay) (crcOk : Bool) (wire : Option Nat) : SillWay :=
  let w := if w.replay = [] then { w with next := w.next + 1, replay := [w.next] } else w
  if crcOk then { w with replay := w.replay.drop 1 }
  else match wire with
    | none => w
    | some n => { w with broken := (w.broken ++ [n]).eraseDups }

/-- SILL_CELL_RECEIVED (R14, R15): a cell arrives, and one that fails its CRC is resent. `toHall`: it comes from the EIC. At the end of each
1 ms the Window's resends are judged; a degraded Sill is reported once until the next bring-up corrects it. -/
def execSillCellReceived (window : Nat) (toHall : Bool) (crcOk : Bool) (wire : Option Nat) (s : State) : Answer :=
  let x := tget s.sill window {}
  let above := x.start + 1000000 ≤ s.ns
  let bad := above && x.cells < x.resends * 1000
  let open' := s.darn.faults.any (FaultRec.same 6 (eicDie window) window)
  let y : Sill := if above then { x with cells := 1, resends := b2n (!crcOk), start := s.ns }
    else { x with cells := x.cells + 1, resends := x.resends + b2n (!crcOk) }
  let y := if toHall then { y with up := y.up.cell crcOk wire } else { y with down := y.down.cell crcOk wire }
  let s1 := { s with sill := tset s.sill window y }
  guard (window < 8 && wire.all (· < 2560)) "Sill wire"
    (if bad && !open' then
      advertise (recordFault 6 0 (eicDie window) window
        (raise 0x0114 (eicDie window) 3 window (x.resends * 1000000 / x.cells) 0 s1))
     else s1)

/-! ## Commands (Tables 1.9, 1.10) -/

/-- NOT_READY before discovery has finished; a wrong phase is reason 0x01. -/
def notDiscovered (s : State) : Bool × Refuse := chk (!s.boot.discDone) { status := 0x0B, reason := 1, info := s.boot.phase }

/-- DIE_MAP_READ: what it admits. -/
def opDieMapRead : OpSpec := { opcode := 0x0110, observer := true, tenant := true, lengths := fun n => n = 0, reads := true }

/-- DIE_MAP_READ (Table 1.9). -/
def execDieMapRead (q : Request) (s : State) : Answer :=
  runCommand opDieMapRead (.dieMapRead q) q anyBlock (fun _ s =>
    withChecks [notDiscovered s] s fun s =>
      .ok ((List.range 40).flatMap fun d =>
        let x := dieAt s d
        beBytes 1 d ++ beBytes 1 x.typeCode ++ beBytes 1 x.state ++ zeros 1 ++ beBytes 8 x.serial ++
          beBytes 2 (dieSpares s d) ++ zeros 2) s) s

/-- SEAM_LINK_READ: what it admits. -/
def opSeamLinkRead : OpSpec := { opcode := 0x0111, observer := true, lengths := fun n => n = 4, reads := true }

/-- SEAM_LINK_READ (Table 1.10). GROUPS counts the groups in service in both directions. -/
def execSeamLinkRead (q : Request) (s : State) : Answer :=
  runCommand opSeamLinkRead (.seamLinkRead q) q anyBlock (fun _ s =>
    let k := u8 q.params 0
    withChecks [chk (38 < k) (badParam 4 0), notDiscovered s] s fun s =>
      let x := seamAt s k
      let up := (List.range (linkGroups k).1).filter fun g =>
        (x.low.getD g { spares := 0 }).half ≠ 3 && (x.high.getD g { spares := 0 }).half ≠ 3
      let halved := (x.low ++ x.high).any fun g => g.half = 1 || g.half = 2
      .ok (beBytes 1 k ++ beBytes 1 (linkEnds k).1 ++ beBytes 1 (linkEnds k).2 ++ beBytes 1 up.length ++
        beBytes 2 (activeLanes s k false) ++ beBytes 2 (activeLanes s k true) ++ beBytes 1 (sparesOf s k false) ++
        beBytes 1 (sparesOf s k true) ++ beBytes 1 (b2n x.relayed + 2 * b2n halved) ++ zeros 1 ++
        beBytes 6 (counterAt { scope := 13, inst := k, idx := 0 } s).value ++
        beBytes 6 (counterAt { scope := 13, inst := k, idx := 1 } s).value) s) s

end Sys2Proof.Machine
end

