-- ==== Sys2Proof/Machine/CollMangle.lean ====
section
/-!
DEFINITION. The Mangles: reservations (R339, R367, R390), engines and their retirement (R376 to R380, R402, R403),
contributions and the chunk states (R345 to R348), partials and results (R365, R374), and the release of runs (R385).
-/
namespace Sys2Proof.Machine

/-! ## Reservations (R339, R367, R390) -/

/-- The valid contexts that reserve something, ascending. -/
def reservers (s : State) : List Nat :=
  sortNat ((s.coll.ctxs.filter fun e => !e.2.failed && (ctxOf s e.1).reduces).map (·.1))

/-- Accumulator bytes that a context reserves in a Mangle (R367). -/
def CtxConf.accBytes (k : CtxConf) (m : Nat) : Nat := k.slotsIn m * k.chunkElems * lineBytes k.family

/-- Hamper bytes that a context reserves in a Mangle (R390). -/
def hamperBase (s : State) (c m : Nat) : Nat :=
  if isRoot s c then 0 else (ctxOf s c).slotsIn m * entrySize (partialBytes (ctxOf s c).chunkElems)

/-- Hamper bytes that a context's entries hold above their base size in a Mangle. -/
def hamperExcess (s : State) (c m : Nat) : Nat :=
  match ctxAt s c with
  | none => 0
  | some r => ((r.hamper.filter fun e => e.2.mangle = m).map fun e => e.2.excess).sum

/-- Half of the HAMPER partition: what one Mangle writes (R390). -/
def hamperHalf (s : State) : Nat := 2 * s.cellar.hamperUnits * 2 ^ 28

/-- Whether contexts' Hamper bytes, by pool, fit in one Mangle's half: pools draw on their reserves first (R390). -/
def hamperFits (s : State) (use : List (Nat × Nat)) : Bool :=
  let half := hamperHalf s
  let res (p : Pool) : Nat := half * p.hamperReserve / 1024
  let above := (allPools s).map fun p => ((use.filter fun u => u.1 = p.1).map (·.2)).sum - res p.2
  above.sum ≤ half - ((allPools s).map fun p => res p.2).sum

/-- The pool a context's Hamper space is charged to, and the bytes. -/
def hamperUse (s : State) (m c : Nat) : Nat × Nat := (poolKey s ((ctxOwner s c).getD 0), hamperBase s c m + hamperExcess s c m)

/-- The first of the contexts, in their order, whose slots, accumulator space or Hamper space does not fit in a Mangle:
its reason (Table 14.14, R367, R390). -/
def firstUnfit (s : State) (m : Nat) (cs : List Nat) : Option (Nat × Nat) :=
  let pre (c : Nat) : List Nat := cs.filter (· ≤ c)
  let bad (f : Nat → Bool) (why : Nat) : Option (Nat × Nat) := (cs.find? f).map fun c => (why, c)
  (bad (fun c => 131072 < ((pre c).map fun c => (ctxOf s c).slotsIn m).sum) 0x90).orElse fun _ =>
    (bad (fun c => 738197504 < ((pre c).map fun c => (ctxOf s c).accBytes m).sum) 0xA0).orElse fun _ =>
      bad (fun c => !hamperFits s ((pre c).map (hamperUse s m))) 0xB0

/-! ## Engines -/

/-- Temperature of a die as an event gives it. -/
def dieTemp (s : State) (d : Nat) : Nat :=
  match (tget s.zones d {}).reading with
  | none => 0x8000
  | some t => natOfInt 16 t

/-- Changes an engine. -/
def modEngine (m e : Nat) (g : Engine → Engine) (s : State) : State :=
  modMangle m (fun x => { x with engines := x.engines.set e (g (x.engines.getD e {})) }) s

/-- The chunks of a Mangle that satisfy a condition: context and index. -/
def chunksIn (s : State) (m : Nat) (f : Chunk → Bool) : List (Nat × Nat) :=
  s.coll.ctxs.flatMap fun e => (e.2.chunks.filter fun x => x.2.mangle = m && f x.2).map fun x => (e.1, x.1)

/-- A spare engine that serves no shadow check. -/
def freeSpare (s : State) (m : Nat) : Option Nat :=
  let x := mangleAt s m
  (List.range 34).find? fun e =>
    !x.active.contains e && !(x.engines.getD e {}).retired && chunksIn s m (fun ch => ch.shadow = some e) = []

/-- The lowest-numbered spare engine that is not retired (R402). -/
def nextSpare (x : Mangle) : Option Nat :=
  (List.range 34).find? fun e => !x.active.contains e && !(x.engines.getD e {}).retired

/-- Changes a context's descriptor where it stands, when it migrates (R403). -/
def rehome (c home : Nat) (s : State) : State :=
  let v := liveValue s (.ctx c)
  let v := (v.set 3 (byteOf (u8 v 3 / 2 * 2))).set 8 (byteOf home)
  { s with setup := { s.setup with live := tset s.setup.live (.ctx c) v } }

/-- Migrates one context off a failed Mangle (R403). -/
def migrate (m c : Nat) (s : State) : State :=
  match ctxAt s c with
  | none => s
  | some r =>
    let k := ctxOf s c
    let held := sortNat ((r.chunks.map (·.1) ++ r.done ++ r.hamper.map (·.1) ++ r.unlogged).filter fun i => r.rel ≤ i && k.mangle i = m)
    let s := held.foldl (fun s i => resetChunk c i 3 s) s
    let old := s
    let s1 := rehome c (1 - m) s
    let ok := !(mangleAt s (1 - m)).failed && (firstUnfit s1 (1 - m) (reservers s1)).isNone
    let s := if ok then s1 else modCtx c (fun r => { r with failed := true }) old
    raiseLead 0x0926 4 c (m * 256 + (1 - m)) (b2n (!ok)) s

/-- A Mangle has failed on a condition of Table 18.2: the fault is declared and recorded, its contexts migrate in ascending order, and the
contributions that wait for it wait for the other (R403, R437). (DEDUCED, log 47.) -/
def failMangle (m cond : Nat) (s : State) : State :=
  if (mangleAt s m).failed then s
  else
    let s := raiseLead 0x0B05 5 (mangleDie m) 0xA cond s
    let s := recordFault 0xA 0 (mangleDie m) m (modDie (mangleDie m) (fun x => { x with state := 3 }) s)
    let waiting := (mangleAt s m).input.filter fun y => y.buffer.isNone
    let s := modMangle m (fun x => { x with failed := true, input := [], output := [] }) s
    let cs := sortNat ((s.coll.ctxs.filter fun e => !e.2.failed && (ctxOf s e.1).reduces &&
      ((ctxOf s e.1).stripe || (ctxOf s e.1).home = m)).map (·.1))
    let s := cs.foldl (fun s c => migrate m c s) s
    advertise (modMangle (1 - m) (fun x => { x with input := x.input ++ waiting }) s)

/-- Withdraws an engine (R402): a spare takes its place, what it held is reset, and a Mangle without an active engine fails.
`cls` is the class the fault is recorded under. -/
def withdrawEngine (m e cause pattern cls : Nat) (s : State) : State :=
  let die := mangleDie m
  let s := modEngine m e (fun x => { x with retired := true, cause, pattern, temp := dieTemp s die, time := mantel s }) s
  let x := mangleAt s m
  let was := x.active.contains e
  let spare := if was then nextSpare x else none
  let s := match spare with
    | none => modMangle m (fun x => { x with active := x.active.erase e }) s
    | some k =>
      let s := (chunksIn s m fun ch => ch.shadow = some k).foldl (fun s y =>
        countMangle m 14 1 (modChunk y.1 y.2 (fun ch => { ch with shadow := none }) s)) s
      modMangle m (fun x => { x with active := x.active.map fun a => if a = e then k else a }) s
  let left := (mangleAt s m).active.length
  let s := raise 0x0925 die 4 e (spare.getD 0xFF) left s
  let s := recordFault cls (b2n (spare.isSome || (!was && cls = 9))) die e s
  let s := (chunksIn s m fun ch => ch.shadow = some e).foldl (fun s y => modChunk y.1 y.2 (fun ch => { ch with shadow := none }) s) s
  let s := (chunksIn s m fun ch => ch.engine = e).foldl (fun s y => resetChunk y.1 y.2 1 s) s
  if left = 0 then failMangle m 4 s else s

/-- Retires an engine that failed a check (R380, R402). `check`: 1 RES3, 2 RES7, 3 shadow. -/
def retireEngine (m e check c pattern : Nat) (s : State) : State :=
  let die := mangleDie m
  withdrawEngine m e check pattern 9 (raise 0x0910 die 4 e (check * 2 ^ 24 + c * 256 + pattern) (dieTemp s die) s)

/-! ## Partials and results (R365, R368, R374) -/

/-- Whether an element has an extension record (R365). -/
def Elem.extended (e : Elem) : Bool := e.full.isSome || e.cls ≠ 0

/-- The extension record of an element (Table 15.5). -/
def extRecord (fam j : Nat) (e : Elem) : Bytes :=
  beBytes 2 j ++ beBytes 1 e.cls ++ zeros 1 ++
  beBytes (fullBytes fam) (if e.cls = 0 then natOfInt (8 * fullBytes fam) (e.full.getD 0) else 0)

/-- The block words of a chunk (Table 15.6). -/
def blockWords (fam : Nat) (exps : List (Option Int)) (elems : List Elem) : Bytes :=
  (List.range exps.length).flatMap fun b =>
    let ext := ((elems.drop (16 * b)).take 16).any Elem.extended
    let x : Int := if fam = 0 then 0 else (exps.getD b none).getD 0
    beBytes 2 (fam * 8192 + b2n ext * 4096 + natOfInt 12 x)

/-- The segments of a partial in the order of R366: FMT and payload. -/
def partialSegments (fam : Nat) (ch : Chunk) : List (Nat × Bytes) :=
  let win := ch.elems.flatMap fun e => if e.extended then zeros 16 else beBytes 16 (natOfInt 128 e.win)
  let wins := chunksOf 4096 win.length win
  let recs := ((List.range ch.elems.length).zip ch.elems).filter fun e => e.2.extended
  let exts := (chunksOf (recordsPerSeg fam) recs.length recs).map fun l => l.flatMap fun e => extRecord fam e.1 e.2
  let body := wins ++ exts
  (0x80 + body.length, blockWords fam ch.exps ch.elems) ::
    (List.range body.length).map fun i => (0xC0 + i, body.getD i [])

/-- The trailer of a RESULT with special elements (Table 15.8). -/
def resultTrailer (o : Output) (nv : Bool) (special : List Nat) : Bytes :=
  beBytes 1 (1 + 2 * b2n o.ov + 4 * b2n o.uf + 8 * b2n o.nx + 16 * b2n (o.nv || nv)) ++ zeros 1 ++
  beBytes 2 (special.headD 0) ++ beBytes 2 special.length ++ zeros 2

/-- The elements of a chunk at the root as they are to be written (R368, R369). -/
def exactElems (k : CtxConf) (i : Nat) (ch : Chunk) : List Exact :=
  (List.range ch.elems.length).map fun j =>
    let e := ch.elems.getD j {}
    { cls := e.cls, v := exactOf k.family k.oper k.nTotal (ch.exps.getD (j / 16) none) e
      u := if k.round = 2 then stochasticU k.ctx k.gen (i / k.chunks % 2 ^ 48) (i % k.chunks * k.chunkElems + j) else 0 }

/-- Builds the outgoing frames of a FINAL chunk, with the flags and counts of its conversion (R348, R366, R374, R375). -/
def buildFrames (c i : Nat) (s : State) : State :=
  match chunkAt s c i with
  | none => s
  | some ch =>
    let k := ctxOf s c
    let s := count 8 (34 * ch.mangle + ch.engine) 0 1 s
    if isRoot s c then
      let w := writeChunk k.outFmt { mode := k.round, ovf := k.ovf } (exactElems k i ch)
      let o := w.2
      let special := (List.range o.special.length).filter fun j => o.special.getD j false
      let s := modEngine ch.mangle ch.engine (fun e => { e with ov := e.ov || o.ov, uf := e.uf || o.uf, nx := e.nx || o.nx, nv := e.nv || o.nv }) s
      let s := if special = [] then s else countMangle ch.mangle 11 1 s
      let gid := if k.op = 1 then (k.recs.getD k.rootMember (0, 0, 0)).1 else k.downGid
      let payload := w.1 ++ (if special = [] then [] else resultTrailer o ch.nv special)
      modChunk c i (fun ch => { ch with frames := [collFrame s k 3 gid k.outFmt i 0xFFFF payload] }) s
    else
      let fs := (partialSegments k.family ch).map fun g => collFrame s k 2 k.upGid g.1 i (treeOf s c).parentMember g.2
      modChunk c i (fun ch => { ch with frames := fs }) s

/-! ## FINAL and DONE (R347, R378 to R380) -/

/-- The pattern class of a chunk (Table 15.10). -/
def patternOf (k : CtxConf) (ch : Chunk) : Nat :=
  128 * b2n (2 ≤ ((k.recs.map fun r => r.2.2).eraseDups).length) + 64 * b2n (ch.elems.any fun e => e.cls ≠ 0) +
  32 * b2n (ch.elems.any fun e => e.full.isSome) + 4 * k.oper + k.family

/-- Whether an operator is bitwise: such chunks carry no residues (R378). -/
def bitwiseOp (oper : Nat) : Bool := 3 ≤ oper && oper ≤ 5

/-- What the checks of a chunk find at FINAL (R378, R379): the first residue that differs from the stored accumulators, else `check`, what the
hardware's own errors make them find: 1 RES3, 2 RES7, 3 a shadow mismatch. -/
def foundCheck (oper : Nat) (ch : Chunk) (check : Nat) : Nat :=
  if bitwiseOp oper then check else ((ch.elems.map Elem.residueCheck).find? (· ≠ 0)).getD check

/-- The last member of a chunk has completed: its checks, and its frames (R347, R378, R379). -/
def finalChunk (c i check : Nat) (s : State) : State :=
  match chunkAt s c i with
  | none => s
  | some ch =>
    let k := ctxOf s c
    let m := ch.mangle
    let check := foundCheck k.oper ch check
    let s := countMangle m 6 1 (modChunk c i (fun x => { x with final := true, finalAt := s.ns }) s)
    if (check = 1 || check = 2) && !bitwiseOp k.oper then
      retireEngine m ch.engine check c (patternOf k ch) (countMangle m 12 1 s)
    else if ch.shadow.isSome then
      let s := countMangle m 13 1 s
      if check = 3 then countMangle m 15 1 (modChunk c i (fun x => { x with testing := true }) s)
      else buildFrames c i s
    else buildFrames c i s

/-- The chunk of a Mangle whose self-test began first. -/
def oldestTest (s : State) (m : Nat) : Option (Nat × Nat) :=
  let began (y : Nat × Nat) : Nat := ((chunkAt s y.1 y.2).map (·.finalAt)).getD 0
  (chunksIn s m fun ch => ch.testing).foldl (fun a y =>
    match a with
    | none => some y
    | some b => if began y < began b then some y else a) none

/-- ENGINE_SELFTEST_DONE (R379, R380): the self-test of the chunk that waits longest for one in a Mangle has ended. -/
def execEngineSelftestDone (mangle : Nat) (activeFails shadowFails : Bool) (s : State) : Answer :=
  match oldestTest s mangle with
  | none => guard (mangle < 2) "Mangle" s
  | some (c, i) =>
    match chunkAt s c i with
    | none => .next s
    | some ch =>
      let p := patternOf (ctxOf s c) ch
      let bad := activeFails || !shadowFails
      let s := modChunk c i (fun x => { x with testing := false }) s
      let s := match (if shadowFails then ch.shadow else none) with
        | some e => retireEngine mangle e 3 c p s
        | none => s
      .next (if bad then retireEngine mangle ch.engine 3 c p s else buildFrames c i s)

/-! ## Accumulation (R362, R363) -/

/-- Opens a chunk: a slot, an engine by round robin, perhaps a shadow check (R347, R376, R379). -/
def openChunk (c i : Nat) (s : State) : State :=
  if (chunkAt s c i).isSome then s
  else
    let k := ctxOf s c
    let m := k.mangle i
    let x := mangleAt s m
    let n := k.chunkLen i
    let engine := x.active.getD (x.next % max 1 x.active.length) 0
    let s := modMangle m (fun x => { x with next := (x.next + 1) % max 1 x.active.length }) s
    let d := draw 4096 s
    let shadow := if d.1 = 0 then freeSpare s m else none
    let s := if d.1 = 0 && shadow.isNone then countMangle m 14 1 d.2 else d.2
    let ch : Chunk := { mangle := m, engine, shadow, opened := s.ns, limit := s.coll.straggle, elems := List.replicate n {}
                        exps := List.replicate (ceilDiv n 16) (if k.family = 0 then some 0 else none) }
    let run := (k.run i).1
    modCtx c (fun r => { r with chunks := r.chunks ++ [(i, ch)]
                                runOpen := if (tfind r.runOpen run).isSome then r.runOpen else tset r.runOpen run { opened := s.ns, start := s.ns, limit := s.coll.runLimit } }) s

/-- Counts what a step of a chunk's engine did (R381). NV is set in each engine that took the addends (R375, R379). -/
def noteStep (ch : Chunk) (promotions fullAdds : Nat) (nv : Bool) (s : State) : State :=
  let s := if promotions = 0 then s else countMangle ch.mangle 8 promotions s
  let s := if fullAdds = 0 then s else countMangle ch.mangle 9 fullAdds s
  if nv then (ch.engine :: ch.shadow.toList).foldl (fun s e => modEngine ch.mangle e (fun e => { e with nv := true }) s) s else s

/-- Takes the values of elements from `first`, a multiple of 16, block by block. -/
def addValues (c i first : Nat) (vs : List (Option Value)) (s : State) : State :=
  match chunkAt s c i with
  | none => s
  | some ch =>
    let k := ctxOf s c
    let r := (chunksOf 16 vs.length vs).foldl (fun (a : Nat × Chunk × Nat × Nat) v =>
      let (b, ch, p, f) := a
      let st := addBlock k.family k.oper (ch.exps.getD b none) ((ch.elems.drop (16 * b)).take 16) v
      (b + 1, { ch with exps := ch.exps.set b st.exp, nv := ch.nv || st.nv,
                        elems := ch.elems.take (16 * b) ++ st.elems ++ ch.elems.drop (16 * b + st.elems.length) },
        p + st.promotions, f + st.fullAdds)) (first / 16, ch, 0, 0)
    noteStep ch r.2.2.1 r.2.2.2 (r.2.1.nv && !ch.nv) (modChunk c i (fun _ => r.2.1) s)

/-- Takes one extension record (R362, R363): its class, or its full-width value, which promotes its element. -/
def addRecord (c i fam : Nat) (rec' : Bytes) (s : State) : State :=
  match chunkAt s c i with
  | none => s
  | some ch =>
    let k := ctxOf s c
    let j := u16 rec' 0
    let cls := u8 rec' 2 % 4
    let e := ch.elems.getD j {}
    let fw := signedOf (8 * fullBytes fam) (field rec' 4 (fullBytes fam))
    let put (e : Elem) (nv : Bool) (p f : Nat) : State :=
      noteStep ch p f nv (modChunk c i (fun ch => { ch with elems := ch.elems.set j e, nv := ch.nv || nv }) s)
    if ch.elems.length ≤ j then s
    else if cls ≠ 0 then
      let r := addClass k.oper e (if cls = 3 then .nan else .inf (decide (cls = 2)))
      put r.1 r.2 0 0
    else if fw = 0 && (k.oper = 0 || k.oper = 6) then s
    else
      let p := e.full.isNone
      let e := if p then promote k.family k.oper (ch.exps.getD (j / 16) none) e else e
      put (addFull k.family k.oper e fw (-(fullShift fam : Int))) false (b2n p) 1

/-- A member has completed its contribution; the last one makes the chunk FINAL (R346, R347). -/
def completeMember (c i member check : Nat) (s : State) : State :=
  let s := modChunk c i (fun ch => { ch with members := ch.members ||| 2 ^ member }) s
  match ctxAt s c, chunkAt s c i with
  | some r, some ch => if (List.range r.ports.length).all (bit ch.members) then finalChunk c i check s else s
  | _, _ => s

/-! ## Contributions (R345) -/

/-- A contribution is dropped under Table 14.5: counted, and raised (R353, R354). -/
def dropContrib (m c idx cause : Nat) (f : Frame) (s : State) : State :=
  raiseLimited 0x0902 c second (fun n s => raise 0x0902 (mangleDie m) 3 c (cause * 2 ^ 24 + f.member) n s)
    (modCtx c (fun r => { r with drops := r.drops + 1 }) (countMangle m idx 1 s))

/-- A contribution is discarded as a duplicate. -/
def dupContrib (m c : Nat) (s : State) : State := modCtx c (fun r => { r with dups := r.dups + 1 }) (countMangle m 5 1 s)

/-- Counts a frame of another generation (R397) in a Hall or Mangle scope, whose STALE_GEN has index `idx`, and in its context. -/
def countGen (scope inst idx c d : Nat) (s : State) : State :=
  let ahead := b2n (128 ≤ d)
  count 9 c ahead 1 (count scope inst (idx + ahead) 1 s)

/-- The RELEASE that an origin sends for the present bound (Table 14.7). -/
def releaseFrame (s : State) (c rel : Nat) : Frame := collFrame s (ctxOf s c) 10 (ctxOf s c).downGid 0 rel 0xFFFF []

/-- Sends the present RELEASE to one member that lost it, at most once per REPLAY_WAIT (R393). It waits for room as replayed frames do. -/
def regainRelease (m c member port : Nat) (s : State) : State :=
  match ctxAt s c with
  | none => s
  | some r =>
    let late := match tfind r.regained member with
      | none => true
      | some t => t + s.coll.replayWait * 1000 ≤ s.ns
    if late then
      let f := releaseFrame s c r.rel
      let s := modCtx c (fun r => { r with regained := tset r.regained member s.ns }) s
      pushOut m (modMangle m (fun x => { x with output := x.output ++ [(port, f)] }) s)
    else s

/-- The values of an endpoint's contribution (R359). -/
def memberValues (fmt n : Nat) (p : Bytes) : List (Option Value) := (List.range n).map fun j => some (decodeElem fmt p j)

/-- An endpoint's contribution to a chunk in the window: checks 8 and 9, then accumulation. -/
def takeMember (m c i n check : Nat) (f : Frame) (s : State) : State :=
  if f.length ≠ chunkBytes f.fmt n then dropContrib m c 3 5 f s
  else if ((chunkAt s c i).map (·.members)).any (bit · f.member) then dupContrib m c s
  else
    let s := countMangle m 0 1 (openChunk c i s)
    completeMember c i f.member check (addValues c i 0 (memberValues f.fmt n f.payload) s)

/-- A partial segment's own length, where SEG names one (R365): window segments, extension segments and the block segment
`last` of a partial of family `fam`. -/
def segLengthOk (n fam last seg len : Nat) : Bool :=
  let nw := ceilDiv n 256
  let size := 4 + fullBytes fam
  if seg < nw then len = min 4096 (16 * n - 4096 * seg)
  else fam ≠ 0 && seg < last && 0 < len && len % size = 0 &&
    (if seg + 1 < last then len = recordsPerSeg fam * size else len ≤ recordsPerSeg fam * size)

/-- The values that a window segment gives (R362, R365): element, EXT of its block, value. -/
def windowValues (words : List Nat) (first : Nat) (p : Bytes) : List (Bool × Value) :=
  (List.range (p.length / 16)).map fun x =>
    let w := words.getD ((first + x) / 16) 0
    (bit w 12, oddValue (signedOf 128 (field p (16 * x) 16)) (signedOf 12 w))

/-- Changes what is held of a child's partial. -/
def modPart (c i member : Nat) (g : Part → Part) (s : State) : State :=
  modChunk c i (fun ch => { ch with parts := tset ch.parts member (g (tget ch.parts member {})) }) s

/-- A child's partial is complete when its block segment and every segment below it have arrived: zero windows that no
extension record names are applied as the value 0 (R346, R365). -/
def settlePart (c i member check : Nat) (s : State) : State :=
  match chunkAt s c i with
  | none => s
  | some ch =>
    let p := tget ch.parts member {}
    if !(List.range (p.last + 1)).all (bit p.segs) then s
    else
      let zs := p.zeros.filter fun j => !p.named.contains j
      let s := if zs = [] then s
        else addValues c i 0 ((List.range ch.elems.length).map fun j => if zs.contains j then some (.fin 0 0) else none) s
      completeMember c i member check s

/-- A partial segment of a chunk in the window (R346, R365, R366, R395). -/
def takeSegment (m c i n check : Nat) (f : Frame) (s : State) : State :=
  let seg := f.fmt % 64
  let whole := !bit f.fmt 6
  let old := chunkAt s c i
  let part := (old.bind fun ch => tfind ch.parts f.member).getD {}
  let has := (old.bind fun ch => tfind ch.parts f.member).isSome
  let done := (old.map (·.members)).any (bit · f.member)
  let k := ctxOf s c
  let sum := k.oper = 0 || k.oper = 6
  let nw := ceilDiv n 256
  if !whole && !has && !done then countMangle m 10 1 s
  else
    let fam := part.words.headD 0 / 8192 % 4
    let fits := if whole then f.length = 2 * ceilDiv n 16 && nw ≤ seg && (seg = nw || u16 f.payload 0 / 8192 % 4 ≠ 0)
      else (done && nw ≤ seg) || segLengthOk n fam part.last seg f.length
    if !fits then dropContrib m c 3 5 f s
    else if done then dupContrib m c s
    else if whole then
      if has && part.fcrc = f.fcrc then dupContrib m c s
      else
        let s := if has then countMangle m 19 1 (resetChunk c i 4 s) else s
        let s := countMangle m 0 1 (openChunk c i s)
        let p : Part := { segs := 2 ^ seg, last := seg, fcrc := f.fcrc
                          words := (List.range (ceilDiv n 16)).map fun b => u16 f.payload (2 * b) }
        settlePart c i f.member check (modPart c i f.member (fun _ => p) s)
    else if bit part.segs seg then dupContrib m c s
    else
      let s := countMangle m 0 1 (modPart c i f.member (fun p => { p with segs := p.segs ||| 2 ^ seg }) s)
      let s :=
        if seg < nw then
          let first := 256 * seg
          let vs := windowValues part.words first f.payload
          let held (x : Bool × Value) : Bool := !sum && x.1 && x.2 = .fin 0 0
          let zs := (List.range vs.length).filter fun x => (vs[x]?).any held
          modPart c i f.member (fun p => { p with zeros := p.zeros ++ zs.map (first + ·) })
            (addValues c i first (vs.map fun x => if held x then none else some x.2) s)
        else
          let recs := chunksOf (4 + fullBytes fam) f.payload.length f.payload
          recs.foldl (fun s r => modPart c i f.member (fun p => { p with named := p.named ++ [u16 r 0] }) (addRecord c i fam r s)) s
      settlePart c i f.member check s

/-- Whether a partial's family is above a context's (R361): told by the words of its block segment. -/
def familyAbove (k : CtxConf) (f : Frame) : Bool :=
  bit f.fmt 7 && !bit f.fmt 6 && (List.range (f.payload.length / 2)).any fun b => k.family < u16 f.payload (2 * b) / 8192 % 4

/-- A contribution at its Mangle: checks 2 to 9 of Table 14.5. One of a block that is not RUNNING is dropped (R401). -/
def takeContrib (m check : Nat) (y : MangleIn) (s : State) : State :=
  let f := y.frame.frame
  let c := f.ctx
  match ctxAt s c with
  | none => countHall y.hall 39 1 s
  | some r =>
    let k := ctxOf s c
    let nc := (treeOf s c).children.length
    let d := (k.gen + 256 - f.gen) % 256
    let port := gangBase s y.frame.inPort
    let child := f.member < nc
    let mine := k.recs.getD (f.member - nc) (0, 0, 0)
    let w := (f.chunk + 2 ^ 32 - r.rel % 2 ^ 32) % 2 ^ 32
    let i := r.rel + w
    if !ctxRunning s c then countPool f.latchkey y.hall 0 1 s
    else if r.failed then countMangle m 27 1 s
    else if d ≠ 0 then countGen 7 m 16 c d (modCtx c (fun r => { r with drops := r.drops + 1 }) s)
    else if r.ports[f.member]? ≠ some port then dropContrib m c 1 2 f s
    else if !child && k.checkGid && f.srcGid ≠ mine.1 then dropContrib m c 1 2 f s
    else if (if child then !bit f.fmt 7 || familyAbove k f else f.fmt ≠ mine.2.2) then dropContrib m c 2 3 f s
    else if 2 ^ 31 ≤ w then regainRelease m c f.member port (dupContrib m c s)
    else if k.slots ≤ w then dropContrib m c 4 4 f s
    else if r.done.contains i then dupContrib m c s
    else if child then takeSegment m c i (k.chunkLen i) check f s
    else takeMember m c i (k.chunkLen i) check f s

/-! ## The input of a Mangle (R341) -/

/-- The buffer of a Mangle that a Hall's contributions enter: one for each Hall that it serves over their own link, one (4) for relayed
routes; none while no route of R16 is in service. -/
def inputSource (s : State) (m h : Nat) : Option Nat := (toMangle s h m).map fun r => if r.length = 2 then h else 4

/-- Takes waiting contributions into a Mangle's input buffers, in order, as far as there is room (R341). -/
def admitInput (m : Nat) (s : State) : State :=
  let r := (mangleAt s m).input.foldl (fun (a : List MangleIn × List Nat × State) y =>
    let src := (inputSource a.2.2 m y.hall).getD 5
    let used := ((a.1.filter fun z => z.buffer = some src).map fun z => z.frame.cells).sum
    if y.buffer.isSome then (a.1 ++ [y], a.2)
    else if a.2.1.contains src || (if src = 5 then 0 else if src = 4 then 2048 else 8192) < used + y.frame.cells then
      (a.1 ++ [y], a.2.1 ++ [src], a.2.2)
    else (a.1 ++ [{ y with buffer := some src, since := s.ns }], a.2.1, freeFrame y.frame y.hall a.2.2)) ([], [], s)
  modMangle m (fun x => { x with input := r.1 }) r.2.2

/-- A contribution in its ingress Hall: check 1 of Table 14.5, then the input of its Mangle, or of the one that survives it (R341, R345,
R403). -/
def collUp (h : Nat) (x : Held) (s : State) : State :=
  let c := x.frame.ctx
  if (ctxAt s c).isNone || !(ctxOf s c).reduces then
    raiseLimited 0x0902 c second (fun n s => raise 0x0902 (hallDie h) 3 c (2 ^ 24 + x.frame.member) n s)
      (freeFrame x h (countHall h 39 1 s))
  else
    let home := (ctxOf s c).mangle x.frame.chunk
    let m := if (mangleAt s home).failed then 1 - home else home
    let s := admitInput m (modMangle m (fun y => { y with input := y.input ++ [{ hall := h, frame := x, buffer := none }] }) s)
    if ((mangleAt s m).input.getLast?).any (fun y => y.buffer.isNone) then countMangle m 7 1 s else s

/-- The contribution that a Mangle takes next: the one that reached it first, and of those that did at the same time the one of the lowest Hall,
relayed ones last (R349). -/
def nextInput (l : List MangleIn) : Option MangleIn :=
  (l.filter (·.buffer.isSome)).foldl (fun a y =>
    match a with
    | none => some y
    | some b => if y.since < b.since || (y.since = b.since && y.buffer.getD 5 < b.buffer.getD 5) then some y else a) none

/-- MANGLE_CONTRIB_RECEIVED (R345): a Mangle takes the contribution that came into its input first. (DEDUCED, log 47.) -/
def execMangleContribReceived (mangle check : Nat) (s : State) : Answer :=
  match nextInput (mangleAt s mangle).input with
  | none => guard (mangle < 2) "Mangle" s
  | some y =>
    let s := modMangle mangle (fun x => { x with input := x.input.erase y }) s
    .next (takeContrib mangle check y (pushOut mangle (admitInput mangle s)))

/-! ## CHUNK_DONE and the release of runs (R347, R385, R388) -/

/-- Releases complete runs at the root, lowest first (R385), with fuel. -/
def releaseRuns (c : Nat) : Nat → State → State
  | 0, s => s
  | n + 1, s =>
    match ctxAt s c with
    | none => s
    | some r =>
      let b := (ctxOf s c).run r.rel
      if (List.range (b.2 - r.rel)).all fun x => r.done.contains (r.rel + x) then
        releaseRuns c n (modCtx c (fun r => { r with rel := b.2, done := r.done.filter (b.2 ≤ ·), due := true
                                                     runOpen := tdel r.runOpen b.1, stalled := r.stalled.filter (· ≠ b.1) }) s)
      else s

/-- Bytes of a Mangle's Hamper write buffer that are in use (R388). -/
def bufferUsed (s : State) (m : Nat) : Nat :=
  (s.coll.ctxs.flatMap fun e => (e.2.hamper.filter fun x => x.2.mangle = m && !x.2.written).map fun x => x.2.size).sum

/-- Whether all the frames of a chunk have room to be handed on. -/
def chunkRoom (s : State) (c : Nat) (ch : Chunk) : Bool :=
  let k := ctxOf s c
  let cells := (ch.frames.map cellsOf).sum
  if !isRoot s c then mangleRoom s ch.mangle (gateHall s ch.mangle (((ctxAt s c).bind (·.parent)).getD 0)) cells
  else if k.op = 1 then
    mangleRoom s ch.mangle (gateHall s ch.mangle (((ctxAt s c).bind fun r => r.ports[(treeOf s c).children.length + k.rootMember]?).getD 0)) cells
  else pairRoom s ch.mangle cells

/-- The chunk of a Mangle that has been FINAL longest and has its frames. -/
def oldestFinal (s : State) (m : Nat) : Option (Nat × Nat × Chunk) :=
  (chunksIn s m fun ch => ch.final && !ch.testing && ch.frames ≠ []).foldl (fun a y =>
    match chunkAt s y.1 y.2, a with
    | none, _ => a
    | some ch, none => some (y.1, y.2, ch)
    | some ch, some b => if ch.finalAt < b.2.2.finalAt then some (y.1, y.2, ch) else a) none

/-- Writes a chunk's Hamper entry to the write buffer, or marks the chunk unlogged where no space is left (R388, R390).
-/
def logChunk (c i : Nat) (ch : Chunk) (s : State) : State :=
  let size := entrySize ((ch.frames.map fun f => f.length).sum)
  let excess := size - entrySize (partialBytes (ctxOf s c).chunkElems)
  let e : Hamper := { mangle := ch.mangle, size, excess, since := s.ns, wait := s.coll.replayWait, frames := ch.frames }
  let s1 := modCtx c (fun r => { r with hamper := tset r.hamper i e }) s
  if excess = 0 || hamperFits s1 ((reservers s1).map (hamperUse s1 ch.mangle)) then s1
  else countMangle ch.mangle 23 1 (modCtx c (fun r => { r with unlogged := r.unlogged ++ [i] }) s)

/-- Hands on the frames of a chunk (R347, R348). -/
def handChunk (c : Nat) (ch : Chunk) (s : State) : State :=
  let k := ctxOf s c
  ch.frames.foldl (fun s f =>
    if !isRoot s c then handOne ch.mangle (((ctxAt s c).bind (·.parent)).getD 0) f s
    else if k.op = 1 then
      handOne ch.mangle (((ctxAt s c).bind fun r => r.ports[(treeOf s c).children.length + k.rootMember]?).getD 0) f s
    else handGroup ch.mangle f s) s

/-- CHUNK_DONE (R347): the oldest FINAL chunk of a Mangle is handed on, once its Halls have room and its entry fits the
write buffer; at the root, runs that are complete are released. -/
def execChunkDone (mangle : Nat) (s : State) : Answer :=
  let s := if mangle < 2 then pushOut mangle s else s
  match oldestFinal s mangle with
  | none => guard (mangle < 2) "Mangle" s
  | some (c, i, ch) =>
    let root := isRoot s c
    let size := entrySize ((ch.frames.map fun f => f.length).sum)
    if (mangleAt s mangle).output ≠ [] || !chunkRoom s c ch || (!root && 4194304 < bufferUsed s mangle + size) then .next s
    else
      let s := if root then s else logChunk c i ch s
      let s := modCtx c (fun r => { r with chunks := tdel r.chunks i, done := r.done ++ [i] }) s
      let s := handChunk c ch s
      .next (if root then releaseRuns c (((ctxAt s c).map fun r => r.done.length).getD 0) s else s)

/-- RELEASE_SEND (R348): a RELEASE of the present bound goes to the group, at most one per context in 500 ns. -/
def execReleaseSend (ctx : Nat) (s : State) : Answer :=
  match ctxAt s ctx with
  | none => guard (ctx < 65536) "context" s
  | some r =>
    let m := (ctxOf s ctx).home
    let f := releaseFrame s ctx r.rel
    if r.due && isRoot s ctx && (r.lastRelease.all fun t => t + 500 ≤ s.ns) && groupRoom s m f then
      .next (handGroup m f (modCtx ctx (fun r => { r with due := false, lastRelease := some s.ns }) s))
    else .next s

/-- HAMPER_ENTRY_WRITE (R388): the oldest entry in a Mangle's write buffer goes to Cellar when the HAMPER regulator of
its Hall has the tokens. -/
def execHamperEntryWrite (mangle : Nat) (s : State) : Answer :=
  let all := s.coll.ctxs.flatMap fun e => (e.2.hamper.filter fun x => x.2.mangle = mangle && !x.2.written).map fun x => (e.1, x.1, x.2)
  let first := all.foldl (fun (a : Option (Nat × Nat × Hamper)) y =>
    match a with
    | none => some y
    | some b => if y.2.2.since < b.2.2.since then some y else a) none
  match first with
  | none => guard (mangle < 2) "Mangle" s
  | some (c, i, e) =>
    let h := 2 * mangle + i % 2
    match takeTokens h 1 (e.size / 64) s with
    | none => .next (count 0xB (5 * h + 1) 2 1 s)
    | some s =>
      let s := countLines h 1 1 (e.size / 64) s
      let s := countMangle mangle 22 e.size (countMangle mangle 21 1 s)
      .next (modCtx c (fun r => { r with hamper := tset r.hamper i { e with written := true } }) s)

/-! ## Results and releases in transit (R350) -/

/-- A RESULT or RELEASE is dropped in a Hall under Table 14.8. -/
def dropDown (h idx cause : Nat) (x : Held) (s : State) : State :=
  raiseLimited 0x0902 x.frame.ctx second (fun n s =>
    raise 0x0902 (hallDie h) 3 x.frame.ctx (cause * 2 ^ 24 + x.frame.member) n s) (freeFrame x h (countHall h idx 1 s))

/-- The part accepts a RELEASE: REL moves, and what it covers is freed (R342, R389, R396). -/
def acceptRelease (c rel : Nat) (s : State) : State :=
  match ctxAt s c with
  | none => s
  | some r =>
    let gone := r.chunks.filter fun x => x.1 < rel
    let s := gone.foldl (fun s x => countMangle x.2.mangle 20 1 s) s
    modCtx c (fun r => { r with rel, restart := some (s.ns, s.coll.replayWait), chunks := r.chunks.filter fun x => rel ≤ x.1, hamper := r.hamper.filter fun x => rel ≤ x.1
                                done := r.done.filter (rel ≤ ·), unlogged := r.unlogged.filter (rel ≤ ·)
                                runOpen := r.runOpen.filter fun x => rel ≤ x.1 }) s

/-- Replicates a received RESULT or RELEASE to its context's group (R350, R282). A parity error of the group entry sends
it to the Chute (R215). -/
def forwardDown (h : Nat) (x : Held) (s : State) : State :=
  let c := x.frame.ctx
  if (4, h, c) ∈ s.fwd.bad then freeFrame x h (toChute h 3 c x.pipe x (countHall h 22 1 s))
  else
    let l := liveMembers s c ((groupPorts (entryWords s 3 c)).filter (· ≠ gangBase s x.inPort))
    let s := if l.2 = 0 then s else countHall h 13 l.2 s
    replicate h l.1 { x with via := .coll, vc := 5 } s

/-- A RESULT or RELEASE in the Hall that receives it: the checks of Table 14.8 (R350). -/
def collDown (h : Nat) (x : Held) (s : State) : State :=
  let f := x.frame
  let c := f.ctx
  match ctxAt s c with
  | none => dropDown h 39 1 x s
  | some r =>
    let k := ctxOf s c
    let d := (k.gen + 256 - f.gen) % 256
    let w := (f.chunk + 2 ^ 32 - r.rel % 2 ^ 32) % 2 ^ 32
    if !k.reduces then dropDown h 39 1 x s
    else if (f.kind = 3 && k.op ≠ 3) || isRoot s c then dropDown h 40 6 x s
    else if r.parent ≠ some (gangBase s x.inPort) then dropDown h 40 6 x s
    else if d ≠ 0 then countGen 6 h 44 c d (freeFrame x h s)
    else if f.kind = 3 then forwardDown h x (countHall h 41 1 s)
    else if w = 0 || 2 ^ 31 ≤ w then freeFrame x h (countHall h 43 1 s)
    else forwardDown h x (countHall h 42 1 (acceptRelease c (r.rel + w) s))

/-! ## Stragglers, stalled runs and replays (R391, R399) -/

/-- COLL_STRAGGLER (R399): a chunk has stayed OPEN for the STRAGGLE_TIME under which its timer started. -/
def execCollStraggler (ctx chunk : Nat) (s : State) : Answer :=
  match ctxAt s ctx, chunkAt s ctx chunk with
  | some r, some ch =>
    let missing := (List.range r.ports.length).filter fun m => !bit ch.members m
    if ch.final || ch.straggler || !ctxRunning s ctx || s.ns < ch.opened + ch.limit * 1000 then .next s
    else
      let s := countMangle ch.mangle 26 1 (modChunk ctx chunk (fun x => { x with straggler := true }) s)
      .next (raiseLimited 0x0923 ctx second (fun _ s =>
        raise 0x0923 (mangleDie ch.mangle) 3 ctx chunk (missing.length * 2 ^ 24 + missing.headD 0) s) s)
  | _, _ => guard (ctx < 65536) "context" s

/-- COLL_RUN_STALLED (R399): at the root, the run whose first chunk is `run` is not released within RUN_LIMIT of a chunk
of it first entering OPEN. -/
def execCollRunStalled (ctx run : Nat) (s : State) : Answer :=
  match ctxAt s ctx with
  | none => guard (ctx < 65536) "context" s
  | some r =>
    match tfind r.runOpen run with
    | none => .next s
    | some t =>
      if !isRoot s ctx || run < r.rel || r.stalled.contains run || !ctxRunning s ctx || s.ns < t.start + t.limit * 1000000 then .next s
      else
        .next (raise 0x0924 (mangleDie (ctxOf s ctx).home) 4 ctx r.rel ((s.ns - t.opened) / 1000000)
          (modCtx ctx (fun r => { r with stalled := r.stalled ++ [run] }) s))

/-- REPLAY_WAIT_EXPIRED (R391): REPLAY_WAIT has passed without a RELEASE advance. `lost` lists what reads of entries find:
chunk, line address, and whether the line was poisoned (R306). -/
def execReplayWaitExpired (ctx : Nat) (lost : List (Nat × Nat × Bool)) (s : State) : Answer :=
  match ctxAt s ctx with
  | none => guard (ctx < 65536) "context" s
  | some r =>
    if isRoot s ctx || r.failed || !ctxRunning s ctx || !r.replayTimer.any (fun t => t.1 + t.2 * 1000 ≤ s.ns) then .next s
    else
      let real := lost.filter fun x => r.rel ≤ x.1 && (tfind r.hamper x.1).any fun e => e.written
      let s := real.foldl (fun s x =>
        let h := 2 * (ctxOf s ctx).mangle x.1 + x.1 % 2
        demandLine h 1 x.2.1 (if x.2.2 then .poisoned else .uncorrectable) s) s
      .next (replay ctx (real.map fun x => (x.1, if x.2.2 then 2 else 1)) s)

/-! ## Blocks that quiesce (R401) -/

/-- The block enters QUIESCING: every OPEN chunk of its contexts is reset (R401). -/
def quiesceColl (key : Nat) (s : State) : State :=
  (blockCtxs s key).foldl (fun s c =>
    match ctxAt s c with
    | none => s
    | some r => (r.chunks.filter fun x => !x.2.final).foldl (fun s x => resetChunk c x.1 6 s) s) s

/-- Whether a chunk of a block's contexts is in flight: OPEN or FINAL (R401). -/
def collInFlight (s : State) (key : Nat) : Bool := (blockCtxs s key).any fun c => (ctxAt s c).any fun r => r.chunks ≠ []

end Sys2Proof.Machine
end

