-- ==== Sys2Proof/Machine/Collect.lean ====
section
/-!
DEFINITION. The commands of collectives (R355, R383, R407), and what a commit does to contexts (R335, R336, R398,
Table 14.14).
-/
namespace Sys2Proof.Machine

/-! ## Commit of contexts -/

/-- The port that a routing entry gives for a GID (R335). -/
def derivePort (s : State) (gid : Nat) : Option Nat :=
  let e := entryWord s 1 gid
  if e / 2 ^ 31 = 0 then none
  else
    match candidates (entryWords s 2 (e / 1024 % 16384)) with
    | [] => some (e % 1024)
    | c :: _ => some c.1

/-- The port of each member of a context, in member order, and of its parent, as its commit fixes them (R335). -/
def ctxPorts (s : State) (c : Nat) : List (Option Nat) × Option (Option Nat) :=
  let k := ctxOf s c
  let t := treeOf s c
  let at' (pos : Nat) : Option Nat := (t.gids.find? fun g => g.1 = pos).bind fun g => derivePort s g.2
  (t.children.map at' ++ k.recs.map (fun r => if r.2.1 = 0xFFFF then derivePort s r.1 else some r.2.1),
    if t.j = 0 then none else some (at' t.parentPos))

/-- The words of group CTX: V = 1, REFLECT = 0, the member ports (R336). -/
def groupWords (ports : List Nat) : List Nat :=
  2 ^ 31 :: (List.range 40).map fun n => maskOf ((ports.filter fun p => p / 32 = n).map (· % 32))

/-- Makes a context valid afresh, or withdraws it, as the live set-up asks (R336, R398, Tables 14.15 to 14.17). `oldGen`
is the GEN it had. -/
def applyCtx (c oldGen : Nat) (s : State) : State :=
  let was := (ctxAt s c).isSome
  let live (g : Tbl ItemKey Bytes → Tbl ItemKey Bytes) (s : State) : State := { s with setup := { s.setup with live := g s.setup.live } }
  let good (s : State) : State := { s with fwd := { s.fwd with bad := s.fwd.bad.filter fun b => !(b.1 = 4 && b.2.2 = c) } }
  if liveValue s (.ctx c) = [] then
    let s := live (fun l => tdel (tdel l (.ctx c)) (.tree c)) s
    if was then
      let s := good (live (fun l => tdel l (.entry 3 c)) s)
      raiseLead 0x0903 1 c oldGen 0 { s with coll := { s.coll with ctxs := tdel s.coll.ctxs c } }
    else s
  else
    let p := ctxPorts s c
    let ports := p.1.map (·.getD 0)
    let run : CtxRun := { ports, parent := p.2.map (·.getD 0) }
    let s := good (live (fun l => tset l (.entry 3 c) (wordBytes (groupWords ports))) s)
    raiseLead 0x0901 1 c ((ctxOf s c).gen * 256 + b2n (isRoot s c)) ports.length
      { s with coll := { s.coll with ctxs := tset s.coll.ctxs c run } }

/-- Whether a port may be a member or parent port of a context (Table 14.14). -/
def memberPortOk (s : State) (c p : Nat) : Bool :=
  p < 1280 && carriesFrames s p && ((portOwner s p).isNone || portOwner s p = ctxOwner s c)

/-- The checks of Table 14.14, R367 and R390 on the state `s` that a commit would leave. `changed` lists the contexts whose
descriptor or tree the commit writes, `groups` the multicast groups it writes. -/
def ctxCommitRefusal (changed groups : List Nat) (s : State) : Option Refuse :=
  let valid := sortNat (s.coll.ctxs.map (·.1))
  let first (why : Nat) (bad : Nat → Bool) : Option Refuse := (valid.find? bad).map fun c => badParam why c
  let ports (c : Nat) : List (Option Nat) :=
    if changed.contains c then (ctxPorts s c).1 ++ (ctxPorts s c).2.toList
    else ((ctxAt s c).map fun r => (r.ports ++ r.parent.toList).map some).getD []
  let members (c : Nat) : Nat := ((ctxAt s c).map fun r => r.ports.length).getD 0
  let self (g : Nat) : Bool := s.maloa.selfGidValid && s.maloa.selfGid = g
  let unfit := [firstUnfit s 0 (reservers s), firstUnfit s 1 (reservers s)].filterMap id
  [first 0x90 fun c => (ctxOf s c).reduces && (liveValue s (.tree c) = [] || members c = 0 || 64 < members c),
   first 0x91 fun c => (treeOf s c).s ≤ (treeOf s c).j || (treeOf s c).uses.any fun p => !((treeOf s c).gids.any fun g => g.1 = p),
   first 0x92 fun c => (ports c).any Option.isNone,
   first 0x93 fun c => (ports c).any fun p => !memberPortOk s c (p.getD 1280),
   first 0x94 fun c => decide
     (((ctxOf s c).rootMember < (ctxOf s c).recs.length : Bool) ≠ ((ctxOf s c).op = 1 && isRoot s c : Bool)),
   first 0x95 fun c => self (ctxOf s c).upGid || self (ctxOf s c).downGid,
   first 0x96 fun c => groups.contains c,
   first 0x97 fun c => (ctxOwner s c).isNone,
   (unfit.find? fun u => unfit.all fun v => u.1 ≤ v.1).map fun u => { status := 8, reason := u.1, info := u.2 }].findSome? id

/-! ## What a transaction sees of contexts -/

/-- Whether a context is valid or staged in a transaction. -/
def ctxKnown (s : State) (t : Option Txn) (c : Nat) : Bool :=
  (ctxAt s c).isSome || (t.bind fun t => t.staged (.ctx c)).isSome

/-- Whether a block's range holds a context, in the live layout or in one that the transaction stages. -/
def ctxInRange (s : State) (t : Option Txn) (c : Nat) : Bool :=
  (ctxOwner s c).isSome ||
  (t.any fun t => t.items.any fun i => match i.key with
    | .block _ => !isDeletion i.value && (layoutOf i.value {}).hasCtxOf c
    | _ => false)

/-! ## CTX_CREATE, CTX_MODIFY, CTX_DESTROY, TREE_SET, CTX_READ (Tables 14.15 to 14.19) -/

/-- Whether a TENANT's block holds every context, port and GID that a descriptor names (R250). -/
def ctxInBlock (q : Request) (s : State) (key : Nat) : Bool :=
  let k := ctxConf q.params
  (blockAt s key).any fun b => b.hasCtxOf k.ctx && b.hasGid k.upGid && b.hasGid k.downGid &&
    (k.recs.take ((q.params.length - 48) / 8)).all fun r => b.hasGid r.1 && (r.2.1 = 0xFFFF || b.hasPort r.2.1)

/-- The LENGTHs of a descriptor with its records. -/
def ctxLength (n : Nat) : Bool := 48 ≤ n && n ≤ 560 && n % 8 = 0

/-- The checks of a descriptor (Table 14.15, R338): reserved codes and bits, ranges, consistency. -/
def ctxChecks (p : Bytes) : List (Bool × Refuse) :=
  let k := ctxConf p
  let bc := k.op = 2
  let recs := List.range (min (u8 p 9) ((p.length - 48) / 8))
  let res (off : Nat) (bad : Bool) : Bool × Refuse := (bad, badParam 3 off)
  let rng (off : Nat) (bad : Bool) : Bool × Refuse := (bad, badParam 4 off)
  let inc (off : Nat) (bad : Bool) : Bool × Refuse := (bad, badParam 6 off)
  let bits (fmt : Nat) : Bool := bitwiseOp k.oper && !isInt fmt
  [rng 9 (64 < u8 p 9),
   res 3 (4 ≤ u8 p 3), res 4 (4 ≤ u8 p 4 || k.op = 0), res 5 (8 ≤ u8 p 5 || k.oper = 7), res 6 (!bc && !fmtKnown k.outFmt),
   res 7 (8 ≤ u8 p 7 || k.round = 3), res 8 (2 ≤ u8 p 8), res 20 (2 ^ 20 ≤ u32 p 20), res 24 (2 ^ 20 ≤ u32 p 24)] ++
  (recs.flatMap fun r => [res (48 + 8 * r) (2 ^ 20 ≤ u32 p (48 + 8 * r)), res (54 + 8 * r) (!bc && !fmtKnown (u8 p (54 + 8 * r)))]) ++
  [rng 10 (k.chunkElems < 256 || 1024 < k.chunkElems || k.chunkElems % 32 ≠ 0),
   rng 18 (k.rootMember ≠ 0xFFFF && k.recs.length ≤ k.rootMember), rng 28 (131072 < k.slots || (!bc && k.slots = 0)),
   rng 32 (k.nTotal = 0 || 1048576 < k.nTotal)] ++
  (recs.map fun r => rng (52 + 8 * r) (u16 p (52 + 8 * r) ≠ 0xFFFF && 1280 ≤ u16 p (52 + 8 * r))) ++
  [chk (p.length ≠ 48 + 8 * u8 p 9) (badParam 1 0xFFFF), inc 10 (!bc && 4096 < chunkBytes k.outFmt k.chunkElems + 8),
   inc 10 (!bc && k.recs.any fun r => 4096 < chunkBytes r.2.2 k.chunkElems),
   inc 5 (!bc && (bits k.outFmt || k.recs.any fun r => bits r.2.2)),
   inc 5 (bc && k.oper ≠ 0), inc 6 (bc && k.outFmt ≠ 0), inc 7 (bc && u8 p 7 ≠ 0), inc 28 (bc && k.slots ≠ 0)] ++
  (recs.map fun r => inc (54 + 8 * r) (bc && u8 p (54 + 8 * r) ≠ 0)) ++
  [inc 3 (k.stripe && k.slots % 2 = 1)]

/-- A descriptor with its reserved bytes 0. -/
def cleanCtx (p : Bytes) : Bytes :=
  p.take 36 ++ zeros 12 ++ (List.range (u8 p 9)).flatMap fun r => (p.drop (48 + 8 * r)).take 7 ++ zeros 1

/-- CTX_CREATE: what it admits. -/
def opCtxCreate : OpSpec := { opcode := 0x0900, tenant := true, grant := some 1, coll := true, lengths := ctxLength, staging := true }

/-- CTX_CREATE (Table 14.15). (DEDUCED, log 46.) -/
def execCtxCreate (q : Request) (s : State) : Answer :=
  runCommand opCtxCreate (.ctxCreate q) q (ctxInBlock q) (fun _ s =>
    let c := u16 q.params 0
    withChecks (ctxChecks q.params ++ [chk (!ctxInRange s (namedTxn q s) c) (badParam 0x81 0),
        chk (ctxKnown s (namedTxn q s) c) (badParam 0x82 0)]) s fun s =>
      stageDone q 0 [{ key := .ctx c, value := cleanCtx q.params }] [] s) s

/-- CTX_MODIFY: what it admits. -/
def opCtxModify : OpSpec := { opcode := 0x0901, tenant := true, grant := some 1, coll := true, lengths := ctxLength, staging := true }

/-- CTX_MODIFY (Table 14.16). -/
def execCtxModify (q : Request) (s : State) : Answer :=
  runCommand opCtxModify (.ctxModify q) q (ctxInBlock q) (fun _ s =>
    let c := u16 q.params 0
    withChecks (ctxChecks q.params ++ [chk ((ctxAt s c).isSome && u8 (liveValue s (.ctx c)) 2 = u8 q.params 2) (badParam 6 2),
        chk (!ctxInRange s (namedTxn q s) c) (badParam 0x81 0), chk (!ctxKnown s (namedTxn q s) c) (badParam 0x83 0)]) s fun s =>
      stageDone q 0 [{ key := .ctx c, value := cleanCtx q.params }] [] s) s

/-- Whether the context in the first two parameter bytes is a TENANT's. -/
def ctxOfBlock (q : Request) (s : State) (key : Nat) : Bool := (blockAt s key).any fun b => b.hasCtxOf (u16 q.params 0)

/-- CTX_DESTROY: what it admits. -/
def opCtxDestroy : OpSpec := { opcode := 0x0902, tenant := true, grant := some 1, coll := true, lengths := fun n => n = 4, staging := true }

/-- CTX_DESTROY (Table 14.17). -/
def execCtxDestroy (q : Request) (s : State) : Answer :=
  runCommand opCtxDestroy (.ctxDestroy q) q (ctxOfBlock q) (fun _ s =>
    let c := u16 q.params 0
    withChecks [chk (!ctxKnown s (namedTxn q s) c) (badParam 0x83 0)] s fun s =>
      stageDone q 0 [{ key := .ctx c, value := [] }] [] s) s

/-- Positions with their GIDs that a TREE_SET adds to those staged before it, the part's own ones only. -/
def treeGids (t : TreeConf) (old new : List (Nat × Nat)) : List (Nat × Nat) :=
  new.foldl (fun l g => tset l g.1 g.2) old |>.filter fun g => t.uses.contains g.1

/-- A tree as its item. -/
def TreeConf.bytes (t : TreeConf) : Bytes :=
  beBytes 1 t.k ++ zeros 3 ++ beBytes 4 t.s ++ beBytes 4 t.j ++ t.gids.flatMap fun g => beBytes 4 g.1 ++ beBytes 4 g.2

/-- TREE_SET: what it admits. -/
def opTreeSet : OpSpec :=
  { opcode := 0x0904, tenant := true, grant := some 1, coll := true, lengths := fun n => 16 ≤ n && n ≤ 4080, staging := true }

/-- TREE_SET (Table 14.18). -/
def execTreeSet (q : Request) (s : State) : Answer :=
  let p := q.params
  let n := (p.length - 16) / 4
  let carried := (List.range n).map fun i => (u32 p 12 + i, u32 p (16 + 4 * i) % 2 ^ 20)
  runCommand opTreeSet (.treeSet q) q
    (fun s key => ctxOfBlock q s key && (blockAt s key).any fun b => carried.all fun g => b.hasGid g.2) (fun _ s =>
    let c := u16 p 0
    let t : TreeConf := { k := u8 p 2, s := u32 p 4, j := u32 p 8 }
    let staged := treeConf (((namedTxn q s).bind fun x => x.staged (.tree c)).getD [])
    let old := if { staged with gids := [] } = t then staged.gids else []
    let e := (ctxConf (seenValue s (namedTxn q s) (.ctx c))).recs.length
    withChecks [chk (t.k = 0 || 64 < t.k) (badParam 4 2), chk (t.s = 0 || 1048576 < t.s) (badParam 4 4), chk (t.s ≤ t.j) (badParam 4 8),
        chk (t.s ≤ u32 p 12 || t.s < u32 p 12 + n) (badParam 4 12), chk (64 < t.children.length + e) (badParam 6 2),
        chk (!ctxKnown s (namedTxn q s) c) (badParam 0x83 0)] s fun s =>
      let t := { t with gids := treeGids t old carried }
      let root := t.j = 0
      let missing := (t.uses.filter fun x => !(t.gids.any fun g => g.1 = x)).length
      stageDone q 0 [{ key := .tree c, value := t.bytes }]
        (beBytes 2 t.children.length ++ beBytes 1 (if root then 0xFF else t.parentMember) ++ zeros 1 ++
          beBytes 4 (if root then 0xFFFFFFFF else t.parentPos) ++ beBytes 2 missing ++ zeros 2) s) s

/-- CTX_READ: what it admits. -/
def opCtxRead : OpSpec := { opcode := 0x0903, observer := true, tenant := true, lengths := fun n => n = 4, reads := true }

/-- The chunks of a context in a Mangle of a striped context, or all of them. -/
def CtxRun.chunksOf (r : CtxRun) (k : CtxConf) (m : Nat) : List (Nat × Chunk) :=
  r.chunks.filter fun x => !k.stripe || x.2.mangle = m

/-- CTX_READ (Table 14.19). (DEDUCED, log 46.) -/
def execCtxRead (q : Request) (s : State) : Answer :=
  runCommand opCtxRead (.ctxRead q) q (ctxOfBlock q) (fun _ s =>
    let c := u16 q.params 0
    match ctxAt s c with
    | none => .refuse (badParam 0x83 0) s
    | some r =>
      let k := ctxOf s c
      let t := treeOf s c
      let nc := t.children.length
      .ok (beBytes 1 (1 + 2 * b2n (isRoot s c)) ++ beBytes 1 t.k ++ beBytes 2 (r.parent.getD 0xFFFF) ++ beBytes 4 t.s ++
        beBytes 4 t.j ++ beBytes 8 r.rel ++ beBytes 4 (r.chunksOf k (u8 q.params 2)).length ++ beBytes 4 r.dups ++
        beBytes 4 r.drops ++ liveValue s (.ctx c) ++
        (List.range r.ports.length).flatMap fun m => beBytes 2 (r.ports.getD m 0) ++ zeros 1 ++ beBytes 1 (b2n (nc ≤ m))) s) s

/-! ## Engine flags and states (Tables 15.14, 15.15, 16.9) -/

/-- ENGINE_FLAGS_READ: what it admits. -/
def opEngineFlagsRead : OpSpec := { opcode := 0x0910, observer := true, lengths := fun n => n = 4, reads := true }

/-- ENGINE_FLAGS_READ (Table 15.14). -/
def execEngineFlagsRead (q : Request) (s : State) : Answer :=
  runCommand opEngineFlagsRead (.engineFlagsRead q) q anyBlock (fun _ s =>
    let m := u8 q.params 0
    withChecks [chk (1 < m) (badParam 4 0)] s fun s =>
      .ok (beBytes 1 m ++ beBytes 1 34 ++ zeros 2 ++ (List.range 34).flatMap fun e =>
        let x := (mangleAt s m).engines.getD e {}
        beBytes 1 e ++ beBytes 1 (b2n x.ov + 2 * b2n x.uf + 4 * b2n x.nx + 8 * b2n x.nv + 16 * b2n x.retired) ++ zeros 2) s) s

/-- ENGINE_FLAGS_CLEAR: what it admits. -/
def opEngineFlagsClear : OpSpec := { opcode := 0x0911, lengths := fun n => n = 12 }

/-- An engine with the named flags cleared. -/
def Engine.clear (f : Nat) (e : Engine) : Engine :=
  { e with ov := e.ov && !bit f 0, uf := e.uf && !bit f 1, nx := e.nx && !bit f 2, nv := e.nv && !bit f 3 }

/-- ENGINE_FLAGS_CLEAR (Table 15.15). -/
def execEngineFlagsClear (q : Request) (s : State) : Answer :=
  runCommand opEngineFlagsClear (.engineFlagsClear q) q anyBlock (fun _ s =>
    let p := q.params
    let m := u8 p 0
    let es := setBits 34 (u64 p 4)
    withChecks [chk (1 < m && m ≠ 0xFF) (badParam 3 0), chk (16 ≤ u8 p 1) (badParam 3 1), chk (2 ^ 34 ≤ u64 p 4) (badParam 3 4),
        chk (u8 p 1 = 0) (badParam 4 1), chk (u64 p 4 = 0) (badParam 4 4)] s fun s =>
      let ms := if m = 0xFF then [0, 1] else [m]
      let s := ms.foldl (fun s m => es.foldl (fun s e => modEngine m e (Engine.clear (u8 p 1)) s) s) s
      .ok (beBytes 4 (ms.length * es.length)) s) s

/-- ENGINE_STATE_READ: what it admits. -/
def opEngineStateRead : OpSpec := { opcode := 0x0923, observer := true, lengths := fun n => n = 4, reads := true }

/-- ENGINE_STATE_READ (Table 16.9). -/
def execEngineStateRead (q : Request) (s : State) : Answer :=
  runCommand opEngineStateRead (.engineStateRead q) q anyBlock (fun _ s =>
    let m := u8 q.params 0
    withChecks [chk (1 < m) (badParam 4 0)] s fun s =>
      let x := mangleAt s m
      let shadowing (e : Nat) : Bool := chunksIn s m (fun ch => ch.shadow = some e) ≠ []
      let spare (e : Nat) : Bool := !x.active.contains e && !(x.engines.getD e {}).retired
      let state (e : Nat) : Nat :=
        if (x.engines.getD e {}).retired then 3 else if x.active.contains e then 0 else if shadowing e then 2 else 1
      .ok (beBytes 1 m ++ beBytes 1 (if x.failed then 2 else b2n (x.engines.any (·.retired))) ++ beBytes 1 x.active.length ++
        beBytes 1 ((List.range 34).filter fun e => spare e && !shadowing e).length ++ (List.range 34).flatMap fun e =>
          let y := x.engines.getD e {}
          beBytes 1 e ++ beBytes 1 (state e) ++ beBytes 1 y.cause ++ beBytes 1 y.pattern ++
            beBytes 2 (chunksIn s m (fun ch => ch.engine = e)).length ++ beBytes 2 y.temp ++ beBytes 8 y.time) s) s

/-! ## Epochs (Tables 16.6 to 16.8) -/

/-- EPOCH_STATUS: what it admits. -/
def opEpochStatus : OpSpec := { opcode := 0x0920, observer := true, tenant := true, lengths := fun n => n = 4, reads := true }

/-- The OPEN chunk of a list that opened first. -/
def oldestOpen (l : List (Nat × Chunk)) : Option (Nat × Chunk) :=
  (l.filter fun x => !x.2.final).foldl (fun a x =>
    match a with
    | none => some x
    | some b => if x.2.opened < b.2.opened then some x else a) none

/-- EPOCH_STATUS (Table 16.6). (DEDUCED, log 46.) -/
def execEpochStatus (q : Request) (s : State) : Answer :=
  runCommand opEpochStatus (.epochStatus q) q (ctxOfBlock q) (fun _ s =>
    let c := u16 q.params 0
    let m := u8 q.params 2
    match ctxAt s c with
    | none => .refuse (badParam 0x83 0) s
    | some r =>
      let k := ctxOf s c
      let l := r.chunksOf k m
      let mine := r.hamper.filter fun x => !k.stripe || x.2.mangle = m
      let run := k.run r.rel
      let old := oldestOpen l
      let age (t : Nat) : Nat := (s.ns - t) / 1000
      let missing := match old with
        | none => 0
        | some x => maskOf ((List.range r.ports.length).filter fun i => !bit x.2.members i)
      withChecks [chk (1 < m) (badParam 4 2)] s fun s =>
        .ok (beBytes 2 c ++ beBytes 1 k.gen ++ beBytes 1 (if r.failed then 4 else if ctxRunning s c then 1 else 2) ++
          beBytes 1 (b2n (isRoot s c) + 2 * b2n k.stripe + 4 * b2n (r.unlogged ≠ []) + 8 * b2n (r.stalled ≠ [])) ++ zeros 3 ++
          beBytes 8 r.rel ++ beBytes 4 k.runChunks ++ beBytes 4 (r.done.filter fun i => run.1 ≤ i && i < run.2).length ++
          beBytes 4 (l.filter fun x => !x.2.final).length ++ beBytes 4 (l.filter fun x => x.2.final).length ++
          beBytes 4 mine.length ++ beBytes 8 ((mine.map fun x => x.2.size).sum) ++
          beBytes 4 (hamperBase s c (if k.stripe then m else k.home)) ++ beBytes 4 r.resets ++ beBytes 4 r.replayed ++
          beBytes 4 (counterAt { scope := 9, inst := c, idx := 0 } s).value ++
          beBytes 4 (counterAt { scope := 9, inst := c, idx := 1 } s).value ++ beBytes 8 missing ++
          beBytes 8 ((old.map (·.1)).getD 0xFFFFFFFFFFFFFFFF) ++ beBytes 4 ((old.map fun x => age x.2.opened).getD 0) ++
          beBytes 4 (((tfind r.runOpen run.1).map fun t => age t.opened).getD 0)) s) s

/-- EPOCH_ABORT: what it admits. -/
def opEpochAbort : OpSpec := { opcode := 0x0921, tenant := true, grant := some 3, lengths := fun n => n = 4 }

/-- EPOCH_ABORT (Table 16.7). -/
def execEpochAbort (q : Request) (s : State) : Answer :=
  runCommand opEpochAbort (.epochAbort q) q (ctxOfBlock q) (fun caller s =>
    let c := u16 q.params 0
    match ctxAt s c with
    | none => .refuse (badParam 0x83 0) s
    | some r =>
      withChecks [chk (u8 q.params 2 ≠ (ctxOf s c).gen) { status := 0x0C, reason := 0x80 }] s fun s =>
        let is := (sortNat (r.chunks.map (·.1) ++ r.done ++ r.hamper.map (·.1) ++ r.unlogged)).filter (r.rel ≤ ·)
        let s := is.foldl (fun s i => resetChunk c i 5 s) s
        .ok (beBytes 4 is.length ++ beBytes 4 r.hamper.length) (raiseLead 0x0927 2 c is.length caller.route s)) s

/-- HAMPER_CONFIG: what it admits. -/
def opHamperConfig : OpSpec := { opcode := 0x0922, lengths := fun n => n = 16 }

/-- HAMPER_CONFIG (Table 16.8). -/
def execHamperConfig (q : Request) (s : State) : Answer :=
  runCommand opHamperConfig (.hamperConfig q) q anyBlock (fun _ s =>
    let p := q.params
    let range (off lo hi : Nat) : Bool × Refuse := (u32 p off < lo || hi < u32 p off, badParam 4 off)
    withChecks [range 0 10 100000, range 4 1 1000000, range 8 1 60000] s fun s =>
      .ok [] { s with coll := { s.coll with replayWait := u32 p 0, straggle := u32 p 4, runLimit := u32 p 8 } }) s

end Sys2Proof.Machine
end

