-- ==== Sys2Proof/Machine/Receive.lean ====
section
/-!
DEFINITION. What a port does with a frame it receives: the receive checks (R111, R112), the Latchkey check (R252), and the
order of R207.
-/
namespace Sys2Proof.Machine

/-! ## The receive checks (Table 4.6) -/

/-- NAK is set; a newly set NAK is counted (R113). -/
def setNak (port : Nat) (s : State) : State :=
  let s := if (linkAt s port).nak then s else countPort port 23 1 s
  modLink port (fun l => { l with nak := true }) s

/-- A frame that passed checks 1 to 6 is dropped before forwarding: its credit goes back at once (R111). -/
def returnCredit (port : Nat) (f : Frame) (s : State) : State :=
  let v := vcOf f
  let c := cellsOf f
  if (linkAt s port).granted.getD v 0 < c then s
  else if failedAt s port && v < 6 then modLink port (fun l => { l with granted := lmod l.granted v (· - c) }) s
  else modLink port (fun l => { l with freed := lmod l.freed v (fun n => (n + c) % 256) }) s

/-- Whether a frame is a MALOA frame to the valid SELF_GID (R87). -/
def toSelf (s : State) (f : Frame) : Bool := s.maloa.selfGidValid && f.destGid = s.maloa.selfGid

/-! ## The Latchkey check (R252) -/

/-- The first check of Table 10.3 that a frame fails, as its effect on the state. -/
def latchkeyCheck (port : Nat) (f : Frame) (s : State) : Option (State → State) :=
  let h := hallOf port
  let k := f.latchkey
  let maloa := f.kind = 7
  if f.kind = 8 || f.kind = 9 then none
  else if (k = 0 && !maloa) || (k ≠ 0 && (blockAt s k).isNone) then some (latchkeyDrop port h 1 63 k)
  else if (portOwner s port).any fun b => k ≠ b && !(k = 0 && maloa) then some (latchkeyDrop port h 2 64 k)
  else if (blockAt s k).any (fun b => b.state ≠ .running) && !(maloa && toSelf s f) then
    some fun s => countPool k h 0 1 (modBlock k (fun b => { b with drops := b.drops + 1 }) s)
  else if (f.kind = 2 || f.kind = 3 || f.kind = 10) && !((blockAt s k).any fun b => b.hasCtxOf f.ctx) then
    some (latchkeyDrop port h 4 66 k)
  else none

/-! ## The order of R207 -/

/-- Parity errors that the lookups of a frame will find in the copies they read. -/
def noteParity (h pipe : Nat) (f : Frame) (o : ParityObs) (s : State) : State :=
  let set := entryWord s 1 f.destGid / 1024 % 16384
  let add (on : Bool) (b : Nat × Nat × Nat) (l : List (Nat × Nat × Nat)) : List (Nat × Nat × Nat) :=
    if on && !l.contains b then l ++ [b] else l
  let bad := add o.mcast (4, h, f.ctx) (add o.pathset (3, h, set) (add o.route (pipe + 1, h, f.destGid) s.fwd.bad))
  let idx := (h, flowHash s f % 2 ^ 18)
  let flow := if o.flowlet && !s.fwd.flowBad.contains idx then s.fwd.flowBad ++ [idx] else s.fwd.flowBad
  { s with fwd := { s.fwd with bad, flowBad := flow } }

/-- A BCAST frame is metered and replicated to its group (R215, R282). -/
def broadcast (h : Nat) (x : Held) (s : State) : State :=
  match metered h x s with
  | (none, s) => s
  | (some x, s) =>
    let c := x.frame.ctx
    let w := entryWord s 3 c
    if (4, h, c) ∈ s.fwd.bad then freeFrame x h (toChute h 3 c x.pipe x (countHall h 22 1 s))
    else if w / 2 ^ 31 % 2 = 0 then freeFrame x h (countHall h 1 1 s)
    else
      let l := liveMembers s c ((groupPorts (entryWords s 3 c)).filter fun p => bit w 30 || p ≠ gangBase s x.inPort)
      let s := if l.2 = 0 then s else countHall h 13 l.2 s
      replicate h l.1 { x with via := .mcast, vc := vcOf x.frame } s

/-- A request that came in a MALOA frame waits for the command interpreter (R87). -/
def takeRequest (x : Held) (h : Nat) (s : State) : State :=
  freeFrame x h (arrivePacket (.inband x.frame.srcGid) x.inPort x.frame.latchkey x.frame.payload s)

/-- Forwarding of a frame that passed the receive checks (R207). A FAILED part, or Hall, discards what it would forward (R439, R440). -/
def forward (port : Nat) (rtx : Bool) (x : Held) (s : State) : State :=
  let h := hallOf port
  let f := x.frame
  match latchkeyCheck port f s with
  | some drop => freeFrame x h (drop s)
  | none =>
    if f.kind = 8 then
      let m : MantelRx := { port, rtx, count := s.time.count, frac := s.time.frac, cal := s.time.cal.fine, frame := f }
      freeFrame x h { s with time := { s.time with inbox := s.time.inbox ++ [m] } }
    else if f.kind = 9 then freeFrame x h (modDarn (fun d => { d with inbox := d.inbox ++ [(port, f)] }) s)
    else if toSelf s f then
      if f.kind = 7 then takeRequest x h s else freeFrame x h (toChute h 4 f.destGid x.pipe x s)
    else if f.kind = 2 then collUp h x s
    else if failedAt s port then freeFrame x h (countHall h 47 1 s)
    else if f.kind = 3 || f.kind = 10 then collDown h x s
    else if f.kind = 4 then broadcast h x s
    else
      match routeStep h x.pipe x s with
      | (none, s) => s
      | (some y, s) =>
        match metered h y s with
        | (none, s) => s
        | (some y, s) => enqueue h y s

/-- A frame that arrived through a Transom port carries BYP (R106). -/
def markByp (port : Nat) (f : Frame) : Frame := if 1024 ≤ port && !f.byp then rewrite (fun f => { f with byp := true }) f else f

/-- An accepted frame: checks 7 to 10, then forwarding (R111). -/
def acceptFrame (port : Nat) (rtx : Bool) (f : Frame) (parity : ParityObs) (s : State) : State :=
  let v := vcOf f
  let s := modLink port (fun l => { l with expect := (l.expect + 1) % 4096, nak := false }) s
  let s := countPort port (47 + v) (bodyBytes f) (countPort port (31 + v) 1 s)
  if kindReserved f.kind then returnCredit port f (countPort port 19 1 s)
  else if f.kind = 7 && toSelf s f && f.tc ≠ 6 then returnCredit port f (discardRequest 1 1 s)
  else if !(f.kind = 7 && toSelf s f) && !tcAllowed f then returnCredit port f (countPort port 20 1 s)
  else if (linkAt s port).granted.getD v 0 < cellsOf f then linkProtocol port 2 (countPort port 21 1 s)
  else if 63 ≤ f.hops then returnCredit port f (countPort port 22 1 s)
  else
    let s := modLink port (fun l => { l with granted := lmod l.granted v (· - cellsOf f) }) s
    let h := hallOf port
    let s := noteParity h (pipeOf port) f parity s
    forward port rtx { frame := markByp port f, inPort := port, pipe := pipeOf port, store := .ingress port v, vc := v } s

/-- Check 6: the sequence number of a frame that passed checks 1 to 5 (R112). -/
def judgeSeq (port lseq : Nat) (rtx : Bool) (f : Frame) (parity : ParityObs) (s : State) : State :=
  let d := (lseq + 4096 - (linkAt s port).expect) % 4096
  if d = 0 then acceptFrame port rtx f parity s
  else if d < 2048 then setNak port (countPort port 16 1 s)
  else countPort port 17 1 s

/-- What the receiver does with what the front of its frame stream turns out to be (Table 4.6). -/
def judgeFound (port : Nat) (found : Found) (parity : ParityObs) (s : State) : State :=
  match found with
  | .nothing => s
  | .aborted => countPort port 18 1 s
  | .lost => setNak port s
  | .badPrefix => setNak port (countPort port 12 1 s)
  | .badHeader => setNak port (countPort port 13 1 s)
  | .badLength => retrain port 3 false (linkProtocol port 1 (countPort port 15 1 s))
  | .frame lseq rtx f => if f.fcrc ≠ frameCrc f then setNak port (countPort port 14 1 s) else judgeSeq port lseq rtx f parity s

/-- The front of a port's frame stream. -/
def frontOf (r : RxStream) : Found × List RxCodeword × Option Nat := nextFound (2 * r.codewords.length + 2) r.codewords r.pos

/-- FRAME_RECEIVED (R104, R111): the next frame of an ACTIVE link's frame stream, or what is left of one. `parity` tells the parity errors
that its lookups find. (DEDUCED, log 43.) -/
def execFrameReceived (port : Nat) (parity : ParityObs) (s : State) : Answer :=
  if !isPort port then .refused (.noSuchObject "port")
  else if (linkAt s port).state ≠ .active then .next s
  else
    let x := frontOf (linkAt s port).rx
    .next (judgeFound port x.1 parity (modLink port (fun l => { l with rx := { l.rx with codewords := x.2.1, pos := x.2.2 } }) s))

end Sys2Proof.Machine
end

