-- ==== Sys2Proof/Machine/Commit.lean ====
section
/-!
DEFINITION. Commits of transactions (R236, R237, R260), jobs and drains (R239 to R242), and snapshots (R243 to R245, R506).
-/
namespace Sys2Proof.Machine

/-! ## Laying the set-up that a transaction leaves -/

/-- Puts one item's value in place, without what follows from it. -/
def layItem (s : State) (i : Item) : State :=
  match i.key with
  | .stairAll => s
  | .block key =>
    if isDeletion i.value then { s with blocks := tdel s.blocks key }
    else
      let base := if bit (u8 i.value 2) 0 then (blockAt s key).getD {} else {}
      { s with blocks := tset s.blocks key { layoutOf i.value base with state := .quiesced, drain := none } }
  | .pool _ => s
  | k =>
    let live := if i.value = resetValue k then tdel s.setup.live k else tset s.setup.live k i.value
    { s with setup := { s.setup with live } }

/-- Puts one item's pool settings in place. -/
def layPool (s : State) (i : Item) : State :=
  match i.key with
  | .pool 0 => { s with fabricPool := poolFrom i.value }
  | .pool key => if (blockAt s key).isSome then modBlock key (fun b => { b with pool := poolFrom i.value }) s else s
  | _ => s

/-- The contexts whose descriptor or tree a transaction writes, ascending. -/
def Txn.contexts (t : Txn) : List Nat :=
  (sortNat (t.items.filterMap fun i => match i.key with | .ctx c => some c | .tree c => some c | _ => none)).eraseDups

/-- The layout and tables that a transaction would leave, contexts as they were. -/
def laid (t : Txn) (s : State) : State := t.items.foldl layPool (t.items.foldl layItem s)

/-- Moves a context that a commit has made valid off a Mangle that has failed, as R403 moves those it held. (DEDUCED, log 47.) -/
def leaveFailed (c : Nat) (s : State) : State :=
  let k := ctxOf s c
  match [0, 1].filter fun m => (mangleAt s m).failed && (k.stripe || k.home = m) with
  | m :: _ => if (ctxAt s c).isSome && k.reduces then migrate m c s else s
  | [] => s

/-- Makes the contexts of a transaction live, ascending. `old` is the state before the instant. (DEDUCED, log 47.) -/
def layContexts (t : Txn) (old s : State) : State :=
  t.contexts.foldl (fun s c => leaveFailed c (applyCtx c (ctxOf old c).gen s)) s

/-! ## Commit checks (R236) -/

/-- Whether two layouts share a port, a GID or a context. -/
def Block.overlaps (a b : Block) : Bool :=
  a.pairs &&& b.pairs ≠ 0 || a.transom &&& b.transom ≠ 0 ||
  (a.hasCtx && b.hasCtx && a.ctxFirst ≤ b.ctxLast && b.ctxFirst ≤ a.ctxLast) ||
  a.ranges.any fun r => b.ranges.any fun x => r.1 < x.1 + x.2 && x.1 < r.1 + r.2

/-- The lower key of the first two blocks of a list in ascending order that overlap. -/
def firstOverlap : List (Nat × Block) → Option Nat
  | [] => none
  | e :: l => if l.any fun x => e.2.overlaps x.2 then some e.1 else firstOverlap l

/-- The blocks that a transaction deletes. -/
def deletedBlocks (old new : State) : List Nat := (old.blocks.map (·.1)).filter fun k => (blockAt new k).isNone

/-- Table 10.7 on the layout that a commit would leave. -/
def blockRefusal (t : Txn) (old new : State) : Option Refuse :=
  let pools := (allPools new).map (·.2)
  let gone := deletedBlocks old new
  let stray (u : Txn) : Bool :=
    u.handle ≠ t.handle && !u.device && !gone.contains u.latchkey &&
    u.items.any fun i => touched new i.key i.value ≠ .blocks [u.latchkey]
  [(firstOverlap (sortedBlocks new)).map fun k => badParam 0x80 k,
   if 1024 < new.blocks.length then some { status := 8, reason := 0x80 } else none,
   if 2048 < (pools.map (·.landingReserve)).sum then some { status := 8, reason := 0x81 } else none,
   if 1024 < (pools.map (·.hamperReserve)).sum then some { status := 8, reason := 0x82 } else none,
   if (old.coll.ctxs.any fun e => (liveValue new (.ctx e.1)) ≠ [] && ctxOwner old e.1 ≠ ctxOwner new e.1)
     then some (badParam 0x83 0) else none,
   if new.setup.txns.any stray then some (denied 5 t.token) else none].findSome? id

/-- A deleted block's own transaction is COMMITTING (R235). -/
def deletionRefusal (old new : State) : Option Refuse :=
  ((sortNat (deletedBlocks old new)).find? fun k =>
    old.setup.txns.any fun u => !u.device && u.latchkey = k && u.state = .committing).map fun k =>
      { status := 5, reason := 0x82, info := k }

/-- Ports whose gate list a transaction makes R327 judge: those whose list, gang or OVERHEAD it writes (DEDUCED, log 34). -/
def gatePorts (t : Txn) : List Nat :=
  (sortNat (t.items.flatMap fun i => match i.key with
    | .gates p => [p]
    | .shaper p _ => [p]
    | .gang n => (List.range 8).map (8 * n + ·)
    | _ => [])).eraseDups

/-- Whether the gate list of a port fails R327. -/
def gatesFail (s : State) (p : Nat) : Bool :=
  match gateList s p with
  | none => false
  | some g => [1, 2, 3, 4, 5].any fun v =>
      !alwaysOpen g v &&
      (g.entries.all (fun e => !bit e.2 v) ||
       longestWindow g v < txTime 4096 (overheadOf (shaperSetting s p v)) (195 * gangWidth s p))

/-- Whether the reserves of a Hall leave less than the pools' RES with every lane ACTIVE (Table 11.9). -/
def hallOvercommitted (s : State) (h : Nat) : Bool :=
  let grants := ((hallPorts h).map fun p =>
    if carriesFrames s p then ((List.range 8).map fun v => reserveOf s p v (gangWidth s p)).sum else 0).sum
  (hallAt s h).active < grants + otherReserve s h + headroomSize s h + ((allPools s).map fun e => e.2.res).sum

/-- The checks of the owning chapters on the state that a commit would leave (R236, check 4), in the order of their chapters
(DEDUCED, log 35). -/
def chapterRefusal (t : Txn) (s : State) : Option Refuse :=
  let new := laid t s
  let full := layContexts t s new
  let isBlock : Bool := t.items.any fun i => match i.key with | .block _ | .pool _ => true | _ => false
  let isBuffer : Bool := t.items.any fun i => match i.key with | .hallBuf _ | .grant _ => true | _ => false
  let windows := t.items.filterMap fun i => match i.key with | .entry 6 e => some (e / 32) | _ => none
  let groups := t.items.filterMap fun i => match i.key with | .entry 3 c => some c | _ => none
  [if windows.any fun w => !transomConsistent fun e => entryWord new 6 (32 * w + e) then some (badParam 6 0) else none,
   deletionRefusal s new,
   if isBlock then blockRefusal t s new else none,
   if isBuffer && ((List.range 4).any fun h => hallOvercommitted new h) then some { status := 8, reason := 0x80 } else none,
   ((gatePorts t).find? fun p => gatesFail new p).map fun p => badParam 0x80 p,
   ctxCommitRefusal t.contexts groups full].findSome? id

/-- The first block that a transaction touches and that is not between jobs (R236, check 2). -/
def busyBlock (s : State) (t : Txn) : Option Nat :=
  (txnTouched s t).find? fun k => (blockAt s k).any fun b => b.state ≠ .quiesced

/-- The least multiple of 1,024 that is at least `n`. -/
def nextInstant (n : Nat) : Nat := ceilDiv n 1024 * 1024

/-- TXN_COMMIT: what it admits. -/
def opTxnCommit : OpSpec := { opcode := 0x0201, tenant := true, grant := some 1, lengths := fun n => n = 8, ownTxn := true }

/-- Check 3 of R236: a staged value that fails parity is lost, and the transaction FAILED (R231). -/
def shadowsGood (h : Nat) (bad : List (Nat × Nat)) (s : State) : Bool × State :=
  bad.foldl (fun a b =>
    let r := readShadow h (.entry b.1 b.2) true a.2
    (a.1 && r.1.isSome, r.2)) (true, s)

/-- The state that every other COMMITTING transaction leaves: two commits may wait at one time, in different scopes. -/
def othersLaid (h : Nat) (s : State) : State :=
  (s.setup.txns.filter fun u => u.handle ≠ h && u.state = .committing).foldl (fun s u => layContexts u s (laid u s)) s

/-- Check 4 of R236, on the live set-up and on what the commits under way leave. -/
def commitRefusal (t : Txn) (s : State) : Option Refuse :=
  match chapterRefusal t s with
  | some e => some e
  | none =>
    if s.setup.txns.any fun u => u.handle ≠ t.handle && u.state = .committing then chapterRefusal t (othersLaid t.handle s) else none

/-- TXN_COMMIT (R236, R237, Table 9.13). `bad` lists the table entries whose shadow copies fail parity, `nacks` how many dies do
not acknowledge their preparation. (DEDUCED, log 48.) -/
def execTxnCommit (q : Request) (bad : List (Nat × Nat)) (nacks : Nat) (s : State) : Answer :=
  runCommand opTxnCommit (.txnCommit q bad nacks) q anyBlock (fun _ s =>
    let at' := u64 q.params 0
    let refused (t : Txn) (r : Refuse) (s : State) : Done :=
      .refuse r (raiseLead 0x0203 2 t.handle (r.status * 256 + r.reason) r.info s)
    match (if q.txn = 0 then some { status := 4, reason := 1 } else ownTxnRefused q false (fun _ => false) s),
        txnAt s q.txn with
    | some r, _ => .refuse r s
    | none, none => .refuse { status := 4, reason := 2 } s
    | none, some t =>
      if t.state ≠ .opened then refused t { status := 5, reason := 0x82 } s
      else if at' ≠ 0 && (at' % 1024 ≠ 0 || mantel s + 10 * second < at') then .refuse (badParam 4 0) s
      else
        match busyBlock s t with
        | some k => refused t { status := 7, reason := 0x80, info := k } s
        | none =>
          let r := shadowsGood t.handle bad s
          if !r.1 then refused t { status := 9, reason := 0x81 } r.2
          else
            match commitRefusal t s with
            | some e => refused t e r.2
            | none =>
              if nacks ≠ 0 then refused t { status := 0x0D, info := nacks } r.2
              else
                let d := draw 2000001 r.2
                let ready := mantel s + d.1
                if at' ≠ 0 && at' < ready + 2048 then refused t { status := 9, reason := 0x82 } d.2
                else
                  let at'' := if at' = 0 then nextInstant (ready + 2048) else at'
                  .wait (.commit t.handle) (setTxn { t with state := .committing, t := at'' } d.2)) s

/-! ## What follows from an item at the instant -/

/-- A pair's gangs change (Table 5.12): every port whose gang changes retrains afresh under its new width. A port number that
stops being a port goes down; one that becomes a port trains on the PHY of the gang it was part of (DEDUCED, log 36). -/
def changeGangs (pair : Nat) (old : State) (s : State) : State :=
  let nums := (List.range 8).map (8 * pair + ·)
  let changed := nums.filter fun p => gangBase old p ≠ gangBase s p || gangWidth old p ≠ gangWidth s p
  changed.foldl (fun s p =>
    let was := gangBase old p = p
    if gangBase s p = p then
      if was then
        let s :=
          if (linkAt s p).state = .active then retrain p 4 true s
          else if isTraining s p then modLink p (fun l => { l.fallen with state := .locking, fresh := true, attempts := 0 }) s
          else s
        advertise (judgePort false p (roundsAfter p (candidateLive old p) s))
      else
        let from' := (portAt old (gangBase old p)).state
        let ready := from' = .up || from' = .upDegraded || from' = .phyReady
        let state := if !(portAt s p).enabled then .disabled else if ready then .phyReady
          else if from' = .disabled || from' = .test then .tuning else from'
        let s := modPort p (fun x => { x with state, since := s.ns }) s
        advertise (judgePort false p (if state = .phyReady then startTraining p s else s))
    else if was then advertise (judgePort false p (roundsAfter p (candidateLive old p) (linkDown p s)))
    else s) s

/-- A meter's new settings: its actions, and full buckets when its rates, bursts or ENABLE change (R313). -/
def freshMeter (old new : Bytes) (now : Nat) (m : Meter) : Meter :=
  let m := setActions (u8 new 5) (u8 new 6) m
  if old.drop 8 = new.drop 8 && bit (u8 old 4) 0 = bit (u8 new 4) 0 then m
  else { m with tc := u32 new 12 * 65536, tp := u32 new 20 * 65536, restC := 0, restP := 0, last := now }

/-- What a block item brings at the instant (R260): the event, and the end of a deleted block's transaction. -/
def settleBlock (key : Nat) (v : Bytes) (old s : State) : State :=
  let pairs (b : Option Block) : Nat := (b.map fun b => (setBits 128 b.pairs).length).getD 0
  if isDeletion v then
    let s := (s.setup.txns.filter fun u => !u.device && u.latchkey = key && u.state ≠ .committing).foldl
      (fun s u => rollBack u 4 s) s
    raiseLead 0x0401 1 key 3 (pairs (blockAt old key)) s
  else raiseLead 0x0401 1 key (if bit (u8 v 2) 0 && (blockAt old key).isSome then 2 else 1) (pairs (blockAt s key)) s

/-- A bucket keeps its tokens up to its new BURST (Table 12.11). -/
def settleRegulator (h part : Nat) (old s : State) : State :=
  let tokens := 1000 * (regulatorRate old h part).2 - bucketMissing old h part
  let missing := 1000 * (regulatorRate s h part).2 - tokens
  { s with cellar := { s.cellar with buckets := tset s.cellar.buckets (h, part) { missing, last := s.ns } } }

/-- The codes of R225 for the tables whose copies may fail parity. -/
def parityCodes (table : Nat) : List Nat := if table = 1 then [1, 2] else if table = 2 then [3] else if table = 3 then [4] else []

/-- What one item brings about at the instant, beyond its value. `old` is the state before it. -/
def settleItem (old : State) (s : State) (i : Item) : State :=
  match i.key with
  | .entry t x =>
    let s := { s with fwd := { s.fwd with bad := s.fwd.bad.filter fun b => !((parityCodes t).contains b.1 && b.2.2 = x) } }
    if t = 2 then { s with fwd := { s.fwd with rr := s.fwd.rr.filter fun e => e.1.2.2 ≠ x } } else s
  | .flowletCfg =>
    if flowTick old = flowTick s && hashSeed old = hashSeed s then s
    else dropFlowlets s
  | .gang n => changeGangs n old s
  | .hallBuf h => modHall h (fun a => { a with k := (List.range 8).map fun v => u8 i.value (8 + v) }) s
  | .meterPort p tc =>
    let m := freshMeter (liveValue old i.key) i.value s.ns (tget s.sched.portMeters (p, tc) {})
    { s with sched := { s.sched with portMeters := tset s.sched.portMeters (p, tc) m } }
  | .meterBlock h key tc =>
    let m := freshMeter (liveValue old i.key) i.value s.ns (tget s.sched.blockMeters (h, key, tc) {})
    { s with sched := { s.sched with blockMeters := tset s.sched.blockMeters (h, key, tc) m } }
  | .shaper p vc =>
    let t : ShaperTokens := { c := (u32 i.value 12 * 65536 : Nat), p := (u32 i.value 20 * 65536 : Nat), last := s.ns }
    touchHeads p { s with sched := { s.sched with shapers := tset s.sched.shapers (p, vc) t } }
  | .gates p => touchHeads p s
  | .regulator h part => settleRegulator h part old s
  | .darnPort p => advertise (judgePort (darnCause old p).isSome p s)
  | .block key => settleBlock key i.value old s
  | .pool key => raiseLead 0x0401 1 key 4 (((blockAt s key).map fun b => (setBits 128 b.pairs).length).getD 0) s
  | _ => s

/-- The Transom entries that a transaction writes, with their words before the instant. -/
def transomBefore (t : Txn) (old : State) : List (Nat × Nat) :=
  t.items.filterMap fun i => match i.key with | .entry 6 e => some (e, entryWord old 6 e) | _ => none

/-! ## Jobs (R239 to R242) -/

/-- The frames that the part holds, each with its Hall: queued, held, crossing Seam, on their way to spill, at a Mangle. -/
def allHeld (s : State) : List (Nat × Held) :=
  (s.buf.queues.flatMap fun e => (e.2.frames ++ e.2.spilled).map fun x => (hallOf e.1.1, x)) ++
  (s.buf.halls.flatMap fun e => (e.2.held ++ e.2.xfer.flatMap (·.2)).map fun x => (e.1, x)) ++
  (s.buf.spillWrites.flatMap fun e => e.2.map fun x => (e.1, x)) ++
  s.coll.mangles.flatMap fun m => m.input.map fun x => (x.hall, x.frame)

/-- The frames that wait to leave a Mangle. -/
def mangleOut (s : State) : List (Nat × Frame) := s.coll.mangles.flatMap (·.output)

/-- Removes every frame that is selected with its Hall from the part without freeing its cells. -/
def dropHeld (sel : Nat → Frame → Bool) (s : State) : State :=
  let keep (h : Nat) (l : List Held) : List Held := l.filter fun x => !sel h x.frame
  let hall (h : Nat) (a : Hall) : Hall :=
    { a with held := keep h a.held, xfer := (a.xfer.map fun e => (e.1, keep h e.2)).filter fun e => e.2 ≠ [] }
  let queues := (s.buf.queues.map fun e =>
    let h := hallOf e.1.1
    (e.1, { frames := keep h e.2.frames, spilled := keep h e.2.spilled : Queue })).filter fun e => e.2 ≠ {}
  let mangle (m : Mangle) : Mangle :=
    { m with input := m.input.filter fun x => !sel x.hall x.frame.frame, output := m.output.filter fun x => !sel (hallOf x.1) x.2 }
  { s with
    buf := { s.buf with
      queues, halls := s.buf.halls.map fun e => (e.1, hall e.1 e.2)
      spillWrites := (s.buf.spillWrites.map fun e => (e.1, keep e.1 e.2)).filter fun e => e.2 ≠ [] }
    coll := { s.coll with mangles := s.coll.mangles.map mangle } }

/-- Discards every selected frame: its cells are freed, and `note` sees its Hall and its cells. A frame stored once for several
queues is seen once (R282). -/
def purge (sel : Nat → Frame → Bool) (note : Nat → Nat → State → State) (s : State) : State :=
  let mine := (allHeld s).filter fun e => sel e.1 e.2.frame
  let outs := (mangleOut s).filter fun e => sel (hallOf e.1) e.2
  let s := dropHeld sel s
  let s := outs.foldl (fun s e => note (hallOf e.1) (cellsOf e.2) s) s
  mine.foldl (fun (s : State) (e : Nat × Held) =>
    let last : Bool := match e.2.store with
      | .shared id => (tfind s.buf.shared id).all fun m => m.copies ≤ 1
      | _ => true
    freeFrame e.2 e.1 (if last then note e.1 e.2.cells s else s)) s

/-- Whether the part holds no frame of a block and no chunk of its contexts is in flight (R240, R401). -/
def drained (s : State) (key : Nat) : Bool :=
  !((allHeld s).any fun e => e.2.frame.latchkey = key) && !((mangleOut s).any fun e => e.2.latchkey = key) &&
  !collInFlight s key

/-- A block enters QUIESCED: its drain ends, and its BLOCK_QUIESCE replies (R240). -/
def enterQuiesced (key flushed : Nat) (s : State) : State :=
  match blockAt s key with
  | none => s
  | some b =>
    let us := match b.drain with | none => 0 | some d => (s.ns - d.start) / 1000
    let s := modBlock key (fun b => { b with state := .quiesced, drain := none }) s
    let s := raiseLead 0x0410 1 key us flushed s
    complete (.quiesce key) (if flushed = 0 then 0 else 0x0E) (if flushed = 0 then 0 else 0x80) 0
      (quiescePayload b s.ns flushed) s

/-- QUIESCE_DRAIN_CHECK (R240): the counts of a QUIESCING block are checked. -/
def execQuiesceDrainCheck (latchkey : Nat) (s : State) : Answer :=
  .next (if ((blockAt s latchkey).any fun b => b.state = .quiescing) && drained s latchkey then enterQuiesced latchkey 0 s
    else s)

/-- DRAIN_LIMIT_EXPIRED (R240): with FORCE the remaining frames and chunks are discarded; without it BLOCK_QUIESCE fails and the
block stays QUIESCING. Before DRAIN_LIMIT has passed, nothing happens. (DEDUCED, log 47.) -/
def execDrainLimitExpired (latchkey : Nat) (s : State) : Answer :=
  match blockAt s latchkey with
  | none => .next s
  | some b =>
    match b.state, b.drain with
    | .quiescing, some d =>
      if d.expired || s.ns < d.start + d.limit * 1000 then .next s
      else if d.force then
        let flushedOf (s : State) : Nat := ((List.range 4).map fun h =>
          (counterAt { scope := 5, inst := 4 * latchkey + h, idx := 1 } s).value).sum
        let before := flushedOf s
        let s := purge (fun _ f => f.latchkey = latchkey) (fun h c s => countPool latchkey h 1 c s) s
        let flushed := flushedOf s - before
        let s := (blockCtxs s latchkey).foldl (fun s c =>
          match ctxAt s c with
          | none => s
          | some r => r.chunks.foldl (fun s x => resetChunk c x.1 6 s) s) s
        .next (enterQuiesced latchkey flushed s)
      else
        let s := modBlock latchkey (fun b => { b with drain := some { d with expired := true } }) s
        .next (complete (.quiesce latchkey) 9 0x80 0 [] s)
    | _, _ => .next s

/-- BLOCK_QUIESCE: what it admits. -/
def opBlockQuiesce : OpSpec := { opcode := 0x0410, tenant := true, grant := some 2, lengths := fun n => n = 8 }

/-- BLOCK_QUIESCE (R240, R242, Table 9.25). -/
def execBlockQuiesce (q : Request) (s : State) : Answer :=
  runCommand opBlockQuiesce (.blockQuiesce q) q (fun _ own => u16 q.params 0 = own) (fun _ s =>
    let key := u16 q.params 0
    match blockAt s key with
    | none => .refuse (badParam 0x81 0) s
    | some b =>
      if 500000 < u32 q.params 4 then .refuse (badParam 4 4) s
      else
        match b.state with
        | .quiesced => .ok (quiescePayload b s.ns 0) s
        | _ =>
          let limit := if u32 q.params 4 = 0 then 10000 else u32 q.params 4
          let drain : Drain := { force := bit (u8 q.params 2) 0, start := s.ns, limit }
          let drops := if b.state = .running then 0 else b.drops
          let s := modBlock key (fun b => { b with state := .quiescing, drain := some drain, drops }) s
          .wait (.quiesce key) (quiesceColl key s)) s

/-- BLOCK_RESUME: what it admits. -/
def opBlockResume : OpSpec := { opcode := 0x0411, tenant := true, grant := some 2, lengths := fun n => n = 4 }

/-- BLOCK_RESUME (R242, Table 9.26). (DEDUCED, log 48.) -/
def execBlockResume (q : Request) (s : State) : Answer :=
  runCommand opBlockResume (.blockResume q) q (fun _ own => u16 q.params 0 = own) (fun _ s =>
    let key := u16 q.params 0
    if (blockAt s key).isNone then .refuse (badParam 0x81 0) s
    else if commitHolds s key then .wait (.resume key) s
    else .ok [] (resumeBlock key s)) s

/-! ## The commit instant (R237) -/

/-- The items of a transaction go live, and what hangs on them follows. -/
def layItems (t : Txn) (s : State) : State :=
  let old := s
  let s := closeTxn t.handle (laid t (t.items.foldl (fun s i => match i.key with
    | .gates p | .shaper p _ => touchHeads p s
    | .link p => fillCaps p s
    | _ => s) s))
  let s := t.items.foldl (settleItem old) s
  let s := judgeSpilling (changeTransom (transomBefore t old) s)
  layContexts t old s

/-- Makes a COMMITTING transaction live. -/
def commitNow (t : Txn) (s : State) : State :=
  let s := layItems t s
  let s := { s with setup := { s.setup with txnGen := s.setup.txnGen + 1, lastT := t.t } }
  let s := raiseLead 0x0201 1 t.handle t.t t.count s
  let stored : Bool := t.items.any fun i => match i.key with | .block _ | .pool _ => true | _ => false
  let s := if stored && storeUp s then nvQueue { id := 0, effect := .blocks } s else s
  releaseResumes (complete (.commit t.handle) 0 0 0 (beBytes 8 t.t ++ beBytes 4 t.count ++ zeros 4) s)

/-- COMMIT_INSTANT (R237): T of a COMMITTING transaction has come. Before T, nothing happens. -/
def execCommitInstant (handle : Nat) (s : State) : Answer :=
  match txnAt s handle with
  | none => .next s
  | some t => .next (if t.state = .committing && t.t ≤ mantel s then commitNow t s else s)

/-! ## Snapshots (R243 to R245, R506) -/

/-- A block's layout in the layout of BLOCK_CREATE, REPLACE 0. -/
def Block.bytes (b : Block) (key : Nat) : Bytes :=
  beBytes 2 key ++ beBytes 1 (2 * b2n b.hasCtx) ++ beBytes 1 b.ranges.length ++ beBytes 2 b.ctxFirst ++ beBytes 2 b.ctxLast ++
  zeros 4 ++ bitmapBytes 16 b.pairs ++ bitmapBytes 32 b.transom ++ b.ranges.flatMap fun r => beBytes 4 r.1 ++ beBytes 4 r.2

/-- A pool in the layout of BLOCK_POOL_SET. -/
def Pool.request (p : Pool) (key : Nat) : Bytes := beBytes 2 key ++ zeros 2 ++ p.bytes.take 9 ++ zeros 3

/-- KIND and TABLE of an item: the opcode of the command that stages it (R506). -/
def itemKind : ItemKey → Nat × Nat
  | .entry t _ => (0x0301, t)
  | .flowletCfg => (0x0313, 0)
  | .stairAll => (0x0314, 0)
  | .gang _ => (0x0503, 0)
  | .link _ => (0x0510, 0)
  | .hallBuf _ => (0x0810, 0)
  | .grant _ => (0x0810, 1)
  | .meterPort _ _ => (0x0800, 0)
  | .meterBlock _ _ _ => (0x0800, 1)
  | .shaper _ _ => (0x0802, 0)
  | .gates _ => (0x0804, 0)
  | .mark _ _ => (0x0806, 0)
  | .xfer _ => (0x0807, 0)
  | .regulator _ _ => (0x1011, 0)
  | .block _ => (0x0400, 0)
  | .pool _ => (0x0403, 0)
  | .ctx _ => (0x0900, 0)
  | .tree _ => (0x0904, 0)
  | .darnPort _ => (0x0B01, 0)

/-- INDEX of an item among those of its KIND (DESIGN CHOICE, log 33). -/
def itemIndex : ItemKey → Nat
  | .entry _ i => i
  | .flowletCfg | .stairAll => 0
  | .gang n => n
  | .link p | .grant p | .gates p | .darnPort p => p
  | .hallBuf h | .xfer h => h
  | .meterPort p tc => 8 * p + tc
  | .meterBlock h k tc => (h * 65536 + k) * 8 + tc
  | .shaper p v | .mark p v => 8 * p + v
  | .regulator h p => 8 * h + p
  | .block k | .pool k => k
  | .ctx c | .tree c => c

/-- Where an item stands in the order of R506. -/
def itemRank (k : ItemKey) : Nat := ((itemKind k).1 * 256 + (itemKind k).2) * 2 ^ 32 + itemIndex k

/-- Insertion of an item in the order of R506. -/
def insertItem (i : Item) : List Item → List Item
  | [] => [i]
  | a :: r => if itemRank i.key < itemRank a.key then i :: a :: r else a :: insertItem i r

/-- Whether a group entry is one that a valid context owns (R336). -/
def ctxGroup (s : State) : ItemKey → Bool
  | .entry 3 c => (ctxAt s c).isSome
  | _ => false

/-- Every item of the live set-up that does not stand at its reset value. -/
def liveItems (s : State) : List Item :=
  (s.setup.live.filter fun e => e.2 ≠ resetValue e.1 && !ctxGroup s e.1).map (fun e => { key := e.1, value := e.2 }) ++
  (s.blocks.flatMap fun e => [{ key := .block e.1, value := e.2.bytes e.1 }, { key := .pool e.1, value := e.2.pool.request e.1 }]) ++
  [{ key := .pool 0, value := s.fabricPool.request 0 }]

/-- The items of a snapshot's scope in the order of R506 (R243). -/
def scopeItems (s : State) (device : Bool) (key : Nat) : List Item :=
  ((liveItems s).filter fun i => device || touched s i.key i.value = .blocks [key]).foldl (fun l i => insertItem i l) []

/-- Runs of consecutive entries of one table with equal words as one record (R506). (DESIGN CHOICE, log 33.) -/
def snapRecords : List Item → List (Nat × Nat × Nat × Nat × Bytes)
  | [] => []
  | i :: l =>
    let kd := itemKind i.key
    match i.key, snapRecords l with
    | .entry t x, (k, tb, first, n, v) :: r =>
      if k = 0x0301 && tb = t && first = x + 1 && v = i.value then (k, tb, x, n + 1, v) :: r
      else (kd.1, t, x, 1, i.value) :: (k, tb, first, n, v) :: r
    | _, r => (kd.1, kd.2, itemIndex i.key, 1, i.value) :: r

/-- The snapshot of a scope, with its digest: the first 64 bits of the SHA-384 digest of its content, the seconds taken as 0, so
that equal set-ups give equal digests (DESIGN CHOICE, log 33). -/
def takeSnapshot (s : State) (device : Bool) (key : Nat) : Snapshot :=
  let items := scopeItems s device key
  let content (secs : Nat) : Bytes := Config.snapshotContent (b2n device) key secs (snapRecords items)
  { digest := u64 (Config.sha384 (content 0)) 0, device, latchkey := key, secs := s.time.cal.sec
    content := content s.time.cal.sec, items }

/-- The snapshot of a digest. -/
def snapshotAt (s : State) (d : Nat) : Option Snapshot := s.nv.snapshots.find? fun x => x.digest = d

/-- SNAPSHOT_SAVE: what it admits. -/
def opSnapshotSave : OpSpec := { opcode := 0x0320, lengths := fun n => n = 4 }

/-- SNAPSHOT_SAVE (R243, R244, Table 9.20). (DEDUCED, log 46.) -/
def execSnapshotSave (q : Request) (s : State) : Answer :=
  runCommand opSnapshotSave (.snapshotSave q) q anyBlock (fun _ s =>
    let device := u8 q.params 0 = 1
    let key := u16 q.params 2
    withChecks [chk (1 < u8 q.params 0) (badParam 3 0), (device && key ≠ 0, badParam 6 2),
        (!device && (blockAt s key).isNone, badParam 0x81 2)] s fun s =>
      let n := takeSnapshot s device key
      let payload (held : Bool) : Bytes :=
        beBytes 8 n.digest ++ beBytes 4 n.content.length ++ beBytes 1 (b2n held) ++ zeros 3
      if (snapshotAt s n.digest).isSome then .ok (payload true) s
      else
        withChecks [chk (64 ≤ s.nv.snapshots.length) { status := 8, reason := 0x80 },
            (snapshotBytes s < snapshotUsed s + n.content.length, { status := 8, reason := 0x81 })] s fun s =>
          storeThen { id := 0, effect := .snapSave n, payload := payload false } s) s

/-- Ports that an item names. -/
def itemPorts (i : Item) : List Nat :=
  match i.key with
  | .entry 1 _ => if u32 i.value 0 / 2 ^ 31 = 1 then [u32 i.value 0 % 1024] else []
  | .entry 2 _ => (candidates (bytesWords 33 i.value)).map (·.1)
  | .entry 3 _ => groupPorts (bytesWords 41 i.value)
  | .entry 6 e => [1024 + e]
  | .gang n => [8 * n]
  | .link p | .grant p | .gates p | .darnPort p | .meterPort p _ | .shaper p _ | .mark p _ => [p]
  | .ctx _ => (ctxConf i.value).recs.map fun r => r.2.1
  | _ => []

/-- Whether a snapshot names a port or Window that is not in service: its Window is out, or the port is FAILED (DEDUCED, log 37). -/
def namesOutOfService (s : State) (n : Snapshot) : Bool :=
  n.items.any fun i => (itemPorts i).any fun p => p < 1280 && (!(windowAt s (windowOf p)).inService || (portAt s p).state = .failed)

/-- The items that a snapshot changes: its own that differ from live, and those of its scope that it holds at their reset
value. -/
def snapshotDiff (s : State) (n : Snapshot) : List Item :=
  let mine := n.items.filter fun i => !ctxGroup s i.key
  let same (i : Item) : Bool :=
    match i.key with
    | .block k => (blockAt s k).any fun b => b.bytes k = i.value
    | .pool 0 => s.fabricPool.request 0 = i.value
    | .pool k => (blockAt s k).any fun b => b.pool.request k = i.value
    | k => liveValue s k = i.value
  let write (i : Item) : Item :=
    match i.key with
    | .block k => { i with value := (i.value.take 2 ++ [byteOf (u8 i.value 2 + b2n (blockAt s k).isSome)]) ++ i.value.drop 3 }
    | _ => i
  let gone := (scopeItems s n.device n.latchkey).filter fun i => !(n.items.any fun j => j.key = i.key)
  let clear (i : Item) : Option Item :=
    match i.key with
    | .block k => some { i with value := beBytes 2 k ++ zeros 2 }
    | .pool _ => none
    | .tree c => if n.items.any fun j => j.key = .ctx c then some { i with value := resetValue i.key } else none
    | k => some { i with value := resetValue k }
  ((mine.filter fun i => !same i).map write) ++ gone.filterMap clear

/-- Items of a list that are entries of a table. -/
def tableItems (l : List Item) (t : Nat) : Nat := (l.filter fun i => match i.key with | .entry u _ => u = t | _ => false).length

/-- SNAPSHOT_APPLY: what it admits. -/
def opSnapshotApply : OpSpec := { opcode := 0x0321, lengths := fun n => n = 8, staging := true }

/-- SNAPSHOT_APPLY (R244, Table 9.21). `obs` is how the copy that is read reads back, `digestBad` whether its digest check
fails. The store is read when the Cellar caches no copy, or an uncorrectable one (R243, R306). A snapshot that would leave an inconsistent staged Transom map is refused
(R180; DESIGN CHOICE, log 62). -/
def execSnapshotApply (q : Request) (obs : NvReadObs) (digestBad : Bool) (s : State) : Answer :=
  runCommand opSnapshotApply (.snapshotApply q obs digestBad) q anyBlock (fun _ s =>
    let d := u64 q.params 0
    match snapshotAt s d, txnAt s q.txn with
    | some n, some t =>
      if n.device ≠ t.device || n.latchkey ≠ t.latchkey then .refuse (badParam 6 0) s
      else
        let cached := s.cellar.snapshots.contains d && !obs.cachedBad
        let lost := !cached && nvLost obs s
        let s := if cached then s else nvReadEffects 6 n.content.length obs (dropCached d s)
        let reject (why : Nat) : Done :=
          .refuse { status := 9, reason := 0x81 } (raiseLead 0x0362 3 (d % 2 ^ 32) (d / 2 ^ 32) why s)
        if lost then reject 2
        else if digestBad then reject 1
        else
          let s := cacheSnapshot d s
          let items := snapshotDiff s n
          let k (t : Nat) : Nat := tableItems items t
          let payload := beBytes 4 (k 1) ++ beBytes 2 (k 2) ++ beBytes 2 (k 3) ++ beBytes 1 (k 4) ++ beBytes 1 (k 6) ++
            beBytes 2 (items.length - (k 1 + k 2 + k 3 + k 4 + k 6))
          match stage q 0 items s with
          | .inr r => .refuse r s
          | .inl s' =>
            if !((List.range 8).all fun w => !(items.any fun i => match i.key with | .entry 6 e => e / 32 = w | _ => false) ||
                stagedMapOk s' q.txn w) then .refuse (badParam 6 0) s
            else if namesOutOfService s n then .reply 0x0E 0x80 0 payload s' else .ok payload s'
    | _, _ => .refuse (badParam 0x80 0) s) s

/-- SNAPSHOT_LIST: what it admits. -/
def opSnapshotList : OpSpec := { opcode := 0x0322, observer := true, lengths := fun n => n = 0, reads := true }

/-- SNAPSHOT_LIST (Table 9.22). -/
def execSnapshotList (q : Request) (s : State) : Answer :=
  runCommand opSnapshotList (.snapshotList q) q anyBlock (fun _ s =>
    .ok (beBytes 1 s.nv.snapshots.length ++ zeros 3 ++ s.nv.snapshots.flatMap fun n =>
      beBytes 8 n.digest ++ beBytes 1 (b2n n.device) ++ beBytes 1 (b2n n.boot) ++ beBytes 2 n.latchkey ++
      beBytes 4 n.content.length ++ beBytes 8 n.secs) s) s

/-- SNAPSHOT_DELETE: what it admits. -/
def opSnapshotDelete : OpSpec := { opcode := 0x0323, lengths := fun n => n = 8 }

/-- SNAPSHOT_DELETE (R245, Table 9.23). -/
def execSnapshotDelete (q : Request) (s : State) : Answer :=
  runCommand opSnapshotDelete (.snapshotDelete q) q anyBlock (fun _ s =>
    let d := u64 q.params 0
    withChecks [chk (snapshotAt s d).isNone (badParam 0x80 0)] s fun s => storeThen { id := 0, effect := .snapDelete d } s) s

/-- SNAPSHOT_SET_BOOT: what it admits. -/
def opSnapshotSetBoot : OpSpec := { opcode := 0x0324, lengths := fun n => n = 8 }

/-- SNAPSHOT_SET_BOOT (R245, Table 9.24). -/
def execSnapshotSetBoot (q : Request) (s : State) : Answer :=
  runCommand opSnapshotSetBoot (.snapshotSetBoot q) q anyBlock (fun _ s =>
    let d := u64 q.params 0
    withChecks [chk (d ≠ 0 && (snapshotAt s d).isNone) (badParam 0x80 0),
        ((snapshotAt s d).any fun n => !n.device, badParam 6 0)] s fun s =>
      storeThen { id := 0, effect := .snapBoot d } s) s

end Sys2Proof.Machine
end

