-- ==== Sys2Proof/Machine/Interp.lean ====
section
/-!
DEFINITION. The commands of the interpreter itself (R96), the mailbox (R83 to R86), requests that no command takes (R69), sources
and caches (R76, R77), and the event log (R90 to R94).
-/
namespace Sys2Proof.Machine

/-! ## The event log (R90 to R94) -/

/-- Sets EV_STAT.IRQ and EV_CTRL; MSI-X vector 1 is signalled when the condition of R94 becomes true. -/
def setIrq (irq en : Bool) (level : Nat) (s : State) : State :=
  let was := s.ev.irq && s.ev.irqEn
  let s := { s with ev := { s.ev with irq, irqEn := en, irqLevel := level } }
  if irq && en && !was then emit (.msix 1) s else s

/-- The Mantel count that a record carries (R91): a Hearth or Hall takes it at the raise; for every other die it is taken as the event
reaches a die that holds a replica. EVENT_RAISED is that moment (DEDUCED, log 60). -/
def stamp (m : EventMsg) (s : State) : EventMsg :=
  if m.die < 6 then m else { m with time := mantel s, locked := mantelLocked s }

/-- The arbiter logs an event: the next SEQ, the latest 65,536 records kept, IRQ_LEVEL judged, severity 3 and above also to the
persistent log (R90, R92, R94). -/
def logEvent (m : EventMsg) (s : State) : State :=
  let r : EventRec := { seq := s.ev.nextSeq, msg := m }
  let s := { s with ev := { s.ev with log := lastOf 65536 (s.ev.log ++ [r]), nextSeq := s.ev.nextSeq + 1 } }
  let s := if s.ev.irqLevel ≤ m.severity then setIrq true s.ev.irqEn s.ev.irqLevel s else s
  if 3 ≤ m.severity then queueLog r s else s

/-- EVENT_RAISED (R90): the oldest event of a die's queue reaches the arbiter, once the log is available in P2 (R44) and 50 ns after
the record before it (R93). -/
def execEventRaised (die : Nat) (s : State) : Answer :=
  match tget s.ev.queues die [] with
  | [] => .next s
  | m :: rest =>
    if s.boot.phase < 2 || (s.ev.lastAt.any fun t => s.ns < t + 50) then .next s
    else .next (logEvent (stamp m s) { s with ev := { s.ev with queues := tset s.ev.queues die rest, lastAt := some s.ns } })

/-- EVENT_LOSS (R93): room has returned in a die's queue, and the die raises the number of events lost. -/
def execEventLoss (die : Nat) (s : State) : Answer :=
  let n := tget s.ev.lost die 0
  if n = 0 || 64 ≤ (tget s.ev.queues die []).length then .next s
  else .next (raise 0x0132 die 3 n 0 0 { s with ev := { s.ev with lost := tdel s.ev.lost die } })

/-- EV_CTRL_WRITE (Table 3.15). -/
def execEvCtrlWrite (value : Nat) (s : State) : Answer :=
  bar0Write 0x50000 (fun s => .next (setIrq s.ev.irq (bit value 7) (value % 8) s)) s

/-- SEQ of the newest record. -/
def newestSeq (s : State) : Nat := s.ev.nextSeq - 1

/-- EV_NEWEST_LO_READ (Table 3.17): the read returns SEQ[31:0] and latches SEQ[63:32]. -/
def execEvNewestLoRead (s : State) : Answer :=
  bar0Read 0x50008 (fun s =>
    .next (emit (.bar0 0x50008 (newestSeq s % 2 ^ 32)) { s with ev := { s.ev with newestHi := newestSeq s / 2 ^ 32 } })) s

/-- EVENT_READ: what it admits. -/
def opEventRead : OpSpec := { opcode := 0x0140, observer := true, lengths := fun n => n = 12, reads := true }

/-- EVENT_READ (Table 3.25). -/
def execEventRead (q : Request) (s : State) : Answer :=
  runCommand opEventRead (.eventRead q) q anyBlock (fun _ s =>
    let p := q.params
    let first := u64 p 0
    let n := u8 p 9
    withChecks [chk (n = 0 || 127 < n) (badParam 4 9)] s fun s =>
      let rs := (s.ev.log.filter fun r => first ≤ r.seq && u8 p 8 % 8 ≤ r.msg.severity).take n
      .ok (beBytes 8 (newestSeq s) ++ beBytes 2 rs.length ++
        beBytes 1 (b2n (gapOf first (s.ev.log.head?.map (·.seq)))) ++ zeros 5 ++ rs.flatMap EventRec.bytes) s) s

/-! ## The mailbox (R83 to R86) -/

/-- The mailbox stops with an error code, and MBX_ERROR is recorded (R85). -/
def mailboxError (code : Nat) (s : State) : State :=
  raiseLead 0x0131 4 code 0 0 { s with maloa := { s.maloa with err := code } }

/-- The index tests of R85: BAD_TAIL, then BAD_HEAD. Where both fail at one write, BAD_TAIL alone is set and recorded (DESIGN CHOICE,
log 67). -/
def testIndices (tail head : Bool) (s : State) : State :=
  let m := s.maloa
  let above (a b lg : Nat) : Bool := 2 ^ lg < (a + 65536 - b) % 65536
  if tail && above m.reqTail m.reqHead m.reqLog2 then mailboxError 1 s
  else if head && above m.rplTail m.rplHead m.rplLog2 then mailboxError 2 s
  else s

/-- DOORBELL (R85): the host writes REQ_IDX.TAIL. -/
def execDoorbell (tail : Nat) (s : State) : Answer :=
  bar0Write 0x10018 (fun s => .next (testIndices true false { s with maloa := { s.maloa with reqTail := tail % 65536 } })) s

/-- RPL_IDX_HEAD_WRITE (R85): the host writes RPL_IDX.HEAD. -/
def execRplIdxHeadWrite (head : Nat) (s : State) : Answer :=
  bar0Write 0x1001C (fun s => .next (testIndices false true { s with maloa := { s.maloa with rplHead := head % 65536 } })) s

/-- The part of a RESET_RINGS that Table 3.8 gives. -/
def resetRings (s : State) : State :=
  let m := s.maloa
  { s with maloa := { m with
      reqHead := 0, reqTail := 0, rplHead := 0, rplTail := 0, err := 0, waiting := [], ringGen := m.ringGen + 1
      outstanding := m.outstanding.filter fun o => o.wait ≠ .ring } }

/-- RESET_RINGS (Table 3.8). -/
def execResetRings (s : State) : Answer := bar0Write 0x10000 (fun s => .next (resetRings s)) s

/-- A write of MBX_CTRL (R83, R85, Table 3.8): a ring size is taken only while ENABLE read 0, and both rings are tested when ENABLE
goes to 1. -/
def writeMbxCtrl (value : Nat) (s : State) : State :=
  let s := if bit value 1 then resetRings s else s
  let was := s.maloa.enable
  let s := { s with maloa := { s.maloa with enable := bit value 0, rplIrqEn := bit value 2 } }
  if was then s
  else
    let s := { s with maloa := { s.maloa with
      reqLog2 := clamp 3 10 (bitsOf value 11 8), rplLog2 := clamp 3 10 (bitsOf value 15 12) } }
    if bit value 0 then testIndices true true s else s

/-- MAILBOX_ENABLE (R83): a write of MBX_CTRL. -/
def execMailboxEnable (value : Nat) (s : State) : Answer :=
  bar0Write 0x10000 (fun s => .next (writeMbxCtrl value s)) s

/-- REQUEST_FETCH (R84): the part fetches the slot of REQ_IDX.HEAD; its packet waits for the interpreter. -/
def execRequestFetch (slot : Bytes) (dmaOk : Bool) (s : State) : Answer :=
  let m := s.maloa
  if !mailboxRuns s || m.reqHead = m.reqTail || 64 ≤ outstandingOf .pcie s then .next s
  else
  let s := emit (.fetch (requestSlotAddr s)) s
  if !dmaOk then .next (mailboxError 3 s)
  else .next (arrivePacket .pcie 0 0 slot { s with maloa := { s.maloa with reqHead := (m.reqHead + 1) % 65536 } })

/-- REPLY_SEGMENT_WRITE (R84): the oldest reply segment that waits is written to its slot. A command whose last segment is
written is no longer outstanding (R76). -/
def execReplySegmentWrite (dmaOk : Bool) (s : State) : Answer :=
  match s.maloa.waiting with
  | [] => .next s
  | r :: rest =>
    if !mailboxRuns s || !replySlotFree s then .next s
    else if !dmaOk then .next (mailboxError 3 s)
    else
      let s := writeSlot r { s with maloa := { s.maloa with waiting := rest } }
      .next (if r.more || r.early then s else dropRingWait r.tag s)

/-! ## Requests that no command takes (R69, checks 1 to 5) -/

/-- The opcodes of Table 3.26, as each group's low bytes. -/
def assignedOpcodes : List Nat :=
  [0x00, 0x01, 0x10, 0x11, 0x20, 0x21, 0x22, 0x30, 0x31, 0x32, 0x33, 0x40].map (0x0100 + ·) ++
  (List.range 4).map (0x0200 + ·) ++
  [0x00, 0x01, 0x02, 0x03, 0x10, 0x11, 0x12, 0x13, 0x14, 0x15, 0x20, 0x21, 0x22, 0x23, 0x24].map (0x0300 + ·) ++
  [0x00, 0x01, 0x02, 0x03, 0x04, 0x10, 0x11].map (0x0400 + ·) ++
  [0x00, 0x01, 0x02, 0x03, 0x04, 0x05, 0x10, 0x11, 0x12].map (0x0500 + ·) ++
  (List.range 6).map (0x0600 + ·) ++ (List.range 3).map (0x0700 + ·) ++
  (List.range 8).map (0x0800 + ·) ++ [0x0810, 0x0811] ++
  [0x00, 0x01, 0x02, 0x03, 0x04, 0x10, 0x11, 0x20, 0x21, 0x22, 0x23].map (0x0900 + ·) ++
  (List.range 8).map (0x0A00 + ·) ++ (List.range 5).map (0x0B00 + ·) ++ (List.range 5).map (0x0C00 + ·) ++
  (List.range 7).map (0x0D00 + ·) ++ (List.range 7).map (0x0E00 + ·) ++ (List.range 5).map (0x0F00 + ·) ++
  [0x00, 0x01, 0x10, 0x11, 0x12, 0x20].map (0x1000 + ·) ++ (List.range 5).map (0x1100 + ·)

/-- Whether the part takes the datagram that carries a packet (R89): no IP fragment, and a good UDP checksum, or none on IPv4, whose
addresses stand in IPv4-mapped form (Table 3.6). -/
def datagramGood (src : Source) (d : UdpObs) : Bool :=
  match src with
  | .eth a _ => !d.fragment && (d.checksum = 1 || (d.checksum = 0 && a / 2 ^ 32 = 0xFFFF))
  | _ => true

/-- Why a packet is discarded without a reply: 1 framing, 2 CRC (R69, checks 1 and 2; R89). -/
def discardCause (src : Source) (udp : UdpObs) (packet : Bytes) : Option Nat :=
  let n := u16 packet 4
  if !datagramGood src udp || packet.length < 16 || 4080 < n || packet.length < 16 + n then some 1
  else if crc32c (packet.take 12 ++ (packet.drop 16).take n) ≠ u32 packet 12 then some 2
  else none

/-- MALOA_REQUEST_REFUSED (R69): a packet that fails one of checks 1 to 5. A packet that passes them is a command's own. -/
def execMaloaRequestRefused (src : Source) (ingress : Nat) (udp : UdpObs) (packet : Bytes) (s : State) : Answer :=
  let op := u16 packet 0
  let came := s.maloa.arrived.find? fun a => a.src = src && a.packet = packet
  let q : Request := { src, ingress := (came.map (·.ingress)).getD ingress, latchkey := (came.map (·.latchkey)).getD 0
                       tag := u16 packet 2, token := u16 packet 6, txn := u32 packet 8
                       params := (packet.drop 16).take (u16 packet 4) }
  let bad (reason : Nat) (s : State) : Answer := .next (refuseRequest op q { status := 2, reason, info := op } 0 s)
  if !routeOpen src s then .next (takeArrival src (· = packet) s)
  else
    match discardCause src udp packet with
    | some c => .next (discardRequest (routeOf src) c (takeArrival src (· = packet) s))
    | none =>
      if duplicateTag src q.tag s then .next (discardRequest (routeOf src) 3 (takeArrival src (· = packet) s))
      else if assignedOpcodes.contains op then .next s
      else
        let s := takeArrival src (· = packet) s
        match cachedFor op q s with
        | some c => .next (sendAgain c q s)
        | none =>
          match limitRefusal src s with
          | some r => .next (refuseEarly op q r s)
          | none => bad (if op / 256 = 0 || 0x11 < op / 256 then 1 else 2) (trackSource src q.tag s)

/-! ## Sources and time limits (R76, R77, R81) -/

/-- The ns a command may take (R81): 1 s, or the longer or shorter limit of its chapter (Tables 5.13, 5.16, 6.13, 9.20, 9.21, 12.12,
18.16, 18.17, 18.19, 18.20, 20.14). -/
def limitOf (opcode : Nat) (params : Bytes) : Nat :=
  if [0x0504, 0x0320, 0x1012, 0x1020, 0x1100, 0x1103].contains opcode then 10 * second
  else if opcode = 0x1001 then u32 params 4 * 1000000 + second
  else if opcode = 0x0602 then second / 10
  else if [0x1102, 0x0D02].contains opcode then 5 * second
  else if opcode = 0x0321 then 3 * second
  else second

/-- Whether an outstanding command has reached its limit (R81); TXN_COMMIT has 1 s after T, a Mantel count. -/
def timeUp (o : Outstanding) (s : State) : Bool :=
  match o.wait with
  | .commit h => (txnAt s h).all fun t => t.t + second ≤ mantel s
  | _ => o.since + limitOf o.opcode o.params ≤ s.ns

/-- A transaction whose commit ends without effect is OPEN again (R236). -/
def reopen (h : Nat) (s : State) : State :=
  match txnAt s h with
  | some t => releaseResumes (setTxn { t with state := .opened, lastNamed := s.ns, t := 0 } s)
  | none => s

/-- What a command that runs out of time still had to do is undone (R81). A link goes on training, since its peer has joined in
(DEDUCED, log 60). -/
def abandon (w : Wait) (s : State) : State :=
  match w with
  | .store id => modNv (fun n => { n with queue := n.queue.filter fun t => t.id ≠ id }) s
  | .commit h => reopen h s
  | .quiesce key =>
    if s.maloa.outstanding.any fun o => o.wait = w then s
    else modBlock key (fun b => if b.state = .quiescing then { b with state := .running, drain := none } else b) s
  | .prbs p =>
    match (portAt s p).prbs with
    | some st => setPortState p st (modPort p (fun x => { x with prbs := none }) s)
    | none => s
  | .laser n => undoSwitch n s
  | .memtest h => { s with cellar := { s.cellar with testing := s.cellar.testing.erase h, tests := tdel s.cellar.tests h } }
  | .handover => { s with boot := { s.boot with handover := false } }
  | .activation => { s with fw := { s.fw with step := 0 }, boot := { s.boot with handover := false } }
  | _ => s

/-- COMMAND_TIMEOUT (R81): a command at its limit replies TIMEOUT and has no effect; WINDOW_RESET gives its own reply then (Table
5.13). A command whose reply only waits for slots has completed. -/
def execCommandTimeout (src : Source) (tag : Nat) (s : State) : Answer :=
  match s.maloa.outstanding.find? fun o => o.src = src && o.tag = tag && o.wait ≠ .ring with
  | some o =>
    if !timeUp o s then .next s
    else
      match o.wait with
      | .window w => .next (answerWindow w s)
      | _ =>
        let s := { s with maloa := { s.maloa with outstanding := s.maloa.outstanding.erase o } }
        .next (answerLater o 0x0A 1 0 [] (abandon o.wait s))
  | none =>
    match s.maloa.held.find? fun h => h.src = src && h.req.tag = tag with
    | some h =>
      if s.ns < h.since + limitOf h.opcode h.req.params then .next s
      else
        let m := { s.maloa with held := s.maloa.held.erase h, takenGen := h.ringGen, takenGid := h.selfGid }
        let s := { s with maloa := m }
        .next (refuseRequest h.opcode h.req { status := 0x0A, reason := 1 } h.level s)
    | none => .next s

/-- SOURCE_FORGOTTEN (R76): a source with nothing outstanding is forgotten with its replies. -/
def execSourceForgotten (src : Source) (s : State) : Answer :=
  if outstandingOf src s ≠ 0 then .next s
  else .next { s with maloa := { s.maloa with sources := s.maloa.sources.filter fun e => e.src ≠ src } }

/-- REPLY_CACHE_EXPIRY (R77): a cached reply is dropped. -/
def execReplyCacheExpiry (src : Source) (tag : Nat) (s : State) : Answer :=
  .next { s with maloa := { s.maloa with sources := s.maloa.sources.map fun e =>
    if e.src = src then { e with cache := e.cache.filter fun c => c.tag ≠ tag } else e } }

/-! ## Commands (Tables 3.19 to 3.24) -/

/-- ECHO: what it admits. -/
def opEcho : OpSpec := { opcode := 0x0101, observer := true, tenant := true, lengths := fun n => n ≤ 4080, reads := true }

/-- ECHO (Table 3.20). -/
def execEcho (q : Request) (s : State) : Answer :=
  runCommand opEcho (.echo q) q anyBlock (fun _ s => .ok q.params s) s

/-- A token entry in the layout of Table 3.6. -/
def tokenBytes (id : Nat) (t : Option Token) : Bytes :=
  match t with
  | none => beBytes 2 id ++ zeros 26
  | some t =>
    beBytes 2 id ++ beBytes 1 t.level ++ beBytes 1 t.routes ++ beBytes 2 t.latchkey ++ beBytes 1 t.grants ++ beBytes 1 t.bind ++
    beBytes 4 t.inbandGid ++ beBytes 16 t.ethAddr

/-- The entry that TOKEN_SET parameters give, reserved bits 0. -/
def tokenOf (p : Bytes) : Token :=
  { level := u8 p 2, routes := u8 p 3 % 8, latchkey := u16 p 4, grants := u8 p 6 % 2, bind := u8 p 7 % 4
    inbandGid := u32 p 8 % 2 ^ 20, ethAddr := field p 12 16 }

/-- Whether a change off PCIe would leave no OWNER token that serves another route (Table 3.21). -/
def locksOut (q : Request) (id : Nat) (t : Option Token) (s : State) : Bool :=
  let table := match t with | some t => tset s.maloa.tokens id t | none => tdel s.maloa.tokens id
  q.src ≠ .pcie && !(table.any fun e => e.2.level = 3 && (bit e.2.routes 1 || bit e.2.routes 2))

/-- Whether a token ID names an entry. -/
def tokenIdOk (id : Nat) : Bool := 1 ≤ id && id ≤ 0x400

/-- TOKEN_SET: what it admits. -/
def opTokenSet : OpSpec := { opcode := 0x0130, lengths := fun n => n = 28 }

/-- TOKEN_SET (Table 3.21). -/
def execTokenSet (q : Request) (s : State) : Answer :=
  runCommand opTokenSet (.tokenSet q) q anyBlock (fun c s =>
    let p := q.params
    let t := tokenOf p
    withChecks [chk (!tokenIdOk (u16 p 0)) (badParam 4 0), (t.level = 0 || 3 < t.level, badParam 3 2),
        (t.level ≠ 2 && t.latchkey ≠ 0, badParam 6 4), (locksOut q (u16 p 0) (some t) s, denied 8 q.token)] s fun s =>
      storeOrApply (.token (u16 p 0) (some t) c.route) s) s

/-- TOKEN_CLEAR: what it admits. -/
def opTokenClear : OpSpec := { opcode := 0x0131, lengths := fun n => n = 4 }

/-- TOKEN_CLEAR (Table 3.22). -/
def execTokenClear (q : Request) (s : State) : Answer :=
  runCommand opTokenClear (.tokenClear q) q anyBlock (fun c s =>
    let id := u16 q.params 0
    withChecks [chk (!tokenIdOk id) (badParam 4 0), (locksOut q id none s, denied 8 q.token)] s fun s =>
      storeOrApply (.token id none c.route) s) s

/-- TOKEN_READ: what it admits. -/
def opTokenRead : OpSpec := { opcode := 0x0132, lengths := fun n => n = 4, reads := true }

/-- TOKEN_READ (Table 3.23). -/
def execTokenRead (q : Request) (s : State) : Answer :=
  runCommand opTokenRead (.tokenRead q) q anyBlock (fun _ s =>
    let id := u16 q.params 0
    withChecks [chk (!tokenIdOk id) (badParam 4 0)] s fun s => .ok (tokenBytes id (tfind s.maloa.tokens id)) s) s

/-- SELF_GID_SET: what it admits. -/
def opSelfGidSet : OpSpec := { opcode := 0x0133, lengths := fun n => n = 4 }

/-- SELF_GID_SET (Table 3.24). -/
def execSelfGidSet (q : Request) (s : State) : Answer :=
  runCommand opSelfGidSet (.selfGidSet q) q anyBlock (fun _ s =>
    let w := u32 q.params 0
    storeOrApply (.selfGid (bit w 31) (w % 2 ^ 20)) s) s

end Sys2Proof.Machine
end

