-- ==== Sys2Proof/Machine/Counters.lean ====
section
/-!
DEFINITION. Counters as software reaches them (R512 to R522), filters, occupancy thresholds, and telemetry export (R523 to R527).
-/
namespace Sys2Proof.Machine

/-! ## Scopes (Table 22.1) -/

/-- A scope: its lowest instance, the first number past its instances, and its counters. -/
structure Scope where
  low : Nat
  past : Nat
  counters : Nat
  deriving DecidableEq, Repr

/-- The scopes of Table 22.1. -/
def scopeOf : Nat → Option Scope
  | 0x01 => some { low := 0, past := 1280, counters := 76 }
  | 0x02 => some { low := 0, past := 10240, counters := 12 }
  | 0x03 => some { low := 0, past := 10240, counters := 7 }
  | 0x04 => some { low := 0, past := 2097152, counters := 7 }
  | 0x05 => some { low := 0, past := 262144, counters := 4 }
  | 0x06 => some { low := 0, past := 4, counters := 80 }
  | 0x07 => some { low := 0, past := 2, counters := 28 }
  | 0x08 => some { low := 0, past := 68, counters := 1 }
  | 0x09 => some { low := 0, past := 65536, counters := 2 }
  | 0x0A => some { low := 1, past := 7, counters := 1 }
  | 0x0B => some { low := 0, past := 20, counters := 10 }
  | 0x0C => some { low := 6, past := 22, counters := 3 }
  | 0x0D => some { low := 0, past := 39, counters := 2 }
  | 0x0E => some { low := 0, past := 3, counters := 4 }
  | 0x0F => some { low := 0, past := 2, counters := 3 }
  | 0x10 => some { low := 0, past := 2, counters := 5 }
  | 0x11 => some { low := 0, past := 1, counters := 4 }
  | 0x12 => some { low := 0, past := 32, counters := 1 }
  | _ => none

/-- Whether a counter is a gauge (R513). -/
def isGauge (scope idx : Nat) : Bool := scope = 5 && (idx = 2 || idx = 3)

/-- Whether the leading Hearth keeps a scope's counters (R514). -/
def leaderKeeps (scope : Nat) : Bool := 0x0E ≤ scope && scope ≤ 0x12

/-- Whether an instance's object exists (R516). -/
def objectExists (s : State) (scope inst : Nat) : Bool :=
  let meter : Bool := 1 ≤ inst % 8 && inst % 8 ≤ 5
  match scope with
  | 1 => carriesFrames s inst
  | 2 => carriesFrames s (inst / 8)
  | 3 => meter && carriesFrames s (inst / 8)
  | 4 => meter && (blockAt s (inst / 32)).isSome
  | 5 => inst < 4 || (blockAt s (inst / 4)).isSome
  | _ => true

/-- The die that holds a counter, where one die but the leading Hearth does (R515, R517): of a port its Hall for the LATCHKEY counters
(R261), else its EIC. -/
def counterDie (s : State) (scope inst idx : Nat) : Option Nat :=
  match scope with
  | 1 => some (if 63 ≤ idx && idx < 67 then hallDie (hallOf inst) else eicDie (windowOf inst))
  | 2 => some (hallDie (hallOf (inst / 8)))
  | 3 => some (hallDie (hallOf (inst / 8)))
  | 4 => some (hallDie (inst / 8 % 4))
  | 5 => some (hallDie (inst % 4))
  | 6 => some (hallDie inst)
  | 7 => some (mangleDie inst)
  | 8 => some (mangleDie (inst / 34))
  | 9 => if (ctxAt s inst).isSome then some (mangleDie (ctxOf s inst).home) else none
  | 11 => some (hallDie (inst / 5))
  | 12 => some (hallDie (hallOfCellar inst))
  | _ => none

/-- Whether the die of a counter is out of service (R517). -/
def counterOut (s : State) (scope inst idx : Nat) : Bool := (counterDie s scope inst idx).any fun d => (dieAt s d).state = 3

/-- Whether some counter of a run is on a die out of service. -/
def someOut (s : State) (scope inst first n : Nat) : Bool := (List.range n).any fun i => counterOut s scope inst (first + i)

/-- The value of a gauge (R513). -/
def gaugeValue (s : State) (inst idx : Nat) : Nat :=
  if idx = 2 then poolUse s (inst % 4) (inst / 4) else tget (hallAt s (inst % 4)).spillUsed (inst / 4) 0

/-- A captured counter as 64 bits: OVF[63], GAUGE[62], value [47:0] (Table 22.8). (DEDUCED, log 53.) -/
def counterWord (s : State) (scope inst idx : Nat) : Nat :=
  let gone := counterOut s scope inst idx || !objectExists s scope inst || (scope = 6 && 48 ≤ idx && (idx - 48) / 8 = inst)
  if isGauge scope idx then 2 ^ 62 + (if gone then 0 else gaugeValue s inst idx % 2 ^ 48)
  else if gone then 0
  else
    let c := counterAt { scope, inst, idx } s
    b2n c.ovf * 2 ^ 63 + c.value

/-- Counters of one instance, captured together (R515). -/
def captureWords (s : State) (scope inst first count : Nat) : List Nat :=
  (List.range count).map fun i => counterWord s scope inst (first + i)

/-- Why a selection of counters is refused: a reserved scope, counters or instances out of range. -/
def selectionChecks (scope first count inst n : Nat) : List (Bool × Refuse) :=
  let x := (scopeOf scope).getD { low := 0, past := 0, counters := 0 }
  [chk (scopeOf scope).isNone (badParam 3 0), (count = 0 || 64 < count, badParam 4 3), (x.counters < first + count, badParam 4 2),
   (inst < x.low || x.past < inst + n, badParam 4 4)]

/-- Clears the value, the OVF bit or both of a counter (R512, R515). -/
def Counter.clear (c : Counter) (value ovf : Bool) : Counter :=
  { value := if value then 0 else c.value, ovf := c.ovf && !ovf }

/-- Clears the counters that `sel` names. -/
def clearCounters (sel : CtrKey → Bool) (value ovf : Bool) (s : State) : State :=
  { s with counters := s.counters.map fun e => if sel e.1 then (e.1, e.2.clear value ovf) else e }

/-- Whether a counter lies in a selection. -/
def selected (scope first count inst n : Nat) (k : CtrKey) : Bool :=
  k.scope = scope && inst ≤ k.inst && k.inst < inst + n && first ≤ k.idx && k.idx < first + count

/-- Raises COUNTERS_CLEARED (Table 22.11). -/
def countersCleared (scope first count inst route : Nat) (s : State) : State :=
  raiseLead 0x0F01 2 (scope * 2 ^ 24 + first * 2 ^ 16 + count) inst route s

/-- A standby that is ready copies the counters of the leading Hearth (R514). -/
def copyCounters (s : State) : State := { s with ctrCopy := s.counters.filter fun e => leaderKeeps e.1.scope }

/-- After an unplanned handover the leading Hearth's counters hold what the last copy held (R514). -/
def restoreCounters (s : State) : State :=
  { s with counters := (s.counters.filter fun e => !leaderKeeps e.1.scope) ++ s.ctrCopy }

/-! ## Commands (Tables 22.12 to 22.15) -/

/-- Whether an instance belongs to a block (R518). -/
def instanceOfBlock (scope inst key : Nat) (s : State) : Bool :=
  (blockAt s key).any fun b =>
    match scope with
    | 1 => b.hasPort inst
    | 2 => b.hasPort (inst / 8)
    | 3 => b.hasPort (inst / 8)
    | 4 => inst / 32 = key
    | 5 => inst / 4 = key
    | 9 => b.hasCtxOf inst
    | _ => false

/-- COUNTER_READ: what it admits. -/
def opCounterRead : OpSpec := {
  opcode := 0x0F00, observer := true, tenant := true, grant := some 0, tokenGrant := true, lengths := fun n => n = 8, reads := true }

/-- COUNTER_READ (Table 22.12). -/
def execCounterRead (q : Request) (s : State) : Answer :=
  let p := q.params
  let scope := u8 p 0
  let first := u8 p 2
  let n := u8 p 3
  let inst := u32 p 4 % 2 ^ 24
  runCommand opCounterRead (.counterRead q) q (fun s key => instanceOfBlock scope inst key s) (fun _ s =>
    withChecks (selectionChecks scope first n inst 1) s fun s =>
      let out := someOut s scope inst first n
      .reply (if out then 0x0E else 0) (if out then 0x80 else 0) 0
        ([scope, 0, first, n].map byteOf ++ beBytes 4 inst ++ (captureWords s scope inst first n).flatMap (beBytes 8)) s) s

/-- COUNTER_CLEAR: what it admits. -/
def opCounterClear : OpSpec := { opcode := 0x0F01, lengths := fun n => n = 12 }

/-- Every counter of Table 22.1 but the gauges. -/
def allCounters : Nat :=
  ((List.range 19).map fun k => match scopeOf k with
    | none => 0
    | some x => (x.past - x.low) * (x.counters - if k = 5 then 2 else 0)).sum

/-- COUNTER_CLEAR (Table 22.13). (DEDUCED, log 53.) -/
def execCounterClear (q : Request) (s : State) : Answer :=
  runCommand opCounterClear (.counterClear q) q anyBlock (fun c s =>
    let p := q.params
    let scope := u8 p 0
    let value := bit (u8 p 1) 0
    let ovf := bit (u8 p 1) 1
    let first := u8 p 2
    let k := u8 p 3
    let inst := u32 p 4
    let n := u32 p 8
    let flags := [chk (4 ≤ u8 p 1) (badParam 3 1), (!value && !ovf, badParam 4 1)]
    if scope = 0xFF then
      withChecks flags s fun s =>
        let out := (List.range 40).any fun d => (dieAt s d).state = 3
        .reply (if out then 0x0E else 0) (if out then 0x80 else 0) 0 (beBytes 4 allCounters)
          (countersCleared 0xFF 0 0 0 c.route (clearCounters (fun _ => true) value ovf s))
    else
      withChecks (flags ++ [chk (n = 0 || 65536 < n) (badParam 4 8)] ++ selectionChecks scope first k inst n) s fun s =>
        let out := (List.range n).any fun i => someOut s scope (inst + i) first k
        let gauges := ((List.range k).filter fun i => isGauge scope (first + i)).length
        .reply (if out then 0x0E else 0) (if out then 0x80 else 0) 0 (beBytes 4 (n * (k - gauges)))
          (countersCleared scope first k inst c.route (clearCounters (selected scope first k inst n) value ovf s))) s

/-- COUNTER_FILTER_SET: what it admits. -/
def opCounterFilterSet : OpSpec := { opcode := 0x0F02, lengths := fun n => n = 20 }

/-- Bits that the masks of a filter type leave reserved, beside its fields (Table 22.2): of ENABLE, PRIV, the route or Hall mask, and
CLASS. A mask that the type ignores is not checked. -/
def filterReserved (p : Bytes) : Bool :=
  let type := u8 p 1
  2 ≤ u8 p 2 || (type = 0 && (16 ≤ u8 p 3 || 8 ≤ u8 p 4)) || (type = 2 && 16 ≤ u8 p 4) ||
  (type = 1 && 4 ≤ u16 p 16) || (type = 2 && 128 ≤ u16 p 16)

/-- COUNTER_FILTER_SET (Table 22.14, R521). -/
def execCounterFilterSet (q : Request) (s : State) : Answer :=
  runCommand opCounterFilterSet (.counterFilterSet q) q anyBlock (fun _ s =>
    let p := q.params
    let f := u8 p 0
    withChecks [chk (31 < f) (badParam 4 0), (2 < u8 p 1, badParam 3 1), (filterReserved p, badParam 3 2),
        (u32 p 12 < u32 p 8, badParam 6 8)] s fun s =>
      let x : Filter := { type := u8 p 1, enable := bit (u8 p 2) 0, priv := u8 p 3, mask := u8 p 4, lo := u32 p 8, hi := u32 p 12
                          cls := u16 p 16 }
      let s := clearCounters (fun k => k.scope = 18 && k.inst = f) true true s
      .ok [] { s with filters := tset s.filters f x }) s

/-- OCC_THRESHOLD_SET: what it admits. -/
def opOccThresholdSet : OpSpec := { opcode := 0x0F03, lengths := fun n => n = 12 }

/-- The largest occupancy threshold, and the one at reset (R519). -/
def occNever : Nat := 3145728

/-- OCC_THRESHOLD_SET (Table 22.15, R519). -/
def execOccThresholdSet (q : Request) (s : State) : Answer :=
  runCommand opOccThresholdSet (.occThresholdSet q) q anyBlock (fun _ s =>
    let p := q.params
    withChecks [chk (1280 ≤ u16 p 0) (badParam 4 0), (u16 p 2 = 0 || 1280 < u16 p 0 + u16 p 2, badParam 4 2),
        (u8 p 4 = 0, badParam 4 4), (occNever < u32 p 8, badParam 4 8)] s fun s =>
      let keys := (List.range (u16 p 2)).flatMap fun i => (setBits 8 (u8 p 4)).map fun v => (u16 p 0 + i, v)
      .ok [] { s with occ := keys.foldl (fun t k => if u32 p 8 = occNever then tdel t k else tset t k (u32 p 8)) s.occ }) s

/-- The occupancy counters over one tick of 1 ns, two HALLCLK cycles (R519). -/
def countOccupancy (s : State) : State :=
  s.occ.foldl (fun s e =>
    if e.2 < queueCells s e.1.1 e.1.2 && carriesFrames s e.1.1 then countQueue e.1.1 e.1.2 11 2 s else s) s

/-! ## The counter window (R522) -/

/-- Changes the counter window. -/
def modCtr (g : CtrWindow → CtrWindow) (s : State) : State := { s with ctr := g s.ctr }

/-- A running capture ends (R522). -/
def endCapture (s : State) : State := modCtr (fun w => { w with until' := none, done := true }) s

/-- A write of CTR_CTRL with START = 1 (R522). The capture is made at once, and it lasts an open time of at most 2 µs. -/
def startCapture (clear : Bool) (s : State) : State :=
  let w := s.ctr
  if w.until'.isSome then modCtr (fun w => { w with overrun := true }) s
  else
    let d := draw 2001 s
    let s := modCtr (fun w => { w with until' := some (d.2.ns + d.1) }) d.2
    let s :=
      if (firstRefusal (selectionChecks w.scope w.first w.count w.inst 1)).isSome then
        modCtr (fun w => { w with status := 3, reason := 4 }) s
      else
        let out := someOut s w.scope w.inst w.first w.count
        let vals := captureWords s w.scope w.inst w.first w.count
        let s := modCtr (fun w => { w with
          status := if out then 0x0E else 0, reason := if out then 0x80 else 0, vals := vals ++ w.vals.drop vals.length }) s
        if clear then
          countersCleared w.scope w.first w.count w.inst 3
            (clearCounters (selected w.scope w.first w.count w.inst 1) true true s)
        else s
    if d.1 = 0 then endCapture s else s

/-- CTR_CAPTURE (R522). (DEDUCED, log 53.) -/
def execCtrCapture (s : State) : Answer := bar0Write 0x40008 (fun s => .next (startCapture false s)) s

/-- CTR_READ_CLEAR (R522). -/
def execCtrReadClear (s : State) : Answer := bar0Write 0x40008 (fun s => .next (startCapture true s)) s

/-- The registers of the counter window as the host reads them (Tables 22.3 to 22.7). -/
def ctrRegister (off : Nat) (s : State) : Nat :=
  let w := s.ctr
  if off = 0 then w.scope * 2 ^ 24 + w.first * 2 ^ 16 + w.count
  else if off = 4 then w.inst
  else if off = 0x0C then
    b2n w.until'.isSome * 2 ^ 31 + b2n w.done * 2 ^ 30 + b2n w.overrun * 2 ^ 29 + w.status * 2 ^ 16 + w.reason * 2 ^ 8
  else if 0x100 ≤ off && off < 0x300 then
    let v := w.vals.getD ((off - 0x100) / 8) 0
    if off % 8 = 0 then v % 2 ^ 32 else v / 2 ^ 32
  else 0

/-! ## Telemetry export (R523 to R525) -/

/-- Changes the export state. -/
def modTel (g : Telemetry → Telemetry) (s : State) : State := { s with tel := g s.tel }

/-- Changes an export set. -/
def modSet (n : Nat) (g : ExportSet → ExportSet) (s : State) : State :=
  modTel (fun t => { t with sets := t.sets.set n (g (t.sets.getD n {})) }) s

/-- The Hall whose TELEMETRY partition takes an instance's records (R524). -/
def recordHall (scope inst : Nat) : Nat :=
  match scope with
  | 1 => hallOf inst
  | 2 => hallOf (inst / 8)
  | 3 => hallOf (inst / 8)
  | 4 => inst / 8 % 4
  | 5 => inst % 4
  | 7 => 2 * inst
  | 8 => 2 * (inst / 34)
  | _ => 0

/-- Bytes of a record (Table 22.8). -/
def TelRecord.size (r : TelRecord) : Nat := 24 + 8 * r.values.length

/-- Cellar lines of a record: each record starts a line (DESIGN CHOICE, log 39). -/
def TelRecord.lines (r : TelRecord) : Nat := ceilDiv r.size 64

/-- A record in the layout of Table 22.8. -/
def TelRecord.bytes (r : TelRecord) : Bytes :=
  [r.set, r.scope, r.first, r.values.length].map byteOf ++ beBytes 4 r.inst ++ beBytes 8 r.trigger ++ beBytes 4 r.offset ++
  beBytes 1 (b2n r.locked) ++ zeros 3 ++ r.values.flatMap (beBytes 8)

/-- The order of R525: TRIGGER, then SET, then INSTANCE. -/
def TelRecord.before (a b : TelRecord) : Bool :=
  a.trigger < b.trigger || (a.trigger = b.trigger && (a.set < b.set || (a.set = b.set && a.inst < b.inst)))

/-- A record put in its place among those stored. -/
def insertRecord (r : TelRecord) (l : List TelRecord) : List TelRecord :=
  l.takeWhile (fun x => !r.before x) ++ [r] ++ l.dropWhile (fun x => !r.before x)

/-- Records counted in EXPORT_DROP. -/
def dropRecords (n : Nat) (s : State) : State := count 17 0 3 n (modTel (fun t => { t with dropped := t.dropped + n }) s)

/-- Writes a record to its Hall's TELEMETRY partition; one that finds it full is dropped (R524). -/
def storeRecord (r : TelRecord) (s : State) : State :=
  let used := ((s.tel.stored.filter fun x => x.hall = r.hall).map TelRecord.lines).sum
  if partSize s 3 * 2 ^ 22 < used + r.lines then
    raiseLimited 0x0F02 0 second (fun n s => raiseLead 0x0F02 3 r.hall n 0 s) (dropRecords 1 s)
  else
    modTel (fun t => { t with stored := insertRecord r t.stored }) (countLines r.hall 3 1 r.lines (useTokens r.hall 3 r.lines s))

/-- Captures one instance of a set; its capture cycle lies an open time within `d` after the trigger (R524). -/
def captureInstance (n : Nat) (x : ExportSet) (d : Nat) (s : State) (i : Nat) : State :=
  let o := draw (d + 1) s
  let inst := x.inst + i
  storeRecord { hall := recordHall x.scope inst, set := n, scope := x.scope, first := x.first, inst, trigger := mantel s
                offset := o.1, locked := mantelLocked s, values := captureWords s x.scope inst x.first x.count } o.2

/-- A trigger of an export set (R523, R524): skipped while the set's last capture runs, which lasts an open time of at most 10 µs
and 1 µs for each 1,000 instances. -/
def triggerSet (n : Nat) (s : State) : State :=
  let x := s.tel.sets.getD n {}
  if !x.enable || !s.tel.enable then s
  else if s.ns < x.busyUntil then dropRecords x.instCount s
  else
    let d := draw (10000 + x.instCount + 1) s
    let s := modSet n (fun x => { x with busyUntil := s.ns + d.1 }) d.2
    (List.range x.instCount).foldl (captureInstance n x d.1) s

/-- The sets that STEP generator `g` triggers capture (R420, R523). (DEDUCED, log 53.) -/
def captureStep (g : Nat) (s : State) : State :=
  (List.range 8).foldl (fun s n =>
    let x := s.tel.sets.getD n {}
    if x.step && x.generator = g then triggerSet n s else s) s

/-- TELEMETRY_TRIGGER (R523): the Mantel count is a multiple of a set's PERIOD × 1,000. A set that a STEP generator triggers is captured by
STEP_INSTANT. -/
def execTelemetryTrigger (set : Nat) (s : State) : Answer :=
  guard (set < 8) "export set"
    (let x := s.tel.sets.getD set {}
    if x.step || mantel s % (x.period * 1000) ≠ 0 then s else triggerSet set s)

/-- The oldest records that one datagram of at most 4,096 bytes carries (R525). -/
def fitRecords : Nat → List TelRecord → List TelRecord
  | _, [] => []
  | room, r :: l => if r.size ≤ room then r :: fitRecords (room - r.size) l else []

/-- A record's lines are read; one whose line is lost is counted (R306). `lost`: the line address and whether it was poisoned. -/
def readRecord (r : TelRecord) (lost : Option (Nat × Bool)) (s : State) : State :=
  let s := countLines r.hall 3 0 r.lines (useTokens r.hall 3 r.lines s)
  match lost with
  | none => s
  | some (line, poisoned) =>
    countPart r.hall 3 7 1 (demandLine r.hall 3 line (if poisoned then .poisoned else .uncorrectable) s)

/-- UDP payload bytes that MAX_RATE, in Mb/s, still allows within the last 1 ms (R525). -/
def telRoom (s : State) : Nat :=
  s.tel.maxRate * 125 - ((s.tel.recent.filter fun e => s.ns < e.1 + 1000000).map (·.2)).sum

/-- TELEMETRY_DATAGRAM_SEND (R525): the leading Hearth sends the oldest records that one datagram and MAX_RATE admit. `lost` lists records whose Cellar line is lost, by
place in the order of sending, with the line address and whether the line was poisoned. (DEDUCED, log 53.) -/
def execTelemetryDatagramSend (lost : List (Nat × Nat × Bool)) (s : State) : Answer :=
  let t := s.tel
  let up : Bool := (s.mgmt.getD t.mgmt {}).up && (dieAt s t.mgmt).state ≠ 3
  let rs := fitRecords (min 4072 (telRoom s - 24)) t.stored
  if !t.enable || !up || s.boot.handover || s.boot.lost || rs = [] then .next s
  else
    let at' (i : Nat) : Option (Nat × Bool) := (lost.find? fun x => x.1 = i).map (·.2)
    let marked := rs.zipIdx
    let s := marked.foldl (fun s x => readRecord x.1 (at' x.2) s) s
    let good := (marked.filter fun x => (at' x.2).isNone).map (·.1)
    let s := modTel (fun t => { t with stored := t.stored.drop rs.length }) s
    if good = [] then .next s
    else
      let head := beBytes 2 1 ++ beBytes 2 good.length ++ beBytes 8 Config.deviceSerial ++ beBytes 8 t.seq ++ beBytes 4 t.dropped
      let body := head ++ good.flatMap TelRecord.bytes
      let s := emit (.telemetry t.mgmt t.addr t.port body) s
      .next (count 17 0 2 1 (count 17 0 1 good.length (modTel (fun t => { t with
        seq := (t.seq + 1) % 2 ^ 64, dropped := 0
        recent := (t.recent.filter fun e => s.ns < e.1 + 1000000) ++ [(s.ns, body.length)] }) s)))

/-- TELEMETRY_EXPORT_SET: what it admits. -/
def opTelemetryExportSet : OpSpec := { opcode := 0x0F04, lengths := fun n => n = 28 || n = 20 }

/-- The checks of TYPE 1, an export set (Table 22.16). -/
def exportChecks (p : Bytes) : List (Bool × Refuse) :=
  let scope := u8 p 4
  let x := (scopeOf scope).getD { low := 0, past := 0, counters := 0 }
  let step := bit (u8 p 2) 1
  [chk (p.length ≠ 20) (badParam 1 0xFFFF), (4 ≤ u8 p 2, badParam 3 2), ((scopeOf scope).isNone, badParam 3 4),
   (7 < u8 p 1, badParam 4 1), (3 < u8 p 3, badParam 4 3), (x.counters < u8 p 5 + u8 p 6, badParam 4 5),
   (u8 p 6 = 0 || 64 < u8 p 6, badParam 4 6), (u32 p 8 < x.low || x.past ≤ u32 p 8, badParam 4 8),
   (u32 p 12 = 0 || 65536 < u32 p 12 || x.past < u32 p 8 + u32 p 12, badParam 4 12),
   (!step && (u32 p 16 < 10 || 60000000 < u32 p 16), badParam 4 16)]

/-- TELEMETRY_EXPORT_SET (Table 22.16). -/
def execTelemetryExportSet (q : Request) (s : State) : Answer :=
  runCommand opTelemetryExportSet (.telemetryExportSet q) q anyBlock (fun _ s =>
    let p := q.params
    if u8 p 0 = 0 then
      withChecks [chk (p.length ≠ 28) (badParam 1 0xFFFF), (2 ≤ u8 p 2, badParam 3 2), (1 < u8 p 1, badParam 4 1),
          (u32 p 24 = 0 || 5000 < u32 p 24, badParam 4 24), ((dieAt s (u8 p 1)).state = 3, { status := 0x0B, reason := 4 })] s fun s =>
        .ok [] (modTel (fun t => { t with
          mgmt := u8 p 1, enable := bit (u8 p 2) 0, port := u16 p 4, addr := field p 8 16, maxRate := u32 p 24 }) s)
    else
      withChecks (chk (1 < u8 p 0) (badParam 3 0) :: exportChecks p) s fun s =>
        .ok [] (modSet (u8 p 1) (fun x => {
          enable := bit (u8 p 2) 0, step := bit (u8 p 2) 1, generator := u8 p 3, scope := u8 p 4, first := u8 p 5, count := u8 p 6
          inst := u32 p 8, instCount := u32 p 12, period := u32 p 16, busyUntil := x.busyUntil }) s)) s

end Sys2Proof.Machine
end

