-- ==== Sys2Proof/Machine/Clocks.lean ====
section
/-!
DEFINITION. Time (R408 to R435): the Mantel counter and its sources, STEP events, the Calendar, PTP, the timestamp queue and the
legacy view. Offsets and delays are in 1/65,536 ns.
-/
namespace Sys2Proof.Machine

/-- Changes the time scales. -/
def modTime (g : Time → Time) (s : State) : State := { s with time := g s.time }

/-- Changes the Calendar. -/
def modCal (g : Calendar → Calendar) (s : State) : State := modTime (fun t => { t with cal := g t.cal }) s

/-- Mantel's record of a data port. -/
def mantelPort (s : State) (p : Nat) : MantelPort := tget s.time.ports p {}

/-- Changes Mantel's record of a data port. -/
def modMantelPort (p : Nat) (g : MantelPort → MantelPort) (s : State) : State :=
  modTime (fun t => { t with ports := tset t.ports p (g (mantelPort s p)) }) s

/-- Whole nanoseconds of a value in 1/65,536 ns. -/
def wholeNs (v : Int) : Int := v / 65536

/-- The Mantel counter as one number, in 1/65,536 tick. -/
def mantelFine (s : State) : Nat := s.time.count * 65536 + s.time.frac

/-- An open steering value within ± `limit` ppb (DESIGN CHOICE, log 2). -/
def drawRate (limit : Nat) (s : State) : Int × State :=
  let d := draw (2 * limit + 1) s
  ((d.1 : Int) - limit, d.2)

/-! ## The Calendar (R422 to R426) -/

/-- Code of the Calendar's state (Table 17.4) that holds a source. -/
def calFollows (s : State) : Bool := s.time.cal.state = 2 || s.time.cal.state = 3

/-- Raises CAL_STEPPED, at most once per second (R433). -/
def calStepped (step : Int) (s : State) : State :=
  let ns := wholeNs step
  raiseLimited 0x0A13 0 second
    (fun _ s => raiseLead 0x0A13 3 (natOfInt 64 ns % 2 ^ 32) (natOfInt 64 ns / 2 ^ 32) s.time.cal.source s) s

/-- The Calendar moved by an offset. What was captured of it for a frame that still waits moves with it. -/
def moveCalendar (by' : Int) (s : State) : State :=
  let v := (s.time.cal.fine + by').toNat
  modTime (fun t => { t with
    cal := { t.cal with sec := v / 65536 / second % 2 ^ 64, ns := v / 65536 % second, frac := v % 65536 }
    inbox := t.inbox.map fun x => { x with cal := x.cal + by' } }) s

/-- The Calendar's source is lost (R424): CAL_RATE is held at its mean over the last 16 s, which is open. -/
def calHoldover (s : State) : State :=
  if calFollows s then
    let r := drawRate 1000000 s
    raiseLead 0x0A11 3 s.time.cal.source (natOfInt 32 r.1) 0
      (modCal (fun c => { c with state := 4, rate := r.1, holdSince := some s.ns, good := 0, bad := 0 }) r.2)
  else s

/-- An offset measurement of the Calendar's source (R424). -/
def calMeasure (off : Int) (s : State) : State :=
  if 1 < s.time.cal.fresh then modCal (fun c => { c with fresh := c.fresh - 1 }) s
  else
    let c := s.time.cal
    let s := modCal (fun c => { c with fresh := 0 }) s
    let s :=
      if c.state = 4 then
        let ms := (s.ns - c.holdSince.getD s.ns) / 1000000
        raiseLead 0x0A12 2 c.source ms (natOfInt 32 (wholeNs off))
          (modCal (fun c => { c with state := 2, holdSince := none, good := 0, bad := 0 }) s)
      else s
    let s :=
      if (c.stepLimit * 65536000 : Nat) < off.natAbs then calStepped off (moveCalendar off s)
      else
        let r := drawRate 1000000 s
        modCal (fun c => { c with rate := r.1 }) r.2
    let c := s.time.cal
    let good := if off.natAbs ≤ 100 * 65536 then c.good + 1 else 0
    let bad := if 1000 * 65536 < off.natAbs then c.bad + 1 else 0
    if c.state = 2 && 16 ≤ good then
      raiseLead 0x0A10 1 c.source (natOfInt 32 (wholeNs off)) 0 (modCal (fun c => { c with state := 3, good := 0, bad := 0 }) s)
    else if c.state = 3 && 8 ≤ bad then modCal (fun c => { c with state := 2, good := 0, bad := 0 }) s
    else modCal (fun c => { c with good, bad }) s

/-! ## STEP events (R420) -/

/-- Takes the actions of a generator at its instant `k`; `skipped` instants were passed by a step (R416). The pulses of generators whose instants
coincide merge into one. -/
def stepAct (g k skipped : Nat) (s : State) : State :=
  let a := (s.time.gens.getD g {}).actions
  let s := if bit a 0 && s.time.pulse ≠ some s.ns then emit (.pulse g) (modTime (fun t => { t with pulse := some s.ns }) s) else s
  let s := if bit a 1 then emit (.msix 2) (modTime (fun t => { t with stepPending := t.stepPending ||| 2 ^ g }) s) else s
  let s := if bit a 2 then raiseLead 0x0A30 1 g k skipped s else s
  if bit a 3 then captureStep g s else s

/-- Changes a generator. -/
def modGen (g : Nat) (f : StepGen → StepGen) (s : State) : State :=
  modTime (fun t => { t with gens := t.gens.set g (f (t.gens.getD g {})) }) s

/-- STEP_INSTANT (R420): a generator reaches its next instant, when COUNT has. -/
def execStepInstant (g : Nat) (s : State) : Answer :=
  let x := s.time.gens.getD g {}
  guard (g < 4) "STEP generator"
    (if x.enable && x.base + x.k * x.period ≤ mantel s then modGen g (fun x => { x with k := x.k + 1 }) (stepAct g x.k 0 s) else s)

/-- The index of a generator's first instant at or after a count. -/
def StepGen.firstFrom (x : StepGen) (count : Nat) : Nat :=
  if count ≤ x.base then 0 else ceilDiv (count - x.base) (max 1 x.period)

/-! ## Counter steps (R409, R416) -/

/-- Gates act on a step (R326): a frame that started before it and now runs past its window is counted, and each Hall whose
ports have gate lists raises GATE_REALIGNED. -/
def realignGates (stepNs : Int) (s : State) : State :=
  let ports := (s.setup.live.filterMap fun e => match e.1 with | .gates p => if e.2 = [] then none else some p | _ => none)
  let late (p : Nat) : Bool :=
    let l := linkAt s p
    s.ns < l.busyUntil && 1 ≤ l.busyVc && l.busyVc ≤ 5 &&
    (gateList s p).any fun g => g.base ≤ mantel s && !alwaysOpen g l.busyVc && windowLeft g l.busyVc (mantel s) < l.busyUntil - s.ns
  (List.range 4).foldl (fun s h =>
    let mine := ports.filter fun p => hallOf p = h
    if mine = [] then s
    else
      let lates := mine.filter late
      let s := lates.foldl (fun s p => countQueue p (linkAt s p).busyVc 9 1 s) s
      raise 0x0802 (hallDie h) 2 h (natOfInt 32 stepNs) lates.length s) s

/-- Instants that a forward step passed over, for one generator (R416). -/
def passInstants (old g : Nat) (s : State) : State :=
  let x := s.time.gens.getD g {}
  if !x.enable then s
  else
    let k := x.firstFrom (mantel s)
    let skipped := k - x.k
    if old ≤ mantel s then
      if skipped = 0 then s else modGen g (fun x => { x with k }) (stepAct g (k - 1) skipped s)
    else modGen g (fun x => { x with k := x.firstFrom (mantel s + 1) }) s

/-- Commits whose instants the counter has reached, earliest first (R416). -/
def dueCommits (s : State) : List Txn :=
  let due := s.setup.txns.filter fun t => t.state = .committing && t.t ≤ mantel s
  (sortNat (due.map (·.t))).eraseDups.flatMap fun at' => due.filter fun t => t.t = at'

/-- A counter step of `by'` (R409, R415, R416). (DEDUCED, log 49.) -/
def stepMantel (by' : Int) (s : State) : State :=
  let old := mantel s
  let v := natOfInt 80 ((mantelFine s : Int) + by')
  let s := modTime (fun t => { t with
    count := v / 65536, frac := v % 65536, steps := t.steps + 1, lastStep := by'
    ports := t.ports.map fun e => (e.1, { e.2 with sent := [] }) }) s
  let ns := wholeNs by'
  let s := dropFlowlets s
  let s := raiseLead 0x0A03 3 (natOfInt 64 ns % 2 ^ 32) (natOfInt 64 ns / 2 ^ 32) (s.time.upstream.getD 0x7FF) s
  let s := (dueCommits s).foldl (fun s t => commitNow t s) s
  let s := [0, 1, 2, 3].foldl (fun s g => passInstants old g s) s
  realignGates ns s

/-! ## Sources (R411, R418) -/

/-- Whether a port is eligible for Mantel (R411). -/
def mantelEligible (s : State) (p : Nat) : Bool :=
  6 ≤ s.boot.phase && p < 1024 && gangBase s p = p && isUp s p && bit (linkAt s p).peerCaps 1 && !(mantelPort s p).exclude

/-- Whether a port offers a source (R411). -/
def offersSource (s : State) (p : Nat) : Bool :=
  mantelEligible s p && (mantelPort s p).info.any fun i => i.source && i.depth ≤ 14 && i.valid

/-- The order of R411 as one number: lower is better. `depth` is DEPTH + 1. -/
def rankKey (prio serial : Nat) (hold : Bool) (depth port : Nat) : Nat :=
  (((prio * 2 ^ 64 + serial) * 2 + b2n hold) * 256 + depth) * 2048 + port

/-- The rank of a port's source. -/
def portRank (s : State) (p : Nat) : Nat :=
  match (mantelPort s p).info with
  | none => 0
  | some i => rankKey i.gmPriority i.gmSerial i.holdover (i.depth + 1) p

/-- The best port that offers a source. -/
def bestSource (s : State) : Option Nat :=
  ((s.time.ports.map (·.1)).filter (offersSource s)).foldl (fun b p =>
    match b with
    | none => some p
    | some q => if portRank s p < portRank s q then some p else some q) none

/-- The part becomes the grandmaster. -/
def becomeMaster (s : State) : State :=
  if s.time.state = .master then s
  else
    let old := s.time.upstream.getD 0x7FF
    let s := modTime (fun t => { t with state := .master, upstream := none, steering := 0, good := 0, bad := 0, holdSince := none }) s
    let s := raiseLead 0x0A04 2 old 0x7FF 3 s
    if s.time.cal.source = 2 then calHoldover s else s

/-- No source is left and the part is not master-capable (R418). One that never followed any is in FREE_RUN. -/
def loseSource (s : State) : State :=
  match s.time.state with
  | .acquiring | .locked | .master =>
    if s.time.gm.isNone then modTime (fun t => { t with state := .freeRun }) s
    else
    let r := drawRate 200000 s
    let last := s.time.upstream.getD 0x7FF
    let s := modTime (fun t => { t with
      state := .holdover, steering := r.1, upstream := none, holdSince := some s.ns, good := 0, bad := 0 }) r.2
    let s := raiseLead 0x0A06 3 last (natOfInt 32 r.1) 0 s
    if s.time.cal.source = 2 then calHoldover s else s
  | _ => s

/-- A port becomes or stays the upstream port (R411, R415, R418). -/
def followPort (p : Nat) (s : State) : State :=
  match (mantelPort s p).info with
  | none => s
  | some i =>
    let t := s.time
    let gm := (i.gmPriority, i.gmSerial)
    let same := t.gm = some gm
    let set (st : MantelState) (s : State) : State :=
      modTime (fun t => { t with state := st, upstream := some p, gm := some gm, depth := i.depth + 1, holdSince := none
                                 good := if st = t.state then t.good else 0, bad := if st = t.state then t.bad else 0 }) s
    match t.state with
    | .acquiring | .locked =>
      if t.upstream = some p && same then set t.state s
      else
        let s := raiseLead 0x0A04 2 (t.upstream.getD 0x7FF) p (if same then 1 else 2) s
        set (if same then t.state else .acquiring) s
    | .holdover =>
      let ms := (s.ns - t.holdSince.getD s.ns) / 1000000
      raiseLead 0x0A07 2 p ms (natOfInt 32 (wholeNs i.theta)) (set .acquiring s)
    | .freeRun | .master => raiseLead 0x0A04 2 0x7FF p 2 (set .acquiring s)

/-- Ranks the sources and follows the best (R411, R418). (DEDUCED, log 49.) -/
def rankSources (s : State) : State :=
  let own := rankKey s.time.gmPriority Config.deviceSerial false 0 0x7FF
  match bestSource s with
  | none => if s.time.master then becomeMaster s else loseSource s
  | some p => if s.time.master && own < portRank s p then becomeMaster s else followPort p s

/-! ## Frames (R412 to R414) -/

/-- Whether the part offers a source (Table 17.2, R439). -/
def mantelSource (s : State) : Bool :=
  !partFailed s && (s.time.state = .master || s.time.state = .locked || s.time.state = .holdover)

/-- GM_PRIORITY, GM_SERIAL and DEPTH that the part gives. -/
def mantelGm (s : State) : Nat × Nat × Nat :=
  if s.time.state = .master then (s.time.gmPriority, Config.deviceSerial, 0)
  else ((s.time.gm.getD (0, 0)).1, (s.time.gm.getD (0, 0)).2, s.time.depth)

/-- Sends one MANTEL frame on a port. T_TX and the Calendar are put in at the transmit point. -/
def sendMantel (s : State) (p : Nat) : State :=
  let m := mantelPort s p
  let src := mantelSource s
  let cal := s.time.cal.state = 3 || s.time.cal.state = 4
  let i := m.info
  let echo := i.any (·.timed)
  let flags := b2n src + 2 * b2n (s.time.state = .holdover) + 4 * b2n (s.time.state = .master) + 8 * b2n cal + 16 * b2n echo
  let gm := mantelGm s
  let e (f : MantelInfo → Nat) (k : Nat) : Bytes := beBytes k (if echo then (i.map f).getD 0 else 0)
  let payload := beBytes 1 1 ++ beBytes 1 flags ++
    (if src then beBytes 1 gm.1 ++ beBytes 1 gm.2.2 ++ beBytes 8 gm.2.1 else zeros 10) ++ beBytes 2 m.seq ++ zeros 2 ++
    zeros 10 ++ e (·.tTx) 8 ++ e (·.tTxFrac) 2 ++ e (·.tRx) 8 ++ e (·.tRxFrac) 2 ++ zeros 18
  let s := modMantelPort p (fun m => { m with seq := (m.seq + 1) % 65536 }) s
  countPort p 67 1 (sendOwn p 7 { kind := 8, tc := 7, srcGid := selfGid s, length := 64, payload } s)

/-- MANTEL_FRAME_SEND (R413): INTERVAL has passed since the frames sent last. -/
def execMantelFrameSend (s : State) : Answer :=
  .next (if s.time.lastSend.any fun t => s.ns < t + s.time.interval * 1000 then s
    else ((s.links.map (·.1)).filter (mantelEligible s)).foldl sendMantel (modTime (fun t => { t with lastSend := some s.ns }) s))

/-- What a MANTEL frame measures (R414): the offset and the delay, or none where a condition fails. `sent` lists the transmit
points since the last step, `rx` is the receive point. -/
def measure (sent : List (Nat × Nat)) (asymPs : Int) (rx : Nat × Nat) (p : Bytes) : Option (Int × Int) :=
  let at' (c f : Nat) : Int := (c * 65536 + f : Nat)
  let t1 := at' (u64 p 26) (u16 p 34)
  let t2 := at' (u64 p 36) (u16 p 44)
  let t3 := at' (u64 p 16) (u16 p 24)
  let t4 := at' rx.1 rx.2
  let d := ((t2 - t1) + (t4 - t3)) / 2
  let theta := ((t2 - t1) - (t4 - t3) + asymPs * 65536 / 1000) / 2
  let us : Int := 65536000
  if bit (u8 p 1) 4 && sent.contains (u64 p 26, u16 p 34) && t3 - t2 ≤ 100 * us && t4 - t1 ≤ 200 * us && 0 ≤ d && d ≤ 100 * us
  then some (theta, d) else none

/-- A valid measurement on the upstream port steps or steers the counter, and judges the lock (R415, R417). A handover holds the steering
word (R449). -/
def steer (theta delay : Int) (s : State) : State :=
  let s := modTime (fun t => { t with theta, delay }) s
  let s :=
    if (s.time.stepLimit * 65536 : Nat) < theta.natAbs then stepMantel theta s
    else if s.boot.handover then s
    else
      let r := drawRate 200000 s
      modTime (fun t => { t with steering := r.1 }) r.2
  let t := s.time
  let good := if theta.natAbs ≤ 4 * 65536 then t.good + 1 else 0
  let bad := if 16 * 65536 < theta.natAbs then t.bad + 1 else 0
  if t.state = .acquiring && 64 ≤ good then
    raiseLead 0x0A01 1 (t.upstream.getD 0x7FF) ((t.gm.getD (0, 0)).2) t.depth
      (modTime (fun t => { t with state := .locked, good := 0, bad := 0 }) s)
  else if t.state = .locked && 16 ≤ bad then
    raiseLimited 0x0A02 0 second
      (fun _ s => raiseLead 0x0A02 3 (t.upstream.getD 0x7FF) (natOfInt 32 (wholeNs theta)) 0 s)
      (modTime (fun t => { t with state := .acquiring, good := 0, bad := 0 }) s)
  else modTime (fun t => { t with good, bad }) s

/-- The Calendar measured from a frame with CAL_VALID; `own` is the part's at the receive point (R426). -/
def calFromFrame (p : Nat) (delay own : Int) (b : Bytes) (s : State) : State :=
  let theirs : Int := ((u64 b 48 * second + u32 b 56 % 2 ^ 30) * 65536 + u16 b 60 : Nat)
  calMeasure (theirs + delay - own + (mantelPort s p).asym * 65536 / 1000 / 2) s

/-- A good MANTEL frame of a port: recorded, measured, and followed (R411, R414, R415, R426). -/
def takeMantel (x : MantelRx) (s : State) : State :=
  let p := x.port
  let rtx := x.rtx
  let rx := (x.count, x.frac)
  let b := x.frame.payload
  let m := mantelPort s p
  let old := m.info
  let v := if rtx then none else measure m.sent m.asym rx b
  let keep (f : MantelInfo → Nat) (new : Nat) : Nat := if rtx then (old.map f).getD 0 else new
  let i : MantelInfo := {
    source := bit (u8 b 1) 0, holdover := bit (u8 b 1) 1, gmPriority := u8 b 2, depth := u8 b 3, gmSerial := u64 b 4
    tTx := keep (·.tTx) (u64 b 16), tTxFrac := keep (·.tTxFrac) (u16 b 24), tRx := keep (·.tRx) rx.1
    tRxFrac := keep (·.tRxFrac) rx.2
    timed := !rtx || old.any (·.timed)
    valid := if rtx then old.any (·.valid) else v.isSome
    theta := match v with | some x => x.1 | none => (old.map (·.theta)).getD 0
    delay := match v with | some x => x.2 | none => (old.map (·.delay)).getD 0 }
  let s := modMantelPort p (fun m => { m with info := some i }) s
  let s := if v.isSome || s.time.upstream = some p then rankSources s else s
  match v with
  | some w =>
    if s.time.upstream ≠ some p then s
    else
      let s := if s.time.cal.source = 2 && bit (u8 b 1) 3 then calFromFrame p w.2 x.cal b s else s
      steer w.1 w.2 s
  | none => s

/-- MANTEL_FRAME_RECEIVED (R412, R414): the oldest MANTEL frame that a port has consumed. (DESIGN CHOICE, log 14.) (DEDUCED, log 43.) -/
def execMantelFrameReceived (port : Nat) (s : State) : Answer :=
  match s.time.inbox.find? fun x => x.port = port with
  | none => guard (isPort port) "port" s
  | some x =>
    let s := modTime (fun t => { t with inbox := t.inbox.erase x }) s
    if x.frame.length ≠ 64 || u8 x.frame.payload 0 ≠ 1 then .next (countPort port 69 1 s)
    else
      let s := countPort port 68 1 s
      .next (takeMantel x (if x.rtx then countPort port 70 1 s else s))

/-- MANTEL_SOURCE_LOST (R418): a port stops offering a source; the upstream port's loss is followed by a new ranking. -/
def execMantelSourceLost (port : Nat) (s : State) : Answer :=
  let s1 := modMantelPort port (fun m => { m with info := m.info.map fun i => { i with valid := false } }) s
  guard (isPort port) "port" (if (mantelPort s port).info.isNone then s else rankSources s1)

/-! ## Edges and seconds -/

/-- MSYNC_IN_EDGE (R421): a rising edge captures the times, but within 1 µs after one that did. -/
def execMsyncInEdge (s : State) : Answer :=
  let t := s.time
  .next (if t.lastEdge.any fun e => s.ns < e + 1000 then s
    else modTime (fun t => { t with
      capture := (t.count, t.frac, t.cal.sec, t.cal.ns, t.cal.frac), captures := (t.captures + 1) % 2 ^ 32, lastEdge := some s.ns }) s)

/-- Sets the Calendar to a time, FRAC 0 (Table 17.21). -/
def setCalendar (sec ns : Nat) (s : State) : State :=
  let step := ((sec * second + ns) * 65536 : Nat) - s.time.cal.fine
  calStepped step (modCal (fun c => { c with
    sec, ns, frac := 0, resid := 0, setAt := none, state := if c.source = 0 then 1 else 2, good := 0, bad := 0 }) (moveCalendar step s))

/-- CALENDAR_SET_TIME_AT (Table 17.21): Mantel count AT has come. -/
def execCalendarSetTimeAt (s : State) : Answer :=
  match s.time.cal.setAt with
  | none => .next s
  | some (at', sec, ns) => .next (if mantel s < at' then s else setCalendar sec ns s)

/-! ## PTP (R427 to R430) -/

/-- A PTP port. -/
def ptpAt (s : State) (p : Nat) : PtpPort := s.time.ptp.getD p {}

/-- Changes a PTP port. -/
def modPtp (p : Nat) (g : PtpPort → PtpPort) (s : State) : State :=
  modTime (fun t => { t with ptp := t.ptp.set p (g (ptpAt s p)) }) s

/-- Whether a PTP port is enabled. -/
def PtpPort.enabled (x : PtpPort) : Bool := bit (u8 x.config 1) 0

/-- Whether a PTP port takes part: it is enabled, and the Hearth that holds its hardware has not failed (R429). -/
def ptpRuns (s : State) (p : Nat) : Bool := (ptpAt s p).enabled && (tget s.boot.dies p {}).state ≠ 3

/-- The Calendar's PTP source is lost when no port follows a master any more (R424). -/
def ptpLost (s : State) : State :=
  if s.time.cal.source = 1 && !([0, 1].any fun p => ptpRuns s p && (ptpAt s p).portState = 9) then calHoldover s else s

/-- PTP_MESSAGE_RECEIVED (R427, R428): one of another domain or of an unsupported kind is only counted; what the protocol makes of another is the
sender's observation. (DEDUCED, log 49.) -/
def execPtpMessageReceived (port : Nat) (obs : PtpObs) (s : State) : Answer :=
  let x := ptpAt s port
  if 2 ≤ port then .refused (.noSuchObject "management port")
  else if !ptpRuns s port then .next s
  else if obs.kind = 0 || obs.domain ≠ u8 x.config 3 then .next (count 15 port 2 1 s)
  else
    let s := count 15 port 1 1 s
    let s := modPtp port (fun x => { x with
      portState := obs.portState, parent := obs.parent, gm := obs.gm, stepsRemoved := obs.stepsRemoved
      syncs := if obs.kind = 2 then (x.syncs + 1) % 2 ^ 32 else x.syncs
      offset := obs.offset.getD x.offset, delay := if obs.offset.isSome then obs.delay else x.delay }) s
    let s := if x.parent = obs.parent then s else raiseLead 0x0A14 2 port obs.parent obs.stepsRemoved s
    let s :=
      if s.time.cal.source = 1 && x.gm ≠ obs.gm && x.gm ≠ 0 && calFollows s then modCal (fun c => { c with fresh := 8 }) (calHoldover s)
      else s
    let s := if x.portState = 9 && obs.portState ≠ 9 then ptpLost s else s
    .next (match obs.offset with
      | some off => if s.time.cal.source = 1 then calMeasure off s else s
      | none => s)

/-- PTP_ANNOUNCE_TIMEOUT (R424): a port has heard no master for its announce timeout; it becomes a master, or listens when it
is slave-only. -/
def execPtpAnnounceTimeout (port : Nat) (s : State) : Answer :=
  let slaveOnly := bit (u8 (ptpAt s port).config 1) 2
  guard (port < 2) "management port"
    (if ptpRuns s port then ptpLost (modPtp port (fun x => { x with portState := if slaveOnly then 4 else 6 }) s) else s)

/-- PTP_EVENT_MESSAGE_SEND (R430): an event message leaves, and its time enters the queue. -/
def execPtpEventMessageSend (port msgType id : Nat) (s : State) : Answer :=
  if 2 ≤ port || 4 ≤ msgType then .refused (.noSuchObject "PTP event message")
  else if !ptpRuns s port then .next s
  else
    let s := emit (.ptp port msgType id) (count 15 port 0 1 s)
    if 64 ≤ s.time.ts.length then
      let s := count 17 0 0 1 (modTime (fun t => { t with tsOvf := min 0xFFFF (t.tsOvf + 1) }) s)
      .next (raiseLimited 0x0A20 0 second (fun n s => raiseLead 0x0A20 3 n 0 0 s) s)
    else
      let c := s.time.cal
      let e : TsEntry := { id := id % 65536, port, msgType, sec := c.sec, ns := c.ns, frac := c.frac }
      let s := modTime (fun t => { t with ts := t.ts ++ [e] }) s
      .next (if s.time.tsIrqEn then emit (.msix 3) s else s)

/-- TS_POP (Table 17.14). -/
def execTsPop (s : State) : Answer :=
  bar0Write 0x30050 (fun s => .next (modTime (fun t => { t with ts := t.ts.drop 1 }) s)) s

/-- TS_CLEAR_OVF (Table 17.14). -/
def execTsClearOvf (s : State) : Answer :=
  bar0Write 0x30050 (fun s => .next (modTime (fun t => { t with tsOvf := 0 }) s)) s

/-! ## Latched reads and the legacy view (R431, R432) -/

/-- MANTEL_LO_READ (Table 17.5). -/
def execMantelLoRead (s : State) : Answer :=
  bar0Read 0x30000 (fun s => .next (emit (.bar0 0x30000 (mantel s % 2 ^ 32))
    (modTime (fun t => { t with latchMantelHi := t.count / 2 ^ 32, latchMantelFrac := t.frac }) s))) s

/-- CAL_NS_READ (Table 17.7). -/
def execCalNsRead (s : State) : Answer :=
  bar0Read 0x30010 (fun s => .next (emit (.bar0 0x30010 s.time.cal.ns)
    (modTime (fun t => { t with latchCalSec := t.cal.sec, latchCalFrac := t.cal.frac }) s))) s

/-- L of the legacy view (R431). (DEDUCED, log 56.) -/
def legacyView (s : State) : Nat :=
  let t := s.time
  let run : Int := ((t.raw + 2 ^ 64 - t.legBase) % 2 ^ 64 : Nat)
  natOfInt 64 ((t.legOffset : Int) + run + run * signedOf 32 t.legRate / (2 ^ 40 : Nat))

/-- LEG_LO_READ (Table 17.9). -/
def execLegLoRead (s : State) : Answer :=
  bar0Read 0x30020 (fun s =>
    let l := legacyView s
    .next (emit (.bar0 0x30020 (l % 2 ^ 32)) (modTime (fun t => { t with latchLegHi := l / 2 ^ 32 }) s))) s

/-- LEG_RATE_WRITE (R431): the view goes on from where it is, at the new rate. (DEDUCED, log 56.) -/
def execLegRateWrite (value : Nat) (s : State) : Answer :=
  bar0Write 0x30030 (fun s =>
    .next (modTime (fun t => { t with legOffset := legacyView s, legBase := t.raw, legRate := value % 2 ^ 32 }) s)) s

/-- LEG_OFFSET_LO_WRITE (R431). (DEDUCED, log 56.) -/
def execLegOffsetLoWrite (value : Nat) (s : State) : Answer :=
  bar0Write 0x30028 (fun s =>
    .next (modTime (fun t => { t with legOffsetLo := value % 2 ^ 32, legOffset := t.legOffsetHi * 2 ^ 32 + value % 2 ^ 32, legBase := t.raw }) s)) s

/-! ## Commands (Tables 17.18 to 17.25) -/

/-- A command keeps its settings in the boot configuration in the background, when the store takes writes. -/
def keepSettings (e : NvEffect) (s : State) : State := if storeUp s then nvQueue { id := 0, effect := e } s else s

/-- MANTEL_CONFIG: what it admits. -/
def opMantelConfig : OpSpec := { opcode := 0x0A00, lengths := fun n => n = 12 || n = 16 }

/-- MANTEL_CONFIG (Table 17.18). -/
def execMantelConfig (q : Request) (s : State) : Answer :=
  runCommand opMantelConfig (.mantelConfig q) q anyBlock (fun _ s =>
    let p := q.params
    if u8 p 0 = 0 then
      withChecks [chk (1 < u8 p 1) (badParam 3 1), (u16 p 4 = 0 || 1000 < u16 p 4, badParam 4 4),
          (u32 p 8 < 64 || 1000000 < u32 p 8, badParam 4 8), (p.length ≠ 12, badParam 1 0xFFFF)] s fun s =>
        let s := modTime (fun t => { t with
          master := u8 p 1 = 1, gmPriority := u8 p 2, interval := u16 p 4, stepLimit := u32 p 8 }) s
        .ok [] (rankSources (keepSettings (.bootcfg [(16, p)]) s))
    else
      let asym := signedOf 32 (u32 p 8)
      withChecks [chk (1 < u8 p 0) (badParam 3 0), (1024 ≤ u16 p 4, badParam 4 4),
          (1024 < u16 p 4 + u16 p 6, badParam 4 6), (asym < -500000 || 500000 < asym, badParam 4 8),
          (2 ≤ u8 p 12, badParam 3 12), (p.length ≠ 16, badParam 1 0xFFFF)] s fun s =>
        let excl := bit (u8 p 12) 0
        let s := (List.range (u16 p 6)).foldl (fun s i =>
          modMantelPort (u16 p 4 + i) (fun m => { m with asym, exclude := excl }) s) s
        let r := u32 p 8 * 256 + b2n excl
        .ok [] (rankSources (keepSettings (.portTime (u16 p 4) (List.replicate (u16 p 6) r)) s))) s

/-- A signed value as a field of `k` bytes; one that no such field can hold is open (DESIGN CHOICE, log 31). -/
def fitSigned (k : Nat) (v : Int) (s : State) : Bytes × State :=
  if -(2 ^ (8 * k - 1) : Nat) ≤ v && v < (2 ^ (8 * k - 1) : Nat) then (beBytes k (natOfInt (8 * k) v), s)
  else
    let d := draw (256 ^ k) s
    (beBytes k d.1, d.2)

/-- The part's DEPTH; 0xF when it offers no source (Table 17.12). -/
def depthNow (s : State) : Nat := if mantelSource s then (mantelGm s).2.2 else 0xF

/-- MANTEL_STATUS: what it admits. -/
def opMantelStatus : OpSpec := { opcode := 0x0A01, observer := true, tenant := true, lengths := fun n => n = 4, reads := true }

/-- The code of a Mantel state (Table 17.1). -/
def MantelState.code : MantelState → Nat
  | .freeRun => 0
  | .master => 1
  | .acquiring => 2
  | .locked => 3
  | .holdover => 4

/-- Milliseconds of a holdover, or 0. -/
def holdMs (s : State) (since : Option Nat) : Nat := match since with | none => 0 | some t => (s.ns - t) / 1000000

/-- MANTEL_STATUS (Table 17.19). -/
def execMantelStatus (q : Request) (s : State) : Answer :=
  runCommand opMantelStatus (.mantelStatus q) q anyBlock (fun _ s =>
    let n := u16 q.params 0
    withChecks [chk (1024 ≤ n && n ≠ 0xFFFF) (badParam 4 0)] s fun s =>
      let t := s.time
      let a := fitSigned 4 t.theta s
      let b := fitSigned 5 t.delay a.2
      let c := fitSigned 8 t.lastStep b.2
      let serial := if t.state = .freeRun then 0 else (mantelGm s).2.1
      let head := beBytes 1 t.state.code ++ beBytes 1 (b2n t.master) ++ beBytes 1 t.gmPriority ++ beBytes 1 (depthNow s) ++
        beBytes 8 serial ++ beBytes 2 (t.upstream.getD 0x7FF) ++ zeros 2 ++ a.1 ++ b.1.drop 1 ++
        beBytes 4 (natOfInt 32 t.steering) ++ beBytes 4 (holdMs s t.holdSince) ++ beBytes 4 t.steps ++ c.1 ++
        beBytes 8 t.capture.1 ++ beBytes 8 t.capture.2.2.1 ++ beBytes 4 t.capture.2.2.2.1 ++ beBytes 4 t.captures
      if n = 0xFFFF then .ok head c.2
      else
        let i := (mantelPort s n).info
        let d := fitSigned 4 ((i.map (·.theta)).getD 0) c.2
        let e := fitSigned 5 ((i.map (·.delay)).getD 0) d.2
        .ok (head ++ beBytes 1 (b2n (mantelEligible s n) + 2 * b2n (offersSource s n)) ++ zeros 3 ++
          beBytes 1 ((i.map (·.gmPriority)).getD 0) ++ beBytes 1 ((i.map (·.depth)).getD 0) ++ zeros 2 ++ d.1 ++ e.1.drop 1) e.2) s

/-- STEP_CONFIG: what it admits. -/
def opStepConfig : OpSpec := { opcode := 0x0A02, lengths := fun n => n = 20 }

/-- STEP_CONFIG (Table 17.20). -/
def execStepConfig (q : Request) (s : State) : Answer :=
  runCommand opStepConfig (.stepConfig q) q anyBlock (fun _ s =>
    let p := q.params
    let base := u64 p 4
    let period := u64 p 12
    withChecks [chk (3 < u8 p 0) (badParam 4 0), (period < 65536 || 2 ^ 40 < period || period % 1024 ≠ 0, badParam 4 12),
        (bit (u8 p 2) 2 && period < 1000000, badParam 6 2)] s fun s =>
      let x : StepGen := { enable := bit (u8 p 1) 0, base, period, actions := u8 p 2 % 16 }
      let k := x.firstFrom (mantel s)
      .ok (beBytes 8 (base + k * period)) (modGen (u8 p 0) (fun _ => { x with k }) s)) s

/-- CALENDAR_SET: what it admits. -/
def opCalendarSet : OpSpec := { opcode := 0x0A03, lengths := fun n => n = 28 }

/-- CALENDAR_SET (Table 17.21). (DEDUCED, log 49.) -/
def execCalendarSet (q : Request) (s : State) : Answer :=
  runCommand opCalendarSet (.calendarSet q) q anyBlock (fun _ s =>
    let p := q.params
    let src := u8 p 0
    let setTime := bit (u8 p 1) 0
    let ns := u32 p 12
    let at' := u64 p 16
    let badAt := at' ≠ 0 && (at' < mantel s || mantel s + 10 * second < at')
    withChecks [chk (2 < src) (badParam 3 0), (setTime && second ≤ ns, badParam 4 12), (setTime && badAt, badParam 4 16),
        (u32 p 24 = 0 || 1000000 < u32 p 24, badParam 4 24)] s fun s =>
      let c := s.time.cal
      let moved := c.source ≠ src
      let state := if src = 0 then (if moved && c.state ≠ 0 then 1 else c.state) else if moved then 2 else c.state
      let s := modCal (fun c => { c with
        source := src, utc := if bit (u8 p 1) 1 then u16 p 2 else c.utc, stepLimit := u32 p 24, state
        good := if moved then 0 else c.good, bad := if moved then 0 else c.bad, fresh := if moved then 0 else c.fresh
        holdSince := if moved then none else c.holdSince }) s
      .ok [] (if !setTime then s
        else if at' = 0 then setCalendar (u64 p 4) ns s
        else modCal (fun c => { c with setAt := some (at', u64 p 4, ns) }) s)) s

/-- CALENDAR_READ: what it admits. -/
def opCalendarRead : OpSpec := { opcode := 0x0A04, observer := true, tenant := true, lengths := fun n => n = 0, reads := true }

/-- CALENDAR_READ (Table 17.22). -/
def execCalendarRead (q : Request) (s : State) : Answer :=
  runCommand opCalendarRead (.calendarRead q) q anyBlock (fun _ s =>
    let c := s.time.cal
    .ok (beBytes 8 c.sec ++ beBytes 4 c.ns ++ beBytes 2 c.frac ++ beBytes 2 c.utc ++ beBytes 8 (mantel s) ++ beBytes 1 c.state ++
      beBytes 1 c.source ++ zeros 2 ++ beBytes 4 (natOfInt 32 c.rate) ++ beBytes 4 (holdMs s c.holdSince)) s) s

/-- PTP_CONFIG: what it admits. -/
def opPtpConfig : OpSpec := { opcode := 0x0A05, lengths := fun n => n = 12 }

/-- PTP_CONFIG (Table 17.23). -/
def execPtpConfig (q : Request) (s : State) : Answer :=
  runCommand opPtpConfig (.ptpConfig q) q anyBlock (fun _ s =>
    let p := q.params
    let n := u8 p 0
    let out (off : Nat) (lo hi : Int) : Bool × Refuse :=
      (signedOf 8 (u8 p off) < lo || hi < signedOf 8 (u8 p off), badParam 4 off)
    let other := ptpAt s (1 - n)
    withChecks [chk (1 < n) (badParam 4 0), (16 ≤ u8 p 1, badParam 3 1), (2 < u8 p 2, badParam 3 2), (127 < u8 p 3, badParam 4 3), out 7 (-7) 1, out 8 (-3) 4,
        out 9 (-7) 5, (u8 p 10 < 2 || 10 < u8 p 10, badParam 4 10),
        (bit (u8 p 1) 0 && other.enabled && u8 other.config 3 ≠ u8 p 3, badParam 6 3),
        ((tget s.boot.dies n {}).state = 3, { status := 0x0B, reason := 4 })] s fun s =>
      .ok [] (ptpLost (modPtp n (fun x => { x with
        config := p.take 11, portState := if bit (u8 p 1) 0 then 4 else 3, parent := 0, gm := 0, stepsRemoved := 0 }) s))) s

/-- PTP_STATUS: what it admits. -/
def opPtpStatus : OpSpec := { opcode := 0x0A06, observer := true, lengths := fun n => n = 4, reads := true }

/-- PTP_STATUS (Table 17.24). -/
def execPtpStatus (q : Request) (s : State) : Answer :=
  runCommand opPtpStatus (.ptpStatus q) q anyBlock (fun _ s =>
    let n := u8 q.params 0
    let x := ptpAt s n
    withChecks [chk (1 < n) (badParam 4 0)] s fun s =>
      .ok (beBytes 1 n ++ beBytes 1 x.portState ++ beBytes 2 x.stepsRemoved ++ beBytes 8 x.parent ++ beBytes 8 x.gm ++
        beBytes 8 (natOfInt 64 x.offset) ++ beBytes 8 (natOfInt 64 x.delay) ++ beBytes 4 x.syncs ++
        beBytes 4 (counterAt { scope := 15, inst := n, idx := 2 } s).value) s) s

/-- TS_QUEUE_READ: what it admits. -/
def opTsQueueRead : OpSpec := { opcode := 0x0A07, observer := true, lengths := fun n => n = 4 }

/-- TS_QUEUE_READ (Table 17.25): it pops what it returns (R430). -/
def execTsQueueRead (q : Request) (s : State) : Answer :=
  runCommand opTsQueueRead (.tsQueueRead q) q anyBlock (fun _ s =>
    let n := u8 q.params 0
    withChecks [chk (n = 0 || 64 < n) (badParam 4 0)] s fun s =>
      let es := s.time.ts.take n
      let left := s.time.ts.drop n
      .ok (beBytes 1 es.length ++ beBytes 1 left.length ++ beBytes 2 s.time.tsOvf ++ es.flatMap fun e =>
        beBytes 2 e.id ++ beBytes 1 e.port ++ beBytes 1 e.msgType ++ beBytes 8 e.sec ++ beBytes 4 e.ns)
        (modTime (fun t => { t with ts := left }) s)) s

end Sys2Proof.Machine
end

