-- ==== Sys2Proof/Machine/Darning.lean ====
section
/-!
DEFINITION. Darning between switches (R441 to R446), its timers, and the commands DARNING_MASK_READ, DARNING_CONFIG and
FAULT_READ. The live mask itself is in Mask.lean.
-/
namespace Sys2Proof.Machine

/-! ## Frames and timers -/

/-- DARNING_FRAME_SEND (R442): the periodic frame of every port whose peer is a switch, once INTERVAL has passed. -/
def execDarningFrameSend (s : State) : Answer :=
  .next (if s.ns < s.darn.nextSend then s
    else (darnSenders s).foldl (sendDarning false) (modDarn (fun d => { d with nextSend := s.ns + d.interval * 1000 }) s))

/-- What a valid DARNING payload says of the peer (Table 18.4), taken now. -/
def darnRx (payload : Bytes) (s : State) : DarnRx :=
  { state := u8 payload 1, verdict := u8 payload 3, reach := bitmapNat (payload.drop 32) % 2 ^ 4095, at' := s.ns
    limit := s.darn.silentLimit * s.darn.interval * 1000 }

/-- DARNING_FRAME_RECEIVED (R441, R446): the oldest DARNING frame consumed on a port is checked and applied to the mask. (DESIGN CHOICE, log 14.) -/
def execDarningFrameReceived (port : Nat) (s : State) : Answer :=
  match s.darn.inbox.find? fun e => e.1 = port with
  | none => guard (isPort port) "port" s
  | some (_, f) =>
    let s := modDarn (fun d => { d with inbox := d.inbox.eraseP fun e => e.1 = port }) s
    if f.length ≠ 544 || u8 f.payload 0 ≠ 1 then .next (countPort port 73 1 s)
    else
      let s := modDarnPort port (fun d => { d with rx := some (darnRx f.payload s) }) (countPort port 72 1 s)
      .next (advertise (judgePort false port s))

/-- DARNING_SILENT (R443): no valid frame has arrived on a port within SILENT_LIMIT. -/
def execDarningSilent (port : Nat) (s : State) : Answer :=
  guard (isPort port) "port"
    (if switchPeer s port && (darnPort s port).rx.any (fun r => r.at' + r.limit ≤ s.ns) then
      advertise (judgePort false port (modDarnPort port (fun d => { d with rx := none }) (countPort port 74 1 s)))
    else s)

/-- MASK_HOLD_EXPIRED (R444): a port has been out of UP and UP_DEGRADED for MASK_HOLD. -/
def execMaskHoldExpired (port : Nat) (s : State) : Answer :=
  guard (isPort port) "port"
    (if maskBit s port && (darnPort s port).outSince.any (·.over s.ns) && !isUp s port then advertise (clearMask port 1 s) else s)

/-- RESTORE_HOLD_EXPIRED (R444): a port has been eligible without a break for RESTORE_HOLD. -/
def execRestoreHoldExpired (port : Nat) (s : State) : Answer :=
  guard (isPort port) "port"
    (if !maskBit s port && (darnPort s port).since.any (·.over s.ns) && isUp s port && carriesFrames s port && (darnCause s port).isNone then
      advertise (setMask port (modDarnPort port (fun d => { d with since := none }) s))
    else s)

/-- FLAP_HOLD_EXPIRED (R445): a flap-held port is released. -/
def execFlapHoldExpired (port : Nat) (s : State) : Answer :=
  guard (isPort port) "port"
    (if (darnPort s port).flapHeld && (darnPort s port).flapHold.over s.ns then
      advertise (judgePort false port (modDarnPort port (fun d => { d with flapHeld := false }) s))
    else s)

/-! ## Commands (Tables 18.11 to 18.13) -/

/-- DARNING_MASK_READ: what it admits. -/
def opDarningMaskRead : OpSpec := { opcode := 0x0B00, observer := true, tenant := true, lengths := fun n => n = 0, reads := true }

/-- DARNING_MASK_READ (Table 18.11). -/
def execDarningMaskRead (q : Request) (s : State) : Answer :=
  runCommand opDarningMaskRead (.darningMaskRead q) q anyBlock (fun _ s =>
    .ok (beBytes 1 s.darn.state ++ beBytes 1 (b2n (degraded s) + 2 * b2n (!s.boot.standbyReady)) ++ zeros 2 ++
      bitmapBytes 160 s.darn.mask ++ bitmapBytes 160 (maskOf (verdictPorts s)) ++ bitmapBytes 512 (reachOf s)) s) s

/-- DARNING_CONFIG: what it admits. It is transactional for TYPE 1 only. -/
def opDarningConfig : OpSpec := { opcode := 0x0B01, lengths := fun n => n = 4 || n = 8 || n = 24, ownTxn := true }

/-- TXN of DARNING_CONFIG TYPE 0, 2 and 3. -/
def txnNotZero (q : Request) : Bool × Refuse := chk (q.txn ≠ 0) (badParam 5 0xFFFF)

/-- TYPE 0: the Darning settings (Table 18.5). -/
def setDarning (p : Bytes) (d : Darn) : Darn :=
  { d with interval := u16 p 4, silentLimit := u8 p 6, flapCount := u8 p 7, maskHold := u16 p 8, restoreHold := u32 p 12,
           flapWindow := u32 p 16, flapHold := u32 p 20 }

/-- The checks of TYPE 0. -/
def darningChecks (p : Bytes) : List (Bool × Refuse) :=
  [chk (p.length ≠ 24) (badParam 1 0xFFFF), chk (u16 p 4 < 10 || 1000 < u16 p 4) (badParam 4 4),
   chk (u8 p 6 < 2 || 16 < u8 p 6) (badParam 4 6), chk (u8 p 7 < 2) (badParam 4 7),
   chk (u16 p 8 < 50 || 800 < u16 p 8) (badParam 4 8), chk (u32 p 12 = 0 || 10000 < u32 p 12) (badParam 4 12),
   chk (u32 p 16 = 0 || 3600 < u32 p 16) (badParam 4 16), chk (u32 p 20 = 0 || 86400 < u32 p 20) (badParam 4 20)]

/-- TYPE 2: EXCLUDE and RELEASE of ports. -/
def controlPorts (bits first n : Nat) (s : State) : State :=
  advertise ((List.range n).foldl (fun s i =>
    let p := first + i
    judgePort false p (modDarnPort p (fun d => { d with exclude := bit bits 0, flapHeld := d.flapHeld && !bit bits 1 }) s)) s)

/-- DARNING_CONFIG (Table 18.12). DRAIN changes nothing while the part is STARTING. (DEDUCED, log 46.) -/
def execDarningConfig (q : Request) (s : State) : Answer :=
  runCommand opDarningConfig (.darningConfig q) q anyBlock (fun _ s =>
    let p := q.params
    match u8 p 0 with
    | 0 => withChecks ([txnNotZero q] ++ darningChecks p) s fun s =>
        let kept := zeros 4 ++ (p.drop 4).take 6 ++ zeros 2 ++ p.drop 12
        .ok [] (keepSettings (.bootcfg [(28, kept)]) (modDarn (setDarning p) s))
    | 1 =>
      match txnRefused { opDarningConfig with ownTxn := false, staging := true } q s with
      | some r => .refuse r s
      | none => withChecks [chk (p.length ≠ 8) (badParam 1 0xFFFF), chk (1280 ≤ u16 p 2) (badParam 4 2),
          (1280 < u16 p 2 + u16 p 4, badParam 4 4), (4095 < u16 p 6, badParam 4 6)] s fun s =>
        stageDone q 2 ((List.range (u16 p 4)).map fun i => { key := .darnPort (u16 p 2 + i), value := p.drop 6 }) [] s
    | 2 => withChecks [txnNotZero q, (p.length ≠ 8, badParam 1 0xFFFF), (4 ≤ u8 p 1, badParam 3 1), (1280 ≤ u16 p 2, badParam 4 2),
          (1280 < u16 p 2 + u16 p 4, badParam 4 4)] s fun s =>
        .ok [] (controlPorts (u8 p 1) (u16 p 2) (u16 p 4) s)
    | 3 => withChecks [txnNotZero q, (p.length ≠ 4, badParam 1 0xFFFF), (2 ≤ u8 p 1, badParam 3 1), (partFailed s, { status := 9, reason := 0x80 })] s fun s =>
        if s.darn.state = 0 then .ok [] s else .ok [] (setPartState (if bit (u8 p 1) 0 then 2 else 1) 4 s)
    | _ => .refuse (badParam 3 0) s) s

/-- FAULT_READ: what it admits. -/
def opFaultRead : OpSpec := { opcode := 0x0B02, observer := true, lengths := fun n => n = 8, reads := true }

/-- The 32 bytes of a fault record (Table 18.13). -/
def FaultRec.bytes (r : FaultRec) : Bytes :=
  beBytes 4 r.id ++ beBytes 1 r.cls ++ beBytes 1 r.state ++ beBytes 1 r.die ++ zeros 1 ++ beBytes 4 r.object ++ beBytes 8 r.first ++
  beBytes 8 r.last ++ beBytes 4 r.times

/-- FAULT_READ (Table 18.13). -/
def execFaultRead (q : Request) (s : State) : Answer :=
  runCommand opFaultRead (.faultRead q) q anyBlock (fun _ s =>
    let p := q.params
    withChecks [chk (u8 p 5 = 0 || 127 < u8 p 5) (badParam 4 5)] s fun s =>
      let rs := (s.darn.faults.filter fun r => u32 p 0 ≤ r.id && (!bit (u8 p 4) 0 || r.state = 0)).take (u8 p 5)
      .ok (beBytes 4 (s.darn.nextFault - 1) ++ beBytes 2 rs.length ++ zeros 2 ++ rs.flatMap FaultRec.bytes) s) s

end Sys2Proof.Machine
end

