-- ==== Sys2Proof/Machine/Failover.lean ====
section
/-!
DEFINITION. Die faults (R437), the FAILED state (R439, R440), the two Hearths and handovers (R448 to R450), and what they do to a
firmware activation (R452).
-/
namespace Sys2Proof.Machine

/-! ## Firmware slots (R451, R452, R504) -/

/-- Changes the firmware state. -/
def modFw (g : Firmware → Firmware) (s : State) : State := { s with fw := g s.fw }

/-- Changes the start-up state. -/
def modBoot (g : Boot → Boot) (s : State) : State := { s with boot := g s.boot }

/-- Changes the security state. -/
def modSec (g : Security → Security) (s : State) : State := { s with sec := g s.sec }

/-- The PENDING image takes the CURRENT slot, and the slot it leaves is empty (R504). `mode`: as FW_ACTIVATED. -/
def takeCurrent (mode : Nat) (img : Image) (s : State) : State :=
  raiseLead 0x1101 2 img.version img.svn mode (anchorWrite (modFw (fun f => { f with
    current := some img, pendImage := none, pending := 0, pendSlot := 1 - f.pendSlot, session := none, words := [] }) s))

/-- The code of the leading Hearth: 0 A, 1 B. -/
def leadCode (s : State) : Nat := b2n s.boot.bLeads

/-- The die of the Hearth that does not lead. -/
def standbyDie (s : State) : Nat := 1 - leadCode s

/-- The standby's readiness, with HEARTH_B_STATE where the standby is Hearth B (Table 2.6). One that loads an image runs the start-up tests
of its TRNG from its own P1 (R477). -/
def setStandby (ready : Bool) (code : Nat) (s : State) : State :=
  modBoot (fun b => { b with
    standbyReady := ready, hearthB := if b.bLeads then b.hearthB else code
    standbyTrng := if code = 1 then { state := 1 } else if code = 4 then {} else b.standbyTrng }) s

/-- Step 6 of an activation ends (R451). -/
def finishActivation (s : State) : State :=
  let s := takeCurrent 1 s.fw.running (modFw (fun f => { f with step := 0 }) s)
  if s.fw.returnToA && s.boot.bLeads && s.boot.standbyReady then beginHandover 3 s else s

/-! ## Die faults (R436 to R440) -/

/-- DIE_FAULT: a die, its class, the condition of Table 18.2. -/
def raiseDieFault (die cls cond : Nat) (s : State) : State := raiseLead 0x0B05 5 die cls cond s

/-- Discards the frames of the Halls that `sel` names, counted in FAILED_DISCARD (R439). The part's own link frames stay. -/
def discardHalls (sel : Nat → Bool) (s : State) : State :=
  purge (fun h f => sel h && f.kind ≠ 8 && f.kind ≠ 9) (fun h _ s => countHall h 47 1 s) s

/-- The part enters FAILED (R439). -/
def failPart (cause : Nat) (s : State) : State :=
  if partFailed s then s
  else
    let s := discardHalls (fun _ => true) s
    let s := { s with coll := { s.coll with ctxs := s.coll.ctxs.map fun e => (e.1, { e.2 with failed := true }) } }
    setPartState 3 cause s

/-- The standby is lost (R450, R452). `why`: as HEARTH_STANDBY_LOST. (DEDUCED, log 50.) -/
def loseStandby (why : Nat) (s : State) : State :=
  let d := standbyDie s
  let step := s.fw.step
  let s := raiseLead 0x0B07 4 d why 0 s
  if 1 ≤ step && step ≤ 4 then
    let s := modFw (fun f => { f with step := 0 }) (setStandby false 1 s)
    let s := modBoot (fun b => { b with handover := false }) s
    advertise (complete .activation 9 0x81 0 [] (raiseLead 0x1103 3 step 0x81 0 s))
  else
    let s := ptpLost (modDie d (fun x => { x with state := 3 }) (setStandby false 4 s))
    let s := if s.boot.handover then complete .handover 0x0B 4 0 [] (modBoot (fun b => { b with handover := false }) s) else s
    advertise (if step = 6 then finishActivation s else s)

/-- A Hearth is faulty (R437, R448, R450). A leader with a standby hands over without a command; one without is the loss of both. (DEDUCED, log 50.) -/
def failHearth (d cond : Nat) (s : State) : State :=
  if (dieAt s d).state = 3 || s.boot.lost then s
  else
    let s := recordFault 0xB 0 d d s
    if d ≠ leadDie s then loseStandby (if cond = 4 then 2 else 1) (raiseDieFault d 0xB cond s)
    else if !s.boot.standbyReady && !s.boot.handover then modBoot (fun b => { b with lost := true }) s
    else
      let s := modDie d (fun x => { x with state := 3 }) (raise 0x0B05 (standbyDie s) 5 d 0xB cond s)
      let s := if s.boot.handover then s else beginHandover 2 s
      advertise (modBoot (fun b => { b with handoverCause := 2 }) s)

/-- A Hall is faulty: the part leaves the fabric (R437, R439). -/
def failHall (h cond : Nat) (s : State) : State :=
  let d := hallDie h
  if (dieAt s d).state = 3 then s
  else
    let s := modDie d (fun x => { x with state := 3 }) (recordFault 0xC 0 d h s)
    failPart 2 (raiseDieFault d 0xC cond s)

/-- Declares a die fault (R437); `cond` is a condition of Table 18.2, in its row order. (DEDUCED, log 50.) -/
def declareFault (die cond : Nat) (s : State) : State :=
  if die < 2 then failHearth die cond s
  else if die < 6 then failHall (die - 2) cond s
  else if 24 ≤ die then
    windowOutOfService (if die < 32 then die - 24 else die - 32) (if cond = 1 then 4 else 3) (raiseDieFault die 4 cond s)
  else failMangle (die - 22) cond s

/-- How many conditions Table 18.2 gives a die; a Cellar has none. -/
def dieConditions (die : Nat) : Nat :=
  if die < 2 then 5 else if die < 6 then 5 else if die < 22 then 0 else if die < 24 then 4 else if die < 40 then 2 else 0

/-- The leading Hearth reports a fatal error over IRQ (R448): the standby takes the lead without a command. -/
def fatalError (s : State) : State :=
  if !s.boot.standbyReady || s.boot.lost then s
  else
    let s := modDie (leadDie s) (fun x => { x with state := 3 }) (recordFault 0xB 0 (leadDie s) (leadDie s) s)
    advertise (modBoot (fun b => { b with handoverCause := 2 }) (if s.boot.handover then s else beginHandover 2 s))

/-- DIE_FAULT (R437): the leading Hearth declares a die fault. `condition` 0 is no condition of Table 18.2 but the fatal error of R448.
(DEDUCED, log 50.) -/
def execDieFault (die condition : Nat) (s : State) : Answer :=
  if condition = 0 && die < 2 then .next (if die = leadDie s then fatalError s else s)
  else guard (1 ≤ condition && condition ≤ dieConditions die) "die fault condition" (declareFault die condition s)

/-- LEADER_HEARTBEAT_LOSS (R437): a standby that is ready has seen no heartbeat edge for 12 ms. -/
def execLeaderHeartbeatLoss (s : State) : Answer := .next (if s.boot.standbyReady then failHearth (leadDie s) 5 s else s)

/-- STANDBY_KEEPALIVE_LOSS (R437): the leader has had no keepalive of a ready standby for 12 ms. -/
def execStandbyKeepaliveLoss (s : State) : Answer := .next (if s.boot.standbyReady then failHearth (standbyDie s) 5 s else s)

/-- Whether every Hall in service has failed on its own (R440). -/
def allHallsFailed (s : State) : Bool :=
  (List.range 4).all fun h => s.darn.hallFailed.contains h || (dieAt s (hallDie h)).state = 3

/-- HALL_KEEPALIVE_TIMEOUT (R440): a Hall without a keepalive for 50 ms is FAILED on its own ports. With the last one the whole part
is. -/
def execHallKeepaliveTimeout (hall : Nat) (s : State) : Answer :=
  if 4 ≤ hall then .refused (.noSuchObject "Hall")
  else if s.darn.hallFailed.contains hall || partFailed s then .next s
  else
    let s := discardHalls (· = hall) (modDarn (fun d => { d with hallFailed := d.hallFailed ++ [hall] }) s)
    let s := advertise (((s.links.map (·.1)).filter fun p => hallOf p = hall).foldl (fun s p => judgePort false p s) s)
    let s := ((darnSenders s).filter fun p => hallOf p = hall).foldl (sendDarning true) s
    .next (if allHallsFailed s then failPart 3 s else s)

/-! ## Handover (R82, R449, R450) -/

/-- Whether an outstanding command has begun to take effect outside the interpreter, so that the new leader ends it (R82). (DEDUCED,
log 46.) -/
def begun (o : Outstanding) : Bool :=
  match o.wait with
  | .ring | .quiesce _ | .link _ | .window _ | .prbs _ | .laser _ | .memtest _ => true
  | _ => false

/-- The reply of a command that was outstanding when the lead passed (R82): one that has not taken effect is BUSY and never does.
`took`: an activation took effect. -/
def answerHandover (took : Bool) (us : Nat) (o : Outstanding) (s : State) : State :=
  let busy (s : State) : State := answerLater o 1 2 0xFFFF [] s
  match o.wait with
  | .handover => answerLater o 0 0 0 (beBytes 1 (leadCode s) ++ zeros 3 ++ beBytes 4 us) s
  | .activation => if took then answerLater o 0 0 0 (beBytes 1 (leadCode s) ++ zeros 3) s else busy s
  | .commit h => busy (reopen h s)
  | _ => busy s

/-- The reply of a command that was held when the lead passed. -/
def refuseHeld (h : HeldCommand) (s : State) : State :=
  sendReply { src := h.src, ingress := h.req.ingress, latchkey := h.req.latchkey, selfGid := h.selfGid, ringGen := h.ringGen,
              tag := h.req.tag, status := 1, reason := 2, info := 0xFFFF, opcode := h.opcode }
    (requestCrc h.opcode h.req) h.level s

/-- Every outstanding command gets one reply: at once, unless its effect is under way, or its segments wait for a reply slot (R82).
(DEDUCED, log 46.) -/
def answerAll (took : Bool) (us : Nat) (s : State) : State :=
  let mine := s.maloa.outstanding.filter fun o => !begun o
  let held := s.maloa.held
  let s := { s with maloa := { s.maloa with outstanding := s.maloa.outstanding.filter begun, held := [] } }
  held.foldl (fun s h => refuseHeld h s) (mine.foldl (fun s o => answerHandover took us o s) s)

/-- The new leader mounts the store: the transactions that commands waited on are discarded (R491, R496). (DEDUCED, log 50.) -/
def remountStore (s : State) : State :=
  let awaited (t : NvTxn) : Bool := s.maloa.outstanding.any fun o => o.wait = .store t.id
  let n := (s.nv.queue.filter awaited).length
  let s := modNv (fun v => { v with queue := v.queue.filter fun t => !awaited t }) s
  if n = 0 then s else raiseLead 0x0E05 2 (lastJseq s) 0xFF n s

/-- What a handover does to an activation (R451, R452). -/
def activationAfter (unplanned : Bool) (s : State) : State :=
  if s.fw.step = 4 then
    modFw (fun f => { f with step := 5, trialStart := s.ns, old := f.running, running := f.pendImage.getD {} }) s
  else if s.fw.step = 5 && unplanned then
    let s := raiseLead 0x1102 4 s.fw.running.version s.fw.old.version 0 s
    modFw (fun f => { f with step := 0, running := f.old, pending := 4 }) s
  else s

/-- HEARTH_HANDOVER_DONE (R448 to R450): the standby leads; the cap loop goes on with a fresh window (R463). (DEDUCED, log 50.) -/
def execHearthHandoverDone (s : State) : Answer :=
  if !s.boot.handover then .next s
  else
    let cause := s.boot.handoverCause
    let us := (s.ns - s.boot.handoverStart) / 1000
    let took := decide (s.fw.step = 4)
    let s := modBoot (fun b => { b with
      handover := false, bLeads := !b.bLeads, standbyReady := decide (cause ≠ 2)
      hearthB := if b.bLeads then (if cause = 2 then 4 else 2) else 3
      trngState := b.standbyTrng.state, trngRuns := b.standbyTrng.runs, trngRetests := b.standbyTrng.retests
      standbyTrng := if cause = 2 then {} else { state := b.trngState, runs := b.trngRuns, retests := b.trngRetests } }) s
    let s := { s with power := { s.power with windowAt := some s.ns, capNow := s.power.cap, lowWindows := 0 } }
    let s := if cause = 2 then restoreCounters s else s
    let s := remountStore (activationAfter (decide (cause = 2)) s)
    let s := modSec (fun c => { c with challenge := none, tokenData := [], reseeds := c.reseeds + 1, drawn := 0, seeded := s.ns }) s
    let s := answerAll took us s
    .next (ptpLost (advertise (raiseLead 0x0B06 3 (leadCode s) cause us s)))

/-- HEARTH_HANDOVER: what it admits. -/
def opHearthHandover : OpSpec := { opcode := 0x0B03, lengths := fun n => n = 0 }

/-- HEARTH_HANDOVER (Table 18.14). -/
def execHearthHandover (q : Request) (s : State) : Answer :=
  runCommand opHearthHandover (.hearthHandover q) q anyBlock (fun _ s =>
    withChecks [chk (s.fw.step ≠ 0) { status := 1, reason := 3, info := 0xFFFF },
        (!s.boot.standbyReady, { status := 0x0B, reason := 4 })] s fun s => .wait .handover (beginHandover 1 s)) s

end Sys2Proof.Machine
end

