-- ==== Sys2Proof/Machine/Firmware.lean ====
section
/-!
DEFINITION. Firmware images and their verification (R473, R474), hitless activation (R451, R452), the background self-tests (R453),
and their commands (Tables 18.15 to 18.21).
-/
namespace Sys2Proof.Machine

/-! ## Images (R473, R474) -/

/-- The bytes `n` at `off` of a byte string. -/
def slice (b : Bytes) (off n : Nat) : Bytes := (b.drop off).take n

/-- The header of an image (Table 20.2). -/
def imageOf (b : Bytes) : Image :=
  { version := u32 b 4, svn := u32 b 8, stateMin := u16 b 12, stateMax := u16 b 14, keySlot := u8 b 16, burn := bit (u8 b 17) 0
    digests := (List.range 4).map fun k => slice b (80 + 56 * k) 48 }

/-- The effective anti-rollback counter (R476). -/
def svnCounter (s : State) : Nat := max s.sec.svnA s.sec.svnB

/-- Whether the sub-images of an image lie within its payload and match their digests (R474, check 4). -/
def subimagesOk (b : Bytes) : Bool :=
  (List.range 4).all fun k =>
    let off := u32 b (72 + 56 * k)
    let n := u32 b (76 + 56 * k)
    off + n ≤ u32 b 20 && Config.sha384 (slice b (8192 + off) n) = slice b (80 + 56 * k) 48

/-- The first of the checks of R474 that an image fails; 0 when it verifies. -/
def imageCheck (b : Bytes) (s : State) : Nat :=
  let slot := u8 b 16
  let digest := Config.sha384 (b.take 512)
  if u32 b 0 ≠ 0x57444931 || b.length ≠ 8192 + u32 b 20 then 1
  else if 3 < slot || Config.sha384 (slice b 512 2689) ≠ Config.rootKeyHash slot || bit s.sec.revoked slot then 2
  else if !Config.ecdsaVerify (slice b 512 97) digest (slice b 3201 96) ||
    !Config.mldsaVerify (slice b 609 2592) digest (slice b 3297 4627) then 3
  else if Config.sha384 (b.drop 8192) ≠ slice b 24 48 || !subimagesOk b then 4
  else if u32 b 8 < svnCounter s then 5
  else 0

/-- Whether an image takes in and hands out the state version that the running one hands out (R451). -/
def hitlessOk (img run : Image) : Bool := img.stateMin ≤ run.stateMax && run.stateMax ≤ img.stateMax

/-- The bytes of the upload; words not yet written read 0. -/
def uploaded (s : State) (size : Nat) : Bytes := (List.range (size / 4)).flatMap fun i => tget s.fw.words i (zeros 4)

/-- The longest image that the PENDING slot takes (R504). -/
def slotCapacity (s : State) : Nat :=
  let d := nvSmaller s
  let first := 8 + s.fw.pendSlot * d.slotBlocks
  let lost (x : NvDevice) : Nat := (x.bad.filter fun b => first ≤ b && b < first + d.slotBlocks).length
  min d.slotSize ((d.slotBlocks - max (lost (nvDev s 0)) (lost (nvDev s 1))) * d.blockBytes)

/-- Counts erased blocks and written pages on each device that takes writes. -/
def countSlot (erased bytes : Nat) (s : State) : State :=
  [0, 1].foldl (fun s d =>
    if (nvDev s d).state = 1 || (nvDev s d).state = 2 then
      countNv d 2 erased (countNv d 1 ((nvDev s d).pages bytes) s)
    else s) s

/-- FW_IMAGE_BEGIN: what it admits. -/
def opFwImageBegin : OpSpec := { opcode := 0x1100, lengths := fun n => n = 4 }

/-- FW_IMAGE_BEGIN (Table 18.17). -/
def execFwImageBegin (q : Request) (s : State) : Answer :=
  runCommand opFwImageBegin (.fwImageBegin q) q anyBlock (fun _ s =>
    let size := u32 q.params 0
    withChecks [chk (s.fw.step ≠ 0) { status := 1, reason := 3, info := 0xFFFF },
        (size < 4 || 67108864 < size || size % 4 ≠ 0, badParam 4 0), (!storeUp s, { status := 9, reason := 0x80 }),
        (slotCapacity s < size, badParam 4 0)] s fun s =>
      .ok [] (anchorWrite (countSlot (nvSmaller s).slotBlocks 0
        (modFw (fun f => { f with session := some size, words := [], pending := 1, pendImage := none }) s)))) s

/-- FW_IMAGE_WRITE: what it admits. -/
def opFwImageWrite : OpSpec := { opcode := 0x1101, lengths := fun n => 12 ≤ n }

/-- FW_IMAGE_WRITE (Table 18.18). -/
def execFwImageWrite (q : Request) (s : State) : Answer :=
  runCommand opFwImageWrite (.fwImageWrite q) q anyBlock (fun _ s =>
    let off := u32 q.params 0
    let data := q.params.drop 8
    match s.fw.session with
    | none => .refuse { status := 0x0B, reason := 4 } s
    | some size =>
      withChecks [chk (off % 4 ≠ 0 || size < off + data.length) (badParam 4 0), (!storeUp s, { status := 9, reason := 0x80 })] s fun s =>
        .ok [] (countSlot 0 data.length (modFw (fun f => { f with
          words := (List.range (data.length / 4)).foldl (fun t i => tset t (off / 4 + i) (slice data (4 * i) 4)) f.words }) s))) s

/-- FW_IMAGE_VERIFY: what it admits. -/
def opFwImageVerify : OpSpec := { opcode := 0x1102, lengths := fun n => n = 0 }

/-- FW_IMAGE_VERIFY (Table 18.19). Without a session no bytes are written. (DEDUCED, log 50.) -/
def execFwImageVerify (q : Request) (s : State) : Answer :=
  runCommand opFwImageVerify (.fwImageVerify q) q anyBlock (fun _ s =>
    match s.fw.session with
    | none => .refuse { status := 9, reason := 0x83 } s
    | some size =>
      if 4 * s.fw.words.length < size then .refuse { status := 9, reason := 0x83 } s
      else
        let b := uploaded s size
        let c := imageCheck b s
        if c = 5 then .refuse { status := 9, reason := 0x82 } s
        else if c ≠ 0 then .refuse { status := 9, reason := 0x81 } s
        else
          let i := imageOf b
          .ok (beBytes 4 i.version ++ beBytes 4 i.svn ++ beBytes 2 i.stateMin ++ beBytes 2 i.stateMax ++
              beBytes 1 (b2n (hitlessOk i s.fw.running)) ++ zeros 3)
            (anchorWrite (modFw (fun f => { f with session := none, pending := 2, pendImage := some i }) s))) s

/-! ## Activation (R451) -/

/-- FW_ACTIVATE: what it admits. -/
def opFwActivate : OpSpec := { opcode := 0x1103, lengths := fun n => n = 4 }

/-- Step 1 of a hitless activation: the checks (Table 18.8, Table 18.20). -/
def activateChecks (p : Bytes) (s : State) : List (Bool × Refuse) :=
  [chk (u16 p 2 = 0 || 3600 < u16 p 2) (badParam 4 2),
   chk (!s.boot.standbyReady || s.boot.phase < 7 || partFailed s) { status := 0x0B, reason := 4 },
   chk (!(s.fw.pendImage.any fun i => hitlessOk i s.fw.running)) { status := 9, reason := 0x82 },
   chk (s.setup.txns.any fun t => t.state = .committing) { status := 1, reason := 4, info := 0xFFFF }]

/-- FW_ACTIVATE (Table 18.20): the mark, or step 2 of a hitless activation, in which the standby loads the image. -/
def execFwActivate (q : Request) (s : State) : Answer :=
  runCommand opFwActivate (.fwActivate q) q anyBlock (fun _ s =>
    let p := q.params
    withChecks [chk (1 < u8 p 0) (badParam 3 0),
        (s.boot.recovery && u8 p 0 = 1, { status := 0x0B, reason := 1, info := s.boot.phase }),
        (s.fw.step ≠ 0, { status := 1, reason := 3, info := 0xFFFF }),
        ((s.fw.pending ≠ 2 && s.fw.pending ≠ 3) || s.fw.pendImage.isNone, { status := 0x0B, reason := 4 })] s fun s =>
      if u8 p 0 = 0 then
        .ok (beBytes 1 (leadCode s) ++ zeros 3) (anchorWrite (modFw (fun f => { f with pending := 3 }) s))
      else
        withChecks (activateChecks p s) s fun s =>
          .wait .activation (setStandby false 1 (modFw (fun f => { f with
            step := 2, returnToA := bit (u8 p 1) 0, trial := u16 p 2 }) s))) s

/-- ACTIVATION_STANDBY_READY (R451, step 3): the standby is ready on the new image, and the handover of step 4 begins. -/
def execActivationStandbyReady (s : State) : Answer :=
  .next (if s.fw.step = 2 || s.fw.step = 3 then
    beginHandover 3 (setStandby true 2 (modFw (fun f => { f with step := 4 }) s))
  else s)

/-- FW_TRIAL_END (R451, R452): TRIAL seconds have passed, and the old leader loads the new image; a failed one does not. -/
def execFwTrialEnd (s : State) : Answer :=
  .next (if s.fw.step ≠ 5 || s.ns < s.fw.trialStart + s.fw.trial * second then s
  else if s.boot.standbyReady then setStandby false 1 (modFw (fun f => { f with step := 6 }) s)
  else finishActivation s)

/-- FW_ACTIVATED (R451, step 6): the old leader is standby on the new image. -/
def execFwActivated (s : State) : Answer :=
  .next (if s.fw.step = 6 then advertise (finishActivation (setStandby true 2 s)) else s)

/-- FW_STATUS: what it admits. -/
def opFwStatus : OpSpec := { opcode := 0x1104, observer := true, lengths := fun n => n = 0, reads := true }

/-- TRIAL seconds left. -/
def trialLeft (s : State) : Nat := if s.fw.step = 5 then s.fw.trial - (s.ns - s.fw.trialStart) / second else 0

/-- FW_STATUS (Table 18.21). The running version reads 0 in ROM recovery. -/
def execFwStatus (q : Request) (s : State) : Answer :=
  runCommand opFwStatus (.fwStatus q) q anyBlock (fun _ s =>
    .ok (beBytes 4 s.fw.running.version ++ beBytes 4 ((s.fw.pendImage.map (·.version)).getD 0) ++ beBytes 1 s.fw.pending ++
      beBytes 1 s.fw.step ++ beBytes 2 (trialLeft s) ++ beBytes 1 (leadCode s) ++ zeros 3 ++ beBytes 4 (4 * s.fw.words.length)) s) s

/-! ## Background self-test (R453) -/

/-- Spare engines of a Mangle that carry no traffic. -/
def idleSpares (s : State) (m : Nat) : List Nat :=
  if (mangleAt s m).failed then [] else (List.range 34).filter fun e =>
    !(mangleAt s m).active.contains e && !((mangleAt s m).engines.getD e {}).retired && chunksIn s m (fun ch => ch.shadow = some e) = []

/-- The spares of a lane group, of one end of a link. -/
def groupSpares (s : State) (k : Nat) (high : Bool) (g : Nat) : Nat :=
  (((seamAt s k).dir high)[g]?.map (·.spares)).getD 0

/-- Withdraws one spare lane of a group. -/
def dropSpare (k : Nat) (high : Bool) (g : Nat) (s : State) : State :=
  let cut (l : List SeamGroup) : List SeamGroup := l.set g { l.getD g { spares := 0 } with spares := groupSpares s k high g - 1 }
  modSeam k (fun x => if high then { x with high := cut x.high } else { x with low := cut x.low }) s

/-- Whether a self-test item tests an object of a die. Objects: an engine; the group of a spare bank; link, direction and group of a
spare lane, as `seamObject`; table code · 2^20 + index, plus 2^23 where the entry's shadow is uncorrectable; 0 for the standby. -/
def tests (s : State) (item die obj : Nat) : Bool :=
  match item with
  | 1 => 22 ≤ die && die < 24 && (idleSpares s (die - 22)).contains obj
  | 2 => 2 ≤ die && die < 6 && obj < 32 && (tfind (hallAt s (die - 2)).spareUsed obj).isNone
  | 3 => obj / 2 ^ 17 < 39 && die = (linkEnds (obj / 2 ^ 17)).1 && 0 < groupSpares s (obj / 2 ^ 17) (bit obj 16) (obj / 256 % 256)
  | 4 => 2 ≤ die && die < 6 && obj < 2 ^ 24 && 1 ≤ obj / 2 ^ 20 % 8 && obj / 2 ^ 20 % 8 ≤ 4
  | 5 => die = standbyDie s && s.boot.standbyReady
  | 6 => 22 ≤ die && die < 24 && (mangleAt s (die - 22)).active.contains obj
  | _ => false

/-- Withdraws an object that failed its test (Table 18.9). -/
def withdraw (item die obj : Nat) (s : State) : State :=
  let s := raiseLead 0x0B08 3 item (die * 2 ^ 24 + obj % (if item = 4 then 2 ^ 23 else 2 ^ 24)) 0 s
  match item with
  | 1 => withdrawEngine (die - 22) obj 0 0 0xE s
  | 2 => recordFault 0xE 0 die obj (modHall (die - 2) (fun a => { a with spareUsed := tset a.spareUsed obj (33 * obj + 32) }) s)
  | 3 => recordFault 0xE 0 die obj (dropSpare (obj / 2 ^ 17) (bit obj 16) (obj / 256 % 256) s)
  | 4 =>
    let d := draw (2 ^ 32) s
    repairEntry (obj / 2 ^ 20 % 8) (die - 2) (obj % 2 ^ 20) (!bit obj 23) d.1 d.2
  | 5 => failHearth die 4 s
  | 6 => withdrawEngine (die - 22) obj 0 0 9 s
  | _ => s

/-- How many objects an item tests. For the table sweep, whose count of live entries the manual leaves open, it is a free value
(DESIGN CHOICE, log 2). -/
def testedCount (item m : Nat) (s : State) : Nat × State :=
  match item with
  | 1 => ((idleSpares s 0).length + (idleSpares s 1).length, s)
  | 2 => (((List.range 4).map fun h => 32 - (hallAt s h).spareUsed.length).sum, s)
  | 3 => (((List.range 39).map fun k => sparesOf s k false + sparesOf s k true).sum, s)
  | 4 => draw (2 ^ 32) s
  | 5 => (b2n s.boot.standbyReady, s)
  | _ => ((mangleAt s m).active.length, s)

/-- Whether a zone's level suspends the background test of an object (R460). -/
def suspended (s : State) (item die obj : Nat) : Bool :=
  let hot (d : Nat) : Bool := 2 ≤ (tget s.zones d {}).level
  match item with
  | 2 | 5 => hot die
  | 3 => hot (linkEnds (obj / 2 ^ 17)).1 && 2 ≤ die && die < 6 || (hot (linkEnds (obj / 2 ^ 17)).2 && obj / 2 ^ 17 < 19 && 1 ≤ obj / 2 ^ 17)
  | _ => false

/-- What the table sweep finds of itself: the entries that fail parity, by the Hall's die and the object. -/
def sweepFinds (s : State) : List (Nat × Nat) := s.fwd.bad.map fun b => (2 + b.2.1, b.1 * 2 ^ 20 + b.2.2)

/-- Runs a self-test item (R453) with the objects that fail it: objects tested, objects failed. (DEDUCED, log 51.) -/
def runSelftest (item m : Nat) (failed : List (Nat × Nat)) (s : State) : Nat × Nat × State :=
  let found := if item = 4 then failed ++ (sweepFinds s).filter fun e => !failed.any fun f => f.1 = e.1 && f.2 % 2 ^ 23 = e.2 else failed
  let mine := found.filter fun e => tests s item e.1 e.2 && (item ≠ 6 || e.1 = mangleDie m)
  let c := testedCount item m s
  (c.1, mine.length, advertise (mine.foldl (fun s e => withdraw item e.1 e.2 s) c.2))

/-- SELFTEST_PERIOD (R453): an item's period has passed. `failed`: die and object of each resource that fails. -/
def execSelftestPeriod (item : Nat) (failed : List (Nat × Nat)) (s : State) : Answer :=
  guard (1 ≤ item && item ≤ 5) "self-test item"
    (if s.ns < s.darn.testDue.getD (item - 1) 0 then s
    else
      let s := modDarn (fun d => { d with testDue := d.testDue.set (item - 1) (s.ns + d.testPeriods.getD (item - 1) 1 * second) }) s
      if bit s.darn.testEnable item && s.boot.phase = 7 && !partFailed s then
        (runSelftest item 0 (failed.filter fun e => !suspended s item e.1 e.2) s).2.2
      else s)

/-- SELFTEST_CONFIG: what it admits. -/
def opSelftestConfig : OpSpec := { opcode := 0x0B04, lengths := fun n => n = 24 }

/-- SELFTEST_CONFIG (Table 18.15). -/
def execSelftestConfig (q : Request) (s : State) : Answer :=
  runCommand opSelftestConfig (.selftestConfig q) q anyBlock (fun _ s =>
    let p := q.params
    let ps := (List.range 5).map fun i => u32 p (4 + 4 * i)
    withChecks ((List.range 5).map fun i => chk (ps.getD i 0 = 0 || 86400 < ps.getD i 0) (badParam 4 (4 + 4 * i))) s fun s =>
      .ok [] (modDarn (fun d => { d with testEnable := u32 p 0, testPeriods := ps }) s)) s

/-- SELFTEST_RUN: what it admits. -/
def opSelftestRun : OpSpec := { opcode := 0x1020, lengths := fun n => n = 4 }

/-- SELFTEST_RUN (Table 18.16). `failed` is as at SELFTEST_PERIOD. (DEDUCED, log 54.) -/
def execSelftestRun (q : Request) (failed : List (Nat × Nat)) (s : State) : Answer :=
  runCommand opSelftestRun (.selftestRun q failed) q anyBlock (fun _ s =>
    let item := u8 q.params 0
    let m := u8 q.params 1
    withChecks [chk (item = 0 || 6 < item) (badParam 4 0), (item = 6 && 1 < m, badParam 4 1),
        (s.boot.phase < 7, { status := 0x0B, reason := 1, info := s.boot.phase }),
        (item = 6 && (reservers s).any (fun c => (ctxOf s c).slotsIn m ≠ 0), { status := 1, reason := 4, info := 0xFFFF })] s fun s =>
      let r := runSelftest item m failed s
      let payload := beBytes 4 r.1 ++ beBytes 4 r.2.1
      if r.2.1 = 0 then .ok payload r.2.2 else .reply 0x0E 0x80 0 payload r.2.2) s

end Sys2Proof.Machine
end

