-- ==== Sys2Proof/Machine/Reset.lean ====
section
/-!
DEFINITION. Resets (R40 to R43, R461, R547, R548): what a warm and a cold reset leave, and when the part leaves reset.
-/
namespace Sys2Proof.Machine

/-! ## What survives -/

/-- The firmware state after a reset: the image slots of R504. -/
def Firmware.reset (f : Firmware) : Firmware :=
  { current := f.current, pendImage := f.pendImage, pending := if f.pending = 1 then 0 else f.pending, pendSlot := f.pendSlot }

/-- The store after a reset: what waited or ran is cut short (R41, R491, R507). -/
def Nv.reset (n : Nv) (cut : Nat) : Nv :=
  { n with queue := [], cut, logQueue := [], scrubRun := false, scrubFast := false }

/-- The store after a reset. A transaction that ran was cut at an open point: wholly absent, or with its commit record on the first device
that takes writes, where the mount completes the other, or on every one (R495, R496). -/
def cutStore (s : State) : Nv × State :=
  match s.nv.queue with
  | [] => (s.nv.reset s.nv.cut, s)
  | t :: _ =>
    let d := draw 3 s
    if storeUp s && d.1 ≠ 0 then
      ((applyStored t.effect (applyLive t.effect (commitPages t.effect s))).nv.reset (if d.1 = 1 && writable s 0 && writable s 1 then 3 else 0), d.2)
    else (s.nv.reset 1, d.2)

/-- The security state after a reset: the fuses, and with `full` a FULL session (R480). -/
def Security.reset (c : Security) (full : Bool) : Security :=
  { lifecycle := c.lifecycle, revoked := c.revoked, svnA := c.svnA, svnB := c.svnB, full }

/-- A laser module that is still present starts again; the settings of its position are at their defaults (R155, Table 6.16). -/
def LaserModule.reset (m : LaserModule) : LaserModule := { state := if m.state = 0 then 0 else 1 }

/-- The state after a reset of the part, before any cause bit is set; the Porch does not change, and each regulator holds the setpoint last
written to it (R543, R545). -/
def resetState (s : State) : State :=
  let n := cutStore s
  { pending := s.pending, ns := s.ns, draws := n.2.draws, out := s.out, fw := s.fw.reset, nv := n.1, porch := s.porch
    modules := s.modules.map fun e => (e.1, e.2.reset)
    power := { rails := s.power.rails.map fun e => (e.1, { setpoint := e.2.setpoint }) } }

/-! ## RESET_CAUSE (Table 2.7) -/

/-- Sets the bit of a reset source. -/
def causeBit (b cause : Nat) : Nat := cause ||| 2 ^ b

/-- RESET_CAUSE after a warm reset: the source's bit, and WARM_COUNT, saturating. -/
def warmCause (b : Option Nat) (cause : Nat) : Nat :=
  let c := match b with | none => cause | some b => causeBit b cause
  let rws := c / 2 ^ 26 * 2 ^ 26
  rws + min 0xFFFF (c % 65536 + 1)

/-! ## Resets -/

/-- A warm reset (R41): everything but the RWS fields, the Porch, the store and the fuses. -/
def warmState (b : Option Nat) (s : State) : State :=
  let r := resetState s
  { r with
    sec := s.sec.reset s.sec.armed
    boot := { r.boot with cause := warmCause b s.boot.cause, released := s.ns, emptyTables := s.boot.resetPending && s.boot.emptyTables } }

/-- A warm reset by a source of Table 2.2 (R43). In P0, start-up goes on and only the cause is noted; in a cold reset a source has no
effect (R531). (DEDUCED, log 51.) -/
def warmReset (b : Option Nat) (s : State) : State :=
  if s.boot.cold then s
  else if s.boot.phase = 0 || s.boot.held then { s with boot := { s.boot with cause := match b with | none => s.boot.cause | some b => causeBit b s.boot.cause } }
  else warmState b s

/-- A thermal reset that zones hold (R461): the zones that hold it go on being read, with their thresholds. In P0, start-up goes on and only
the cause is noted; a reset that is held already is one with it (R43). (DEDUCED, log 51.) -/
def thermalReset (zone : Nat) (s : State) : State :=
  if s.boot.cold then s
  else if s.boot.phase = 0 && !s.boot.held then { s with boot := { s.boot with cause := causeBit 27 s.boot.cause } }
  else
    let held := if s.boot.thermalHeld.contains zone then s.boot.thermalHeld else s.boot.thermalHeld ++ [zone]
    let t := if s.boot.held then { s with boot := { s.boot with cause := causeBit 27 s.boot.cause } } else warmState (some 27) s
    { t with
      zones := (s.zones.filter fun e => held.contains e.1).map fun e =>
        (e.1, if s.boot.held then e.2 else { e.2 with bad := [], highest := none })
      power := { t.power with limits := s.power.limits }
      boot := { t.boot with held := true, thermalHeld := held } }

/-- No zone holds the reset any more: the part leaves it, and P0 begins, unless it still waits for the reference (R43, R44). -/
def releaseReset (s : State) : State :=
  { s with boot := { s.boot with held := s.boot.clockHeld, thermalHeld := [], released := s.ns } }

/-- The state in a cold reset, and after it: everything but the Porch, the store and the fuses at its reset value (R40). -/
def coldState (s : State) : State :=
  let r := resetState s
  { r with sec := s.sec.reset false, boot := { r.boot with released := s.ns }, power := {} }

/-- The Porch starts from no power (R483): every value is lost. -/
def Porch.lose (p : Porch) : Porch := { mainPower := p.mainPower }

/-- WARM_RESET (R41): the warm reset that a DEVICE_RESET asked for; any other source performs its own. -/
def execWarmReset (s : State) : Answer := .next (if s.boot.resetPending then warmState (some 29) s else warmReset none s)

/-- RESET_N_ASSERTED (R40, R531). -/
def execResetNAsserted (s : State) : Answer := .next (warmReset (some 30) s)

/-- PCIE_RESET (R42, R86): the endpoint and its configuration space, Bus Master Enable with it; no BAR0 register. The words of the MSI-X table,
which lie in BAR0 and follow the PCIe rules for MSI-X structures (R533), are masked and 0 again. (PRESUMED, log 52.) -/
def execPcieReset (s : State) : Answer :=
  .next (if s.boot.cold then s
  else
    let d := draw 1000000001 s
    { d.2 with boot := { d.2.boot with busMaster := false }
               pcie := { up := s.pcie.up, speed := s.pcie.speed, width := s.pcie.width, sris := s.pcie.sris, retryUntil := s.ns + d.1 } })

/-- A rail output, coded as RAIL (R470). -/
def railAt (s : State) (k : Nat) : Rail := tget s.power.rails k {}

/-- The range of a rail, coded as RAIL, in 0.1 mV: ±25 mV about an adaptive output's setpoint, or its nominal voltage within its tolerance
(Table 23.5). -/
def railRange (s : State) (k : Nat) : Nat × Nat :=
  if k < 6 then let v := 10 * (railAt s k).setpoint; (v - 250, v + 250)
  else [(7275, 7725), (11640, 12360), (10670, 11330), (17100, 18900)].getD (k - 6) (0, 0)

/-- The rails out of range among the voltages sensed, as a mask (R543). -/
def railsOut (s : State) (tenthMv : List Nat) : Nat :=
  maskOf ((List.range 10).filter fun k =>
    let v := tenthMv.getD k 0
    v < (railRange s k).1 || (railRange s k).2 < v)

/-- RAIL_OUT_OF_RANGE (R543, R548): the voltages sensed for 2 µs, in 0.1 mV by RAIL. Where one is out of range transmitters stop and the cold
reset begins; the Porch latches the rails. Without VIO the Porch runs on the cell, if there is one (R544). -/
def execRailOutOfRange (tenthMv : List Nat) (s : State) : Answer :=
  let rails := railsOut s tenthMv
  if tenthMv.length ≠ 10 then .refused (.noSuchObject "10 rails")
  else if rails = 0 then .next s
  else
    let p := { s.porch with railFault := s.porch.railFault ||| rails, mainPower := s.porch.mainPower && !bit rails 9 }
    let s := coldState { s with porch := if p.mainPower || p.cellPresent then p else p.lose }
    .next { s with boot := { s.boot with held := true, cold := true } }

/-- POWER_ON_RESET (R40, R547): every rail is in range, and P0 begins. -/
def execPowerOnReset (s : State) : Answer :=
  let s := coldState s
  .next { s with porch := { s.porch with mainPower := true } }

end Sys2Proof.Machine
end

