-- ==== Sys2Proof/Machine/Thermal.lean ====
section
/-!
DEFINITION. Power, thermal levels and control loops (R456 to R470), and the rail outputs of R545. Temperatures are in 1/256 °C.
-/
namespace Sys2Proof.Machine

/-! ## Zones (R457 to R459) -/

/-- A thermal zone. -/
def zoneAt (s : State) (d : Nat) : Zone := tget s.zones d {}

/-- Changes a thermal zone. -/
def modZone (d : Nat) (g : Zone → Zone) (s : State) : State := { s with zones := tset s.zones d (g (zoneAt s d)) }

/-- The zone class of a die (Table 19.2). -/
def zoneClass (d : Nat) : Nat :=
  if d < 2 then 2 else if d < 6 then 0 else if d < 22 then 3 else if d < 24 then 1 else if d < 32 then 4 else 5

/-- Sensors of a die (Table 19.2). -/
def sensorsOf (d : Nat) : Nat := if 2 ≤ d && d < 6 then 16 else if 22 ≤ d && d < 24 then 8 else 4

/-- DWELL (R458). -/
def dwell : Nat := 10000000

/-- A threshold of a die, `k` 1 WARN, 2 THROTTLE, 3 SHUTDOWN, in 1/256 °C. -/
def threshold (s : State) (d k : Nat) : Int :=
  let l := s.power.limits.getD (zoneClass d) (0, 0, 0)
  256 * ((if k = 1 then l.1 else if k = 2 then l.2.1 else l.2.2 : Nat) : Int)

/-- A run that goes on while its condition holds. -/
def keepRun (now : Nat) (holds : Bool) (run : Option Nat) : Option Nat := if holds then some (run.getD now) else none

/-- Whether a run has lasted DWELL. -/
def lasted (now : Nat) (run : Option Nat) : Bool := run.any fun t => t + dwell ≤ now

/-- A zone after a sample whose hottest working reading is `r` (R459). -/
def Zone.sample (z : Zone) (thr : Nat → Int) (now : Nat) (r : Int) : Zone :=
  { z with
    reading := some r
    highest := some (match z.highest with | none => r | some h => max h r)
    above := (List.range 3).map fun i => keepRun now (decide (thr (i + 1) ≤ r)) (z.above.getD i none)
    under := (List.range 3).map fun i => keepRun now (decide (r < thr (i + 1) - 512)) (z.under.getD i none)
    cool := keepRun now (decide (r < 123 * 256)) z.cool }

/-- Whether a zone counts toward a Mangle's level (R462). -/
def countsForMangle (d : Nat) : Bool := (2 ≤ d && d < 6) || (22 ≤ d && d < 24)

/-- Settles the buckets of a Hall whose filling rate is about to change (R460). -/
def settleBuckets (h : Nat) (s : State) : State :=
  [0, 3].foldl (fun s part =>
    let b : Bucket := { missing := bucketMissing s h part, last := s.ns }
    { s with cellar := { s.cellar with buckets := tset s.cellar.buckets (h, part) b } }) s

/-- THERMAL_LEVEL's severity (Table 19.7). -/
def levelSeverity (d old new : Nat) : Nat := if 24 ≤ d && new = 2 then 4 else if old < new then 3 else 2

/-- A zone changes level (R459): what follows under R460 to R462. -/
def setLevel (d new : Nat) (s : State) : State :=
  let z := zoneAt s d
  let old := z.level
  let s := if 6 ≤ d && d < 22 then settleBuckets ((d - 6) / 4) s else s
  let s := raise 0x0C01 d (levelSeverity d old new) d (old * 256 + new) (natOfInt 32 (z.reading.getD (-0x8000))) s
  let step : Int := if !countsForMangle d then 0 else if old < 2 && 2 ≤ new then 1 else if 2 ≤ old && new < 2 then -1 else 0
  let s := modZone d (fun z => { z with
    level := new, lastChange := some s.ns
    contrib := min 4 ((z.contrib : Int) + step).toNat, contribAt := if step = 0 then z.contribAt else s.ns }) s
  if new = 3 then thermalReset d s else s

/-- A sensor is ignored from now on: SENSOR_FAULT (R457). `why`: 1 range, 2 self-check. -/
def ignoreSensor (d sensor why : Nat) (s : State) : State :=
  raise 0x0C03 d 3 d sensor why (modZone d (fun z => { z with bad := z.bad ++ [sensor] }) s)

/-- Checks one sensor's reading. -/
def checkSensor (d sensor : Nat) (r : Reading) (s : State) : State :=
  if (zoneAt s d).bad.contains sensor || sensorsOf d ≤ sensor then s
  else
    match r with
    | none => ignoreSensor d sensor 2 s
    | some t => if t < -40 * 256 || 150 * 256 < t then ignoreSensor d sensor 1 s else s

/-- The hottest reading of a list. -/
def hottest : List Int → Option Int
  | [] => none
  | t :: l => some (l.foldl max t)

/-- A zone's sensors are read: the readings by sensor, none where the built-in check fails. -/
def sampleZone (d : Nat) (rs : List Reading) (s : State) : State :=
  let idx := List.range (min rs.length (sensorsOf d))
  let s := idx.foldl (fun s i => checkSensor d i (rs.getD i none) s) s
  let good := (idx.filter fun i => !(zoneAt s d).bad.contains i).filterMap fun i => rs.getD i none
  match hottest good with
  | some t => modZone d (fun z => z.sample (threshold s d) s.ns t) s
  | none =>
    let s := modZone d (fun z => { z with reading := none, above := [none, none, none], under := [none, none, none], cool := none }) s
    if sensorsOf d ≤ (zoneAt s d).bad.length && (zoneAt s d).level ≠ 2 then setLevel d 2 s else s

/-- What a new temperature of a PIC changes: the heaters of routes that hold (R191), and the moment at which one that was too cold at P4 has
reached 10 °C (R549). -/
def samplePic (d : Nat) (was : Bool) (s : State) : State :=
  if d < 32 then s
  else
    let w := d - 32
    let s := correctHeaters w s
    if was && !picCold s w then modWindow w (fun x => { x with warmAt := some s.ns }) s else s

/-- THERMAL_SAMPLE (R457): every 100 µs the sensors of each die are read. -/
def execThermalSample (samples : List (Nat × List Reading)) (s : State) : Answer :=
  guard (samples.all fun e => e.1 < 40) "die"
    (samples.foldl (fun s e => samplePic e.1 (picCold s (e.1 - 32)) (sampleZone e.1 e.2 s)) s)

/-- The level that a zone is to take, if some transition is due (R459). -/
def dueLevel (z : Zone) (now : Nat) : Option Nat :=
  if (z.lastChange.any fun t => now < t + dwell) then none
  else
    match ([3, 2, 1].find? fun k => z.level < k && lasted now (z.above.getD (k - 1) none)) with
    | some k => some k
    | none => if 0 < z.level && lasted now (z.under.getD (z.level - 1) none) then some (z.level - 1) else none

/-- One further step of a zone's contribution to the Mangle level (R462). -/
def stepContrib (z : Zone) (now : Nat) : Zone :=
  if z.level = 2 then
    match z.above.getD 1 none with
    | some t => if max t z.contribAt + dwell ≤ now then { z with contrib := min 4 (z.contrib + 1), contribAt := now } else z
    | none => z
  else if z.level < 2 && 0 < z.contrib && z.contribAt + dwell ≤ now then { z with contrib := z.contrib - 1, contribAt := now }
  else z

/-- Whether a zone that holds the reset lets go of it (R461). -/
def releases (s : State) (d : Nat) : Bool :=
  let z := zoneAt s d
  z.level < 3 && (z.trip.isNone || lasted s.ns z.cool)

/-- Ends the holds that are over; with the last one the part leaves reset. -/
def settleHolds (s : State) : State :=
  if s.boot.thermalHeld = [] then s
  else
    let left := s.boot.thermalHeld.filter fun d => !releases s d
    if left = [] then releaseReset s else { s with boot := { s.boot with thermalHeld := left } }

/-- THERMAL_DWELL_EXPIRED (R459 to R462): a dwell of a zone has run out: its level changes, or its contribution steps. A zone without a
working sensor stays at THROTTLE. (DEDUCED, log 54.) -/
def execThermalDwellExpired (zone : Nat) (s : State) : Answer :=
  if 40 ≤ zone then .refused (.noSuchObject "die")
  else if sensorsOf zone ≤ (zoneAt s zone).bad.length then .next s
  else
    let s := match dueLevel (zoneAt s zone) s.ns with
      | some k => setLevel zone k s
      | none => modZone zone (fun z => if countsForMangle zone then stepContrib z s.ns else z) s
    .next (settleHolds s)

/-- THERMAL_TRIP (R461): a sensor has read 125 °C or more; below that nothing trips. -/
def execThermalTrip (zone sensor : Nat) (reading : Int) (s : State) : Answer :=
  guard (zone < 40 && sensor < sensorsOf zone) "sensor"
    (if (zoneAt s zone).bad.contains sensor || reading < 125 * 256 then s
    else thermalReset zone (modZone zone (fun z => { z with trip := some (sensor, reading), cool := none }) s))

/-! ## Mangle levels and the power cap (R462, R463) -/

/-- The level that the contributions call for. -/
def wantedLevel (s : State) (m : Nat) : Nat :=
  max (max (zoneAt s (22 + m)).contrib (zoneAt s (2 + 2 * m)).contrib) (max (zoneAt s (3 + 2 * m)).contrib s.power.sCap)

/-- Changes power state. -/
def modPower (g : Power → Power) (s : State) : State := { s with power := g s.power }

/-- MANGLE_LEVEL_STEP (R462): the effective level moves one step toward what the contributions call for, at most once per DWELL.
(DEDUCED, log 54.) -/
def execMangleLevelStep (mangle : Nat) (s : State) : Answer :=
  let old := s.power.levels.getD mangle 0
  let want := wantedLevel s mangle
  let new := if old < want then old + 1 else if want < old then old - 1 else old
  guard (mangle < 2) "Mangle"
    (if new = old || ((s.power.stepped.getD mangle none).any fun t => s.ns < t + dwell) then s
    else raise 0x0C04 (mangleDie mangle) 2 mangle
      (new * 2 ^ 24 + (zoneAt s (22 + mangle)).contrib * 2 ^ 16 + (zoneAt s (2 + 2 * mangle)).contrib * 2 ^ 12 +
        (zoneAt s (3 + 2 * mangle)).contrib * 256 + s.power.sCap) (200 * (8 - new))
      (modPower (fun p => { p with levels := p.levels.set mangle new, stepped := p.stepped.set mangle (some s.ns) }) s))

/-- A window of the cap loop, ns (R463). -/
def capWindow : Nat := 10000000

/-- POWER_CAP_WINDOW (R463): a window is over: the average power of its 10 ms, in mW, is compared with the CAP_W that applied in it, and
the next window begins with CAP_W as set (Table 19.11). During a handover s_CAP holds. (DEDUCED, log 54.) -/
def execPowerCapWindow (average : Nat) (s : State) : Answer :=
  if s.boot.handover || (s.power.windowAt.any fun t => s.ns < t + capWindow) then .next s
  else
    let p := s.power
    let high := decide (p.capNow * 1000 < average)
    let low := decide (average < (p.capNow - 30) * 1000)
    let runs := if low then p.lowWindows + 1 else 0
    let unmet := high && p.sCap = 4
    let sCap := if high then min 4 (p.sCap + 1) else if 10 ≤ runs then p.sCap - 1 else p.sCap
    let s := modPower (fun p => { p with
      avg := average, sCap, lowWindows := if 10 ≤ runs then 0 else runs, unmet, windowAt := some s.ns, capNow := p.cap }) s
    .next (if unmet then
      raiseLimited 0x0C05 0 (60 * second) (fun _ s => raiseLead 0x0C05 3 p.capNow (average / 1000) 0 s) s
    else s)

/-! ## Adaptive voltage and the frequency guard (R464 to R467, R545) -/

/-- Changes a rail output. -/
def modRail (k : Nat) (g : Rail → Rail) (s : State) : State := modPower (fun p => { p with rails := tset p.rails k (g (railAt s k)) }) s

/-- The die that an adaptive output feeds. -/
def railDie (k : Nat) : Nat := if k < 4 then hallDie k else mangleDie (k - 4)

/-- Writes a setpoint on an output's AVSBus, unless the bus takes only reads or P3 has not begun (R545). -/
def writeRail (k mv : Nat) (s : State) : State :=
  if (railAt s k).readOnly || s.boot.phase < 3 then s
  else emit (.avs k mv) (modRail k (fun r => { r with setpoint := mv }) s)

/-- Notes the lowest CPM margin that a loop has seen, and forgets those older than 1 s. -/
def noteMargin (k : Nat) (margin : Int) (s : State) : State :=
  modRail k (fun r => { r with margins := (r.margins.filter fun e => s.ns < e.1 + second) ++ [(s.ns, margin)] }) s

/-- Whether a Mangle's guard has acted within the last 10 ms (R467). -/
def guardRecent (s : State) (m : Nat) : Bool :=
  let g := s.power.guards.getD m {}
  g.on || (g.last.any fun t => s.ns < t + 10000000) || g.acts.any fun t => s.ns < t + 10000000

/-- AVS_STEP (R464, R467): a loop steps its rail up on a margin below its target, or down. `margin`: the lowest CPM margin, mV. -/
def execAvsStep (rail : Nat) (up : Bool) (margin : Int) (s : State) : Answer :=
  if 6 ≤ rail then .refused (.noSuchObject "adaptive output")
  else
    let s := noteMargin rail margin s
    let r := railAt s rail
    let low := if rail < 4 then 620 else 600
    if up then
      .next (if 850 ≤ r.setpoint then
        raiseLimited 0x0C06 rail second (fun _ s => raise 0x0C06 (railDie rail) 3 (railDie rail) r.setpoint (natOfInt 32 margin) s) s
      else writeRail rail (min 850 (r.setpoint + 5)) s)
    else if r.setpoint ≤ low || (r.lastDown.any fun t => s.ns < t + 1000000) || (4 ≤ rail && guardRecent s (rail - 4)) then .next s
    else .next (modRail rail (fun r => { r with lastDown := some s.ns }) (writeRail rail (max low (r.setpoint - 5)) s))

/-- HALL_MARGIN (R465): a CPM of a Hall is below its emergency level. -/
def execHallMargin (hall : Nat) (margin : Int) (s : State) : Answer :=
  guard (hall < 4) "Hall"
    (raise 0x0C07 (hallDie hall) 4 (hallDie hall) (natOfInt 32 margin) 0
      (modRail hall (fun r => { r with emergency := some s.ns }) (writeRail hall 850 (noteMargin hall margin s))))

/-- Changes a frequency guard. -/
def modGuard (m : Nat) (g : Guard → Guard) (s : State) : State :=
  modPower (fun p => { p with guards := p.guards.set m (g (p.guards.getD m {})) }) s

/-- A guard that has held for more than 1 ms without a break makes the voltage loop of its Mangle step up at once (R467). -/
def pushVoltage (m : Nat) (s : State) : State :=
  let g := s.power.guards.getD m {}
  if g.on && !g.pushed && g.since + 1000000 < s.ns then
    modGuard m (fun g => { g with pushed := true }) (writeRail (4 + m) (min 850 ((railAt s (4 + m)).setpoint + 5)) s)
  else s

/-- FREQUENCY_GUARD (R466): the guard of a Mangle acts. -/
def execFrequencyGuard (mangle : Nat) (s : State) : Answer :=
  guard (mangle < 2) "Mangle"
    (if (s.power.guards.getD mangle {}).on then s
    else modGuard mangle (fun g => { g with
      on := true, since := s.ns, pushed := false, acts := (g.acts.filter fun t => s.ns < t + second) ++ [s.ns] }) s)

/-- FREQUENCY_GUARD_RELEASE (R466): every margin has been above the guard level for 1 µs, so no sooner after the guard acted. -/
def execFrequencyGuardRelease (mangle : Nat) (s : State) : Answer :=
  guard (mangle < 2) "Mangle"
    (let g := s.power.guards.getD mangle {}
    if g.on && g.since + 1000 ≤ s.ns then modGuard mangle (fun g => { g with on := false, last := some s.ns }) (pushVoltage mangle s) else s)

/-- AVS_BUS_POLL (R545): a read of voltage (mV) and current (mA); the third without a valid response in a row is a fault, and
the regulator of a bus that takes no writes goes to 0.85 V. -/
def execAvsBusPoll (k : Nat) (response : Option (Nat × Nat)) (s : State) : Answer :=
  if 6 ≤ k then .refused (.noSuchObject "AVSBus")
  else
    match response with
    | some (mv, ma) => .next (modRail k (fun r => { r with mv, ma, errors := 0 }) s)
    | none =>
      let r := railAt s k
      if r.errors = 2 && !r.readOnly then
        .next (raiseLead 0x0C10 5 k r.mv 0 (modRail k (fun r => { r with errors := 3, readOnly := true, setpoint := 850 }) s))
      else .next (modRail k (fun r => { r with errors := min 3 (r.errors + 1) }) s)

/-! ## Commands (Tables 19.8 to 19.12) -/

/-- POWER_READ: what it admits. -/
def opPowerRead : OpSpec := { opcode := 0x0C00, observer := true, lengths := fun n => n = 0, reads := true }

/-- Voltage and current of each rail; `analog` gives those of VEIC, VPIC, VCELLAR and VIO, which the part measures itself (R546). -/
def railReadings (s : State) (analog : List (Nat × Nat)) : List (Nat × Nat) :=
  (List.range 6).map (fun k => ((railAt s k).mv, (railAt s k).ma)) ++ (List.range 4).map fun i => analog.getD i (0, 0)

/-- POWER_READ (Table 19.8). (DEDUCED, log 54.) -/
def execPowerRead (q : Request) (analog : List (Nat × Nat)) (s : State) : Answer :=
  runCommand opPowerRead (.powerRead q analog) q anyBlock (fun _ s =>
    let rs := railReadings s analog
    let mw (r : Nat × Nat) : Nat := r.1 * r.2 / 1000
    .ok (beBytes 4 (rs.map mw).sum ++ beBytes 4 s.power.avg ++ beBytes 2 s.power.cap ++ beBytes 1 s.power.sCap ++
      beBytes 1 (b2n s.power.unmet) ++ zeros 4 ++ (List.range 10).flatMap fun k =>
        let r := rs.getD k (0, 0)
        beBytes 1 k ++ zeros 1 ++ beBytes 2 r.1 ++ beBytes 4 r.2 ++ beBytes 4 (mw r)) s) s

/-- A temperature field; none reads 0x8000. -/
def tempField (t : Option Int) : Bytes := beBytes 2 (match t with | none => 0x8000 | some t => natOfInt 16 t)

/-- Whether a die is in service (Table 1.7). -/
def dieServes (s : State) (d : Nat) : Bool := (dieAt s d).state = 1 || (dieAt s d).state = 2

/-- THERMAL_READ: what it admits. -/
def opThermalRead : OpSpec := { opcode := 0x0C01, observer := true, lengths := fun n => n = 0, reads := true }

/-- The record of a die in THERMAL_READ. -/
def thermalRecord (s : State) (d : Nat) : Bytes :=
  let z := zoneAt s d
  if !dieServes s d then beBytes 1 d ++ zeros 3 ++ tempField none ++ tempField none
  else
    beBytes 1 d ++ beBytes 1 z.level ++
    beBytes 1 (b2n (z.bad ≠ []) + 2 * b2n (decide (sensorsOf d ≤ z.bad.length)) + 4 * b2n z.trip.isSome) ++
    beBytes 1 (sensorsOf d - z.bad.length) ++ tempField z.reading ++ tempField z.highest

/-- THERMAL_READ (Table 19.9). -/
def execThermalRead (q : Request) (s : State) : Answer :=
  runCommand opThermalRead (.thermalRead q) q anyBlock (fun _ s => .ok ((List.range 40).flatMap (thermalRecord s)) s) s

/-- The highest SHUTDOWN threshold of a zone class (Table 19.3). -/
def maxShutdown (c : Nat) : Nat := [110, 110, 110, 103, 105, 90].getD c 0

/-- THERMAL_LIMITS_SET: what it admits. -/
def opThermalLimitsSet : OpSpec := { opcode := 0x0C02, lengths := fun n => n = 4 }

/-- THERMAL_LIMITS_SET (Table 19.10): loaded at once, and stored. -/
def execThermalLimitsSet (q : Request) (s : State) : Answer :=
  runCommand opThermalLimitsSet (.thermalLimitsSet q) q anyBlock (fun _ s =>
    let p := q.params
    let z := u8 p 0
    let a := u8 p 1
    let b := u8 p 2
    let c := u8 p 3
    withChecks [chk (5 < z) (badParam 3 0), (a < 40, badParam 4 1), (b < 40, badParam 4 2), (c < 40, badParam 4 3),
        (b < a + 3, badParam 6 1), (c < b + 3, badParam 6 2), (maxShutdown z < c, badParam 6 3)] s fun s =>
      let s := modPower (fun w => { w with limits := w.limits.set z (a, b, c) }) s
      if storeUp s then .wait (.store s.nv.nextId) (nvQueue { id := 0, effect := .limits z p } s)
      else .reply 0x0E 0x80 0 [] s) s

/-- POWER_CAP_SET: what it admits. -/
def opPowerCapSet : OpSpec := { opcode := 0x0C03, lengths := fun n => n = 4 }

/-- POWER_CAP_SET (Table 19.11). -/
def execPowerCapSet (q : Request) (s : State) : Answer :=
  runCommand opPowerCapSet (.powerCapSet q) q anyBlock (fun _ s =>
    let w := u16 q.params 0
    withChecks [chk (w < 1100 || 1600 < w) (badParam 4 0)] s fun s => .ok [] (modPower (fun p => { p with cap := w }) s)) s

/-- The lowest CPM margin of the last 1 s; with none seen the manual gives no value (DESIGN CHOICE, log 2). -/
def lowestMargin (k : Nat) (s : State) : Bytes × State :=
  match ((railAt s k).margins.filter fun e => s.ns < e.1 + second).map (·.2) with
  | [] => let d := draw 65536 s; (beBytes 2 d.1, d.2)
  | t :: l => (beBytes 2 (natOfInt 16 (l.foldl min t)), s)

/-- A Hall's record in LOOP_STATUS. -/
def hallLoop (h : Nat) (s : State) : Bytes × State :=
  let r := railAt s h
  let m := lowestMargin h s
  (beBytes 1 h ++ beBytes 1 (b2n (decide (850 ≤ r.setpoint)) + 2 * b2n (r.emergency.any fun t => s.ns < t + second)) ++
    beBytes 2 r.setpoint ++ m.1 ++ zeros 2, m.2)

/-- A Mangle's record in LOOP_STATUS. -/
def mangleLoop (m : Nat) (s : State) : Bytes × State :=
  let g := s.power.guards.getD m {}
  let x := lowestMargin (4 + m) s
  (beBytes 1 m ++ beBytes 1 (s.power.levels.getD m 0) ++ beBytes 1 (zoneAt s (22 + m)).contrib ++
    beBytes 1 (zoneAt s (2 + 2 * m)).contrib ++ beBytes 1 (zoneAt s (3 + 2 * m)).contrib ++ beBytes 1 s.power.sCap ++
    beBytes 2 (railAt s (4 + m)).setpoint ++ x.1 ++ zeros 2 ++ beBytes 4 (g.acts.filter fun t => s.ns < t + second).length, x.2)

/-- The data and terminated Transom wavelengths of a Window, by fibre pair. -/
def windowLambdas (s : State) (w : Nat) : List Lambda :=
  (dataPairs w).flatMap (fun n => (fibreAt s n).lambdas) ++
  ((List.range 4).map fun t => 128 + 4 * w + t).flatMap fun n => (fibreAt s n).lambdas.take 8

/-- Lanes of a Window whose equaliser is held under R467: those of its data ports that carry light. -/
def heldLanes (s : State) (w : Nat) : Nat :=
  ((dataPairs w).flatMap fun n => (List.range 8).filter fun k =>
    let st := (portAt s (portOfLane s n k)).state
    (st = .tuning || st = .phyReady || st = .up || st = .upDegraded) && eqHeld s n k).length

/-- A Window's record in LOOP_STATUS. -/
def windowLoop (s : State) (w : Nat) : Bytes :=
  let ls := windowLambdas s w
  let heads := ls.flatMap fun l => (if l.txLock then [l.txHead] else []) ++ if l.rxLock then [l.rxHead] else []
  beBytes 1 w ++ beBytes 1 (b2n (lightHeld s w)) ++ beBytes 2 heads.length ++
  beBytes 1 (match heads with | [] => 0 | h :: t => t.foldl min h) ++ zeros 1 ++ beBytes 2 (heldLanes s w)

/-- LOOP_STATUS: what it admits. -/
def opLoopStatus : OpSpec := { opcode := 0x0C04, observer := true, lengths := fun n => n = 0, reads := true }

/-- LOOP_STATUS (Table 19.12). (DEDUCED, log 54.) -/
def execLoopStatus (q : Request) (s : State) : Answer :=
  runCommand opLoopStatus (.loopStatus q) q anyBlock (fun _ s =>
    let add (f : Nat → State → Bytes × State) (a : Bytes × State) (i : Nat) : Bytes × State :=
      let r := f i a.2
      (a.1 ++ r.1, r.2)
    let a := (List.range 4).foldl (add hallLoop) ([], s)
    let b := (List.range 2).foldl (add mangleLoop) a
    .ok (b.1 ++ (List.range 8).flatMap (windowLoop b.2)) b.2) s

end Sys2Proof.Machine
end

