-- ==== Sys2Proof/Machine/Security.lean ====
section
/-!
DEFINITION. The TRNG and the DRBG (R58, R59, R477), debug (R478 to R480), the Deed report (R481, R482) and the Porch domain
(R483 to R486), with their commands (Tables 20.12 to 20.18).
-/
namespace Sys2Proof.Machine

/-! ## Random numbers (R58, R59, R477) -/

/-- A TRNG after a start-up run; the third failure is final (R58). -/
def Trng.runEnd (t : Trng) (pass : Bool) : Trng :=
  if t.state ≠ 1 then t
  else { t with runs := t.runs + 1, state := if pass then 2 else if 3 ≤ t.runs + 1 then 3 else 1 }

/-- A TRNG after a continuous test has failed: the start-up tests run again (R59). -/
def Trng.retest (t : Trng) : Trng :=
  if t.state ≠ 2 then t else { state := 1, runs := 0, retests := min 0xFFFF (t.retests + 1) }

/-- The TRNG of the leading Hearth, or of the other. -/
def trngAt (s : State) (standby : Bool) : Trng :=
  if standby then s.boot.standbyTrng else { state := s.boot.trngState, runs := s.boot.trngRuns, retests := s.boot.trngRetests }

/-- Puts a TRNG in its place. -/
def setTrng (standby : Bool) (t : Trng) (s : State) : State :=
  modBoot (fun b => if standby then { b with standbyTrng := t }
    else { b with trngState := t.state, trngRuns := t.runs, trngRetests := t.retests }) s

/-- TRNG_RUN_END (R58): a start-up run ends, of the leading Hearth's TRNG or of the standby's (R477). -/
def execTrngRunEnd (standby pass : Bool) (s : State) : Answer := .next (setTrng standby ((trngAt s standby).runEnd pass) s)

/-- TRNG_RETEST (R59): a continuous test fails. -/
def execTrngRetest (standby : Bool) (s : State) : Answer :=
  .next (if (trngAt s standby).state ≠ 2 then s
  else
    let t := (trngAt s standby).retest
    raiseLead 0x0D20 3 (if standby then standbyDie s else leadCode s) t.retests 0 (setTrng standby t s))

/-- The DRBG takes a fresh seed. -/
def reseed (s : State) : State := modSec (fun c => { c with reseeds := c.reseeds + 1, drawn := 0, seeded := s.ns }) s

/-- DRBG_RESEED (R477): the DRBG takes a fresh seed, while the TRNG is ready. -/
def execDrbgReseed (s : State) : Answer := .next (if s.boot.trngState = 2 then reseed s else s)

/-- `n` bytes from the DRBG, which is reseeded first where they would pass 1 MiB of one seed, or where a second has passed (R477).
(DESIGN CHOICE, log 3.) -/
def random (n : Nat) (s : State) : Bytes × State :=
  let s := if 2 ^ 20 < s.sec.drawn + n || s.sec.seeded + second ≤ s.ns then reseed s else s
  (padTo n (Config.randomBytes s.draws n),
   { s with draws := s.draws + 1, sec := { s.sec with drawn := s.sec.drawn + n } })

/-- RANDOM_READ: what it admits. -/
def opRandomRead : OpSpec := { opcode := 0x0D01, tenant := true, lengths := fun n => n = 4, reads := true }

/-- FAULT or NOT_READY without random numbers (R58). -/
def randomChecks (s : State) : List (Bool × Refuse) :=
  [chk (s.boot.trngState = 3) { status := 9, reason := 0x81 }, (s.boot.trngState ≠ 2, { status := 0x0B, reason := 3 })]

/-- RANDOM_READ (Table 20.13). -/
def execRandomRead (q : Request) (s : State) : Answer :=
  runCommand opRandomRead (.randomRead q) q anyBlock (fun _ s =>
    let n := u16 q.params 0
    withChecks ([chk (n < 4 || 4080 < n || n % 4 ≠ 0) (badParam 4 0)] ++ randomChecks s) s fun s =>
      let r := random n s
      .ok r.1 r.2) s

/-! ## Keys (R471, R482) -/

/-- The owner key in service: its stored blob unwraps under the present KEK (R482). -/
def ownerKey (s : State) : Option (Bytes × Bytes) :=
  match s.nv.ownerKey with
  | none => none
  | some (a, b, share) => if !s.sec.full && s.porch.share ≠ [] && share = s.porch.share then some (a, b) else none

/-- OWNER_KEY_ID (Table 20.4). -/
def ownerKeyId (k : Bytes × Bytes) : Bytes := padTo 48 (Config.sha384 (k.1 ++ k.2))

/-- KEY_GENERATE: what it admits. -/
def opKeyGenerate : OpSpec := { opcode := 0x0D02, lengths := fun n => n = 0 }

/-- KEY_GENERATE (Table 20.14): a new share and new keys, which a store transaction brings into service. -/
def execKeyGenerate (q : Request) (s : State) : Answer :=
  runCommand opKeyGenerate (.keyGenerate q) q anyBlock (fun c s =>
    withChecks ([chk s.sec.full { status := 9, reason := 0x82 }] ++ randomChecks s ++ [(!storeUp s, { status := 9, reason := 0x80 })]) s fun s =>
      let a := random 97 s
      let b := random 2592 a.2
      let share := random 32 b.2
      let s := { share.2 with porch := { share.2.porch with share := share.1 } }
      storeThen { id := 0, effect := .ownerKey c.route a.1 b.1 share.1
                  payload := ownerKeyId (a.1, b.1) ++ a.1 ++ b.1 ++ zeros 3 } s) s

/-! ## Debug (R478 to R480) -/

/-- Whether 600 s have passed since a challenge was issued (R479). -/
def challengeOver (s : State) (c : Bytes × Nat) : Bool := c.2 + 600 * second ≤ s.ns

/-- DEBUG_CHALLENGE_EXPIRY (R479). -/
def execDebugChallengeExpiry (s : State) : Answer :=
  .next (if s.sec.challenge.any (challengeOver s) then modSec (fun c => { c with challenge := none, tokenData := [] }) s else s)

/-- The submitted token; bytes not sent read 0. -/
def debugToken (s : State) : Bytes := (List.range 1865).flatMap fun i => tget s.sec.tokenData i (zeros 4)

/-- Why a token is refused, as ARG0 of DEBUG_UNLOCK_FAILED; 0 when it unlocks (R479). -/
def tokenFault (t : Bytes) (nonce : Bytes) (s : State) : Nat :=
  let digest := Config.sha384 (t.take 48)
  if s.sec.lifecycle ≠ 1 then 1
  else if u64 t 0 ≠ Config.deviceSerial then 2
  else if slice t 8 32 ≠ nonce then 3
  else if Config.sha384 (slice t 48 2689) ≠ Config.debugAuthHash then 4
  else if !Config.ecdsaVerify (slice t 48 97) digest (slice t 2737 96) || !Config.mldsaVerify (slice t 145 2592) digest (slice t 2833 4627)
    then 5
  else 0

/-- DEBUG_UNLOCK: what it admits. -/
def opDebugUnlock : OpSpec := { opcode := 0x0D03, lengths := fun n => n = 4 || (12 ≤ n && n ≤ 4080) }

/-- CHALLENGE: a fresh nonce. -/
def debugChallenge (s : State) : Done :=
  let recent := s.sec.lastChallenge.any fun t => s.ns < t + second
  withChecks [chk (s.boot.trngState ≠ 2) { status := 0x0B, reason := 3 }, (recent, { status := 1, reason := 4, info := 0xFFFF })] s fun s =>
    let r := random 32 s
    .ok r.1 (modSec (fun c => { c with challenge := some (r.1, s.ns), lastChallenge := some s.ns, tokenData := [] }) r.2)

/-- SUBMIT: the challenge ends, and a good token unlocks. -/
def debugSubmit (route : Nat) (nonce : Bytes) (s : State) : Done :=
  let t := debugToken s
  let why := tokenFault t nonce s
  let scope := u8 t 40
  let s := modSec (fun c => { c with challenge := none, tokenData := [] }) s
  if why ≠ 0 then .reply 9 (0x80 + why) 0 [] (raiseLead 0x0D11 4 why route 0 s)
  else .ok [] (raiseLead 0x0D10 4 scope route 0 (modSec (fun c => { c with
    trace := c.trace || decide (scope = 1), armed := c.armed || decide (scope = 2) }) s))

/-- DEBUG_UNLOCK (Table 20.15). (DEDUCED, log 51.) -/
def execDebugUnlock (q : Request) (s : State) : Answer :=
  runCommand opDebugUnlock (.debugUnlock q) q anyBlock (fun c s =>
    let p := q.params
    let op := u8 p 0
    let off := u32 p 4
    let data := p.drop 8
    withChecks [chk (2 < op) (badParam 3 0), ((op = 1) ≠ (p.length ≠ 4), badParam 1 0xFFFF),
        (op = 1 && (off % 4 ≠ 0 || 7460 < off + data.length), badParam 4 4)] s fun s =>
      if op = 0 then debugChallenge s
      else
        match s.sec.challenge.filter fun c => !challengeOver s c with
        | none => .refuse { status := 0x0B, reason := 4 } s
        | some (nonce, _) =>
          if op = 1 then
            .ok [] (modSec (fun c => { c with tokenData :=
              (List.range (data.length / 4)).foldl (fun t i => tset t (off / 4 + i) (slice data (4 * i) 4)) c.tokenData }) s)
          else debugSubmit c.route nonce s) s

/-! ## The Porch (R483 to R486) -/

/-- Changes the Porch. -/
def modPorch (g : Porch → Porch) (s : State) : State := { s with porch := g s.porch }

/-- PORCH_ALARM's second and third arguments. -/
def raisePorchAlarm (s : State) : State :=
  raiseLead 0x0D30 5 s.porch.latched s.porch.alarmSecs (b2n s.porch.onCell * 2 ^ 31 + s.porch.count) s

/-- PORCH_ALARM (R484): monitors enter alarm in one cycle of PORCHCLK. (DEDUCED, log 51.) -/
def execPorchAlarm (monitors : Nat) (s : State) : Answer :=
  let new := (setBits 6 monitors).filter fun i => !bit s.porch.live i
  if setBits 6 monitors = [] then .refused (.noSuchObject "tamper monitor")
  else if new = [] then .next s
  else
    let p := s.porch
    let first := decide (p.latched = 0)
    let s := modPorch (fun p => { p with
      live := p.live ||| maskOf new, latched := p.latched ||| maskOf new, share := []
      first := if first then 2 ^ new.headD 0 else p.first
      alarmSecs := if first then p.secs else p.alarmSecs
      onCell := if first then !p.mainPower else p.onCell
      count := min 0xFFFF (p.count + new.length) }) s
    .next (if p.mainPower && !s.boot.held && 2 ≤ s.boot.phase then raisePorchAlarm s else s)

/-- PORCH_MONITOR_ALARM_END (R486): monitors leave alarm. -/
def execPorchMonitorAlarmEnd (monitors : Nat) (s : State) : Answer :=
  .next (modPorch (fun p => { p with live := maskOf ((setBits 6 p.live).filter fun i => !bit monitors i) }) s)

/-- PORCH_SECOND (R483, R486): the Porch counts a second and reads its temperature and the cell, which is present above 2.0 V. -/
def execPorchSecond (temp : Int) (cellMv : Nat) (s : State) : Answer :=
  .next (modPorch (fun p => { p with secs := (p.secs + 1) % 2 ^ 64, temp, cellMv, cellPresent := decide (2000 < cellMv) }) s)

/-- BACKUP_CELL_LOST (R483): without the main supply, every value of the Porch is lost. -/
def execBackupCellLost (s : State) : Answer :=
  .next (modPorch (fun p => if p.mainPower then { p with cellPresent := false, cellMv := 0 } else p.lose) s)

/-- CALENDAR_SECOND (R425): the leading Hearth gives the Porch the Calendar seconds. -/
def execCalendarSecond (s : State) : Answer :=
  .next (if s.boot.phase = 0 || s.boot.lost then s else modPorch (fun p => { p with secs := s.time.cal.sec, timeValid := true }) s)

/-- PORCH_STAT (Table 20.6). -/
def porchStat (s : State) : Nat :=
  let p := s.porch
  b2n p.timeValid * 2 ^ 31 + b2n (p.share ≠ []) * 2 ^ 30 + b2n p.cellPresent * 2 ^ 29 + b2n p.onRc * 2 ^ 28 + b2n p.stateLost * 2 ^ 27 +
  p.live * 2 ^ 16 + p.latched

/-- The seven registers of the Porch mirror, in offset order (Tables 20.6 to 20.9). -/
def porchMirror (s : State) : List Nat :=
  let p := s.porch
  [porchStat s, p.secs % 2 ^ 32, p.secs / 2 ^ 32, p.alarmSecs % 2 ^ 32, p.alarmSecs / 2 ^ 32,
   b2n p.onCell * 2 ^ 31 + p.first * 2 ^ 16 + p.count, natOfInt 16 p.temp * 2 ^ 16 + p.cellMv % 2 ^ 16]

/-- PORCH_READ: what it admits. -/
def opPorchRead : OpSpec := { opcode := 0x0D04, observer := true, lengths := fun n => n = 0, reads := true }

/-- PORCH_READ (Table 20.16). -/
def execPorchRead (q : Request) (s : State) : Answer :=
  runCommand opPorchRead (.porchRead q) q anyBlock (fun _ s => .ok ((porchMirror s).flatMap (beBytes 4)) s) s

/-- PORCH_ALARM_CLEAR: what it admits. -/
def opPorchAlarmClear : OpSpec := { opcode := 0x0D05, lengths := fun n => n = 4 }

/-- PORCH_ALARM_CLEAR (R485, Table 20.17). (DEDUCED, log 51.) -/
def execPorchAlarmClear (q : Request) (s : State) : Answer :=
  runCommand opPorchAlarmClear (.porchAlarmClear q) q anyBlock (fun c s =>
    let mask := u8 q.params 0
    withChecks [chk (64 ≤ mask) (badParam 3 0)] s fun s =>
      let p := s.porch
      let cleared := (setBits 6 p.latched).filter fun i => bit mask i && !bit p.live i
      let left := (setBits 6 p.latched).filter fun i => !cleared.contains i
      let s := modPorch (fun p => { p with
        latched := maskOf left, first := 0, alarmSecs := 0, onCell := false, count := 0, stateLost := false }) s
      let s := raiseLead 0x0D31 2 (maskOf cleared) (maskOf left) c.route s
      let stayed := left.any (bit mask)
      .reply (if stayed then 0x0E else 0) (if stayed then 0x80 else 0) 0 (beBytes 4 (porchStat s)) s) s

/-- FUSE_READ: what it admits. -/
def opFuseRead : OpSpec := { opcode := 0x0D06, observer := true, lengths := fun n => n = 0, reads := true }

/-- FUSE_READ (Table 20.18). -/
def execFuseRead (q : Request) (s : State) : Answer :=
  runCommand opFuseRead (.fuseRead q) q anyBlock (fun _ s =>
    .ok (beBytes 8 Config.deviceSerial ++ beBytes 1 s.sec.lifecycle ++ beBytes 1 s.sec.revoked ++ beBytes 1 s.sec.svnA ++
      beBytes 1 (if dieServes s 1 then s.sec.svnB else 0xFF) ++ zeros 4 ++
      ((List.range 4).flatMap fun k => padTo 48 (Config.rootKeyHash k)) ++ padTo 48 Config.debugAuthHash) s) s

/-! ## The Deed report (R481, R482) -/

/-- The record of a die. -/
def deedDie (s : State) (d : Nat) : Bytes :=
  let x := dieAt s d
  beBytes 1 d ++ beBytes 1 x.typeCode ++ beBytes 1 x.state ++ beBytes 1 (b2n x.fw) ++ padTo 48 x.digest

/-- The record of a block. -/
def deedBlock (e : Nat × Block) : Bytes :=
  beBytes 2 e.1 ++ beBytes 1 e.2.state.code ++ zeros 1 ++ bitmapBytes 16 e.2.pairs ++ bitmapBytes 32 e.2.transom

/-- The signed part of the report, of `total` bytes in all (Table 20.4). -/
def deedSigned (nonce : Bytes) (total : Nat) (s : State) : Bytes :=
  let own := ownerKey s
  let cal := s.time.cal
  let bs := sortedBlocks s
  beBytes 2 1 ++ beBytes 2 (b2n own.isSome + 2 * b2n s.sec.trace + 4 * b2n s.porch.onRc) ++ beBytes 4 total ++ nonce ++
  beBytes 8 Config.deviceSerial ++ beBytes 8 (mantel s) ++ beBytes 8 cal.sec ++ beBytes 4 cal.ns ++ beBytes 1 cal.state ++
  beBytes 1 (leadCode s) ++ beBytes 1 s.sec.lifecycle ++ beBytes 1 (if s.sec.armed then 2 else b2n s.sec.trace) ++
  beBytes 1 (svnCounter s) ++ beBytes 1 s.sec.revoked ++ beBytes 1 s.porch.latched ++
  beBytes 1 (b2n (s.porch.share ≠ []) + 2 * b2n s.porch.stateLost) ++ beBytes 2 bs.length ++ zeros 2 ++
  beBytes 8 s.setup.txnGen ++ beBytes 8 s.setup.lastT ++ beBytes 4 s.fw.running.version ++ beBytes 4 s.fw.running.svn ++
  (match own with | none => zeros 48 | some k => ownerKeyId k) ++ padTo 97 Config.deviceEcdsaPub ++ padTo 2592 Config.deviceMldsaPub ++
  zeros 7 ++ ((List.range 40).flatMap (deedDie s)) ++ bs.flatMap deedBlock

/-- The two signatures of a digest by a pair of keys. -/
def signatures (ecdsa mldsa digest : Bytes) : Bytes :=
  padTo 96 (Config.ecdsaSign ecdsa digest) ++ padTo 4627 (Config.mldsaSign mldsa digest)

/-- The report (R481). -/
def deedReport (nonce : Bytes) (s : State) : Bytes :=
  let n := 4928 + 52 * s.blocks.length + (if (ownerKey s).isSome then 9446 else 4723)
  let total := ceilDiv n 4 * 4
  let b := deedSigned nonce total s
  let digest := Config.sha384 b
  padTo total (b ++ signatures Config.deviceEcdsaPub Config.deviceMldsaPub digest ++
    match ownerKey s with | none => [] | some k => signatures k.1 k.2 digest)

/-- DEED_REPORT: what it admits. -/
def opDeedReport : OpSpec := { opcode := 0x0D00, observer := true, tenant := true, lengths := fun n => n = 32, reads := true }

/-- DEED_REPORT (Table 20.12). In a FULL session there is no device key (R480). -/
def execDeedReport (q : Request) (s : State) : Answer :=
  runCommand opDeedReport (.deedReport q) q anyBlock (fun _ s =>
    withChecks [chk s.sec.full { status := 9, reason := 0x80 }] s fun s => .ok (deedReport q.params s) s) s

end Sys2Proof.Machine
end

