-- ==== Sys2Proof/Machine/Interfaces.lean ====
section
/-!
DEFINITION. The part's interfaces (R528 to R551): PCIe links and configuration requests, management Ethernet, the board sideband and
JTAG.
-/
namespace Sys2Proof.Machine

/-! ## PCIe (R52, R532) -/

/-- Whether the PCIe endpoint is out of reset: from P1, while a Hearth runs (R553). -/
def endpointRuns (s : State) : Bool := 1 ≤ s.boot.phase && !s.boot.held && !s.boot.lost

/-- Changes the PCIe endpoint. -/
def modPcie (g : Pcie → Pcie) (s : State) : State := { s with pcie := g s.pcie }

/-- PCIE_LINK (R532, R551): the link comes up at a speed in GT/s, 2 standing for 2.5, and a width; or it goes down. (PRESUMED, log 52.) -/
def execPcieLink (up : Bool) (speed width : Nat) (s : State) : Answer :=
  if up && !([2, 5, 8, 16, 32].contains speed && [1, 2, 4, 8].contains width) then .refused (.noSuchObject "PCIe speed or width")
  else if up = s.pcie.up then .next s
  else if up && !endpointRuns s then .next s
  else if up then .next (raiseLead 0x0150 2 1 speed width (modPcie (fun x => { x with up := true, speed, width }) s))
  else .next (raiseLead 0x0150 4 0 0 0 (modPcie (fun x => { x with up := false, speed := 0, width := 0 }) s))

/-- Whether configuration requests get Request Retry Status (R52, R553). -/
def configRetry (s : State) : Bool := s.ns < s.pcie.retryUntil

/-- A dword of configuration space (R532). What the manual leaves to the PCIe specification is open (DESIGN CHOICE, log 40). -/
def configRead (off : Nat) (s : State) : Nat × State :=
  let x := s.pcie
  match off / 4 with
  | 0 => (0x10245747, s)
  | 1 =>
    let d := draw 65536 s
    (d.1 * 65536 + x.command, d.2)
  | 2 => (0x088000A1, s)
  | 4 => (x.bar0 % 2 ^ 32 + 4, s)
  | 5 => (x.bar0 / 2 ^ 32, s)
  | 6 => (0, s)
  | 7 => (0, s)
  | 8 => (0, s)
  | 9 => (0, s)
  | 11 => (0x10245747, s)
  | 15 =>
    let d := draw (2 ^ 32) s
    (d.1 / 65536 * 65536 + d.1 % 256, d.2)
  | _ => draw (2 ^ 32) s

/-- A write of a dword of configuration space: BAR0 takes the address bits of 4 MiB, and Bus Master Enable is bit 2 of the command
register. -/
def configWrite (off value : Nat) (s : State) : State :=
  let v := value % 2 ^ 32
  match off / 4 with
  | 1 => { modPcie (fun x => { x with command := v % 65536 }) s with boot := { s.boot with busMaster := bit v 2 } }
  | 4 => modPcie (fun x => { x with bar0 := x.bar0 / 2 ^ 32 * 2 ^ 32 + v / 2 ^ 22 * 2 ^ 22 }) s
  | 5 => modPcie (fun x => { x with bar0 := v * 2 ^ 32 + x.bar0 % 2 ^ 32 }) s
  | _ => s

/-- PCIE_CONFIGURATION_REQUEST (R52, R83): no request reaches a part in P0. A write of Bus Master Enable lets the replies that wait
be written. (DESIGN CHOICE, log 40.) -/
def execPcieConfigurationRequest (write : Bool) (off value : Nat) (s : State) : Answer :=
  if 4096 ≤ off then .refused (.noSuchObject "configuration register")
  else if !endpointRuns s then .next s
  else if configRetry s then .next (emit (.config 0 true) s)
  else if write then .next (emit (.config 0 false) (configWrite off value s))
  else
    let r := configRead off s
    .next (emit (.config r.1 false) r.2)

/-! ## Management Ethernet (R534, R535) -/

/-- A management port. -/
def mgmtAt (s : State) (p : Nat) : MgmtPort := s.mgmt.getD p {}

/-- Changes a management port. -/
def modMgmt (p : Nat) (g : MgmtPort → MgmtPort) (s : State) : State := { s with mgmt := s.mgmt.set p (g (mgmtAt s p)) }

/-- Whether a management port is open: from P3, with its Hearth in service (R47, R534). -/
def mgmtRuns (s : State) (p : Nat) : Bool :=
  3 ≤ s.boot.phase && !s.boot.held && !s.boot.recovery && !s.boot.lost && (dieAt s p).state ≠ 3

/-- MGMT_LINK (R534, R551). -/
def execMgmtLink (port : Nat) (up : Bool) (s : State) : Answer :=
  if 2 ≤ port then .refused (.noSuchObject "management port")
  else if up = (mgmtAt s port).up || (up && !mgmtRuns s port) then .next s
  else .next (raise 0x0151 port (if up then 2 else 3) port (b2n up) 0 (modMgmt port (fun x => { x with up }) s))

/-- IP_ADDRESS (R535, R551): one IPv4 address, and up to two global IPv6 addresses. -/
def execIpAddress (port : Nat) (v6 : Bool) (addr : Nat) (acquired : Bool) (s : State) : Answer :=
  if 2 ≤ port || (if v6 then 2 ^ 128 else 2 ^ 32) ≤ addr then .refused (.noSuchObject "management port or address")
  else
    let x := mgmtAt s port
    let told (y : MgmtPort) : State := raise 0x0152 port 2 port (if v6 then 6 else 4) (b2n acquired) (modMgmt port (fun _ => y) s)
    if !mgmtRuns s port || (acquired && !x.up) then .next s
    else if v6 then
      if acquired then .next (if addr ∈ x.v6 || 2 ≤ x.v6.length then s else told { x with v6 := x.v6 ++ [addr] })
      else .next (if addr ∈ x.v6 then told { x with v6 := x.v6.filter fun a => a ≠ addr } else s)
    else if acquired then .next (if x.v4 = some addr then s else told { x with v4 := some addr })
    else .next (if x.v4 = some addr then told { x with v4 := none } else s)

/-- The link-local address of a port: modified EUI-64 of its MAC address (R535). -/
def linkLocal (port : Nat) : Nat :=
  let serial := Config.deviceSerial % 2 ^ 40
  0xFE80 * 2 ^ 112 + (if port = 0 then 0x00 else 0x04) * 2 ^ 56 + serial / 2 ^ 24 * 2 ^ 40 + 0xFFFE * 2 ^ 24 + serial % 2 ^ 24

/-- Whether an address is one of a port's. -/
def portHasAddress (s : State) (port : Nat) (v6 : Bool) (addr : Nat) : Bool :=
  let x := mgmtAt s port
  if v6 then addr = linkLocal port || x.v6.contains addr else x.v4 = some addr

/-- MGMT_NEIGHBOUR_REQUEST (R535): kind 0 ARP, 1 NDP, 2 ICMPv4 echo, 3 ICMPv6 echo, for one of the port's own addresses. (PRESUMED, log 52.) -/
def execMgmtNeighbourRequest (port kind addr : Nat) (s : State) : Answer :=
  if 2 ≤ port || 4 ≤ kind then .refused (.noSuchObject "management port or request")
  else
    .next (if mgmtRuns s port && (mgmtAt s port).up && portHasAddress s port (kind % 2 = 1) addr then emit (.neighbour port kind addr) s
      else s)

/-! ## The board sideband (R536 to R538) -/

/-- The ALERT byte (R538). -/
def alertByte (s : State) : Nat :=
  b2n (s.zones.any fun e => 2 ≤ e.2.level) + 2 * b2n (partFailed s) + 4 * b2n (s.porch.latched ≠ 0) + 8 * b2n s.boot.failed

/-- Whether the sideband port serves transfers: from P0 completion, outside a handover (R536). -/
def sidebandServes (s : State) : Bool := endpointRuns s && !s.boot.handover

/-- The hottest reading of a zone class (Table 23.4). -/
def classHottest (s : State) (c : Nat) : Option Int :=
  (s.zones.filter fun e => zoneClass e.1 = c).foldl (fun m e =>
    match m, e.2.reading with
    | some a, some b => some (max a b)
    | none, r => r
    | m, none => m) none

/-- The sideband map (Table 23.4). -/
def sidebandMap (s : State) : Bytes :=
  let phase := b2n s.boot.failed * 128 + b2n (phaseDegraded s) * 64 + b2n s.boot.leadB * 32 + s.boot.phase
  [0x57, 0x47, 0x10, 0x24, 0xA1, phase, s.darn.state, (s.zones.map fun e => e.2.level).foldl max 0].map byteOf ++
  beBytes 8 Config.deviceSerial ++ ((List.range 6).flatMap fun c => tempField (classHottest s c)) ++ beBytes 4 s.power.avg ++
  beBytes 1 s.porch.latched ++ beBytes 1 (alertByte s) ++ zeros 30

/-- SIDEBAND_READ (R537): bytes in sequence from an offset, wrapping at 0x40. (PRESUMED, log 52.) -/
def execSidebandRead (off len : Nat) (s : State) : Answer :=
  .next (if !sidebandServes s then s
  else
    let m := sidebandMap s
    emit (.sideband ((List.range len).map fun i => m.getD ((off + i) % 64) 0)) s)

/-- The sideband port judges ALERT: an interrupt when a bit has gone from 0 to 1 (R538). -/
def judgeAlert (s : State) : State :=
  let a := alertByte s
  let rose := (List.range 4).any fun i => bit a i && !bit s.alerts i
  let s := { s with alerts := a }
  if rose && sidebandServes s then emit (.alert a) s else s

/-! ## JTAG (R478, R541) -/

/-- The instruction that a loaded code acts as (R478, R480, R541): boundary scan always, any other only where debug is open. Which codes a
TRACE unlock opens is not stated (DESIGN CHOICE, log 41). -/
def jtagActs (code : Nat) (s : State) : Nat × State :=
  if [0x00, 0x01, 0x02, 0xFF].contains code || s.sec.lifecycle = 0 || s.sec.full then (code, s)
  else if s.sec.trace then
    let d := draw 2 s
    (if d.1 = 0 then 0xFF else code, d.2)
  else (0xFF, s)

/-- What the data register of an instruction captures (R541): the IDCODE, the one 0 of BYPASS, or what the manual leaves to the pins. -/
def jtagCapture (code : Nat) : Option Nat := if code = 1 then some 0x110244A5 else if code = 0xFF then some 0 else none

/-- LM_RST_N of a module position is low, and LM_LPMODE high, until the module is initialised (R155, R540). -/
def lmHeld (s : State) (m : Nat) : Bool := (tget s.modules m {}).state < 2

/-- JTAG_INSTRUCTION (R541). (DESIGN CHOICE, log 41.) -/
def execJtagInstruction (code : Nat) (s : State) : Answer :=
  if 256 ≤ code then .refused (.noSuchObject "JTAG instruction")
  else
    let r := jtagActs code s
    .next (emit (.jtag r.1 (jtagCapture r.1)) r.2)

end Sys2Proof.Machine
end

