-- ==== Sys2Proof/Machine/Startup.lean ====
section
/-!
DEFINITION. Clocks and their faults (R33 to R39), start-up through P0 to P7 (R44 to R57), discovery (R26 to R28, R552), and the reset
and start-up commands (R61, Table 3.19).
-/
namespace Sys2Proof.Machine

/-! ## Phases (R44, R45) -/

/-- Whether start-up is at work in a phase. -/
def startsIn (p : Nat) (s : State) : Bool := s.boot.phase = p && !s.boot.held && !s.boot.failed && !s.boot.lost

/-- Raises PHASE_ENTERED. -/
def phaseEntered (s : State) (p : Nat) : State := raiseLead 0x0101 1 p (s.boot.entry.getD p 0) 0 s

/-- Enters a phase; the entries for P0 and P1 are recorded at P2 (R44). -/
def enterPhase (p : Nat) (s : State) : State :=
  let s := modBoot (fun b => { b with phase := p, entry := b.entry.set p ((s.ns - b.released) / 1000 % 2 ^ 32) }) s
  if p < 2 then s else phaseEntered s p

/-- Start-up halts with a code of Table 2.4. -/
def haltStart (code : Nat) (s : State) : State :=
  raiseLead 0x0102 5 code s.boot.phase 0 (modBoot (fun b => { b with failed := true, failCode := code }) s)

/-- Domains as LOCKED gives them, from domain numbers of Table 2.1 (Table 2.9). -/
def domainBits (l : List Nat) : Nat := maskOf (l.map (· - 1))

/-! ## Clock faults (R37 to R39) -/

/-- REF_LOST (R37). -/
def execRefLost (s : State) : Answer :=
  .next (if !s.boot.refPresent then s
  else raiseLead 0x0104 4 0 0 0 (modBoot (fun b => { b with refPresent := false, refHoldover := true }) s))

/-- REF_HOLDOVER_EXPIRED (R37): the reference has been absent for 100 ms, and every die but the Porch is held in reset. -/
def execRefHoldoverExpired (s : State) : Answer :=
  .next (if !s.boot.refHoldover || s.boot.held then s
  else
    let r := resetState s
    { r with sec := s.sec, boot := { r.boot with cause := s.boot.cause, held := true, clockHeld := true, released := s.boot.released } })

/-- REF_RETURNED (R37, R43): within 100 ms of its loss the root PLLs relock; later the part performs a warm reset, which a thermal hold that
overlaps it goes on holding. A reference that appears in P0 ends FAIL_CODE REF_ABSENT (R45). -/
def execRefReturned (elapsedUs : Nat) (s : State) : Answer :=
  let back := modBoot (fun b => { b with refPresent := true, refHoldover := false })
  .next (if s.boot.clockHeld then
    if s.boot.thermalHeld = [] then back (warmState (some 28) s)
    else back (modBoot (fun b => { b with clockHeld := false, cause := warmCause (some 28) b.cause }) s)
  else if s.boot.refHoldover then
    if elapsedUs < 100000 then raiseLead 0x0105 2 elapsedUs 0 0 (back s) else back (warmState (some 28) s)
  else if s.boot.phase = 0 && !s.boot.held then
    modBoot (fun b => if b.failCode = 1 then { b with refPresent := true, failed := false, failCode := 0 } else { b with refPresent := true }) s
  else s)

/-- REF_ABSENT (R45): no reference after 10 ms in P0, which keeps waiting. -/
def execRefAbsent (s : State) : Answer := .next (if startsIn 0 s && !s.boot.refPresent then haltStart 1 s else s)

/-- The dies that hold an instance of a clock domain with a PLL of their own (Table 2.1, R34). -/
def domainDies (d : Nat) : List Nat :=
  if d = 0 then [] else if d < 5 then [1 + d] else if d < 7 then [17 + d] else if d < 11 then [d - 5] else if d < 19 then [13 + d] else if d < 21 then [d - 19]
  else if d = 21 then [0, 1, 2, 3, 4, 5] else if d = 22 then [0, 1, 2, 3, 4, 5] ++ (List.range 10).map (22 + ·) else []

/-- PLL_UNLOCK (R38): a fault of the die (R437). In P0 no PLL has locked yet. (DEDUCED, log 55.) -/
def execPllUnlock (die domain : Nat) (s : State) : Answer :=
  if !(domainDies domain).contains die then .refused (.noSuchObject "clock domain of the die")
  else if (!s.boot.refPresent) || s.boot.held || s.boot.phase = 0 then .next s
  else
    let s := modBoot (fun b => { b with unlocked := (b.unlocked ++ [(die, domain)]).eraseDups }) s
    .next (declareFault die 1 (recordFault 0xD 0 die domain (raise 0x0106 die 4 domain 0 0 s)))

/-- PORCH_XTAL_FAIL (R39): the Porch runs on its RC oscillator; the failure is recorded at the next P0. (DEDUCED, log 55.) -/
def execPorchXtalFail (s : State) : Answer :=
  .next (if s.porch.onRc then s
  else modBoot (fun b => { b with porchOnRc := true, unlocked := (b.unlocked ++ [(0, 25)]).eraseDups })
    (modPorch (fun p => { p with onRc := true, xtalFailed := true }) s))

/-- HEARTH_WATCHDOG_EXPIRED (R40): both make a warm reset, one is a Hearth failure. -/
def execHearthWatchdogExpired (hearth : Nat) (s : State) : Answer :=
  if 2 ≤ hearth then .refused (.noSuchObject "Hearth")
  else if s.boot.held then .next s
  else
    let s := modBoot (fun b => { b with watchdogs := b.watchdogs ||| 2 ^ hearth }) s
    .next (if s.boot.watchdogs = 3 then warmReset (some 26) (modBoot (fun b => { b with watchdogs := 0 }) s)
      else failHearth hearth 2 s)

/-! ## P0 and P1 (R44, R53, R55, R57, R58) -/

/-- P1 begins: the PCIe endpoint is enabled, with Request Retry Status for an open time of at most 1 s (R52), in the common-clock mode or,
where PCIE_REFCLK carries no clock, in SRIS mode clocked from REFCLK (R530); and the TRNG's tests start (R58). -/
def enterP1 (pcieRef : Bool) (s : State) : State :=
  let d := draw 1000000001 s
  let s := modPcie (fun x => { x with retryUntil := d.2.ns + d.1, sris := !pcieRef }) d.2
  enterPhase 1 (modBoot (fun b => { b with
    trngState := 1, trngRuns := 0, locked := b.locked ||| domainBits [23] }) s)

/-- The clock domains that lock in P0: all but those of the Windows, PCIe and Ethernet, and the Porch's while it runs on its crystal. -/
def rootDomains : List Nat := [1, 2, 3, 4, 5, 6, 7, 8, 9, 10, 19, 20, 21, 22]

/-- The Porch hands its state to the leading Hearth (R39, R44, R425, R483, R484). -/
def porchHandover (s : State) : State :=
  let s := if s.porch.powered then s else modPorch (fun p => { p with powered := true, stateLost := true }) s
  let s := if s.porch.xtalFailed then raise 0x0107 0 3 0 0 0 (modPorch (fun p => { p with xtalFailed := false }) s) else s
  let p := s.porch
  let s := modBoot (fun b => { b with porchPending := decide (p.latched ≠ 0), porchOnRc := p.onRc }) s
  if p.timeValid then
    modTime (fun t => { t with cal := { t.cal with state := 1, sec := p.secs, ns := 0, frac := 0, fromRc := p.onRc } }) s
  else s

/-- P0_COMPLETE (R44): the leading Hearth's PLL and clock are locked and the handover is done. `pcieRef`: PCIE_REFCLK carries a clock (R530).
(DEDUCED, log 55.) -/
def execP0Complete (pcieRef : Bool) (s : State) : Answer :=
  .next (if s.boot.phase ≠ 0 || s.boot.held || s.boot.lost then s
  else
    let s := porchHandover s
    let s := modBoot (fun b => { b with
      failed := false, failCode := 0, refPresent := true
      locked := domainBits (rootDomains ++ (if s.porch.onRc then [] else [25])) }) s
    enterP1 pcieRef s)

/-- HEARTBEAT_TIMEOUT (R53, R55): Hearth B takes the lead in P0 or P1, before link 0 is trained, and runs P1 itself, also where Hearth A has
failed its watchdog or PLL. A Hearth A in recovery drives the heartbeat (R46). From P2 on the row does nothing: R53 has Hearth B wait in P0
and P1 alone (DEDUCED, log 55). -/
def execHeartbeatTimeout (pcieRef : Bool) (s : State) : Answer :=
  .next (if 1 < s.boot.phase || s.boot.held || s.boot.leadB || s.boot.recovery || (dieAt s 1).state = 3 then s
  else
    let s := if s.boot.phase = 0 then porchHandover s else s
    let s := modBoot (fun b => { b with leadB := true, bLeads := true, lost := false, hearthB := 3, failed := false, failCode := 0, refPresent := true
                                        locked := b.locked ||| domainBits (rootDomains ++ (if s.porch.onRc then [] else [25])) }) s
    enterP1 pcieRef s)

/-! ## Firmware images at P1 (R474 to R476) -/

/-- Whether a device meets the part's geometry (R490). -/
def mountSupported (m : NvMount) : Bool :=
  (m.pageKiB = 2 || m.pageKiB = 4) && (m.capMbit = 1024 || m.capMbit = 2048 || m.capMbit = 4096 || m.capMbit = 8192)

/-- A device as the part takes it: one that answers and does not meet R490 is FAILED. -/
def judgeMount (m : NvMount) : NvMount := if m.state ≠ 0 && !mountSupported m then { m with state := 4 } else m

/-- An image the ROM tries: its source (Table 20.12), what it finds, and the header. -/
def imageTries (copies : List ImageObs) (mounts : List NvMount) (s : State) : List (Nat × Nat × Image) :=
  let usable (d : Nat) : Bool := (mounts[d]?).any fun m => m.state ≠ 0 && m.state ≠ 4
  let try' (k d source : Nat) (known : Option Image) : List (Nat × Nat × Image) :=
    match copies[k]? with
    | none => []
    | some o =>
      let i := known.getD o.image
      let check := if o.check ≠ 0 then o.check else if bit s.sec.revoked i.keySlot then 2 else if i.svn < svnCounter s then 5 else 0
      if usable d then [(source, check, i)] else []
  (if s.fw.pending = 3 then try' 0 0 0 s.fw.pendImage ++ try' 1 1 0 s.fw.pendImage else []) ++
  try' 2 0 1 s.fw.current ++ try' 3 1 2 s.fw.current

/-- Raises the leading Hearth's anti-rollback counter (R476). -/
def raiseSvn (hearth new : Nat) (s : State) : State :=
  let old := if hearth = 0 then s.sec.svnA else s.sec.svnB
  if new ≤ old then s
  else raiseLead 0x0D03 3 hearth old new (modSec (fun c => if hearth = 0 then { c with svnA := new } else { c with svnB := new }) s)

/-- A NAND device as the ROM finds it, by its state and geometry alone (R46, R490). -/
def probeDevice (d : Nat) (m : NvMount) (s : State) : State :=
  modDev d (fun x => { x with
    state := m.state, pageKiB := m.pageKiB, capMbit := m.capMbit, blocks := if m.state = 0 then 0 else m.capMbit * 2 / max 1 m.pageKiB
    readId := m.readId, retired := m.retired }) s

/-- The ROM enters recovery (R46). It writes a new image to the devices that answer, and mounts no store. -/
def enterRecovery (code : Nat) (a b : NvMount) (s : State) : State :=
  modBoot (fun b => { b with recovery := true, mailboxReady := true }) (haltStart code (probeDevice 1 b (probeDevice 0 a s)))

/-! ## The store is mounted at P2 (R496, R503, R505) -/

/-- The boot configuration as the part can read it: every default while the store is unavailable (R505). (DEDUCED, log 13.) -/
def readableCfg (s : State) : Bytes := if storeUp s then bootcfg s else defaultBootcfg

/-- Raises BOOTCFG_DEFAULT when a phase cannot read its fields (R505). (DEDUCED, log 13.) -/
def cfgRead (s : State) : State := if storeUp s then s else raiseLead 0x0E08 4 2 0 0 s

/-- A store formatted empty (R503). -/
def Nv.format (n : Nv) : Nv := { devices := n.devices, nextId := n.nextId }

/-- One device after the mount (R490, R496, R503). -/
def mountDevice (d : Nat) (m : NvMount) (other : NvMount) (s : State) : State :=
  let new := if m.state = 1 && m.fresh && other.state = 1 && !other.fresh then 2 else m.state
  let s := modDev d (fun x => { x with
    pageKiB := m.pageKiB, capMbit := m.capMbit, blocks := if m.state = 0 then 0 else m.capMbit * 2 / max 1 m.pageKiB
    readId := m.readId, retired := m.retired, maxErase := m.maxErase, meanErase := m.meanErase, minErase := m.minErase
    freeManaged := m.freeManaged, resync := if new = 2 then 0 else x.resync, resyncStart := if new = 2 then s.ns else x.resyncStart
    bad := if m.fresh then m.factoryBad else x.bad, jseq := if m.fresh then 0 else x.jseq
    lastPass := if m.fresh then none else x.lastPass, journal := if m.fresh then 0 else x.journal, fails := 0
    refreshed := if m.fresh then [] else x.refreshed }) s
  setDeviceState d new s

/-- Brings the store into service: devices, a transaction that a reset had cut, the BOOT count in a new anchor copy, which brings the
anchors level (R493, R496). -/
def mountStore (a b : NvMount) (s : State) : State :=
  let blank : Bool := [a, b].all fun m => m.fresh || m.state = 0 || m.state = 4
  let s := if blank && (a.fresh || b.fresh) then modNv Nv.format s else s
  let s := mountDevice 1 b a (mountDevice 0 a b s)
  let cut := s.nv.cut
  let s := modNv (fun n => { n with cut := 0, boots := if storeUp s then n.boots + 1 else n.boots }) s
  let s := if storeUp s then anchorWrite s else s
  if cut = 0 || !storeUp s then s
  else raiseLead 0x0E05 2 (lastJseq s) (if cut = 1 then 0xFF else cut - 2) (b2n (cut = 1)) s

/-- What the loss of SYSTEM records leaves of the store (Table 21.5): 1 port settings, 2 tokens, 3 blocks, 4 the certificate and the
wrapped owner key. Record 0, the boot configuration, is R505's. -/
def loseRecords (bad : List Nat) (n : Nv) : Nv :=
  { n with
    portTime := if bad.contains 1 then [] else n.portTime, storedTokens := if bad.contains 2 then [] else n.storedTokens
    storedBlocks := if bad.contains 3 then [] else n.storedBlocks, ownerKey := if bad.contains 4 then none else n.ownerKey }

/-- What P2 loads: the boot configuration's SELF_GID, the block table with every block QUIESCED, and the token table (R74, R251). -/
def loadSystem (badRecords : List Nat) (s : State) : State :=
  let s := modNv (loseRecords badRecords) s
  let s := if storeUp s && badRecords.contains 0 then raiseLead 0x0E08 4 1 0 0 (modNv (fun n => { n with bootcfg := [] }) s) else cfgRead s
  let gid := u32 (readableCfg s) 12
  let blocks : Tbl Nat Block := if storeUp s then s.nv.storedBlocks else []
  let tokens : Tbl Nat Token := if storeUp s then s.nv.storedTokens else []
  { s with
    blocks := blocks.map fun e => (e.1, { e.2 with state := .quiesced, drain := none, drops := 0 })
    maloa := { s.maloa with tokens, selfGidValid := bit gid 31, selfGid := gid % 2 ^ 20 } }

/-- What the Porch and the rails latched before this start, as P2 reports it (R483, R484, R548, Table 19.8). -/
def reportLatched (s : State) : State :=
  let s := if s.porch.stateLost then raiseLead 0x0D32 4 0 0 0 s else s
  let s := if s.porch.latched ≠ 0 then raisePorchAlarm s else s
  let s := if s.porch.railFault ≠ 0 then raiseLead 0x0C11 5 s.porch.railFault 0 0 (modPorch (fun p => { p with railFault := 0 }) s) else s
  s.zones.foldl (fun s e => match e.2.trip with
    | none => s
    | some (k, t) => raiseLead 0x0C02 5 e.1 k (natOfInt 32 t) s) s

/-- The entry of P0 or P1 is recorded as the log becomes available, so these are its first records (R44, R92). -/
def recordEntry (s : State) (p : Nat) : State :=
  logEvent { code := 0x0101, die := leadDie s, severity := 1, arg0 := p, arg1 := s.boot.entry.getD p 0, time := mantel s,
             locked := mantelLocked s } s

/-- P2 begins: the firmware runs, the store is mounted and the mailbox is open. (DEDUCED, log 55.) -/
def enterP2 (a b : NvMount) (badRecords : List Nat) (tried : State → State) (s : State) : State :=
  let s := tried (recordEntry (recordEntry s 0) 1)
  let s := enterPhase 2 (modBoot (fun b => { b with mailboxReady := true }) s)
  reportLatched (loadSystem badRecords (mountStore a b s))

/-- P1_IMAGE_CHECKED (R46, R474 to R476): the ROM runs the first image that verifies, and P2 begins; with none it enters recovery.
`copies`: what it finds of the PENDING slot on devices 0 and 1 and of the CURRENT slot on devices 0 and 1; `badRecords`: the SYSTEM records
that no device reads back good. (DEDUCED, log 51.) -/
def execP1ImageChecked (mounts : List NvMount) (copies : List ImageObs) (badRecords : List Nat) (s : State) : Answer :=
  match mounts.map judgeMount with
  | [a, b] =>
    if !startsIn 1 s then .next s
    else if a.state = 0 && b.state = 0 then .next (enterRecovery 0x12 a b s)
    else
      let all := imageTries copies [a, b] s
      let bad := all.takeWhile fun t => t.2.1 ≠ 0
      let spoilt : Bool := bad.any (fun t => t.1 = 0) && !((all.find? fun t => t.2.1 = 0).any fun t => t.1 = 0)
      let reject (s : State) : State := if spoilt then anchorWrite (modFw (fun f => { f with pending := 4 }) s) else s
      let told (s : State) : State := bad.foldl (fun s t => raiseLead 0x0D02 4 t.1 t.2.1 t.2.2.keySlot s) s
      match all.find? fun t => t.2.1 = 0 with
      | none => .next (enterRecovery (if all.any fun t => t.2.1 = 5 then 0x11 else 0x10) a b (reject s))
      | some (source, _, img) =>
        let s := modFw (fun f => { f with running := img, current := if source = 0 then f.current else some img }) (reject s)
        let hearth := leadCode s
        .next (enterP2 a b badRecords (fun s =>
          let s := raiseLead 0x0D01 1 img.version img.svn source (told s)
          let s := if img.burn then raiseSvn hearth img.svn s else s
          if source = 0 then takeCurrent 0 img s else s) s)
  | _ => .refused (.noSuchObject "two NAND devices")

/-! ## Discovery (R26 to R28, R55, R56, R552) -/

/-- A step of the walk: a position reached over a Seam link, a Cellar, or a link whose far end is known already. -/
inductive WalkStep where
  | assign (far link type : Nat)
  | cellar (far : Nat)
  | serial (link : Nat)
  deriving DecidableEq, Repr

/-- The walk so far: dies in the order found, links trained, and the first failure. -/
structure Walk where
  dies : Tbl Nat DieRec := []
  trained : List Nat := []
  fail : Option (Nat × Nat) := none
  deriving DecidableEq, Repr

/-- The walk of R26, led from Hearth `lead`; one that Hearth B leads probes Hearth A's position last (R55). -/
def walkSteps (lead : Nat) : List WalkStep :=
  let other := 1 - lead
  let hall (h : Nat) : List WalkStep :=
    (List.range 4).map (fun l => .cellar (6 + 4 * h + l)) ++
    ([2 * h, 2 * h + 1].flatMap fun w => [.assign (24 + w) (23 + w) 0x51, .assign (32 + w) (31 + w) 0x61]) ++
    (((List.range 4).filter (· ≠ h)).map fun k => .serial (linkBetween (2 + h) (2 + k))) ++
    [.serial (19 + h), .serial (linkBetween other (2 + h))]
  let hearth : WalkStep := .assign other 0 0x11
  let rest : List WalkStep :=
    (List.range 4).map (fun h => .assign (2 + h) (linkBetween lead (2 + h)) 0x21) ++
    (List.range 2).map (fun m => .assign (22 + m) (linkBetween lead (22 + m)) 0x41) ++
    (List.range 4).flatMap hall ++ (List.range 2).map fun m => .serial (linkBetween other (22 + m))
  if lead = 0 then hearth :: rest else rest ++ [hearth]

/-- The record of a die that answered; `ok`: it passed every check. -/
def foundDie (o : DieObs) (ok : Bool) (state : Nat) : DieRec :=
  { present := o.present, matched := ok, state, typeCode := o.typeCode, serial := o.serial }

/-- One step of the walk. In a walk that Hearth B leads, Hearth A gets STATE 3 also where it answers and passes every check, and one that
fails a check reads as missing, since no die of a passing map reads PRESENT 1 and MATCH 0 (R30, R56; DEDUCED, log 55). -/
def walkStep (obs : List DieObs) (untrained miswired : List Nat) (lead : Nat) (w : Walk) (st : WalkStep) : Walk :=
  let die (d : Nat) : DieObs := obs.getD d { present := false, typeCode := 0, serial := 0 }
  let train (w : Walk) (k : Nat) : Walk := { w with trained := (w.trained ++ [k]).eraseDups }
  let fails (w : Walk) (code id : Nat) : Walk := { w with fail := some (code, id) }
  let put (w : Walk) (d : Nat) (x : DieRec) : Walk := { w with dies := tset w.dies d x }
  if w.fail.isSome then w
  else
    match st with
    | .assign far k type =>
      let o := die far
      let trains : Bool := o.present && !untrained.contains k
      if lead = 1 && far = 0 then
        let w := if trains then train w k else w
        if trains && o.typeCode = 0x11 && !o.strapLow then fails (put w 0 (foundDie o false 0)) 5 0
        else if trains && o.typeCode = 0x11 && !miswired.contains k then put w 0 (foundDie o true 3)
        else put w 0 (foundDie { o with present := false } false 3)
      else if !o.present then fails w 1 far
      else if !trains then fails w 3 (linkEnds k).1
      else if miswired.contains k then fails (train w k) 3 (linkEnds k).1
      else if o.typeCode ≠ type then fails (put (train w k) far (foundDie o false 0)) 2 far
      else if far = 1 && o.strapLow then fails (put (train w k) far (foundDie o false 0)) 5 1
      else put (train w k) far (foundDie o true 1)
    | .cellar far =>
      let o := die far
      if !o.present then fails w 1 far
      else if o.typeCode ≠ 0x31 then fails (put w far (foundDie o false 0)) 2 far
      else put w far (foundDie o true 1)
    | .serial k =>
      let spared : Bool := lead = 1 && (linkEnds k).1 = 0
      if spared then (if (die 0).present && !untrained.contains k then train w k else w)
      else if untrained.contains k then fails w 3 (linkEnds k).1
      else if miswired.contains k then fails (train w k) 3 (linkEnds k).1
      else train w k

/-- The first die in the order of the walk whose serial number an earlier one carries. -/
def duplicateSerial : List Nat → List (Nat × DieRec) → Option Nat
  | _, [] => none
  | seen, (d, x) :: r => if seen.contains x.serial then some d else duplicateSerial (x.serial :: seen) r

/-- The walk to its end, with the check of serial numbers. (DEDUCED, log 55.) -/
def walkAll (obs : List DieObs) (untrained miswired : List Nat) (lead : Nat) : Walk :=
  let own := foundDie (obs.getD lead { present := true, typeCode := 0x11, serial := 0 }) true 1
  let w := (walkSteps lead).foldl (walkStep obs untrained miswired lead) { dies := [(lead, { own with present := true })] }
  if w.fail.isSome then w
  else
    match duplicateSerial [] (w.dies.filter fun e => e.2.matched) with
    | some d => { w with dies := tset w.dies d { (tget w.dies d {}) with matched := false, state := 0 }, fail := some (4, d) }
    | none => w

/-- Whether a link has used a spare, or runs narrow or relayed (Table 1.7). -/
def linkImpaired (s : State) (k : Nat) : Bool :=
  let x := seamAt s k
  x.relayed || (x.low ++ x.high).any fun g => g.spares < 2 || g.half ≠ 0

/-- The digest that a die's sub-image has in the running image, for a die that runs firmware (R475). -/
def subDigest (s : State) (d : Nat) : Option Bytes :=
  let k : Option Nat := if d < 2 then some 0 else if d < 6 then some 1 else if 22 ≤ d && d < 24 then some 2
    else if 24 ≤ d && d < 32 then some 3 else none
  k.map fun k => s.fw.running.digests.getD k []

/-- The digest that a die reports of its sub-image, where it runs firmware. A Hearth verifies the whole image itself (R54). -/
def reportedDigest (s : State) (obs : List DieObs) (d : Nat) : Option Bytes :=
  (subDigest s d).map fun g => if d < 2 then g else (obs[d]?.map (·.digest)).getD []

/-- Dies that reported a digest other than their sub-image's (R475). -/
def mismatched (s : State) (obs : List DieObs) : List Nat :=
  ((s.boot.dies.filter fun e => e.2.state ≠ 3 && reportedDigest s obs e.1 ≠ subDigest s e.1).map (·.1))

/-- A die as it stands once discovery has passed: degraded where one of its links is impaired, with the digest it reports; it runs where
that is its sub-image's. -/
def settleDie (s : State) (obs : List DieObs) (e : Nat × DieRec) : Nat × DieRec :=
  let worn : Bool := (List.range 39).any fun k => ((linkEnds k).1 = e.1 || (linkEnds k).2 = e.1) && linkImpaired s k
  let x := if e.2.state = 1 && worn then { e.2 with state := 2 } else e.2
  match (if x.state = 3 then none else reportedDigest s obs e.1) with
  | some g => (e.1, { x with fw := decide (some g = subDigest s e.1), digest := g })
  | none => (e.1, x)

/-- The sizes of the Cellar partitions from the boot configuration (R293), and why they are not used: 1 range, 2 SPILL. (DEDUCED, log 13.) -/
def cellarSizes (c : Bytes) : Nat × Nat × Nat × Nat :=
  let sh := u16 c 4
  let te := u16 c 6
  let ha := u16 c 8
  if sh < 8 || 32 < sh || te < 2 || 16 < te || 128 < ha then (16, 8, 32, 1)
  else if 256 < 4 + sh + te + ha + 32 then (16, 8, 32, 2)
  else (sh, te, ha, 0)

/-- A zone's limits from the boot configuration, where they are in range (R505, Table 19.10). -/
def limitsFrom (c : Bytes) (z : Nat) (d : Nat × Nat × Nat) : Nat × Nat × Nat :=
  let r := 52 + 4 * z
  let v := (u8 c (r + 1), u8 c (r + 2), u8 c (r + 3))
  if 40 ≤ v.1 && v.1 + 3 ≤ v.2.1 && v.2.1 + 3 ≤ v.2.2 && v.2.2 ≤ maxShutdown z then v else d

/-- P3 begins: partition sizes and thermal limits are loaded, Hearth B is loaded (R44, R54, R293). -/
def enterP3 (s : State) : State :=
  let s := cfgRead (enterPhase 3 s)
  let c := readableCfg s
  let z := cellarSizes c
  let s := { s with cellar := { s.cellar with shadowUnits := z.1, telemetryUnits := z.2.1, hamperUnits := z.2.2.1 } }
  let s := if z.2.2.2 = 0 then s else (List.range 4).foldl (fun s h => raise 0x1019 (hallDie h) 3 h z.2.2.2 0 s) s
  let s := modPower (fun w => { w with limits := w.limits.zipIdx.map fun e => limitsFrom c e.2 e.1 }) s
  if s.boot.leadB || s.boot.hearthB = 4 then s else setStandby false 1 s

/-- A link that did not train in discovery has no group in service (R28). -/
def seamUntrained (s : State) (k : Nat) : State :=
  let out (g : SeamGroup) : SeamGroup := { g with half := 3 }
  if 39 ≤ k then s else modSeam k (fun x => { x with low := x.low.map out, high := x.high.map out }) s

/-- DISCOVERY_DONE (R26 to R28): the walk as the dies answered it, with the links that did not train and those that ended at a wrong
die. A link whose lanes have left it no group in service has not trained either. A die already declared faulty stays out of service, and
one whose sub-image does not match is a failed die of its kind, under no condition of Table 18.2 (R475; DEDUCED, log 50). -/
def execDiscoveryDone (dies : List DieObs) (untrained miswired : List Nat) (s : State) : Answer :=
  if dies.length ≠ 40 then .refused (.noSuchObject "40 die positions")
  else if !startsIn 2 s || s.boot.discDone then .next s
  else
    let untrained := untrained ++ (List.range 39).filter fun k => !seamUp s k
    let w := walkAll dies untrained miswired (leadCode s)
    let r := w.fail.getD (0, 0)
    let known := w.dies.map fun e => if (dieAt s e.1).state = 3 then (e.1, { e.2 with state := 3 }) else e
    let s := modBoot (fun b => { b with
      dies := known, discDone := true, discCode := r.1, discFirst := r.2, discLinks := w.trained.length })
      (untrained.foldl seamUntrained s)
    if w.fail.isSome then .next (haltStart 0x20 (raiseLead 0x0103 5 r.1 r.2 w.trained.length s))
    else
      let wrong := mismatched s dies
      .next (wrong.foldl (fun s d => declareFault d 0 s) (enterP3 (modBoot (fun b => { b with dies := b.dies.map (settleDie s dies) }) s)))

/-! ## P3 to P7 -/

/-- A row spared in P3 (R302, R307). -/
def spareInP3 (s : State) (r : Nat × Nat × Nat × Nat) : State :=
  let k : RowKey := r.2
  if !isCellar r.1 then s
  else
    let s := modCellar r.1 (fun x => { x with spared := (x.spared ++ [k]).eraseDups }) s
    let used := ((cellarDie s r.1).spared.filter fun j => j.1 = k.1 && j.2.1 = k.2.1).length
    let o := k.1 * 2 ^ 24 + k.2.1 * 2 ^ 16 + k.2.2
    count 0xC r.1 0 1 (recordFault 8 1 r.1 o (raise 0x1012 (hallDie (hallOfCellar r.1)) 2 r.1 o (128 - used) s))

/-- A chunk marked and put on its channel's spare in P3 (R303, R307). -/
def chunkInP3 (s : State) (c : Nat × Nat × Nat) : State :=
  let o := c.2.1 * 256 + c.2.2
  let h := hallDie (hallOfCellar c.1)
  if !isCellar c.1 || 32 ≤ c.2.1 then s
  else
    let s := count 0xC c.1 1 1 (recordFault 8 1 c.1 o (raise 0x1010 h 3 c.1 o 0 s))
    if ((cellarDie s c.1).channel c.2.1).spareUsed then modChannel c.1 c.2.1 (fun x => { x with marked := some c.2.2 }) s
    else count 0xC c.1 2 1 (raise 0x1011 h 2 c.1 o 0 (modChannel c.1 c.2.1 (fun x => { x with spareUsed := true }) s))

/-- Whether what the test found goes past the spares: a third chunk of one channel, which would fail it, or more rows of a bank than its
128 spares (R304, R307). -/
def pastSpares (rows : List (Nat × Nat × Nat × Nat)) (chunks : List (Nat × Nat × Nat)) : Bool :=
  chunks.any (fun c => 2 < ((chunks.filter fun x => x.1 = c.1 && x.2.1 = c.2.1).eraseDups).length) ||
  rows.any fun r => 128 < ((rows.filter fun x => x.1 = r.1 && x.2.1 = r.2.1 && x.2.2.1 = r.2.2.1).eraseDups).length

/-- P3_COMPLETE (R44, R307): every Cellar is trained and tested, and P4 begins with the bring-up of every Window; or a Cellar halts
start-up with code 0x30 or 0x31. `rows` and `chunks` are what the test repaired: die, channel, bank and row; die, channel and chunk. (DEDUCED, log 55.) -/
def execP3Complete (halt : Nat) (rows : List (Nat × Nat × Nat × Nat)) (chunks : List (Nat × Nat × Nat)) (s : State) : Answer :=
  if !(halt = 0 || halt = 0x30 || halt = 0x31) then .refused (.noSuchObject "start-up failure code")
  else if !startsIn 3 s then .next s
  else
    let s := chunks.foldl chunkInP3 (rows.foldl spareInP3 s)
    let halt := if halt = 0 && pastSpares rows chunks then 0x31 else halt
    if halt ≠ 0 then .next (haltStart halt s)
    else
      let s := modBoot (fun b => { b with locked := b.locked ||| domainBits ((List.range 8).map (11 + ·)) }) (enterPhase 4 s)
      .next (((List.range 8).filter fun w => !windowOut (windowAt s w)).foldl (fun s w => startBringUp w false s) s)

/-- P4_COMPLETE (R44, R49): every Window is in service or declared out of service, and P5 begins; with none in service start-up
halts. -/
def execP4Complete (s : State) : Answer :=
  let ws := (List.range 8).map (windowAt s)
  .next (if !startsIn 4 s || ws.any (fun w => !w.inService && !windowOut w) then s
  else if ws.all fun w => !w.inService then haltStart 0x40 s
  else enterPhase 5 s)

/-- The Mantel settings of the boot configuration, each field at its default where it is out of range (R505, Table 17.18). -/
def mantelFrom (c : Bytes) (t : Time) : Time :=
  let p := c.drop 16
  { t with
    master := u8 p 1 = 1, gmPriority := u8 p 2
    interval := if u16 p 4 = 0 || 1000 < u16 p 4 then 16 else u16 p 4
    stepLimit := if u32 p 8 < 64 || 1000000 < u32 p 8 then 1000 else u32 p 8 }

/-- The Darning settings of the boot configuration, each field at its default where it is out of range (R505, Table 18.5). -/
def darningFrom (c : Bytes) (d : Darn) : Darn :=
  let p := c.drop 28
  let x := setDarning p d
  let pick (lo hi v dflt : Nat) : Nat := if v < lo || hi < v then dflt else v
  { x with
    interval := pick 10 1000 x.interval 100, silentLimit := pick 2 16 x.silentLimit 4, flapCount := pick 2 255 x.flapCount 4
    maskHold := pick 50 800 x.maskHold 300, restoreHold := pick 1 10000 x.restoreHold 100
    flapWindow := pick 1 3600 x.flapWindow 60, flapHold := pick 1 86400 x.flapHold 600 }

/-- P6 begins: Mantel and Darning take their stored settings, VC6 and VC7 are credited, and the Mantel sources are ranked (R44, R48). -/
def enterP6 (s : State) : State :=
  let s := cfgRead (enterPhase 6 s)
  let c := readableCfg s
  let s := modDarn (darningFrom c) (modTime (mantelFrom c) s)
  let s := if storeUp s then
      s.nv.portTime.foldl (fun s e => modMantelPort e.1 (fun m => { m with
        asym := signedOf 32 (e.2 / 256), exclude := bit e.2 0 }) s) s
    else s
  advertise (rankSources (raiseGrants [6, 7] s))

/-- The boot snapshot's items go live, when it may be used (R50, R244): what it is rejected for, or none. -/
def bootRejected (n : Snapshot) (obs : NvReadObs) (digestBad : Bool) (s : State) : Option Nat :=
  if nvLost obs s then some 2 else if digestBad then some 1 else if namesOutOfService s n then some 3 else none

/-- P5_COMPLETE (R50): the tables are loaded from the boot snapshot, or left empty, and P6 begins. `obs` and `digestBad` are how the
snapshot reads back. -/
def execP5Complete (obs : NvReadObs) (digestBad : Bool) (s : State) : Answer :=
  .next (if !startsIn 5 s then s
  else
    let s := cfgRead s
    let d := field (readableCfg s) 76 8
    let reject (why : Nat) (s : State) : State := raiseLead 0x0362 3 (d % 2 ^ 32) (d / 2 ^ 32) why s
    let s :=
      if s.boot.emptyTables || d = 0 then s
      else
        match snapshotAt s d with
        | none => reject 4 s
        | some n =>
          let why := bootRejected n obs digestBad s
          let s := nvReadEffects 6 n.content.length obs s
          match why with
          | some why => reject why s
          | none =>
            layItems { handle := 0, token := 0, route := 0, idle := 0, device := true, latchkey := 0, lastNamed := s.ns,
                       items := snapshotDiff s n } s
    enterP6 (modBoot (fun b => { b with emptyTables := false }) s))

/-- P7 begins: forwarding is enabled on every VC, and Darning advertises READY, unless a Hall has failed (R44, R48, R439, Table 18.3). -/
def enterP7 (s : State) : State :=
  let s := raiseGrants [0, 1, 2, 3, 4, 5] (enterPhase 7 s)
  let s := modDarn (fun d => { d with testDue := d.testPeriods.map fun t => s.ns + t * second }) s
  if partFailed s then s else setPartState 1 1 s

/-- P6_COMPLETE (R44): the Mantel counter is MASTER or LOCKED. -/
def execP6Complete (s : State) : Answer := .next (if startsIn 6 s && mantelLocked s then enterP7 s else s)

/-- MANTEL_FREE_RUN (R51): no Mantel source has been heard within 2 s of P6 entry. -/
def execMantelFreeRun (s : State) : Answer :=
  .next (if startsIn 6 s && s.time.state = .freeRun && !s.time.master then enterP7 (raiseLead 0x0A05 3 0 0 0 s) else s)

/-- HEARTH_B_STANDBY_READY (R54, R476): the other Hearth runs the verified image and has copied the leader's state. The lower
anti-rollback counter is raised to the other. -/
def execHearthBStandbyReady (s : State) : Answer :=
  .next (if s.boot.phase < 3 || s.boot.held || s.boot.lost || s.boot.standbyReady || s.boot.handover ||
      (dieAt s (standbyDie s)).state = 3 || [2, 3, 6].contains s.fw.step then s
  else
    let s := raiseSvn 0 (svnCounter s) (raiseSvn 1 (svnCounter s) s)
    advertise (copyCounters (setStandby true 2 s)))

/-! ## Registers (Tables 2.6 to 2.10) -/

/-- PHASE (Table 2.6). WINDOWS_UP is valid from P5; in P4 it is open. (DEDUCED, log 55.) -/
def phaseReg (s : State) : Nat × State :=
  let ups := maskOf ((List.range 8).filter fun w => (windowAt s w).inService)
  let d := draw 256 s
  let w : Nat × State := if s.boot.phase = 4 then d else (if 5 ≤ s.boot.phase then ups else 0, s)
  (b2n s.boot.failed * 2 ^ 31 + b2n s.boot.mailboxReady * 2 ^ 30 + b2n (phaseDegraded s) * 2 ^ 29 + b2n s.boot.leadB * 2 ^ 28 +
    s.boot.phase * 2 ^ 24 + s.boot.failCode * 2 ^ 16 + w.1 * 2 ^ 8 + s.boot.hearthB * 2 ^ 4, w.2)

/-- RESET_CAUSE (Table 2.7). -/
def causeReg (s : State) : Nat := s.boot.cause + b2n (s.boot.porchPending && s.porch.latched ≠ 0) * 2 ^ 25

/-- TRNG_STAT (Table 2.8). -/
def trngReg (s : State) : Nat := s.boot.trngState * 2 ^ 30 + min 15 s.boot.trngRuns * 2 ^ 24 + s.boot.trngRetests

/-- Whether a die counts as in service for LOCKED: an EIC while its Window has not been declared out, another die until STATE 3. -/
def clockCounts (s : State) (d : Nat) : Bool :=
  (dieAt s d).state ≠ 3 && !(24 ≤ d && windowOut (windowAt s ((d - 24) % 8)))

/-- LOCKED (Table 2.9): the domains that have locked and of which no die in service holds an instance that has lost lock. -/
def lockedReg (s : State) : Nat :=
  let started := s.boot.locked ||| (if s.mgmt.any (·.up) then domainBits [24] else 0)
  maskOf ((setBits 25 started).filter fun i => !(s.boot.unlocked.any fun e => e.2 = i + 1 && clockCounts s e.1))

/-- CLOCK_STAT (Table 2.9). -/
def clockReg (s : State) : Nat :=
  b2n s.boot.refPresent * 2 ^ 31 + b2n s.boot.refHoldover * 2 ^ 30 + b2n s.boot.porchOnRc * 2 ^ 29 + lockedReg s

/-! ## Commands (Tables 2.11 to 2.13, 3.19) -/

/-- DEVICE_RESET: what it admits. -/
def opDeviceReset : OpSpec := { opcode := 0x0120, lengths := fun n => n = 4 }

/-- DEVICE_RESET (Table 2.11): the reply goes first, and WARM_RESET follows. A second one before the reset gets no reply. (DEDUCED, log 55.) -/
def execDeviceReset (q : Request) (s : State) : Answer :=
  if s.boot.resetPending then .next (takeArrival q.src (fun b => u16 b 2 = q.tag) s)
  else
    runCommand opDeviceReset (.deviceReset q) q anyBlock (fun _ s =>
      withChecks [chk (u8 q.params 0 ≠ 1) (badParam 3 0)] s fun s =>
        .ok [] (modBoot (fun b => { b with resetPending := true, emptyTables := bit (u8 q.params 1) 0 }) s)) s

/-- RESET_CAUSE_CLEAR: what it admits. -/
def opResetCauseClear : OpSpec := { opcode := 0x0121, lengths := fun n => n = 4 }

/-- RESET_CAUSE after a clear (Table 2.12). -/
def clearCause (mask cause : Nat) : Nat :=
  maskOf ((setBits 6 (cause / 2 ^ 26)).filter fun i => !bit mask (26 + i)) * 2 ^ 26 + (if mask % 65536 = 0 then cause % 65536 else 0)

/-- RESET_CAUSE_CLEAR (Table 2.12). -/
def execResetCauseClear (q : Request) (s : State) : Answer :=
  runCommand opResetCauseClear (.resetCauseClear q) q anyBlock (fun _ s =>
    let s := modBoot (fun b => { b with cause := clearCause (u32 q.params 0) b.cause }) s
    .ok (beBytes 4 (causeReg s)) s) s

/-- STARTUP_READ: what it admits. -/
def opStartupRead : OpSpec := { opcode := 0x0122, observer := true, tenant := true, lengths := fun n => n = 0, reads := true }

/-- STARTUP_READ (Table 2.13). -/
def execStartupRead (q : Request) (s : State) : Answer :=
  runCommand opStartupRead (.startupRead q) q anyBlock (fun _ s =>
    let r := phaseReg s
    .ok (wordBytes ([r.1, causeReg s, trngReg s, clockReg s] ++ s.boot.entry)) r.2) s

/-- DEVICE_INFO: what it admits. -/
def opDeviceInfo : OpSpec := { opcode := 0x0100, observer := true, tenant := true, lengths := fun n => n = 0, reads := true }

/-- DEVICE_INFO (Table 3.19). -/
def execDeviceInfo (q : Request) (s : State) : Answer :=
  runCommand opDeviceInfo (.deviceInfo q) q anyBlock (fun _ s =>
    let img : Image := if s.boot.recovery then {} else s.fw.running
    .ok (beBytes 2 0x5747 ++ beBytes 2 0x1024 ++ beBytes 1 0xA1 ++ beBytes 1 (leadCode s) ++ zeros 2 ++ beBytes 8 Config.deviceSerial ++
      beBytes 4 img.version ++ beBytes 4 img.svn ++ beBytes 2 64 ++ beBytes 2 4080 ++
      beBytes 4 (b2n s.maloa.selfGidValid * 2 ^ 31 + s.maloa.selfGid)) s) s

end Sys2Proof.Machine
end

