-- ==== Sys2Proof/Machine/Bar0.lean ====
section
/-!
DEFINITION. BAR0 as a whole (R5 to R9, R533, R553): what each register reads as, and what a write of it does.
-/
namespace Sys2Proof.Machine

/-! ## What each register reads as -/

/-- DIE_STAT of a die (Table 1.7). Discovery writes it; until then every field is at its reset value (R30). -/
def dieStat (s : State) (d : Nat) : Nat :=
  let x := dieAt s d
  b2n x.present * 2 ^ 31 + b2n x.matched * 2 ^ 30 + x.state * 2 ^ 28 + x.typeCode * 2 ^ 16 + (if s.boot.discDone then min 255 (dieSpares s d) else 0) * 2 ^ 8

/-- DISC_RESULT (Table 1.8). -/
def discResult (s : State) : Nat :=
  b2n s.boot.discDone * 2 ^ 31 + s.boot.discCode * 2 ^ 16 + s.boot.discFirst * 2 ^ 8 + s.boot.discLinks

/-- Whether an offset lies in the MSI-X table or the PBA (Table 23.3, R533). (PRESUMED, log 52.) -/
def isMsix (off : Nat) : Bool := (0x8000 ≤ off && off < 0x8040) || (0x9000 ≤ off && off < 0x9008)

/-- A word of the MSI-X table or the PBA. A vector is masked until the host clears its mask bit (R533, the PCIe rules). (PRESUMED, log 52.) -/
def msixWord (s : State) (off : Nat) : Nat := tget s.pcie.msix off (b2n (off < 0x9000 && off % 16 = 12))

/-- The mailbox registers (Tables 3.8 to 3.13). -/
def mailboxRegister (o : Nat) (s : State) : Nat :=
  let m := s.maloa
  match o with
  | 0x00 => m.rplLog2 * 2 ^ 12 + m.reqLog2 * 2 ^ 8 + b2n m.rplIrqEn * 4 + b2n m.enable
  | 0x04 => b2n (m.waiting ≠ []) * 2 ^ 30 + m.err * 2 ^ 16 + outstandingOf .pcie s
  | 0x08 => m.reqBaseLo
  | 0x0C => m.reqBaseHi
  | 0x10 => m.rplBaseLo
  | 0x14 => m.rplBaseHi
  | 0x18 => m.reqHead * 2 ^ 16 + m.reqTail
  | 0x1C => m.rplTail * 2 ^ 16 + m.rplHead
  | _ => 0

/-- The registers of the table command engine (Tables 9.3 to 9.7). TCE_CTRL holds PIPE to TABLE in bits 19:8. -/
def tceRegister (o : Nat) (s : State) : Nat :=
  let t := s.setup.tce
  match o with
  | 0x00 => t.ctrl
  | 0x04 => t.index
  | 0x08 => t.handle
  | 0x0C => b2n t.busy * 2 ^ 31 + b2n t.done * 2 ^ 30 + b2n t.matched * 2 ^ 29 + b2n t.overrun * 2 ^ 28 + t.status * 2 ^ 16 +
      t.reason * 2 ^ 8
  | _ =>
    if 0x100 ≤ o && o < 0x1A4 then t.data.getD ((o - 0x100) / 4) 0
    else if 0x200 ≤ o && o < 0x2A4 then t.cmp.getD ((o - 0x200) / 4) 0
    else 0

/-- TIME_STAT (Table 17.12). -/
def timeStat (s : State) : Nat :=
  let t := s.time
  t.state.code * 2 ^ 28 + t.cal.state * 2 ^ 24 + t.cal.source * 2 ^ 22 + b2n t.cal.fromRc * 2 ^ 21 + depthNow s * 2 ^ 12 +
    t.upstream.getD 0x7FF

/-- A word of the oldest transmit timestamp (Table 17.15). -/
def tsWord (s : State) (n : Nat) : Nat :=
  match s.time.ts with
  | [] => 0
  | e :: _ =>
    match n with
    | 0 => 2 ^ 31 + e.port * 2 ^ 24 + e.msgType * 2 ^ 16 + e.id
    | 1 => e.sec % 2 ^ 32
    | 2 => e.sec / 2 ^ 32
    | 3 => e.ns
    | _ => e.frac * 2 ^ 16

/-- The registers of the time region, without the latching of a read (Tables 17.5 to 17.15). -/
def timeRegister (o : Nat) (s : State) : Nat :=
  let t := s.time
  match o with
  | 0x00 => t.count % 2 ^ 32
  | 0x04 => t.latchMantelHi
  | 0x08 => t.latchMantelFrac * 2 ^ 16 + t.latchCalFrac
  | 0x10 => t.cal.ns
  | 0x14 => t.latchCalSec % 2 ^ 32
  | 0x18 => t.latchCalSec / 2 ^ 32
  | 0x20 => legacyView s % 2 ^ 32
  | 0x24 => t.latchLegHi
  | 0x28 => t.legOffsetLo
  | 0x2C => t.legOffsetHi
  | 0x30 => t.legRate
  | 0x40 => timeStat s
  | 0x44 => t.stepPending
  | 0x50 => b2n t.tsIrqEn * 2 ^ 8
  | 0x54 => t.tsOvf * 2 ^ 16 + t.ts.length
  | _ => if 0x58 ≤ o && o < 0x6C then tsWord s ((o - 0x58) / 4) else 0

/-- The event log registers and window (Tables 3.15 to 3.17, R94). -/
def eventRegister (o : Nat) (s : State) : Nat :=
  match o with
  | 0x00 => b2n s.ev.irqEn * 2 ^ 7 + s.ev.irqLevel
  | 0x04 => b2n s.ev.irq * 2 ^ 31 + s.ev.lossCount
  | 0x08 => newestSeq s % 2 ^ 32
  | 0x0C => s.ev.newestHi
  | _ =>
    if 0x8000 ≤ o then
      match (lastOf 1024 s.ev.log).find? fun r => r.seq % 1024 = (o - 0x8000) / 32 with
      | none => 0
      | some r => r.words.getD ((o - 0x8000) % 32 / 4) 0
    else 0

/-- A register of BAR0, by its aligned offset (R533); a reserved offset reads 0 (R7). -/
def bar0Register (off : Nat) (s : State) : Nat × State :=
  let o := off % 65536
  match off / 65536 with
  | 0 => (if 0x400 ≤ o && o < 0x4A0 then dieStat s ((o - 0x400) / 4) else if o = 0x4A0 then discResult s
          else if isMsix o then msixWord s o else 0, s)
  | 1 => (mailboxRegister o s, s)
  | 2 => (tceRegister o s, s)
  | 3 => (timeRegister o s, s)
  | 4 => (ctrRegister o s, s)
  | 5 => (eventRegister o s, s)
  | 6 =>
    if o = 0 then phaseReg s
    else (if o = 4 then causeReg s else if o = 8 then trngReg s else if o = 0xC then clockReg s
          else if 0x10 ≤ o && o < 0x30 then s.boot.entry.getD ((o - 0x10) / 4) 0 else 0, s)
  | 7 => ((porchMirror s).getD (o / 4) 0, s)
  | _ => (0, s)

/-- What a read of a register latches (R94, R432). -/
def readLatches (off : Nat) (s : State) : State :=
  match off with
  | 0x30000 => modTime (fun t => { t with latchMantelHi := t.count / 2 ^ 32, latchMantelFrac := t.frac }) s
  | 0x30010 => modTime (fun t => { t with latchCalSec := t.cal.sec, latchCalFrac := t.cal.frac }) s
  | 0x30020 => let l := legacyView s; modTime (fun t => { t with latchLegHi := l / 2 ^ 32 }) s
  | 0x50008 => { s with ev := { s.ev with newestHi := newestSeq s / 2 ^ 32 } }
  | _ => s

/-- The bits of a register that a set of byte enables covers. -/
def enabledBits (enables value : Nat) : Nat :=
  ((List.range 4).map fun b => if bit enables b then bitsOf value (8 * b + 7) (8 * b) * 2 ^ (8 * b) else 0).sum

/-! ## What a write does -/

/-- Changes the mailbox registers. -/
def modMbx (g : Maloa → Maloa) (s : State) : State := { s with maloa := g s.maloa }

/-- A write of a mailbox register (R83, R85). -/
def writeMailbox (o v : Nat) (s : State) : State :=
  let base (g : Maloa → Maloa) : State := if s.maloa.enable then s else modMbx g s
  match o with
  | 0x00 => writeMbxCtrl v s
  | 0x08 => base fun m => { m with reqBaseLo := v / 4096 * 4096 }
  | 0x0C => base fun m => { m with reqBaseHi := v }
  | 0x10 => base fun m => { m with rplBaseLo := v / 4096 * 4096 }
  | 0x14 => base fun m => { m with rplBaseHi := v }
  | 0x18 => testIndices true false (modMbx (fun m => { m with reqTail := v % 65536 }) s)
  | 0x1C => testIndices false true (modMbx (fun m => { m with rplHead := v % 65536 }) s)
  | _ => s

/-- A write of TCE_CTRL: START runs the operation, a reserved OP ends it with BAD_PARAM (Table 9.3). -/
def writeTceCtrl (v : Nat) (s : State) : Answer :=
  if !bit v 31 then .next (modTce (fun t => { t with ctrl := bitsOf v 19 8 * 256 + v % 8 }) s)
  else
    match v % 8 with
    | 1 => execTceRead v false s
    | 2 => execTceWrite v s
    | 3 => execTceCompareWrite v false s
    | 4 => execTceClearAge v s
    | _ => tceStart v (fun s => ({ refuse := badParam 3 0 }, s)) s

/-- A write of a table engine register other than TCE_CTRL (Tables 9.4 to 9.7). -/
def writeTce (o v : Nat) (s : State) : State :=
  modTce (fun t =>
    match o with
    | 0x04 => { t with index := v % 2 ^ 20 }
    | 0x08 => { t with handle := v }
    | 0x0C => { t with done := t.done && !bit v 30, overrun := t.overrun && !bit v 28 }
    | _ =>
      if 0x100 ≤ o && o < 0x1A4 then { t with data := lset t.data ((o - 0x100) / 4) v }
      else if 0x200 ≤ o && o < 0x2A4 then { t with cmp := lset t.cmp ((o - 0x200) / 4) v }
      else t) s

/-- A write of a register of the time region (Tables 17.10 to 17.14). -/
def writeTime (o v : Nat) (s : State) : State :=
  match o with
  | 0x28 => modTime (fun t => { t with legOffset := t.legOffsetHi * 2 ^ 32 + v, legBase := t.raw }) s
  | 0x2C => modTime (fun t => { t with legOffsetHi := v }) s
  | 0x30 => modTime (fun t => { t with legOffset := legacyView s, legBase := t.raw, legRate := v }) s
  | 0x44 => modTime (fun t => { t with stepPending := maskOf ((setBits 4 t.stepPending).filter fun g => !bit v g) }) s
  | 0x50 => modTime (fun t => { t with
      tsIrqEn := bit v 8, tsOvf := if bit v 1 then 0 else t.tsOvf, ts := if bit v 0 then t.ts.drop 1 else t.ts }) s
  | _ => s

/-- A write of a counter window register (Tables 22.3 to 22.6). -/
def writeCtr (o v : Nat) (s : State) : State :=
  match o with
  | 0x00 => modCtr (fun w => { w with scope := bitsOf v 31 24, first := bitsOf v 23 16, count := v % 128 }) s
  | 0x04 => modCtr (fun w => { w with inst := v % 2 ^ 24 }) s
  | 0x08 => if bit v 31 then startCapture (bit v 30) s else s
  | 0x0C => modCtr (fun w => { w with done := w.done && !bit v 30, overrun := w.overrun && !bit v 29 }) s
  | _ => s

/-- A write of an event log register (Tables 3.15 and 3.16). -/
def writeEvent (o v : Nat) (s : State) : State :=
  match o with
  | 0x00 => setIrq s.ev.irq (bit v 7) (v % 8) s
  | 0x04 => setIrq (s.ev.irq && !bit v 31) s.ev.irqEn s.ev.irqLevel s
  | _ => s

/-- RESET_CAUSE after a write of its RWS fields, which no write clears (Tables 0.3 and 2.7). -/
def stickyCause (v cause : Nat) : Nat :=
  (bitsOf cause 31 26 ||| bitsOf v 31 26) * 2 ^ 26 + (if v % 65536 = 0 then cause % 65536 else v % 65536)

/-- BAR0_REGISTER_WRITE (R7, R8, R553): an aligned 32-bit write acts on each field by its access type. (DESIGN CHOICE, log 15.) (DEDUCED, log 57.) -/
def execBar0RegisterWrite (off value : Nat) (s : State) : Answer :=
  let v := value % 2 ^ 32
  let o := off % 65536
  if off % 4 ≠ 0 || 0x400000 ≤ off then .refused (.noSuchObject "BAR0 register")
  else if isMsix off then .next (if endpointRuns s && off < 0x9000 then modPcie (fun p => { p with msix := tset p.msix off v }) s else s)
  else if off = 0x20000 && bit v 31 then writeTceCtrl v s
  else
    bar0Write off (fun s =>
      match off / 65536 with
      | 1 => .next (writeMailbox o v s)
      | 2 => if o = 0 then writeTceCtrl v s else .next (writeTce o v s)
      | 3 => .next (writeTime o v s)
      | 4 => .next (writeCtr o v s)
      | 5 => .next (writeEvent o v s)
      | 6 => .next (if o = 4 then modBoot (fun b => { b with cause := stickyCause v b.cause }) s else s)
      | _ => .next s) s

/-- BAR0_SUBWORD_ACCESS (R6): a read returns the addressed bytes of the enclosing register, and a write that does not enable all
four bytes is discarded and recorded. `enables` are the byte enables of the enclosing register. A partial access of the MSI-X
structures follows the PCIe rules, by which a partial write leaves the word open. (DEDUCED, log 17.) -/
def execBar0SubwordAccess (write : Bool) (off enables : Nat) (s : State) : Answer :=
  let reg := off / 4 * 4
  if 0x400000 ≤ off || 16 ≤ enables || (write && enables = 15) then .refused (.noSuchObject "BAR0 access")
  else if !endpointRuns s then .next s
  else if write then
    if isMsix off then
      let d := draw (2 ^ 32) s
      .next (if off < 0x9000 then modPcie (fun p => { p with msix := tset p.msix reg d.1 }) d.2 else s)
    else bar0Write off (fun s => .next (raiseLead 0x0120 3 off enables 0 s)) s
  else
    let shown : Bool := bar0Takes s off || off / 65536 = 0 || off / 65536 = 6
    let s := if bar0Takes s off then countBar0 0 off s else s
    if shown then
      let r := bar0Register reg s
      .next (emit (.bar0 off (enabledBits enables r.1)) (readLatches reg r.2))
    else .next (emit (.bar0 off 0) s)

end Sys2Proof.Machine
end

