-- ==== Sys2Proof/Machine/Dispatch.lean ====
section
/-!
DEFINITION. One arm per constructor of Instr: the meaning each command has.
-/
namespace Sys2Proof.Machine

def exec (i : Instr) (s : State) : Host.Outcome State Fault Refusal :=
  match i with
  | .deviceReset q => Sys2Proof.Machine.execDeviceReset q s
  | .resetCauseClear q => Sys2Proof.Machine.execResetCauseClear q s
  | .startupRead q => Sys2Proof.Machine.execStartupRead q s
  | .dieMapRead q => Sys2Proof.Machine.execDieMapRead q s
  | .seamLinkRead q => Sys2Proof.Machine.execSeamLinkRead q s
  | .deviceInfo q => Sys2Proof.Machine.execDeviceInfo q s
  | .echo q => Sys2Proof.Machine.execEcho q s
  | .tokenSet q => Sys2Proof.Machine.execTokenSet q s
  | .tokenClear q => Sys2Proof.Machine.execTokenClear q s
  | .tokenRead q => Sys2Proof.Machine.execTokenRead q s
  | .selfGidSet q => Sys2Proof.Machine.execSelfGidSet q s
  | .eventRead q => Sys2Proof.Machine.execEventRead q s
  | .linkWeightsSet q => Sys2Proof.Machine.execLinkWeightsSet q s
  | .linkStatusRead q => Sys2Proof.Machine.execLinkStatusRead q s
  | .linkRetrain q => Sys2Proof.Machine.execLinkRetrain q s
  | .portConfig q => Sys2Proof.Machine.execPortConfig q s
  | .portStateRead q => Sys2Proof.Machine.execPortStateRead q s
  | .portEnable q => Sys2Proof.Machine.execPortEnable q s
  | .gangSet q => Sys2Proof.Machine.execGangSet q s
  | .windowReset q => Sys2Proof.Machine.execWindowReset q s
  | .lambdaMapRead q => Sys2Proof.Machine.execLambdaMapRead q s
  | .portLoopback q => Sys2Proof.Machine.execPortLoopback q s
  | .prbsRun q => Sys2Proof.Machine.execPrbsRun q s
  | .laserStateRead q => Sys2Proof.Machine.execLaserStateRead q s
  | .laserCmisAccess q ack data => Sys2Proof.Machine.execLaserCmisAccess q ack data s
  | .laserSwitch q => Sys2Proof.Machine.execLaserSwitch q s
  | .rxPowerRead q => Sys2Proof.Machine.execRxPowerRead q s
  | .monitorConfig q => Sys2Proof.Machine.execMonitorConfig q s
  | .biasLimitsSet q => Sys2Proof.Machine.execBiasLimitsSet q s
  | .transomMapWrite q => Sys2Proof.Machine.execTransomMapWrite q s
  | .transomMapRead q => Sys2Proof.Machine.execTransomMapRead q s
  | .transomPathCheck q => Sys2Proof.Machine.execTransomPathCheck q s
  | .routeWriteRange q => Sys2Proof.Machine.execRouteWriteRange q s
  | .pathsetWrite q => Sys2Proof.Machine.execPathsetWrite q s
  | .mcastWrite q => Sys2Proof.Machine.execMcastWrite q s
  | .flowletConfig q => Sys2Proof.Machine.execFlowletConfig q s
  | .stairConfig q => Sys2Proof.Machine.execStairConfig q s
  | .chuteRead q => Sys2Proof.Machine.execChuteRead q s
  | .txnBegin q => Sys2Proof.Machine.execTxnBegin q s
  | .txnCommit q bad nacks => Sys2Proof.Machine.execTxnCommit q bad nacks s
  | .txnRollback q => Sys2Proof.Machine.execTxnRollback q s
  | .txnStatus q => Sys2Proof.Machine.execTxnStatus q s
  | .tableRead q bad => Sys2Proof.Machine.execTableRead q bad s
  | .tableWrite q => Sys2Proof.Machine.execTableWrite q s
  | .tableCompareWrite q parityBad => Sys2Proof.Machine.execTableCompareWrite q parityBad s
  | .tableClearAge q => Sys2Proof.Machine.execTableClearAge q s
  | .snapshotSave q => Sys2Proof.Machine.execSnapshotSave q s
  | .snapshotApply q obs digestBad => Sys2Proof.Machine.execSnapshotApply q obs digestBad s
  | .snapshotList q => Sys2Proof.Machine.execSnapshotList q s
  | .snapshotDelete q => Sys2Proof.Machine.execSnapshotDelete q s
  | .snapshotSetBoot q => Sys2Proof.Machine.execSnapshotSetBoot q s
  | .blockQuiesce q => Sys2Proof.Machine.execBlockQuiesce q s
  | .blockResume q => Sys2Proof.Machine.execBlockResume q s
  | .blockCreate q => Sys2Proof.Machine.execBlockCreate q s
  | .blockDelete q => Sys2Proof.Machine.execBlockDelete q s
  | .blockRead q => Sys2Proof.Machine.execBlockRead q s
  | .blockPoolSet q => Sys2Proof.Machine.execBlockPoolSet q s
  | .grantSet q => Sys2Proof.Machine.execGrantSet q s
  | .bufferConfig q => Sys2Proof.Machine.execBufferConfig q s
  | .bufferRead q => Sys2Proof.Machine.execBufferRead q s
  | .cellarStatus q => Sys2Proof.Machine.execCellarStatus q s
  | .cellarRegulatorSet q => Sys2Proof.Machine.execCellarRegulatorSet q s
  | .cellarMemtest q => Sys2Proof.Machine.execCellarMemtest q s
  | .meterSet q => Sys2Proof.Machine.execMeterSet q s
  | .meterRead q => Sys2Proof.Machine.execMeterRead q s
  | .shaperSet q => Sys2Proof.Machine.execShaperSet q s
  | .shaperRead q => Sys2Proof.Machine.execShaperRead q s
  | .gateListWrite q => Sys2Proof.Machine.execGateListWrite q s
  | .gateListRead q => Sys2Proof.Machine.execGateListRead q s
  | .markSet q => Sys2Proof.Machine.execMarkSet q s
  | .schedWeightsSet q => Sys2Proof.Machine.execSchedWeightsSet q s
  | .ctxCreate q => Sys2Proof.Machine.execCtxCreate q s
  | .ctxModify q => Sys2Proof.Machine.execCtxModify q s
  | .ctxDestroy q => Sys2Proof.Machine.execCtxDestroy q s
  | .ctxRead q => Sys2Proof.Machine.execCtxRead q s
  | .treeSet q => Sys2Proof.Machine.execTreeSet q s
  | .engineFlagsRead q => Sys2Proof.Machine.execEngineFlagsRead q s
  | .engineFlagsClear q => Sys2Proof.Machine.execEngineFlagsClear q s
  | .epochStatus q => Sys2Proof.Machine.execEpochStatus q s
  | .epochAbort q => Sys2Proof.Machine.execEpochAbort q s
  | .hamperConfig q => Sys2Proof.Machine.execHamperConfig q s
  | .engineStateRead q => Sys2Proof.Machine.execEngineStateRead q s
  | .mantelConfig q => Sys2Proof.Machine.execMantelConfig q s
  | .mantelStatus q => Sys2Proof.Machine.execMantelStatus q s
  | .stepConfig q => Sys2Proof.Machine.execStepConfig q s
  | .calendarSet q => Sys2Proof.Machine.execCalendarSet q s
  | .calendarRead q => Sys2Proof.Machine.execCalendarRead q s
  | .ptpConfig q => Sys2Proof.Machine.execPtpConfig q s
  | .ptpStatus q => Sys2Proof.Machine.execPtpStatus q s
  | .tsQueueRead q => Sys2Proof.Machine.execTsQueueRead q s
  | .darningMaskRead q => Sys2Proof.Machine.execDarningMaskRead q s
  | .darningConfig q => Sys2Proof.Machine.execDarningConfig q s
  | .faultRead q => Sys2Proof.Machine.execFaultRead q s
  | .hearthHandover q => Sys2Proof.Machine.execHearthHandover q s
  | .selftestConfig q => Sys2Proof.Machine.execSelftestConfig q s
  | .selftestRun q failed => Sys2Proof.Machine.execSelftestRun q failed s
  | .fwImageBegin q => Sys2Proof.Machine.execFwImageBegin q s
  | .fwImageWrite q => Sys2Proof.Machine.execFwImageWrite q s
  | .fwImageVerify q => Sys2Proof.Machine.execFwImageVerify q s
  | .fwActivate q => Sys2Proof.Machine.execFwActivate q s
  | .fwStatus q => Sys2Proof.Machine.execFwStatus q s
  | .powerRead q analog => Sys2Proof.Machine.execPowerRead q analog s
  | .thermalRead q => Sys2Proof.Machine.execThermalRead q s
  | .thermalLimitsSet q => Sys2Proof.Machine.execThermalLimitsSet q s
  | .powerCapSet q => Sys2Proof.Machine.execPowerCapSet q s
  | .loopStatus q => Sys2Proof.Machine.execLoopStatus q s
  | .deedReport q => Sys2Proof.Machine.execDeedReport q s
  | .randomRead q => Sys2Proof.Machine.execRandomRead q s
  | .keyGenerate q => Sys2Proof.Machine.execKeyGenerate q s
  | .debugUnlock q => Sys2Proof.Machine.execDebugUnlock q s
  | .porchRead q => Sys2Proof.Machine.execPorchRead q s
  | .porchAlarmClear q => Sys2Proof.Machine.execPorchAlarmClear q s
  | .fuseRead q => Sys2Proof.Machine.execFuseRead q s
  | .nvStatus q => Sys2Proof.Machine.execNvStatus q s
  | .nvRead q obs => Sys2Proof.Machine.execNvRead q obs s
  | .nvWrite q => Sys2Proof.Machine.execNvWrite q s
  | .nvScrub q => Sys2Proof.Machine.execNvScrub q s
  | .bootcfgRead q obs => Sys2Proof.Machine.execBootcfgRead q obs s
  | .bootcfgWrite q => Sys2Proof.Machine.execBootcfgWrite q s
  | .nvLogRead q lost => Sys2Proof.Machine.execNvLogRead q lost s
  | .counterRead q => Sys2Proof.Machine.execCounterRead q s
  | .counterClear q => Sys2Proof.Machine.execCounterClear q s
  | .counterFilterSet q => Sys2Proof.Machine.execCounterFilterSet q s
  | .occThresholdSet q => Sys2Proof.Machine.execOccThresholdSet q s
  | .telemetryExportSet q => Sys2Proof.Machine.execTelemetryExportSet q s
  | .bar0RegisterWrite off value => Sys2Proof.Machine.execBar0RegisterWrite off value s
  | .bar0SubwordAccess write off enables => Sys2Proof.Machine.execBar0SubwordAccess write off enables s
  | .refReturned elapsedUs => Sys2Proof.Machine.execRefReturned elapsedUs s
  | .pllUnlock die domain => Sys2Proof.Machine.execPllUnlock die domain s
  | .hearthWatchdogExpired hearth => Sys2Proof.Machine.execHearthWatchdogExpired hearth s
  | .discoveryDone dies untrained miswired => Sys2Proof.Machine.execDiscoveryDone dies untrained miswired s
  | .p3Complete halt rows chunks => Sys2Proof.Machine.execP3Complete halt rows chunks s
  | .windowUp window ms => Sys2Proof.Machine.execWindowUp window ms s
  | .trngRunEnd standby pass => Sys2Proof.Machine.execTrngRunEnd standby pass s
  | .windowLightTimeout window rings => Sys2Proof.Machine.execWindowLightTimeout window rings s
  | .seamFlitReceived link high ready returns crcOk => Sys2Proof.Machine.execSeamFlitReceived link high ready returns crcOk s
  | .seamReplay link high ok failing => Sys2Proof.Machine.execSeamReplay link high ok failing s
  | .seamLaneFailed link high group lane => Sys2Proof.Machine.execSeamLaneFailed link high group lane s
  | .sillCellReceived window toHall crcOk wire => Sys2Proof.Machine.execSillCellReceived window toHall crcOk wire s
  | .doorbell tail => Sys2Proof.Machine.execDoorbell tail s
  | .rplIdxHeadWrite head => Sys2Proof.Machine.execRplIdxHeadWrite head s
  | .mailboxEnable value => Sys2Proof.Machine.execMailboxEnable value s
  | .requestFetch slot dmaOk => Sys2Proof.Machine.execRequestFetch slot dmaOk s
  | .replySegmentWrite dmaOk => Sys2Proof.Machine.execReplySegmentWrite dmaOk s
  | .commandTimeout src tag => Sys2Proof.Machine.execCommandTimeout src tag s
  | .sourceForgotten src => Sys2Proof.Machine.execSourceForgotten src s
  | .replyCacheExpiry src tag => Sys2Proof.Machine.execReplyCacheExpiry src tag s
  | .eventRaised die => Sys2Proof.Machine.execEventRaised die s
  | .eventLoss die => Sys2Proof.Machine.execEventLoss die s
  | .evCtrlWrite value => Sys2Proof.Machine.execEvCtrlWrite value s
  | .codewordPairDecoded port lane levels => Sys2Proof.Machine.execCodewordPairDecoded port lane levels s
  | .linkWordReceived port => Sys2Proof.Machine.execLinkWordReceived port s
  | .replayTimeout port => Sys2Proof.Machine.execReplayTimeout port s
  | .frameReceived port parity => Sys2Proof.Machine.execFrameReceived port parity s
  | .codewordLock port => Sys2Proof.Machine.execCodewordLock port s
  | .trainingMessageReceived port => Sys2Proof.Machine.execTrainingMessageReceived port s
  | .trainingAttemptTimeout port => Sys2Proof.Machine.execTrainingAttemptTimeout port s
  | .trainingRetry port => Sys2Proof.Machine.execTrainingRetry port s
  | .frameTransmit port err => Sys2Proof.Machine.execFrameTransmit port err s
  | .linkFecHigh port => Sys2Proof.Machine.execLinkFecHigh port s
  | .laneFault pair lambda fclass tx level => Sys2Proof.Machine.execLaneFault pair lambda fclass tx level s
  | .lambdaBridgeIdentified pair k => Sys2Proof.Machine.execLambdaBridgeIdentified pair k s
  | .lambdaSpareSelect pair => Sys2Proof.Machine.execLambdaSpareSelect pair s
  | .lambdaPark pair => Sys2Proof.Machine.execLambdaPark pair s
  | .spareBridgeTimeout pair => Sys2Proof.Machine.execSpareBridgeTimeout pair s
  | .portLaneRestored pair lambda => Sys2Proof.Machine.execPortLaneRestored pair lambda s
  | .ringLockAcquired pair lambda tx => Sys2Proof.Machine.execRingLockAcquired pair lambda tx s
  | .eqAdaptStep port lane margin => Sys2Proof.Machine.execEqAdaptStep port lane margin s
  | .eqMarginLow port lane margin => Sys2Proof.Machine.execEqMarginLow port lane margin s
  | .portPhyReady port => Sys2Proof.Machine.execPortPhyReady port s
  | .prbsRunEnd port counts => Sys2Proof.Machine.execPrbsRunEnd port counts s
  | .laserModuleReady m obs => Sys2Proof.Machine.execLaserModuleReady m obs s
  | .laserModuleInserted m => Sys2Proof.Machine.execLaserModuleInserted m s
  | .laserModuleRemoved m => Sys2Proof.Machine.execLaserModuleRemoved m s
  | .laserInterrupt m faulty => Sys2Proof.Machine.execLaserInterrupt m faulty s
  | .moduleMonitorRead m temp power lasers => Sys2Proof.Machine.execModuleMonitorRead m temp power lasers s
  | .feedLos m lambda => Sys2Proof.Machine.execFeedLos m lambda s
  | .lightRestored m lambda => Sys2Proof.Machine.execLightRestored m lambda s
  | .staggerOddGroup window => Sys2Proof.Machine.execStaggerOddGroup window s
  | .frequencyMatch m => Sys2Proof.Machine.execFrequencyMatch m s
  | .monitorWindowEnd window source index lambda obs => Sys2Proof.Machine.execMonitorWindowEnd window source index lambda obs s
  | .lightLoopPass window => Sys2Proof.Machine.execLightLoopPass window s
  | .transomMapApplied window => Sys2Proof.Machine.execTransomMapApplied window s
  | .transomPassLos window entry => Sys2Proof.Machine.execTransomPassLos window entry s
  | .transomPassRestored window entry => Sys2Proof.Machine.execTransomPassRestored window entry s
  | .transomRingUnlock window entry ring => Sys2Proof.Machine.execTransomRingUnlock window entry ring s
  | .chuteRepair hall shadowOk repairNs => Sys2Proof.Machine.execChuteRepair hall shadowOk repairNs s
  | .commitInstant handle => Sys2Proof.Machine.execCommitInstant handle s
  | .tceRead ctrl parityBad => Sys2Proof.Machine.execTceRead ctrl parityBad s
  | .tceWrite ctrl => Sys2Proof.Machine.execTceWrite ctrl s
  | .tceCompareWrite ctrl parityBad => Sys2Proof.Machine.execTceCompareWrite ctrl parityBad s
  | .tceClearAge ctrl => Sys2Proof.Machine.execTceClearAge ctrl s
  | .txnIdleTimeout handle => Sys2Proof.Machine.execTxnIdleTimeout handle s
  | .quiesceDrainCheck latchkey => Sys2Proof.Machine.execQuiesceDrainCheck latchkey s
  | .drainLimitExpired latchkey => Sys2Proof.Machine.execDrainLimitExpired latchkey s
  | .heldFrameRetry hall => Sys2Proof.Machine.execHeldFrameRetry hall s
  | .bufferLoop hall => Sys2Proof.Machine.execBufferLoop hall s
  | .crossHallArrival src dst => Sys2Proof.Machine.execCrossHallArrival src dst s
  | .spillWriteAck hall => Sys2Proof.Machine.execSpillWriteAck hall s
  | .spillReturn port vc err lines => Sys2Proof.Machine.execSpillReturn port vc err lines s
  | .cellarScrub hall obs => Sys2Proof.Machine.execCellarScrub hall obs s
  | .cellarRowSpared die lost => Sys2Proof.Machine.execCellarRowSpared die lost s
  | .chunkRewriteStart die channel => Sys2Proof.Machine.execChunkRewriteStart die channel s
  | .cellarChunkSpared die channel lost => Sys2Proof.Machine.execCellarChunkSpared die channel lost s
  | .cellarRefresh die => Sys2Proof.Machine.execCellarRefresh die s
  | .cellarRefreshMode die hottest => Sys2Proof.Machine.execCellarRefreshMode die hottest s
  | .gateEntryChange port => Sys2Proof.Machine.execGateEntryChange port s
  | .mangleContribReceived mangle check => Sys2Proof.Machine.execMangleContribReceived mangle check s
  | .chunkDone mangle => Sys2Proof.Machine.execChunkDone mangle s
  | .releaseSend ctx => Sys2Proof.Machine.execReleaseSend ctx s
  | .engineSelftestDone mangle activeFails shadowFails => Sys2Proof.Machine.execEngineSelftestDone mangle activeFails shadowFails s
  | .hamperEntryWrite mangle => Sys2Proof.Machine.execHamperEntryWrite mangle s
  | .replayWaitExpired ctx lost => Sys2Proof.Machine.execReplayWaitExpired ctx lost s
  | .collStraggler ctx chunk => Sys2Proof.Machine.execCollStraggler ctx chunk s
  | .collRunStalled ctx run => Sys2Proof.Machine.execCollRunStalled ctx run s
  | .mantelFrameReceived port => Sys2Proof.Machine.execMantelFrameReceived port s
  | .mantelSourceLost port => Sys2Proof.Machine.execMantelSourceLost port s
  | .stepInstant g => Sys2Proof.Machine.execStepInstant g s
  | .ptpMessageReceived port obs => Sys2Proof.Machine.execPtpMessageReceived port obs s
  | .ptpEventMessageSend port msgType id => Sys2Proof.Machine.execPtpEventMessageSend port msgType id s
  | .legRateWrite value => Sys2Proof.Machine.execLegRateWrite value s
  | .legOffsetLoWrite value => Sys2Proof.Machine.execLegOffsetLoWrite value s
  | .darningFrameReceived port => Sys2Proof.Machine.execDarningFrameReceived port s
  | .darningSilent port => Sys2Proof.Machine.execDarningSilent port s
  | .maskHoldExpired port => Sys2Proof.Machine.execMaskHoldExpired port s
  | .restoreHoldExpired port => Sys2Proof.Machine.execRestoreHoldExpired port s
  | .flapHoldExpired port => Sys2Proof.Machine.execFlapHoldExpired port s
  | .dieFault die condition => Sys2Proof.Machine.execDieFault die condition s
  | .hallKeepaliveTimeout hall => Sys2Proof.Machine.execHallKeepaliveTimeout hall s
  | .selftestPeriod item failed => Sys2Proof.Machine.execSelftestPeriod item failed s
  | .thermalDwellExpired zone => Sys2Proof.Machine.execThermalDwellExpired zone s
  | .thermalTrip zone sensor reading => Sys2Proof.Machine.execThermalTrip zone sensor reading s
  | .mangleLevelStep mangle => Sys2Proof.Machine.execMangleLevelStep mangle s
  | .avsStep rail up margin => Sys2Proof.Machine.execAvsStep rail up margin s
  | .hallMargin hall margin => Sys2Proof.Machine.execHallMargin hall margin s
  | .frequencyGuard mangle => Sys2Proof.Machine.execFrequencyGuard mangle s
  | .frequencyGuardRelease mangle => Sys2Proof.Machine.execFrequencyGuardRelease mangle s
  | .porchAlarm monitors => Sys2Proof.Machine.execPorchAlarm monitors s
  | .nvScrubBlock device region obs => Sys2Proof.Machine.execNvScrubBlock device region obs s
  | .nvWearLevel device newMin => Sys2Proof.Machine.execNvWearLevel device newMin s
  | .nvResyncDone device copied => Sys2Proof.Machine.execNvResyncDone device copied s
  | .telemetryTrigger set => Sys2Proof.Machine.execTelemetryTrigger set s
  | .pcieLink up speed width => Sys2Proof.Machine.execPcieLink up speed width s
  | .mgmtLink port up => Sys2Proof.Machine.execMgmtLink port up s
  | .ipAddress port v6 addr acquired => Sys2Proof.Machine.execIpAddress port v6 addr acquired s
  | .mgmtNeighbourRequest port kind addr => Sys2Proof.Machine.execMgmtNeighbourRequest port kind addr s
  | .sidebandRead off len => Sys2Proof.Machine.execSidebandRead off len s
  | .jtagInstruction code => Sys2Proof.Machine.execJtagInstruction code s
  | .avsBusPoll k response => Sys2Proof.Machine.execAvsBusPoll k response s
  | .railOutOfRange tenthMv => Sys2Proof.Machine.execRailOutOfRange tenthMv s
  | .pcieConfigurationRequest write off value => Sys2Proof.Machine.execPcieConfigurationRequest write off value s
  | .maloaRequestRefused src ingress udp packet => Sys2Proof.Machine.execMaloaRequestRefused src ingress udp packet s
  | .ringHeadroom pair lambda tx pct => Sys2Proof.Machine.execRingHeadroom pair lambda tx pct s
  | .ptpAnnounceTimeout port => Sys2Proof.Machine.execPtpAnnounceTimeout port s
  | .porchMonitorAlarmEnd monitors => Sys2Proof.Machine.execPorchMonitorAlarmEnd monitors s
  | .cellarMemtestDone hall found => Sys2Proof.Machine.execCellarMemtestDone hall found s
  | .thermalSample samples => Sys2Proof.Machine.execThermalSample samples s
  | .powerCapWindow average => Sys2Proof.Machine.execPowerCapWindow average s
  | .porchSecond temp cellMv => Sys2Proof.Machine.execPorchSecond temp cellMv s
  | .telemetryDatagramSend lost => Sys2Proof.Machine.execTelemetryDatagramSend lost s
  | .p1ImageChecked mounts copies badRecords => Sys2Proof.Machine.execP1ImageChecked mounts copies badRecords s
  | .p5Complete obs digestBad => Sys2Proof.Machine.execP5Complete obs digestBad s
  | .powerOnReset => Sys2Proof.Machine.execPowerOnReset s
  | .resetNAsserted => Sys2Proof.Machine.execResetNAsserted s
  | .pcieReset => Sys2Proof.Machine.execPcieReset s
  | .warmReset => Sys2Proof.Machine.execWarmReset s
  | .refLost => Sys2Proof.Machine.execRefLost s
  | .refHoldoverExpired => Sys2Proof.Machine.execRefHoldoverExpired s
  | .refAbsent => Sys2Proof.Machine.execRefAbsent s
  | .porchXtalFail => Sys2Proof.Machine.execPorchXtalFail s
  | .p0Complete pcieRef => Sys2Proof.Machine.execP0Complete pcieRef s
  | .p4Complete => Sys2Proof.Machine.execP4Complete s
  | .p6Complete => Sys2Proof.Machine.execP6Complete s
  | .mantelFreeRun => Sys2Proof.Machine.execMantelFreeRun s
  | .trngRetest standby => Sys2Proof.Machine.execTrngRetest standby s
  | .heartbeatTimeout pcieRef => Sys2Proof.Machine.execHeartbeatTimeout pcieRef s
  | .hearthBStandbyReady => Sys2Proof.Machine.execHearthBStandbyReady s
  | .resetRings => Sys2Proof.Machine.execResetRings s
  | .evNewestLoRead => Sys2Proof.Machine.execEvNewestLoRead s
  | .headTimerCheck => Sys2Proof.Machine.execHeadTimerCheck s
  | .flowletSweep => Sys2Proof.Machine.execFlowletSweep s
  | .queueLoadPublish => Sys2Proof.Machine.execQueueLoadPublish s
  | .tceOperationDone => Sys2Proof.Machine.execTceOperationDone s
  | .mantelFrameSend => Sys2Proof.Machine.execMantelFrameSend s
  | .msyncInEdge => Sys2Proof.Machine.execMsyncInEdge s
  | .calendarSecond => Sys2Proof.Machine.execCalendarSecond s
  | .calendarSetTimeAt => Sys2Proof.Machine.execCalendarSetTimeAt s
  | .tsPop => Sys2Proof.Machine.execTsPop s
  | .tsClearOvf => Sys2Proof.Machine.execTsClearOvf s
  | .mantelLoRead => Sys2Proof.Machine.execMantelLoRead s
  | .calNsRead => Sys2Proof.Machine.execCalNsRead s
  | .legLoRead => Sys2Proof.Machine.execLegLoRead s
  | .darningFrameSend => Sys2Proof.Machine.execDarningFrameSend s
  | .leaderHeartbeatLoss => Sys2Proof.Machine.execLeaderHeartbeatLoss s
  | .standbyKeepaliveLoss => Sys2Proof.Machine.execStandbyKeepaliveLoss s
  | .hearthHandoverDone => Sys2Proof.Machine.execHearthHandoverDone s
  | .activationStandbyReady => Sys2Proof.Machine.execActivationStandbyReady s
  | .fwTrialEnd => Sys2Proof.Machine.execFwTrialEnd s
  | .fwActivated => Sys2Proof.Machine.execFwActivated s
  | .debugChallengeExpiry => Sys2Proof.Machine.execDebugChallengeExpiry s
  | .drbgReseed => Sys2Proof.Machine.execDrbgReseed s
  | .nvTransactionCommit failed => Sys2Proof.Machine.execNvTransactionCommit failed s
  | .nvLogWrite => Sys2Proof.Machine.execNvLogWrite s
  | .ctrCapture => Sys2Proof.Machine.execCtrCapture s
  | .ctrReadClear => Sys2Proof.Machine.execCtrReadClear s
  | .backupCellLost => Sys2Proof.Machine.execBackupCellLost s

end Sys2Proof.Machine
end

