-- ==== Sys2Proof/Machine/Tick.lean ====
section
/-!
DEFINITION. What one idle nanosecond does: the clocks count, and what hangs on the passage of time alone follows (DESIGN CHOICE, log 6).
Every timer whose expiry is a row of the table of commands is left to that row.
-/
namespace Sys2Proof.Machine

/-- The Calendar over one MANTELCLK cycle: 1 ns × (1 + CAL_RATE), NS carrying into SEC (R422, R423). -/
def Calendar.advance (c : Calendar) : Calendar :=
  let grown : Int := c.resid + 65536 * c.rate
  let total := ((c.ns * 65536 + c.frac + 65536 : Nat) : Int) + grown / 1000000000
  let ns := (total / 65536).toNat
  { c with
    sec := c.sec + ns / second, ns := ns % second, frac := (total % 65536).toNat
    resid := grown % 1000000000 }

/-- The counters of the clocks over one cycle: COUNT and the Calendar while MANTELCLK is locked, RAW while HEARTHCLK is
(R408, R423, R431). -/
def advanceClocks (s : State) : State :=
  let s := if bit s.boot.locked 20 then modTime (fun t => { t with count := (t.count + 1) % 2 ^ 64, cal := t.cal.advance }) s else s
  if bit s.boot.locked (if s.boot.bLeads then 19 else 18) then modTime (fun t => { t with raw := (t.raw + 1) % 2 ^ 64 }) s else s

/-- One idle nanosecond (DESIGN CHOICE, log 6): the clocks, the admissions and Cellar accesses that wait for
their turn (R273, R296), a voltage loop that a guard pushes (R467), the occupancy counters (R519), the end of a counter capture (R522), the standby's copy of
the counters each millisecond (R514) and the sideband alert (R538). (DESIGN CHOICE, log 7.) (DEDUCED, log 49.) (DEDUCED, log 53.) -/
def tick (s : State) : State :=
  let s := pushVoltage 1 (pushVoltage 0 (countOccupancy (advanceClocks (serveCellars (runCycles { s with ns := s.ns + 1 })))))
  let s := match s.ctr.until' with
    | some t => if t ≤ s.ns then endCapture s else s
    | none => s
  judgeAlert (if s.boot.standbyReady && s.ns % 1000000 = 0 then copyCounters s else s)

end Sys2Proof.Machine
end

