-- ==== Sys2Proof/Machine/Idle.lean ====
section
/-!
DEFINITION. What a step does when no command waits (DESIGN CHOICE, log 6): a Maloa command that was held and may now start runs (R80), else a
nanosecond passes.
-/
namespace Sys2Proof.Machine

/-- The step on an empty queue. (DESIGN CHOICE, log 6.) -/
def idle (s : State) : Answer :=
  match readyHeld s with
  | some (i, s) => exec i s
  | none => .next (tick s)

end Sys2Proof.Machine
end

