-- ==== Sys2Proof/WellFormed.lean ====
section
/-!
DEFINITION. Which commands are well formed: every object that an operand names exists, and every field fits its width.
The block gives a meaning to every well-formed command, whatever its state.
-/
namespace Sys2Proof

/-! ## What exists -/

/-- The dies that hold an instance of a clock domain with a PLL of its own (Table 2.1, R34). -/
def hasClock (die domain : Nat) : Bool :=
  match domain with
  | 0 => false
  | _ =>
    if domain ≤ 4 then die = 1 + domain                 -- HALLCLK, dies 2 to 5
    else if domain ≤ 6 then die = 17 + domain           -- MANGLECLK, dies 22 and 23
    else if domain ≤ 10 then die = domain - 5           -- CELLARCLK, made in the Halls
    else if domain ≤ 18 then die = 13 + domain          -- WINCLK, dies 24 to 31
    else if domain ≤ 20 then die = domain - 19          -- HEARTHCLK
    else if domain = 21 then die < 6                    -- MANTELCLK
    else domain = 22 && (die < 6 || (22 ≤ die && die < 32))

/-- Lane groups of a Seam link, and the active lanes of each (R13, Table 1.3). -/
def seamGroups (link : Nat) : Nat × Nat :=
  if link < 9 then (1, 16) else if link < 13 then (1, 8) else if link < 19 then (8, 64) else if link < 23 then (4, 64)
  else if link < 31 then (1, 4) else (1, 2)

/-- The Cellars (Table 1.1). -/
def isCellarDie (die : Nat) : Bool := 6 ≤ die && die < 22

/-- How many conditions Table 18.2 gives a die; a Cellar has none. -/
def faultConditions (die : Nat) : Nat :=
  if die < 6 then 5 else if die < 22 then 0 else if die < 24 then 4 else if die < 40 then 2 else 0

/-- Sensors of a die (Table 19.2). -/
def sensorCount (die : Nat) : Nat := if 2 ≤ die && die < 6 then 16 else if die = 22 || die = 23 then 8 else 4

/-- The points of the optical monitors (R162). -/
def monitorPoint (source index lambda : Nat) : Bool :=
  match source with
  | 0 => index < 16 && lambda < 9
  | 1 => index < 4 && lambda < 8
  | 2 | 3 => index = 0 && lambda < 9
  | 4 | 5 => index = 0 && lambda < 8
  | _ => false

/-! ## Field widths -/

/-- The addresses of a source (R62, Table 3.1). -/
def Source.wf : Source → Bool
  | .pcie => true
  | .inband gid => gid < 2 ^ 20
  | .eth addr udpPort => addr < 2 ^ 128 && udpPort < 2 ^ 16

/-- The port on which a source's requests come in. -/
def Source.ingressWf (ingress : Nat) : Source → Bool
  | .pcie => true
  | .inband _ => ingress < 1280
  | .eth _ _ => ingress < 2

/-- The fields of a request packet, at most 4,080 parameter bytes (Table 3.2, R69). -/
def Request.wf (q : Request) : Bool :=
  q.src.wf && q.src.ingressWf q.ingress && q.latchkey < 2 ^ 16 && q.tag < 2 ^ 16 && q.token < 2 ^ 16 && q.txn < 2 ^ 32 &&
  q.params.length ≤ 4080

/-- A memory error names a bank and a cell of a Landing (R263). -/
def ReadError.wf : ReadError → Bool
  | .none => true
  | .corrected bank => bank < 1056
  | .header bank cell => bank < 1056 && cell < 3072
  | .payload bank cell _ => bank < 1056 && cell < 3072

/-- A line as read has 72 symbols of 8 bits (R297). -/
def LineObs.wf : LineObs → Bool
  | .read symbols _ _ => symbols.length = 72 && symbols.all (· < 256)
  | .silent => true

/-- What discovery reads of a die (Table 1.7). -/
def DieObs.wf (d : DieObs) : Bool := d.typeCode < 2 ^ 8 && d.serial < 2 ^ 64

/-- A row of a Cellar: die, channel, bank and row (R291). -/
def rowWf (r : Nat × Nat × Nat × Nat) : Bool := isCellarDie r.1 && r.2.1 < 32

/-- A chunk of a Cellar: die, channel and chunk (R291). -/
def chunkWf (c : Nat × Nat × Nat) : Bool := isCellarDie c.1 && c.2.1 < 32

/-! ## Commands -/

/-- Whether a command is well formed. -/
def Instr.wf : Instr → Bool
  | .deviceReset q => q.wf
  | .resetCauseClear q => q.wf
  | .startupRead q => q.wf
  | .dieMapRead q => q.wf
  | .seamLinkRead q => q.wf
  | .deviceInfo q => q.wf
  | .echo q => q.wf
  | .tokenSet q => q.wf
  | .tokenClear q => q.wf
  | .tokenRead q => q.wf
  | .selfGidSet q => q.wf
  | .eventRead q => q.wf
  | .linkWeightsSet q => q.wf
  | .linkStatusRead q => q.wf
  | .linkRetrain q => q.wf
  | .portConfig q => q.wf
  | .portStateRead q => q.wf
  | .portEnable q => q.wf
  | .gangSet q => q.wf
  | .windowReset q => q.wf
  | .lambdaMapRead q => q.wf
  | .portLoopback q => q.wf
  | .prbsRun q => q.wf
  | .laserStateRead q => q.wf
  | .laserCmisAccess q ack data => q.wf && (!ack || data.length ≤ 128)
  | .laserSwitch q => q.wf
  | .rxPowerRead q => q.wf
  | .monitorConfig q => q.wf
  | .biasLimitsSet q => q.wf
  | .transomMapWrite q => q.wf
  | .transomMapRead q => q.wf
  | .transomPathCheck q => q.wf
  | .routeWriteRange q => q.wf
  | .pathsetWrite q => q.wf
  | .mcastWrite q => q.wf
  | .flowletConfig q => q.wf
  | .stairConfig q => q.wf
  | .chuteRead q => q.wf
  | .txnBegin q => q.wf
  | .txnCommit q _ _ => q.wf
  | .txnRollback q => q.wf
  | .txnStatus q => q.wf
  | .tableRead q _ => q.wf
  | .tableWrite q => q.wf
  | .tableCompareWrite q _ => q.wf
  | .tableClearAge q => q.wf
  | .snapshotSave q => q.wf
  | .snapshotApply q _ _ => q.wf
  | .snapshotList q => q.wf
  | .snapshotDelete q => q.wf
  | .snapshotSetBoot q => q.wf
  | .blockQuiesce q => q.wf
  | .blockResume q => q.wf
  | .blockCreate q => q.wf
  | .blockDelete q => q.wf
  | .blockRead q => q.wf
  | .blockPoolSet q => q.wf
  | .grantSet q => q.wf
  | .bufferConfig q => q.wf
  | .bufferRead q => q.wf
  | .cellarStatus q => q.wf
  | .cellarRegulatorSet q => q.wf
  | .cellarMemtest q => q.wf
  | .meterSet q => q.wf
  | .meterRead q => q.wf
  | .shaperSet q => q.wf
  | .shaperRead q => q.wf
  | .gateListWrite q => q.wf
  | .gateListRead q => q.wf
  | .markSet q => q.wf
  | .schedWeightsSet q => q.wf
  | .ctxCreate q => q.wf
  | .ctxModify q => q.wf
  | .ctxDestroy q => q.wf
  | .ctxRead q => q.wf
  | .treeSet q => q.wf
  | .engineFlagsRead q => q.wf
  | .engineFlagsClear q => q.wf
  | .epochStatus q => q.wf
  | .epochAbort q => q.wf
  | .hamperConfig q => q.wf
  | .engineStateRead q => q.wf
  | .mantelConfig q => q.wf
  | .mantelStatus q => q.wf
  | .stepConfig q => q.wf
  | .calendarSet q => q.wf
  | .calendarRead q => q.wf
  | .ptpConfig q => q.wf
  | .ptpStatus q => q.wf
  | .tsQueueRead q => q.wf
  | .darningMaskRead q => q.wf
  | .darningConfig q => q.wf
  | .faultRead q => q.wf
  | .hearthHandover q => q.wf
  | .selftestConfig q => q.wf
  | .selftestRun q _ => q.wf
  | .fwImageBegin q => q.wf
  | .fwImageWrite q => q.wf
  | .fwImageVerify q => q.wf
  | .fwActivate q => q.wf
  | .fwStatus q => q.wf
  | .powerRead q _ => q.wf
  | .thermalRead q => q.wf
  | .thermalLimitsSet q => q.wf
  | .powerCapSet q => q.wf
  | .loopStatus q => q.wf
  | .deedReport q => q.wf
  | .randomRead q => q.wf
  | .keyGenerate q => q.wf
  | .debugUnlock q => q.wf
  | .porchRead q => q.wf
  | .porchAlarmClear q => q.wf
  | .fuseRead q => q.wf
  | .nvStatus q => q.wf
  | .nvRead q _ => q.wf
  | .nvWrite q => q.wf
  | .nvScrub q => q.wf
  | .bootcfgRead q _ => q.wf
  | .bootcfgWrite q => q.wf
  | .nvLogRead q _ => q.wf
  | .counterRead q => q.wf
  | .counterClear q => q.wf
  | .counterFilterSet q => q.wf
  | .occThresholdSet q => q.wf
  | .telemetryExportSet q => q.wf
  | .bar0RegisterWrite off value => off % 4 = 0 && off < 0x400000 && value < 2 ^ 32
  | .bar0SubwordAccess write off enables => off < 0x400000 && enables < 16 && !(write && enables = 15)
  | .refReturned _ => true
  | .pllUnlock die domain => hasClock die domain
  | .hearthWatchdogExpired hearth => hearth < 2
  | .discoveryDone dies untrained miswired => dies.length = 40 && dies.all DieObs.wf && untrained.all (· < 39) && miswired.all (· < 39)
  | .p3Complete halt rows chunks => (halt = 0 || halt = 0x30 || halt = 0x31) && rows.all rowWf && chunks.all chunkWf
  | .windowUp window _ => window < 8
  | .trngRunEnd _ _ => true
  | .windowLightTimeout window _ => window < 8
  | .seamFlitReceived link _ ready returns _ => link < 39 && ready < 32 && returns.length ≤ 5
  | .seamReplay link _ _ failing => link < 39 && failing.all fun e => e.1 < (seamGroups link).1 && e.2 < (seamGroups link).2
  | .seamLaneFailed link _ group lane => link < 39 && group < (seamGroups link).1 && lane < (seamGroups link).2
  | .sillCellReceived window _ _ wire => window < 8 && wire.all (· < 2560)
  | .doorbell tail => tail < 65536
  | .rplIdxHeadWrite head => head < 65536
  | .mailboxEnable value => value < 2 ^ 32
  | .requestFetch slot _ => slot.length ≤ 4096
  | .replySegmentWrite _ => true
  | .commandTimeout src tag => src.wf && tag < 65536
  | .sourceForgotten src => src.wf
  | .replyCacheExpiry src tag => src.wf && tag < 65536
  | .eventRaised die => die < 40
  | .eventLoss die => die < 40
  | .evCtrlWrite value => value < 2 ^ 32
  | .codewordPairDecoded port lane levels => port < 1280 && lane < 8 && levels.length = 2720 && levels.all (· < 4)
  | .linkWordReceived port => port < 1280
  | .replayTimeout port => port < 1280
  | .frameReceived port _ => port < 1280
  | .codewordLock port => port < 1280
  | .trainingMessageReceived port => port < 1280
  | .trainingAttemptTimeout port => port < 1280
  | .trainingRetry port => port < 1280
  | .frameTransmit port err => port < 1280 && err.wf
  | .linkFecHigh port => port < 1280
  | .laneFault pair lambda fclass tx _ => pair < 160 && lambda < 9 && !(128 ≤ pair && lambda = 8) && 1 ≤ fclass && fclass ≤ 6 &&
      (if tx then fclass = 3 || fclass = 4 else fclass ≠ 4)
  | .lambdaBridgeIdentified pair k => pair < 128 && (match k with | none => true | some j => j < 8)
  | .lambdaSpareSelect pair => pair < 128
  | .lambdaPark pair => pair < 128
  | .spareBridgeTimeout pair => pair < 128
  | .portLaneRestored pair lambda => pair < 160 && lambda < 8
  | .ringLockAcquired pair lambda _ => pair < 160 && lambda < 9
  | .eqAdaptStep port lane _ => port < 1280 && lane < 8
  | .eqMarginLow port lane _ => port < 1280 && lane < 8
  | .portPhyReady port => port < 1280
  | .prbsRunEnd port _ => port < 1280
  | .laserModuleReady m _ => m < 16
  | .laserModuleInserted m => m < 16
  | .laserModuleRemoved m => m < 16
  | .laserInterrupt m faulty => m < 16 && faulty.all (· < 9)
  | .moduleMonitorRead m _ _ lasers => m < 16 && lasers.length ≤ 9
  | .feedLos m lambda => m < 16 && lambda < 9
  | .lightRestored m lambda => m < 16 && lambda < 9
  | .staggerOddGroup window => window < 8
  | .frequencyMatch m => m < 16
  | .monitorWindowEnd window source index lambda _ => monitorPoint source index lambda && window < 8
  | .lightLoopPass window => window < 8
  | .transomMapApplied window => window < 8
  | .transomPassLos window entry => window < 8 && entry < 32
  | .transomPassRestored window entry => window < 8 && entry < 32
  | .transomRingUnlock window entry ring => window < 8 && entry < 32 && ring < 3
  | .chuteRepair hall _ _ => hall < 4
  | .commitInstant handle => handle < 2 ^ 32
  | .tceRead ctrl _ => ctrl < 2 ^ 32
  | .tceWrite ctrl => ctrl < 2 ^ 32
  | .tceCompareWrite ctrl _ => ctrl < 2 ^ 32
  | .tceClearAge ctrl => ctrl < 2 ^ 32
  | .txnIdleTimeout handle => handle < 2 ^ 32
  | .quiesceDrainCheck latchkey => latchkey < 65536
  | .drainLimitExpired latchkey => latchkey < 65536
  | .heldFrameRetry hall => hall < 4
  | .bufferLoop hall => hall < 4
  | .crossHallArrival src dst => src < 4 && dst < 4
  | .spillWriteAck hall => hall < 4
  | .spillReturn port vc err lines => port < 1280 && vc < 8 && err.wf && lines.all fun l => l.1 < 2 ^ 30 && l.2.wf
  | .cellarScrub hall obs => hall < 4 && obs.wf
  | .cellarRowSpared die _ => isCellarDie die
  | .chunkRewriteStart die channel => isCellarDie die && channel < 32
  | .cellarChunkSpared die channel _ => isCellarDie die && channel < 32
  | .cellarRefresh die => isCellarDie die
  | .cellarRefreshMode die _ => isCellarDie die
  | .gateEntryChange port => port < 1280
  | .mangleContribReceived mangle check => mangle < 2 && check ≤ 3
  | .chunkDone mangle => mangle < 2
  | .releaseSend ctx => ctx < 65536
  | .engineSelftestDone mangle _ _ => mangle < 2
  | .hamperEntryWrite mangle => mangle < 2
  | .replayWaitExpired ctx _ => ctx < 65536
  | .collStraggler ctx _ => ctx < 65536
  | .collRunStalled ctx _ => ctx < 65536
  | .mantelFrameReceived port => port < 1280
  | .mantelSourceLost port => port < 1280
  | .stepInstant g => g < 4
  | .ptpMessageReceived port _ => port < 2
  | .ptpEventMessageSend port msgType id => port < 2 && msgType < 4 && id < 65536
  | .legRateWrite value => value < 2 ^ 32
  | .legOffsetLoWrite value => value < 2 ^ 32
  | .darningFrameReceived port => port < 1280
  | .darningSilent port => port < 1280
  | .maskHoldExpired port => port < 1280
  | .restoreHoldExpired port => port < 1280
  | .flapHoldExpired port => port < 1280
  | .dieFault die condition => condition ≤ faultConditions die && (1 ≤ condition || die < 2)
  | .hallKeepaliveTimeout hall => hall < 4
  | .selftestPeriod item _ => 1 ≤ item && item ≤ 5
  | .thermalDwellExpired zone => zone < 40
  | .thermalTrip zone sensor _ => zone < 40 && sensor < sensorCount zone
  | .mangleLevelStep mangle => mangle < 2
  | .avsStep rail _ _ => rail < 6
  | .hallMargin hall _ => hall < 4
  | .frequencyGuard mangle => mangle < 2
  | .frequencyGuardRelease mangle => mangle < 2
  | .porchAlarm monitors => 0 < monitors && monitors < 64
  | .nvScrubBlock device region _ => device < 2 && region < 7
  | .nvWearLevel device _ => device < 2
  | .nvResyncDone device _ => device < 2
  | .telemetryTrigger set => set < 8
  | .pcieLink up speed width => !up || ([2, 5, 8, 16, 32].contains speed && [1, 2, 4, 8].contains width)
  | .mgmtLink port _ => port < 2
  | .ipAddress port v6 addr _ => port < 2 && addr < (if v6 then 2 ^ 128 else 2 ^ 32)
  | .mgmtNeighbourRequest port kind _ => port < 2 && kind < 4
  | .sidebandRead off _ => off < 256
  | .jtagInstruction code => code < 256
  | .avsBusPoll k _ => k < 6
  | .railOutOfRange tenthMv => tenthMv.length = 10
  | .pcieConfigurationRequest _ off value => off < 4096 && off % 4 = 0 && value < 2 ^ 32
  | .maloaRequestRefused src _ udp packet => src.wf && udp.checksum < 3 && packet.length ≤ 4096
  | .ringHeadroom pair lambda _ pct => pair < 160 && lambda < 9 && pct ≤ 100
  | .ptpAnnounceTimeout port => port < 2
  | .porchMonitorAlarmEnd monitors => monitors < 64
  | .cellarMemtestDone hall found => hall < 4 && found.all fun l => l.1 < 2 ^ 30 && l.2.wf
  | .thermalSample samples => samples.all (·.1 < 40)
  | .powerCapWindow _ => true
  | .porchSecond _ _ => true
  | .telemetryDatagramSend _ => true
  | .p1ImageChecked mounts copies bad => mounts.length = 2 && copies.length = 4 && bad.all (· < 5)
  | .p5Complete _ _ => true
  | .powerOnReset => true
  | .resetNAsserted => true
  | .pcieReset => true
  | .warmReset => true
  | .refLost => true
  | .refHoldoverExpired => true
  | .refAbsent => true
  | .porchXtalFail => true
  | .p0Complete _ => true
  | .p4Complete => true
  | .p6Complete => true
  | .mantelFreeRun => true
  | .trngRetest _ => true
  | .heartbeatTimeout _ => true
  | .hearthBStandbyReady => true
  | .resetRings => true
  | .evNewestLoRead => true
  | .headTimerCheck => true
  | .flowletSweep => true
  | .queueLoadPublish => true
  | .tceOperationDone => true
  | .mantelFrameSend => true
  | .msyncInEdge => true
  | .calendarSecond => true
  | .calendarSetTimeAt => true
  | .tsPop => true
  | .tsClearOvf => true
  | .mantelLoRead => true
  | .calNsRead => true
  | .legLoRead => true
  | .darningFrameSend => true
  | .leaderHeartbeatLoss => true
  | .standbyKeepaliveLoss => true
  | .hearthHandoverDone => true
  | .activationStandbyReady => true
  | .fwTrialEnd => true
  | .fwActivated => true
  | .debugChallengeExpiry => true
  | .drbgReseed => true
  | .nvTransactionCommit failed => failed.all fun e => e.1 < 2
  | .nvLogWrite => true
  | .ctrCapture => true
  | .ctrReadClear => true
  | .backupCellLost => true

end Sys2Proof
end

