-- ==== Sys2Proof/Safety.lean ====
section
/-!
DEFINITION. The terms in which statements about the block are written: when a Maloa command is accepted, what its reply is, and what
every step keeps.
-/
namespace Sys2Proof.Machine

/-! ## Accepted commands (R69) -/

/-- The state after the request's arrival is taken and its source is tracked (R69 check 4, R76). -/
def tracked (q : Request) (s : State) : State :=
  trackSource q.src q.tag (takeArrival q.src (fun b => u16 b 2 = q.tag) s)

/-- The state on which an accepted command's own part runs: the transaction it names is no longer idle (R235). -/
def started (q : Request) (s : State) : State := nameTxn q.txn (tracked q s)

/-- Checks 3 to 9 of R69 pass, no handover or activation refuses the command (R82, R451), and nothing holds it back (R78, R80). -/
def accepted (op : OpSpec) (q : Request) (inBlock : State → Nat → Bool) (s : State) : Bool :=
  let a := takeArrival q.src (fun b => u16 b 2 = q.tag) s
  let b := tracked q s
  s.maloa.resumed.isNone && routeOpen q.src a && !duplicateTag q.src q.tag a && (cachedFor op.opcode q a).isNone &&
  (limitRefusal q.src a).isNone && (activationRefusal op.opcode b).isNone && (acceptRefusal op q inBlock b).isNone &&
  !mustWait q.src op.opcode b && !heldBefore q.src op.opcode b

/-- The answer to an accepted command whose own part ends as `d`. -/
def answered (op : OpSpec) (q : Request) (s : State) (d : Done) : Answer := .next (finish op q (callerOf (tracked q s) q) (tracked q s).ns d)

/-- The command is answered OK with `n` bytes of payload, and its own part changes nothing but how many open values have been used. -/
def RepliesOnly (op : OpSpec) (i : Instr) (q : Request) (s : State) (n : Nat) : Prop :=
  ∃ (payload : Bytes) (d : Nat), payload.length = n ∧
    exec i s = answered op q s (.ok payload { started q s with draws := d })

/-! ## Staging (R229, R233, R234) -/

/-- The transaction that a request names may stage the items: none is reserved by another, and each lies in its scope. -/
def stagingAllowed (q : Request) (items : List Item) (s : State) : Bool :=
  match txnAt s q.txn with
  | none => false
  | some t => !(items.any fun i => reservedElsewhere s t.handle i.key) &&
      items.all fun i => scopeAllows (setTxn (items.foldl Txn.put t) s) (items.foldl Txn.put t) i

/-- The state with the items staged in the transaction that a request names, and nothing else changed. -/
def withStaged (q : Request) (items : List Item) (s : State) : State :=
  match txnAt s q.txn with
  | none => s
  | some t => setTxn (items.foldl Txn.put t) s

/-! ## Stored commands (R491) -/

/-- The command waits until its store transaction, queued behind those that already wait, is complete. -/
def storing (x : NvTxn) (s : State) : Done := .wait (.store s.nv.nextId) (nvQueue x s)

end Sys2Proof.Machine
end

