-- ==== Sys2Proof/Certificates/Slice0/Obligations.lean ====
section
/-!
DEFINITION. The statements about the block, for the provers: what each command leaves, what every step keeps, and how the block steps.
A statement that names a log entry says what the model chose there; the rest follow the numbered rules of the spec.
-/
open Sys2Proof Sys2Proof.Machine

/-! ## Steps -/

/-- A step on a queue with a command at its front runs that command on the state whose queue is the rest. -/
def Obligations.StepRunsFrontCommand : Prop :=
  ∀ (c : Instr) (rest : List Instr) (s : State), step { s with pending := c :: rest } = exec c { s with pending := rest }

/-- The model's own choice (log 6): a step on an empty queue, with no held command that may start, lets one nanosecond pass, in which the
Mantel counter counts once where its clock runs. -/
def Obligations.IdleStepCountsTime : Prop :=
  ∀ s : State, s.pending = [] → readyHeld s = none → ∃ t, step s = .next t ∧ t.ns = s.ns + 1 ∧ t.pending = [] ∧
    t.time.count = if bit s.boot.locked 20 then (s.time.count + 1) % 2 ^ 64 else s.time.count

/-- Every well-formed command completes in every state: with it at the front of the queue, the step answers a next state. -/
def Obligations.WellFormedCommandsComplete : Prop :=
  ∀ (c : Instr) (rest : List Instr) (s : State), c.wf = true → ∃ t, step { s with pending := c :: rest } = .next t

/-- An invariant of every step (the queue and the idle step are the model's own, log 6): a command leaves the queue once it has run and
no other command enters or leaves it; time passes only in a step on an empty queue, and there by one nanosecond at most. -/
def Obligations.StepKeepsQueueAndTime : Prop :=
  ∀ s t : State, step s = .next t → t.pending = s.pending.tail ∧ (s.pending ≠ [] → t.ns = s.ns) ∧
    (s.pending = [] → t.ns = s.ns ∨ t.ns = s.ns + 1)

/-- An invariant of every step: no anti-rollback counter goes down, so neither does the effective counter, and the lifecycle and the
revoked keys stay as they are. And no command but the image check of P1 and the loading of Hearth B at P3 blows an anti-rollback counter's
fuse; none that the hitless update runs does. -/
def Obligations.FusesOnlyRise : Prop :=
  (∀ s t : State, step s = .next t → s.sec.svnA ≤ t.sec.svnA ∧ s.sec.svnB ≤ t.sec.svnB ∧
    max s.sec.svnA s.sec.svnB ≤ max t.sec.svnA t.sec.svnB ∧ t.sec.lifecycle = s.sec.lifecycle ∧ t.sec.revoked = s.sec.revoked) ∧
  (∀ (c : Instr) (s t : State), (∀ mounts copies badRecords, c ≠ .p1ImageChecked mounts copies badRecords) → c ≠ .hearthBStandbyReady →
    exec c s = .next t → t.sec.svnA = s.sec.svnA ∧ t.sec.svnB = s.sec.svnB)

/-- What a lane carries reads back as what was put on it: link words with every field in its range, frame headers, link prefixes and training
messages; a link word whose check code is wrong or whose kind is reserved reads as none; scrambling twice, splitting two interleaved
codewords, spelling levels and packing symbols undo themselves. The scrambler's bit order and the packing's are the model's choice (log 61);
what is stated here holds for either. -/
def Obligations.WireFormatsAgree : Prop :=
  (∀ w : LinkWord, w.fstart < 512 → w.ackSeq < 4096 → w.cvcA < 8 → w.credA < 256 → w.cvcB < 8 → w.credB < 256 →
    (linkWordBytes w).length = 8 ∧ linkWordOf (linkWordBytes w) = some w) ∧
  (∀ bs : Bytes, bs.length = 8 → (crc8 (bs.take 7) ≠ u8 bs 7 ∨ 128 ≤ u8 bs 0) → linkWordOf bs = none) ∧
  (∀ f : Frame, f.kind < 16 → f.tc < 8 → f.res1 < 4 → f.latchkey < 65536 → f.destGid < 2 ^ 20 → f.res6 < 16 → f.srcGid < 2 ^ 20 →
    f.res9 < 16 → f.hops < 64 → f.res10 < 4 → f.entropy < 256 → f.e2eSeq < 2 ^ 32 → f.length < 65536 → f.ctx < 65536 → f.gen < 256 →
    f.fmt < 256 → f.chunk < 2 ^ 32 → f.member < 65536 → f.hcrc < 2 ^ 32 →
    (headerBytes f).length = 32 ∧ headerOf (headerBytes f) = { f with fcrc := 0, payload := [] }) ∧
  (∀ lseq rtx, lseq < 4096 → prefixGood (prefixBytes lseq rtx) = true ∧ u16 (prefixBytes lseq rtx) 0 / 16 = lseq ∧
    bit (u8 (prefixBytes lseq rtx) 1) 3 = rtx) ∧
  (∀ m : TrainMsg, m.kind < 256 → m.version < 256 → m.gang < 256 → m.laneIndex < 256 → m.port < 65536 → m.peerType < 256 → m.caps < 256 →
    m.serial < 2 ^ 64 → m.grant.length = 8 → (∀ g ∈ m.grant, g < 65536) → m.probeTime < 2 ^ 64 → m.expectLseq < 4096 →
    (trainBytes m).length = 64 ∧ trainMsgOf (trainBytes m) = { m with tcrcOk := true }) ∧
  (∀ bs : Bytes, scramble (scramble bs) = bs) ∧
  (∀ a b : List Nat, a.length = b.length → parted (interleave a b) = (a, b)) ∧
  (∀ xs : List Nat, (∀ x ∈ xs, x < 1024) → levelSymbols (levelsOf xs) = xs) ∧
  (∀ bs : Bytes, bs.length % 5 = 0 → symbolBytes (symbolsOf bs) = bs) ∧
  (∀ xs : List Nat, (∀ x ∈ xs, x < 1024) → xs.length % 4 = 0 → symbolsOf (symbolBytes xs) = xs)

/-- An invariant of every step: each die's event queue holds at most 64 events and the event log at most 65,536 records. -/
def Obligations.EventsStayBounded : Prop :=
  ∀ s t : State, (∀ die, (tget s.ev.queues die []).length ≤ 64) → s.ev.log.length ≤ 65536 → step s = .next t →
    (∀ die, (tget t.ev.queues die []).length ≤ 64) ∧ t.ev.log.length ≤ 65536

/-! ## Reset -/

/-- The state after a cold reset: P0, nothing failed; the mailbox off with rings of 64 slots, no error and all indices 0; no event queued
or logged, IRQ_LEVEL 3; every counter 0 and every filter disabled; no partition block; the Mantel count 0; and no command
waiting. The event queues and the log are within their bounds. -/
def Obligations.ResetState : Prop :=
  let s := State.reset
  s.pending = [] ∧ s.ns = 0 ∧ s.boot.phase = 0 ∧ s.boot.failed = false ∧ s.boot.mailboxReady = false ∧
  s.maloa.enable = false ∧ s.maloa.reqLog2 = 6 ∧ s.maloa.rplLog2 = 6 ∧ s.maloa.err = 0 ∧ s.maloa.reqHead = 0 ∧ s.maloa.reqTail = 0 ∧
  s.maloa.rplHead = 0 ∧ s.maloa.rplTail = 0 ∧
  s.ev.irq = false ∧ s.ev.irqEn = false ∧ s.ev.irqLevel = 3 ∧ s.ev.log = [] ∧ (∀ die, tget s.ev.queues die [] = []) ∧
  s.counters = [] ∧ s.filters = [] ∧ s.blocks = [] ∧ s.time.count = 0

/-! ## Maloa -/

/-- A reply's payload is cut into consecutive segments, SEG 0 upwards, which together are the payload; every segment but the last
carries 4,080 bytes and MORE = 1, the last at most 4,080 and MORE = 0; all carry the reply's TAG, STATUS and DETAIL; and a payload of at
most 1,044,480 bytes takes at most 256 of them. -/
def Obligations.ReplySegments : Prop :=
  ∀ r : ReplySeg, r.payload.length ≤ 1044480 →
    let l := numberSegments r 0 (segments 256 r.payload)
    l.flatMap (·.payload) = r.payload ∧ 1 ≤ l.length ∧ l.length ≤ 256 ∧
    ∀ i g, l[i]? = some g → g.seg = i ∧ g.more = decide (i + 1 < l.length) ∧ (i + 1 < l.length → g.payload.length = 4080) ∧
      g.payload.length ≤ 4080 ∧ g.tag = r.tag ∧ g.status = r.status ∧ g.reason = r.reason ∧ g.info = r.info

/-- While MBX_STAT.ERR is not 0 nothing is fetched and no reply is written. A reply-head write that leaves more than the ring's size
between the indices sets ERR to BAD_HEAD; and the write that sets ENABLE tests both rings with the sizes it leaves. Setting ERR records
MBX_ERROR in the leading Hearth's queue, where that has room. -/
def Obligations.MailboxErrorStops : Prop :=
  (∀ slot ok s, s.maloa.err ≠ 0 → exec (.requestFetch slot ok) s = .next s) ∧
  (∀ ok s, s.maloa.err ≠ 0 → exec (.replySegmentWrite ok) s = .next s) ∧
  (∀ head s, bar0Takes s 0x1001C = true → 2 ^ s.maloa.rplLog2 < (s.maloa.rplTail + 65536 - head % 65536) % 65536 →
    exec (.rplIdxHeadWrite head) s = .next (mailboxError 2 (modMbx (fun m => { m with rplHead := head % 65536 }) (countBar0 1 0x1001C s)))) ∧
  (∀ v s, bar0Takes s 0x10000 = true → s.maloa.enable = false → bit v 0 = true → bit v 1 = false →
    2 ^ clamp 3 10 (bitsOf v 11 8) < (s.maloa.reqTail + 65536 - s.maloa.reqHead) % 65536 →
    ∃ t, exec (.mailboxEnable v) s = .next t ∧ t.maloa.err = 1 ∧ t.maloa.enable = true ∧ t.maloa.reqLog2 = clamp 3 10 (bitsOf v 11 8) ∧
      t.maloa.rplLog2 = clamp 3 10 (bitsOf v 15 12)) ∧
  (∀ c s, (tget s.ev.queues (leadDie s) []).length < 64 →
    (mailboxError c s).maloa = { s.maloa with err := c } ∧
    ∃ m, m.code = 0x0131 ∧ m.severity = 4 ∧ m.arg0 = c % 2 ^ 32 ∧
      tget (mailboxError c s).ev.queues (leadDie s) [] = tget s.ev.queues (leadDie s) [] ++ [m])

/-! ## Forwarding -/

/-- STATIC chooses the entry of E, |E| at most 1,024, whose index is (H[31:22] × |E|) div 1,024, so always an eligible port; and frames of
one flow, with the same ten key bytes, take the same port while the seed and E stay the same. -/
def Obligations.StaticChoiceIsEligible : Prop :=
  (∀ (s : State) (f : Frame) (e : List (Nat × Nat)), e ≠ [] →
    ∃ i c, i = flowHash s f / 2 ^ 22 % 1024 * e.length / 1024 ∧ e[i]? = some c ∧ staticChoice s f e = c.1) ∧
  (∀ (s t : State) (f g : Frame) (e : List (Nat × Nat)), flowKey f = flowKey g → hashSeed s = hashSeed t →
    staticChoice s f e = staticChoice t g e)

/-! ## Reduction arithmetic -/

/-- No sign of zero is kept: the code of −0 reads as the value of +0, an exact result of zero is written as +0, and no element is ever
written as −0, in a plain format or in a block of an MX format. -/
def Obligations.NoNegativeZero : Prop :=
  ∀ (fmt : Nat) (f : FloatFmt) (rd : Rounding), floatFmt fmt = some f →
    decodeFloat fmt f (2 ^ (fmtBits fmt - 1)) = decodeFloat fmt f 0 ∧
    (∀ (x : Int) (u : Nat) (neg : Bool) (d : Nat), (writeFloat fmt f x rd u (neg, 0, d)).code = 0) ∧
    (∀ (x : Int) (u : Nat) (v : Bool × Nat × Nat), (writeFloat fmt f x rd u v).code ≠ 2 ^ (fmtBits fmt - 1)) ∧
    (∀ l : List Exact, ∀ c ∈ (writePlain fmt rd l).codes, c ≠ 2 ^ (fmtBits fmt - 1)) ∧
    (∀ l : List Exact, ∀ c ∈ (writeMxBlock fmt rd l).2.codes, c ≠ 2 ^ (fmtBits fmt - 1))

/-! ## Counters -/

/-- COUNTER_FILTER_SET replaces a filter and at the same instant clears the count and the overflow bit of that filter, so what the count
holds belongs to one setting; it leaves every other filter and every other counter alone. At reset every filter is disabled. -/
def Obligations.FilterSetReplaces : Prop :=
  (∀ q s, let p := q.params
    let a := started q s
    accepted opCounterFilterSet q anyBlock s = true → u8 p 0 ≤ 31 → u8 p 1 ≤ 2 → filterReserved p = false → u32 p 8 ≤ u32 p 12 →
    ∃ t, exec (.counterFilterSet q) s = answered opCounterFilterSet q s (.ok [] t) ∧
      tfind t.filters (u8 p 0) = some { type := u8 p 1, enable := bit (u8 p 2) 0, priv := u8 p 3, mask := u8 p 4, lo := u32 p 8,
                                        hi := u32 p 12, cls := u16 p 16 } ∧
      (∀ g, g ≠ u8 p 0 → tfind t.filters g = tfind a.filters g) ∧
      (∀ k : CtrKey, tget t.counters k {} = if k.scope = 18 ∧ k.inst = u8 p 0 then {} else tget a.counters k {}) ∧
      t = { a with filters := t.filters, counters := t.counters }) ∧
  (∀ g, tfind State.reset.filters g = none)

/-! ## Maloa commands: each is answered with its own effect -/

/-- DEVICE_RESET arms the reset that follows its reply; RESET_CAUSE_CLEAR clears the bits written as ones and answers what is left;
STARTUP_READ, DEVICE_INFO, ECHO, DIE_MAP_READ and SEAM_LINK_READ only answer (ECHO with its own parameters). -/
def Obligations.StartupCommandsComplete : Prop :=
  (∀ q s, s.boot.resetPending = false → accepted opDeviceReset q anyBlock s = true → u8 q.params 0 = 1 →
    exec (.deviceReset q) s = answered opDeviceReset q s
      (.ok [] (modBoot (fun b => { b with resetPending := true, emptyTables := bit (u8 q.params 1) 0 }) (started q s)))) ∧
  (∀ q s, accepted opResetCauseClear q anyBlock s = true →
    exec (.resetCauseClear q) s = answered opResetCauseClear q s
      (.ok (beBytes 4 (causeReg (modBoot (fun b => { b with cause := clearCause (u32 q.params 0) b.cause }) (started q s))))
        (modBoot (fun b => { b with cause := clearCause (u32 q.params 0) b.cause }) (started q s)))) ∧
  (∀ q s, accepted opStartupRead q anyBlock s = true → s.boot.entry.length = 8 → RepliesOnly opStartupRead (.startupRead q) q s 48) ∧
  (∀ q s, accepted opDeviceInfo q anyBlock s = true → RepliesOnly opDeviceInfo (.deviceInfo q) q s 32) ∧
  (∀ q s, accepted opEcho q anyBlock s = true →
    exec (.echo q) s = answered opEcho q s (.ok q.params (started q s))) ∧
  (∀ q s, accepted opDieMapRead q anyBlock s = true → s.boot.discDone = true → RepliesOnly opDieMapRead (.dieMapRead q) q s 640) ∧
  (∀ q s, accepted opSeamLinkRead q anyBlock s = true → s.boot.discDone = true → u8 q.params 0 ≤ 38 →
    RepliesOnly opSeamLinkRead (.seamLinkRead q) q s 24)

/-- TOKEN_SET, TOKEN_CLEAR and SELF_GID_SET take effect with the store transaction that carries it, or at once where the store is
unavailable; TOKEN_READ answers the entry,
and EVENT_READ the records from the sequence number asked for. -/
def Obligations.TokenAndEventCommandsComplete : Prop :=
  (∀ q s, accepted opTokenSet q anyBlock s = true → tokenIdOk (u16 q.params 0) = true →
    1 ≤ (tokenOf q.params).level → (tokenOf q.params).level ≤ 3 →
    ((tokenOf q.params).level = 2 ∨ (tokenOf q.params).latchkey = 0) →
    locksOut q (u16 q.params 0) (some (tokenOf q.params)) (started q s) = false →
    exec (.tokenSet q) s = answered opTokenSet q s
      (storeOrApply (.token (u16 q.params 0) (some (tokenOf q.params)) (routeOf q.src)) (started q s))) ∧
  (∀ q s, accepted opTokenClear q anyBlock s = true → tokenIdOk (u16 q.params 0) = true →
    locksOut q (u16 q.params 0) none (started q s) = false →
    exec (.tokenClear q) s = answered opTokenClear q s
      (storeOrApply (.token (u16 q.params 0) none (routeOf q.src)) (started q s))) ∧
  (∀ q s, accepted opTokenRead q anyBlock s = true → tokenIdOk (u16 q.params 0) = true →
    exec (.tokenRead q) s = answered opTokenRead q s
      (.ok (tokenBytes (u16 q.params 0) (tfind (started q s).maloa.tokens (u16 q.params 0))) (started q s))) ∧
  (∀ q s, accepted opSelfGidSet q anyBlock s = true →
    exec (.selfGidSet q) s = answered opSelfGidSet q s
      (storeOrApply (.selfGid (bit (u32 q.params 0) 31) (u32 q.params 0 % 2 ^ 20)) (started q s))) ∧
  (∀ q s, accepted opEventRead q anyBlock s = true → 1 ≤ u8 q.params 9 → u8 q.params 9 ≤ 127 →
    ∃ n ≤ u8 q.params 9, RepliesOnly opEventRead (.eventRead q) q s (16 + 32 * n))

/-- The link commands: LINK_WEIGHTS_SET stages one item for each port it names; LINK_STATUS_READ only answers; LINK_RETRAIN starts
training and waits for its end. -/
def Obligations.LinkCommandsComplete : Prop :=
  (∀ q s, let p := q.params
    let items := portItems p .link (zeros 4 ++ (p.drop 4).take 6 ++ zeros 2 ++ p.drop 12)
    accepted opLinkWeightsSet q anyBlock s = true → firstRefusal (portRange p) = none → (∀ i < 6, u8 p (4 + i) ≠ 0) →
    1000 ≤ u16 p 12 → u16 p 12 ≤ 25000 → 100 ≤ u16 p 14 → u16 p 14 ≤ 10000 →
    stagingAllowed q items (started q s) = true →
    exec (.linkWeightsSet q) s = answered opLinkWeightsSet q s (.ok [] (withStaged q items (started q s)))) ∧
  (∀ q s, accepted opLinkStatusRead q (portInBlock q) s = true → u16 q.params 0 < 1280 →
    ∃ n, RepliesOnly opLinkStatusRead (.linkStatusRead q) q s n) ∧
  (∀ q s, accepted opLinkRetrain q anyBlock s = true → u16 q.params 0 < 1280 → phyReady (started q s) (u16 q.params 0) = true →
    isTraining (started q s) (u16 q.params 0) = false →
    exec (.linkRetrain q) s = answered opLinkRetrain q s (.wait (.link (u16 q.params 0))
      (retrain (u16 q.params 0) 4 (bit (u8 q.params 2) 0 || decide ((linkAt (started q s) (u16 q.params 0)).state = .down))
        (started q s))))

/-- The port commands: the settings that PORT_CONFIG gives each port of its range, the ports that PORT_ENABLE enables or disables, the
gang that GANG_SET stages, the bring-up that WINDOW_RESET starts, the test state that PORT_LOOPBACK and PRBS_RUN put a port in. -/
def Obligations.PortCommandsComplete : Prop :=
  (∀ q s, accepted opPortConfig q anyBlock s = true → firstRefusal (portRange q.params) = none →
    u8 q.params 5 ≤ 7 → 1 ≤ u8 q.params 6 → u8 q.params 6 ≤ 100 →
    exec (.portConfig q) s = answered opPortConfig q s (.ok [] ((List.range (u16 q.params 2)).foldl (fun s i =>
      modPort (u16 q.params 0 + i) (fun x => { x with
        spareAuto := bit (u8 q.params 4) 0, eqFreeze := bit (u8 q.params 4) 1
        txPreset := u8 q.params 5, degradeSer := u8 q.params 6 }) s) (started q s)))) ∧
  (∀ q s, accepted opPortStateRead q (portInBlock q) s = true → u16 q.params 0 < 1280 →
    RepliesOnly opPortStateRead (.portStateRead q) q s 32) ∧
  (∀ q s, accepted opPortEnable q anyBlock s = true → firstRefusal (portRange q.params) = none →
    (∀ i < u16 q.params 2, (windowAt (started q s) (windowOf (u16 q.params 0 + i))).bringUp = false) →
    exec (.portEnable q) s = answered opPortEnable q s (.ok [] (((List.range (u16 q.params 2)).map (u16 q.params 0 + ·)).foldl
      (enablePort (bit (u8 q.params 4) 0)) (started q s)))) ∧
  (∀ q s, let items : List Item := [{ key := .gang (16 * u8 q.params 0 + u8 q.params 1), value := q.params.drop 4 }]
    accepted opGangSet q anyBlock s = true → u8 q.params 0 ≤ 7 → u8 q.params 1 ≤ 15 →
    widthsOk ((List.range 8).map fun i => u8 q.params (4 + i)) = true → stagingAllowed q items (started q s) = true →
    exec (.gangSet q) s = answered opGangSet q s (.ok [] (withStaged q items (started q s)))) ∧
  (∀ q s, let w := u8 q.params 0
    accepted opWindowReset q anyBlock s = true → w ≤ 7 → (windowAt (started q s) w).bringUp = false →
    exec (.windowReset q) s = answered opWindowReset q s (.wait (.window w) (advertise (startBringUp w (bit (u8 q.params 1) 0)
      (raise 0x0502 (eicDie w) 5 w 5 0 (modWindow w (fun x => { x with cause := 5 }) (started q s))))))) ∧
  (∀ q s, accepted opLambdaMapRead q anyBlock s = true → u8 q.params 0 ≤ 7 → u8 q.params 1 ≤ 15 →
    ∃ n, RepliesOnly opLambdaMapRead (.lambdaMapRead q) q s n) ∧
  (∀ q s, let n := u16 q.params 0
    let mode := u8 q.params 2
    let a := modPort n (fun x => { x with loopback := mode }) (linkDown n (started q s))
    accepted opPortLoopback q anyBlock s = true → n < 1280 → mode ≤ 3 →
    (portCode (started q s) n = 0 ∨ portCode (started q s) n = 9) →
    (windowAt (started q s) (windowOf n)).inService = true →
    exec (.portLoopback q) s = answered opPortLoopback q s (.ok []
      (if mode = 0 then idlePort n (setPortState n .disabled a)
       else if mode < 3 && carriesFrames (setPortState n .test a) n then startTraining n (setPortState n .test a)
       else setPortState n .test a))) ∧
  (∀ q s, let n := u16 q.params 0
    let st := (portAt (started q s) n).state
    accepted opPrbsRun q anyBlock s = true → n < 1280 → u8 q.params 2 ≤ 1 → 1 ≤ u32 q.params 4 → u32 q.params 4 ≤ 60000 →
    (portCode (started q s) n = 0 ∨ portCode (started q s) n = 9) → (windowAt (started q s) (windowOf n)).inService = true →
    (portAt (started q s) n).prbs = none →
    exec (.prbsRun q) s = answered opPrbsRun q s
      (.wait (.prbs n) (setPortState n .test (modPort n (fun x => { x with prbs := some st }) (started q s)))))

/-- The light commands: LASER_SWITCH starts a planned switch and waits for its end; LASER_CMIS_ACCESS makes its access and answers what
the module returned; MONITOR_CONFIG and BIAS_LIMITS_SET set one Window or module, or all of them; the reads only answer. -/
def Obligations.LightCommandsComplete : Prop :=
  (∀ q s t, let w := u8 q.params 0
    let side := u8 q.params 1 + 1
    let m := moduleOf w side
    let a := if bit (u8 q.params 2) 1 then
        modModule m (fun x => { x with lasers := x.lasers.map fun y => { y with failed := false } }) (started q s) else started q s
    accepted opLaserSwitch q anyBlock s = true → w ≤ 7 → u8 q.params 1 ≤ 1 → lightBusy (started q s) w = false →
    (moduleAt (started q s) m).state = 2 → startSwitch w side 1 (bit (u8 q.params 2) 0) (List.range 9) a = some t →
    exec (.laserSwitch q) s = answered opLaserSwitch q s (.wait (.laser w) t)) ∧
  (∀ q s, accepted opLaserStateRead q anyBlock s = true → u8 q.params 0 ≤ 15 →
    RepliesOnly opLaserStateRead (.laserStateRead q) q s 136) ∧
  (∀ q data s, let p := q.params
    let m := u8 p 0
    let n := u8 p 5
    let wr := decide (u8 p 1 = 1)
    accepted opLaserCmisAccess q anyBlock s = true → m ≤ 15 → u8 p 1 ≤ 1 → 1 ≤ n → n ≤ 128 → u8 p 4 + n ≤ 256 →
    p.length = 8 + (if wr then ceilDiv n 4 * 4 else 0) →
    (wr = false ∨ (128 ≤ u8 p 4 ∧ u8 p 3 < 16) ∨ activeOn (started q s) (m / 2) (sideOf m) = []) →
    2 ≤ (moduleAt (started q s) m).state →
    exec (.laserCmisAccess q true data) s = answered opLaserCmisAccess q s
      (.ok (beBytes 1 n ++ zeros 3 ++ (if wr then [] else padTo (ceilDiv n 4 * 4) (data.take n)))
        (modModule m (fun x => { x with cmisOk := true }) (emit (.laser m
          (((u8 p 2 * 256 + u8 p 3) * 256 + u8 p 4) * 256 + n) (if wr then beNat ((p.drop 8).take n) else 0)) (started q s))))) ∧
  (∀ q s, accepted opRxPowerRead q (rxInBlock q) s = true → u8 q.params 0 ≤ 7 → u8 q.params 1 ≤ 5 →
    u8 q.params 2 ≤ (if u8 q.params 1 = 0 then 15 else if u8 q.params 1 = 1 then 3 else 0) →
    RepliesOnly opRxPowerRead (.rxPowerRead q) q s 76) ∧
  (∀ q s, let p := q.params
    let v (i : Nat) : Int := signedOf 16 (u16 p i)
    let cls := u8 p 1
    accepted opMonitorConfig q anyBlock s = true → (u8 p 0 ≤ 7 ∨ u8 p 0 = 255) → cls ≤ 2 → u8 p 2 ≤ 3 → 1 ≤ u8 p 3 → u8 p 3 ≤ 64 →
    v 4 < v 6 → v 6 < v 8 → v 8 < v 10 → v 10 < v 12 →
    (cls = 2 → 1400 ≤ v 14 ∧ v 14 ≤ 1800 ∧ v 8 < v 14 ∧ v 14 < v 10) →
    ∃ t, exec (.monitorConfig q) s = answered opMonitorConfig q s (.ok [] t) ∧
      (∀ w, ¬(w = u8 p 0 ∨ (u8 p 0 = 255 ∧ w ≤ 7)) → lightAt t w = lightAt (started q s) w) ∧
      (∀ w ≤ 7, (w = u8 p 0 ∨ u8 p 0 = 255) →
        (lightAt t w).classes = (lightAt (started q s) w).classes.set cls
          { integ := u8 p 2, avg := u8 p 3, los := v 4, lowAlarm := v 6, lowWarn := v 8, highWarn := v 10, highAlarm := v 12
            target := if cls = 2 then v 14 else 0 })) ∧
  (∀ q s, accepted opBiasLimitsSet q anyBlock s = true → (u8 q.params 0 ≤ 15 ∨ u8 q.params 0 = 255) → 95 ≤ u8 q.params 1 →
    u8 q.params 1 ≤ 100 →
    exec (.biasLimitsSet q) s = answered opBiasLimitsSet q s (.ok []
      ((if u8 q.params 0 = 255 then List.range 16 else [u8 q.params 0]).foldl (fun s m => modModule m (fun x => { x with
        limits := some (u8 q.params 1, bit (u8 q.params 2) 0, bit (u8 q.params 2) 1) }) s) (started q s)))) ∧
  (∀ m s, let x := moduleAt s m
    moduleAt (takeLimits m s) m = match x.limits with
      | some (c, a, h) => { x with ceiling := c, autoSwitch := a, loopHold := h, limits := none }
      | none => x)

/-- The Transom commands: a map write stages the words of its entries with their reserved bits 0; the two reads only answer. -/
def Obligations.TransomCommandsComplete : Prop :=
  (∀ q s, let p := q.params
    let w := u8 p 0
    let first := u8 p 1
    let n := u8 p 2
    let word (i : Nat) : Nat := u32 p (4 + 4 * i)
    let after (i : Nat) : Nat :=
      if first ≤ i && i < first + n then word (i - first)
      else u32 (seenValue (started q s) (txnAt (started q s) q.txn) (.entry 6 (32 * w + i))) 0
    let items : List Item := (List.range n).map fun i =>
      { key := .entry 6 (32 * w + first + i), value := beBytes 4 (word i / 2 ^ 26 * 2 ^ 26 + word i % 2 ^ 16) }
    accepted opTransomMapWrite q anyBlock s = true → w ≤ 7 → first ≤ 31 → 1 ≤ n → first + n ≤ 32 → p.length = 4 + 4 * n →
    (∀ i < n, firstRefusal (transomWordChecks (4 + 4 * i) (word i)) = none) →
    (∀ i < n, entryConflict after (first + i) = false) → stagingAllowed q items (started q s) = true →
    exec (.transomMapWrite q) s = answered opTransomMapWrite q s (.ok [] (withStaged q items (started q s)))) ∧
  (∀ q s, accepted opTransomMapRead q anyBlock s = true → u8 q.params 0 ≤ 7 →
    RepliesOnly opTransomMapRead (.transomMapRead q) q s 260) ∧
  (∀ q s, accepted opTransomPathCheck q anyBlock s = true → u8 q.params 0 ≤ 7 → u8 q.params 1 ≤ 31 → u8 q.params 2 ≤ 7 →
    RepliesOnly opTransomPathCheck (.transomPathCheck q) q s 16)

/-- The commands that write forwarding tables stage exactly the items they name; CHUTE_READ and TABLE_READ of a live entry answer;
TABLE_CLEAR_AGE ages one flowlet entry and answers its word. -/
def Obligations.TableCommandsComplete : Prop :=
  (∀ q s, let p := q.params
    let first := u32 p 0 % 2 ^ 20
    let n := u32 p 4
    let same := bit (u8 p 8) 0
    let items : List Item := (List.range n).map fun i =>
      { key := .entry 1 (first + i), value := beBytes 4 (withParity (u32 p (if same then 12 else 12 + 4 * i))) }
    accepted opRouteWriteRange q anyBlock s = true → 1 ≤ n → first + n ≤ 1048576 → (same = true ∨ n ≤ 1017) →
    p.length = (if same then 16 else 12 + 4 * n) → stagingAllowed q items (started q s) = true →
    exec (.routeWriteRange q) s = answered opRouteWriteRange q s (.ok [] (withStaged q items (started q s)))) ∧
  (∀ q s, let p := q.params
    let n := u8 p 2
    let cs := (List.range n).map fun i => (u16 p (4 + 2 * i) / 32, u16 p (4 + 2 * i) % 32)
    let items : List Item := [{ key := .entry 2 (u16 p 0), value := wordBytes (pathsetWords cs) }]
    accepted opPathsetWrite q anyBlock s = true → u16 p 0 < 16384 → n ≤ 64 → (∀ c ∈ cs, c.1 < 1280 ∧ c.2 ≠ 0) →
    ((cs.map (·.1)).eraseDups).length = cs.length → p.length = 4 + 4 * ceilDiv n 2 →
    stagingAllowed q items (started q s) = true →
    exec (.pathsetWrite q) s = answered opPathsetWrite q s (.ok [] (withStaged q items (started q s)))) ∧
  (∀ q s, let p := q.params
    let items : List Item := [{ key := .entry 3 (u16 p 0)
                                value := beBytes 4 (b2n (bit (u8 p 2) 0) * 2 ^ 31 + b2n (bit (u8 p 2) 1) * 2 ^ 30) ++ p.drop 4 }]
    accepted opMcastWrite q anyBlock s = true → stagingAllowed q items (started q s) = true →
    exec (.mcastWrite q) s = answered opMcastWrite q s (.ok [] (withStaged q items (started q s)))) ∧
  (∀ q s, let p := q.params
    let items : List Item := [{ key := .flowletCfg, value := [byteOf (u8 p 0), 0] ++ p.drop 2 }]
    accepted opFlowletConfig q anyBlock s = true → u8 p 0 ≤ 2 → 1 ≤ u16 p 2 → u16 p 2 ≤ 16384 →
    stagingAllowed q items (started q s) = true →
    exec (.flowletConfig q) s = answered opFlowletConfig q s (.ok [] (withStaged q items (started q s)))) ∧
  (∀ q s, let w (c : Nat) : Nat := u32 q.params (4 * c)
    let items : List Item := { key := .stairAll, value := [] } :: (List.range 8).map fun c =>
      { key := .entry 4 c, value := beBytes 4 (w c) }
    accepted opStairConfig q anyBlock s = true → (∀ c < 8, 1 ≤ w c / 65536 ∧ w c % 256 ≤ 2) →
    stagingAllowed q items (started q s) = true →
    exec (.stairConfig q) s = answered opStairConfig q s (.ok [] (withStaged q items (started q s)))) ∧
  (∀ q s, accepted opChuteRead q anyBlock s = true → u8 q.params 0 ≤ 3 → 1 ≤ u8 q.params 8 → u8 q.params 8 ≤ 27 →
    ∃ n, RepliesOnly opChuteRead (.chuteRead q) q s n) ∧
  (∀ q bad s, let p := q.params
    let table := u8 p 0
    let i := u32 p 4
    let n := u16 p 8
    let r : List Nat × State := (List.range n).foldl (fun r k =>
      let v := readLive (u8 p 2) (u8 p 3) table (i + k) r.2
      (r.1 ++ v.1, v.2)) ([], started q s)
    accepted opTableRead q anyBlock s = true → q.txn = 0 → u8 p 1 = 1 → firstRefusal (tableChecks true table i) = none →
    u8 p 2 ≤ 3 → u8 p 3 ≤ 1 → 1 ≤ n → n * tableWords table ≤ 1018 → i + n ≤ tableSize table →
    exec (.tableRead q bad) s = answered opTableRead q s (.ok (beBytes 4 i ++ beBytes 4 n ++ wordBytes r.1) r.2)) ∧
  (∀ q s, let p := q.params
    let table := u8 p 0
    let i := u32 p 4
    let n := u16 p 8
    let a := started q s
    accepted opTableRead q anyBlock s = true → u8 p 1 = 0 →
    (q.txn = 0 ∨ ownTxnRefused q false (· = .failed) a = none) → firstRefusal (tableChecks true table i) = none → table ≠ 5 →
    u8 p 2 ≤ 3 → u8 p 3 ≤ 1 → 1 ≤ n → n * tableWords table ≤ 1018 → i + n ≤ tableSize table →
    exec (.tableRead q []) s = answered opTableRead q s (.ok (beBytes 4 i ++ beBytes 4 n ++ wordBytes ((List.range n).flatMap fun k =>
      bytesWords (tableWords table) (seenValue a (txnAt a q.txn) (.entry table (i + k))))) a)) ∧
  (∀ q s, let table := u8 q.params 0
    let r := engineWrite q 4 8 table (u32 q.params 4) (bytesWords (tableWords table) (q.params.drop 8)) (started q s)
    accepted opTableWrite q anyBlock s = true → firstRefusal (tableChecks false table (u32 q.params 4)) = none →
    q.params.length = 8 + 4 * tableWords table → r.1.refuse.status = 0 →
    exec (.tableWrite q) s = answered opTableWrite q s (.ok [] r.2)) ∧
  (∀ q bad s, let table := u8 q.params 0
    let n := tableWords table
    let r := engineCompareWrite q 4 (8 + 4 * n) table (u32 q.params 4) bad (bytesWords n (q.params.drop 8))
      (bytesWords n (q.params.drop (8 + 4 * n))) (started q s)
    accepted opTableCompareWrite q anyBlock s = true → firstRefusal (tableChecks false table (u32 q.params 4)) = none →
    q.params.length = 8 + 8 * n → r.1.refuse.status = 0 →
    exec (.tableCompareWrite q bad) s = answered opTableCompareWrite q s
      (.ok (beBytes 1 (b2n r.1.matched) ++ zeros 3 ++ wordBytes r.1.words) r.2)) ∧
  (∀ q s, let a := clearAge (u8 q.params 1) (u32 q.params 4) (started q s)
    accepted opTableClearAge q anyBlock s = true → u8 q.params 0 = 5 → u8 q.params 1 ≤ 3 → u32 q.params 4 < 262144 →
    exec (.tableClearAge q) s = answered opTableClearAge q s
      (.ok (beBytes 4 (flowletWord a (u8 q.params 1) (u32 q.params 4))) a))

/-- The transaction commands: TXN_BEGIN opens a transaction under the next handle; TXN_COMMIT moves an open one to
COMMITTING and waits for its activation instant, the one asked for or the next after the shadows are ready; TXN_ROLLBACK discards one and answers how many items it held; TXN_STATUS
only answers. -/
def Obligations.TransactionCommandsComplete : Prop :=
  (∀ q s, let p := q.params
    let dev := decide (u8 p 0 = 1)
    let c := callerOf (tracked q s) q
    let a := started q s
    accepted opTxnBegin q (fun _ own => u8 q.params 0 ≠ 0 || u16 q.params 2 = own) s = true → u8 p 0 ≤ 1 →
    (dev = true → c.level = ownerLevel ∧ u16 p 2 = 0) → (dev = false → (blockAt a (u16 p 2)).isSome = true) → u16 p 4 ≤ 3600 →
    (∀ t ∈ a.setup.txns, ¬(t.device = dev ∧ t.latchkey = u16 p 2)) →
    exec (.txnBegin q) s = answered opTxnBegin q s (.ok (beBytes 4 a.setup.nextHandle) { a with setup := { a.setup with
      txns := a.setup.txns ++ [{ handle := a.setup.nextHandle, device := dev, latchkey := u16 p 2, token := q.token, route := c.route,
                                 idle := if u16 p 4 = 0 then 60 else u16 p 4, lastNamed := a.ns }]
      nextHandle := if a.setup.nextHandle + 1 = 2 ^ 32 then 1 else a.setup.nextHandle + 1 } })) ∧
  (∀ q bad s t, let a := started q s
    let r := shadowsGood t.handle bad a
    let d := draw 2000001 r.2
    accepted opTxnCommit q anyBlock s = true → q.txn ≠ 0 → ownTxnRefused q false (fun _ => false) a = none → txnAt a q.txn = some t →
    t.state = .opened → busyBlock a t = none → r.1 = true → commitRefusal t a = none →
    (u64 q.params 0 = 0 ∨ (u64 q.params 0 % 1024 = 0 ∧ u64 q.params 0 ≤ mantel a + 10 * second ∧
      mantel r.2 + d.1 + 2048 ≤ u64 q.params 0)) →
    exec (.txnCommit q bad 0) s = answered opTxnCommit q s (.wait (.commit t.handle) (setTxn { t with
      state := .committing, t := if u64 q.params 0 = 0 then nextInstant (mantel r.2 + d.1 + 2048) else u64 q.params 0 } d.2))) ∧
  (∀ q s t, let a := started q s
    accepted opTxnRollback q anyBlock s = true → q.txn ≠ 0 →
    ownTxnRefused q (decide ((callerOf (tracked q s) q).level = ownerLevel)) (· = .committing) a = none → txnAt a q.txn = some t →
    exec (.txnRollback q) s = answered opTxnRollback q s (.ok (beBytes 4 t.count) (rollBack t 1 a))) ∧
  (∀ q s t, accepted opTxnStatus q (fun s own => match txnAt s (u32 q.params 0) with
      | none => true
      | some t => !t.device && t.latchkey = own) s = true → txnAt (started q s) (u32 q.params 0) = some t →
    RepliesOnly opTxnStatus (.txnStatus q) q s 28)

/-- The snapshot commands: SNAPSHOT_SAVE, SNAPSHOT_DELETE and SNAPSHOT_SET_BOOT wait for the store transaction that carries their
effect (a save of contents already held is answered at once); SNAPSHOT_APPLY stages what differs from the snapshot; SNAPSHOT_LIST only answers. -/
def Obligations.SnapshotCommandsComplete : Prop :=
  (∀ q s, let a := started q s
    let device := decide (u8 q.params 0 = 1)
    let n := takeSnapshot a device (u16 q.params 2)
    let reply := beBytes 8 n.digest ++ beBytes 4 n.content.length ++ beBytes 1 0 ++ zeros 3
    let x : NvTxn := { id := 0, effect := .snapSave n, payload := reply }
    accepted opSnapshotSave q anyBlock s = true → u8 q.params 0 ≤ 1 → (device = true → u16 q.params 2 = 0) →
    (device = false → (blockAt a (u16 q.params 2)).isSome = true) → snapshotAt a n.digest = none →
    a.nv.snapshots.length < 64 → storeUp a = true →
    exec (.snapshotSave q) s = answered opSnapshotSave q s (if snapshotBytes a < snapshotUsed a + n.content.length
      then .refuse { status := 8, reason := 0x81 } a else storing x a)) ∧
  (∀ q s, let a := started q s
    let device := decide (u8 q.params 0 = 1)
    let n := takeSnapshot a device (u16 q.params 2)
    accepted opSnapshotSave q anyBlock s = true → u8 q.params 0 ≤ 1 → (device = true → u16 q.params 2 = 0) →
    (device = false → (blockAt a (u16 q.params 2)).isSome = true) → (snapshotAt a n.digest).isSome = true →
    exec (.snapshotSave q) s = answered opSnapshotSave q s
      (.ok (beBytes 8 n.digest ++ beBytes 4 n.content.length ++ beBytes 1 1 ++ zeros 3) a)) ∧
  (∀ q obs s n t, let d := u64 q.params 0
    let b := started q s
    let cached := b.cellar.snapshots.contains d && !obs.cachedBad
    let a := cacheSnapshot d (if cached then b else nvReadEffects 6 n.content.length obs (dropCached d b))
    let items := snapshotDiff a n
    accepted opSnapshotApply q anyBlock s = true → snapshotAt b d = some n → txnAt b q.txn = some t →
    n.device = t.device → n.latchkey = t.latchkey → (cached = true ∨ nvLost obs b = false) → stagingAllowed q items a = true →
    (∀ w < 8, (∃ i ∈ items, ∃ e, i.key = .entry 6 e ∧ e / 32 = w) → stagedMapOk (withStaged q items a) q.txn w = true) →
    namesOutOfService a n = false →
    ∃ payload, payload.length = 12 ∧
      exec (.snapshotApply q obs false) s = answered opSnapshotApply q s (.ok payload (withStaged q items a))) ∧
  (∀ q s, accepted opSnapshotList q anyBlock s = true →
    RepliesOnly opSnapshotList (.snapshotList q) q s (4 + 24 * s.nv.snapshots.length)) ∧
  (∀ q s, let a := started q s
    accepted opSnapshotDelete q anyBlock s = true → (snapshotAt a (u64 q.params 0)).isSome = true → storeUp a = true →
    exec (.snapshotDelete q) s = answered opSnapshotDelete q s (storing { id := 0, effect := .snapDelete (u64 q.params 0) } a)) ∧
  (∀ q s, let a := started q s
    accepted opSnapshotSetBoot q anyBlock s = true →
    (u64 q.params 0 = 0 ∨ (snapshotAt a (u64 q.params 0)).isSome = true) →
    (∀ n, snapshotAt a (u64 q.params 0) = some n → n.device = true) → storeUp a = true →
    exec (.snapshotSetBoot q) s = answered opSnapshotSetBoot q s (storing { id := 0, effect := .snapBoot (u64 q.params 0) } a))

/-- The partition commands: BLOCK_CREATE, BLOCK_DELETE and BLOCK_POOL_SET stage one item in a device transaction; GRANT_SET takes effect
with its store transaction, or at once where the store is unavailable; BLOCK_QUIESCE starts a drain and waits for it; BLOCK_RESUME
resumes a block that no commit holds; BLOCK_READ only answers. -/
def Obligations.PartitionCommandsComplete : Prop :=
  (∀ q s, let p := q.params
    let b := layoutOf p {}
    let a := started q s
    let items : List Item := [{ key := .block (u16 p 0), value := p }]
    accepted opBlockCreate q anyBlock s = true → (notDevice q a).1 = false → u16 p 0 ≠ 0 → u16 p 0 ≠ 0xFFFF → u8 p 3 ≤ 64 →
    (b.hasCtx = true → b.ctxFirst ≤ b.ctxLast) → (b.hasCtx = false → b.ctxFirst = 0 ∧ b.ctxLast = 0) →
    p.length = 60 + 8 * u8 p 3 → (∀ r ∈ b.ranges, r.2 ≠ 0 ∧ r.1 + r.2 ≤ 1048576) →
    (b.ranges.Pairwise fun x r => ¬(r.1 < x.1 + x.2 ∧ x.1 < r.1 + r.2)) → keyInUse a (namedTxn q a) (u16 p 0) = bit (u8 p 2) 0 →
    stagingAllowed q items a = true →
    exec (.blockCreate q) s = answered opBlockCreate q s (.ok [] (withStaged q items a))) ∧
  (∀ q s, let key := u16 q.params 0
    let a := started q s
    let items : List Item := [{ key := .block key, value := beBytes 2 key ++ zeros 2 }]
    accepted opBlockDelete q anyBlock s = true → (notDevice q a).1 = false → keyInUse a (namedTxn q a) key = true →
    stagingAllowed q items a = true →
    exec (.blockDelete q) s = answered opBlockDelete q s (.ok [] (withStaged q items a))) ∧
  (∀ q s, accepted opBlockRead q (fun _ own => u16 q.params 0 = own) s = true → u16 q.params 0 = 0 →
    RepliesOnly opBlockRead (.blockRead q) q s (4 + 4 * (sortedBlocks (started q s)).length)) ∧
  (∀ q s b, accepted opBlockRead q (fun _ own => u16 q.params 0 = own) s = true → u16 q.params 0 ≠ 0 →
    blockAt (started q s) (u16 q.params 0) = some b →
    RepliesOnly opBlockRead (.blockRead q) q s (92 + 8 * b.ranges.length)) ∧
  (∀ q s, let p := q.params
    let key := u16 p 0
    let a := started q s
    let items : List Item := [{ key := .pool key, value := beBytes 2 key ++ zeros 2 ++ (poolFrom p).bytes.take 9 ++ zeros 3 }]
    accepted opBlockPoolSet q anyBlock s = true → (notDevice q a).1 = false → u16 p 4 ≤ 2048 → 1 ≤ u16 p 6 → u16 p 6 ≤ 3072 →
    u16 p 8 ≤ 1024 → u16 p 10 ≤ 1024 → 1 ≤ u8 p 12 → u16 p 4 ≤ u16 p 6 → (key = 0 ∨ keyInUse a (namedTxn q a) key = true) →
    stagingAllowed q items a = true →
    exec (.blockPoolSet q) s = answered opBlockPoolSet q s (.ok [] (withStaged q items a))) ∧
  (∀ q s, let a := started q s
    accepted opGrantSet q anyBlock s = true → u8 q.params 2 < 16 → (blockAt a (u16 q.params 0)).isSome = true →
    exec (.grantSet q) s = answered opGrantSet q s (storeOrApply (.grants (u16 q.params 0) (u8 q.params 2) (routeOf q.src)) a)) ∧
  (∀ q s b, let key := u16 q.params 0
    let a := started q s
    accepted opBlockQuiesce q (fun _ own => u16 q.params 0 = own) s = true → blockAt a key = some b → u32 q.params 4 ≤ 500000 →
    exec (.blockQuiesce q) s = answered opBlockQuiesce q s (if b.state = .quiesced then .ok (quiescePayload b a.ns 0) a
      else .wait (.quiesce key) (quiesceColl key (modBlock key (fun x => { x with
        state := .quiescing
        drain := some { force := bit (u8 q.params 2) 0, start := a.ns, limit := if u32 q.params 4 = 0 then 10000 else u32 q.params 4 }
        drops := if b.state = .running then 0 else b.drops }) a)))) ∧
  (∀ q s, let key := u16 q.params 0
    let a := started q s
    accepted opBlockResume q (fun _ own => u16 q.params 0 = own) s = true → (blockAt a key).isSome = true →
    exec (.blockResume q) s = answered opBlockResume q s
      (if commitHolds a key then .wait (.resume key) a else .ok [] (resumeBlock key a)))

/-- BUFFER_CONFIG stages the Hall settings or the grants it names; BUFFER_READ only answers. CELLAR_REGULATOR_SET stages one item for
each Hall it names, CELLAR_MEMTEST starts a test and waits for it, CELLAR_STATUS only answers. -/
def Obligations.BufferCommandsComplete : Prop :=
  (∀ q s, let p := q.params
    let items : List Item := if u8 p 0 = 0 then (setBits 4 (u8 p 1)).map fun h =>
        { key := .hallBuf h, value := zeros 4 ++ (p.drop 4).take 3 ++ zeros 1 ++ (p.drop 8).take 34 ++ zeros 2 }
      else (List.range (u16 p 6)).map fun i => { key := .grant (u16 p 4 + i), value := p.drop 8 }
    accepted opBufferConfig q anyBlock s = true → u8 p 0 ≤ 1 →
    firstRefusal (if u8 p 0 = 0 then hallChecks p else grantChecks p) = none → stagingAllowed q items (started q s) = true →
    exec (.bufferConfig q) s = answered opBufferConfig q s (.ok [] (withStaged q items (started q s)))) ∧
  (∀ q s, let a := started q s
    let n := u16 q.params 2
    accepted opBufferRead q anyBlock s = true → u8 q.params 0 ≤ 3 →
    (bit (u8 q.params 1) 0 = true → n < 1280 ∧ hallOf n = u8 q.params 0 ∧ gangBase a n = n) →
    ∃ n, RepliesOnly opBufferRead (.bufferRead q) q s n) ∧
  (∀ q s, accepted opCellarStatus q anyBlock s = true → u8 q.params 0 ≤ 3 → 4 ≤ (started q s).boot.phase →
    RepliesOnly opCellarStatus (.cellarStatus q) q s 152) ∧
  (∀ q s, let p := q.params
    let halls := setBits 4 (u8 p 0)
    let items : List Item := halls.map fun h => { key := .regulator h (u8 p 1), value := p.drop 4 }
    accepted opCellarRegulatorSet q anyBlock s = true → 1 ≤ u8 p 0 → u8 p 0 < 16 → u8 p 1 ≤ 4 → 1 ≤ u32 p 4 → u32 p 4 ≤ 262144 →
    64 ≤ u32 p 8 → u32 p 8 ≤ 4194304 → 4 ≤ (started q s).boot.phase → stagingAllowed q items (started q s) = true →
    exec (.cellarRegulatorSet q) s = answered opCellarRegulatorSet q s (.ok [] (withStaged q items (started q s)))) ∧
  (∀ q s, let p := q.params
    let h := u8 p 0
    let first := u32 p 4
    let a := started q s
    accepted opCellarMemtest q anyBlock s = true → h ≤ 3 → u8 p 1 ≤ 1 → first < 2 ^ 30 → 1 ≤ u32 p 8 → first + u32 p 8 ≤ 2 ^ 30 →
    (u8 p 1 = 1 → partBase a 0 * 2 ^ 22 ≤ first ∧ ((hallAt a h).spillUsed.map (·.2)).sum = 0) → 4 ≤ a.boot.phase →
    (tget a.zones (hallDie h) {}).level < 2 → tfind a.cellar.tests h = none →
    exec (.cellarMemtest q) s = answered opCellarMemtest q s (.wait (.memtest h) { a with cellar := { a.cellar with
      tests := tset a.cellar.tests h (u8 p 1, first, u32 p 8),
      testing := if u8 p 1 = 1 then h :: a.cellar.testing else a.cellar.testing } }))

/-- The scheduling commands stage one item for each port, block or Hall they name; METER_SET with ACTIONS_ONLY changes the meters'
actions at once and records METER_ACTIONS_SET; the reads only answer. -/
def Obligations.SchedulingCommandsComplete : Prop :=
  (∀ q s, let p := q.params
    let n := u16 p 2
    let tc := u8 p 1
    let a := started q s
    let act := setActions (u8 p 5) (u8 p 6)
    let done : State :=
      if u8 p 0 = 0 then layActions (.meterPort n tc) p { a with sched := { a.sched with
        portMeters := tset a.sched.portMeters (n, tc) (act (tget a.sched.portMeters (n, tc) {})) } }
      else (setBits 4 (u8 p 7)).foldl (fun b h => layActions (.meterBlock h n tc) p { b with sched := { b.sched with
        blockMeters := tset b.sched.blockMeters (h, n, tc) (act (tget b.sched.blockMeters (h, n, tc) {})) } }) a
    accepted opMeterSet q anyBlock s = true → q.txn = 0 → u8 p 0 ≤ 1 → u8 p 4 < 8 → bit (u8 p 4) 2 = true → 1 ≤ tc → tc ≤ 5 →
    (u8 p 0 = 0 → n < 1280 ∧ setBits 4 (u8 p 7) = []) → (u8 p 0 = 1 → setBits 4 (u8 p 7) ≠ [] ∧ (blockAt a n).isSome = true) →
    u8 p 5 ≤ 1 → u8 p 6 ≤ 2 → u8 p 7 < 16 →
    exec (.meterSet q) s = answered opMeterSet q s (.ok []
      (raiseLead 0x0803 2 (u8 p 0 * 2 ^ 24 + tc * 2 ^ 16 + n) (u8 p 5 * 256 + u8 p 6) (routeOf q.src) done))) ∧
  (∀ q s, let p := q.params
    let n := u16 p 2
    let tc := u8 p 1
    let halls := setBits 4 (u8 p 7)
    let a := started q s
    let v := p.take 7 ++ zeros 1 ++ p.drop 8
    let items : List Item := if u8 p 0 = 0 then [{ key := .meterPort n tc, value := v }]
      else halls.map fun h => { key := .meterBlock h n tc, value := v }
    accepted opMeterSet q anyBlock s = true → firstRefusal (formTxnRefused opMeterSet true q a) = none → u8 p 0 ≤ 1 → u8 p 4 < 4 →
    1 ≤ tc → tc ≤ 5 → (u8 p 0 = 0 → n < 1280 ∧ halls = []) → (u8 p 0 = 1 → halls ≠ [] ∧ keyInUse a (namedTxn q a) n = true) →
    u8 p 5 ≤ 1 → u8 p 6 ≤ 2 → u8 p 7 < 16 → 1 ≤ u32 p 8 → u32 p 8 ≤ u32 p 16 → u32 p 16 ≤ 1600000 → 4128 ≤ u32 p 12 →
    u32 p 12 ≤ 16777216 → 4128 ≤ u32 p 20 → u32 p 20 ≤ 16777216 → stagingAllowed q items a = true →
    exec (.meterSet q) s = answered opMeterSet q s (.ok [] (withStaged q items a))) ∧
  (∀ q s, accepted opMeterRead q (fun s key => if u8 q.params 0 = 0 then portInBlock { q with params := q.params.drop 2 } s key
        else u16 q.params 2 = key) s = true →
    u8 q.params 0 ≤ 1 → 1 ≤ u8 q.params 1 → u8 q.params 1 ≤ 5 → u8 q.params 4 ≤ 3 →
    (u8 q.params 0 = 0 → u16 q.params 2 < 1280 ∧ u8 q.params 4 = 0) →
    (u8 q.params 0 = 1 → (blockAt (started q s) (u16 q.params 2)).isSome = true) →
    ∃ n, RepliesOnly opMeterRead (.meterRead q) q s n) ∧
  (∀ q s, let p := q.params
    let vc := u8 p 4
    let rate : Nat := if bit (u8 p 5) 1 then 1000000 else 1600000
    let burst : Nat := if bit (u8 p 5) 1 then 65536 else 16777216
    let items := portItems p (fun n => .shaper n vc) (zeros 4 ++ p.drop 4)
    accepted opShaperSet q anyBlock s = true → firstRefusal (portRange p) = none → 1 ≤ vc → vc ≤ 5 → u8 p 5 < 4 →
    -32 ≤ signedOf 16 (u16 p 6) → signedOf 16 (u16 p 6) ≤ 255 → 1 ≤ u32 p 8 → u32 p 8 ≤ u32 p 16 → u32 p 16 ≤ rate →
    1 ≤ u32 p 12 → u32 p 12 ≤ burst → 1 ≤ u32 p 20 → u32 p 20 ≤ burst → stagingAllowed q items (started q s) = true →
    exec (.shaperSet q) s = answered opShaperSet q s (.ok [] (withStaged q items (started q s)))) ∧
  (∀ q s, accepted opShaperRead q (portInBlock q) s = true → u16 q.params 0 < 1280 → 1 ≤ u8 q.params 2 → u8 q.params 2 ≤ 5 →
    ∃ n, RepliesOnly opShaperRead (.shaperRead q) q s n) ∧
  (∀ q s g, let p := q.params
    let n := u16 p 2
    let items : List Item := [{ key := .gates (u16 p 0), value := if n = 0 then [] else zeros 2 ++ p.drop 2 }]
    accepted opGateListWrite q anyBlock s = true → p.length = 12 + 4 * n → u16 p 0 < 1280 → 1 ≤ n → n ≤ 256 →
    gateListOf p = some g → (∀ e ∈ g.entries, 8 ≤ e.1) → g.cycle ≤ 1000000000 →
    (∀ v, 1 ≤ v → v ≤ 5 → ∃ e ∈ g.entries, bit e.2 v = true) → stagingAllowed q items (started q s) = true →
    exec (.gateListWrite q) s = answered opGateListWrite q s (.ok (beBytes 4 g.cycle) (withStaged q items (started q s)))) ∧
  (∀ q s, let p := q.params
    let items : List Item := [{ key := .gates (u16 p 0), value := [] }]
    accepted opGateListWrite q anyBlock s = true → p.length = 12 → u16 p 0 < 1280 → u16 p 2 = 0 →
    stagingAllowed q items (started q s) = true →
    exec (.gateListWrite q) s = answered opGateListWrite q s (.ok (beBytes 4 0) (withStaged q items (started q s)))) ∧
  (∀ q s, accepted opGateListRead q (portInBlock q) s = true → u16 q.params 0 < 1280 →
    ∃ n, RepliesOnly opGateListRead (.gateListRead q) q s n) ∧
  (∀ q s, let p := q.params
    let vc := u8 p 4
    let items := portItems p (fun n => .mark n vc) (zeros 5 ++ p.drop 5)
    accepted opMarkSet q anyBlock s = true → firstRefusal (portRange p) = none → 1 ≤ vc → vc ≤ 4 → u8 p 5 < 2 → 1 ≤ u16 p 6 →
    u16 p 6 ≤ 256 → u32 p 8 < u32 p 12 → u32 p 12 ≤ 3145728 → stagingAllowed q items (started q s) = true →
    exec (.markSet q) s = answered opMarkSet q s (.ok [] (withStaged q items (started q s)))) ∧
  (∀ q s, let p := q.params
    let halls := setBits 4 (u8 p 0)
    let items : List Item := halls.map fun h => { key := .xfer h, value := zeros 1 ++ (p.drop 1).take 2 ++ zeros 1 ++ p.drop 4 }
    accepted opSchedWeightsSet q anyBlock s = true → halls ≠ [] → (∀ off ∈ [1, 2, 4, 5, 6, 7], u8 p off ≠ 0) →
    stagingAllowed q items (started q s) = true →
    exec (.schedWeightsSet q) s = answered opSchedWeightsSet q s (.ok [] (withStaged q items (started q s))))

/-- The collective commands: CTX_CREATE, CTX_MODIFY, CTX_DESTROY and TREE_SET stage one item; EPOCH_ABORT resets the open chunks and
records EPOCH_ABORTED; HAMPER_CONFIG and ENGINE_FLAGS_CLEAR set what they name; the reads only answer. -/
def Obligations.CollectiveCommandsComplete : Prop :=
  (∀ q s, let c := u16 q.params 0
    let a := started q s
    let items : List Item := [{ key := .ctx c, value := cleanCtx q.params }]
    accepted opCtxCreate q (ctxInBlock q) s = true → firstRefusal (ctxChecks q.params) = none →
    ctxInRange a (namedTxn q a) c = true → ctxKnown a (namedTxn q a) c = false → stagingAllowed q items a = true →
    exec (.ctxCreate q) s = answered opCtxCreate q s (.ok [] (withStaged q items a))) ∧
  (∀ q s, let c := u16 q.params 0
    let a := started q s
    let items : List Item := [{ key := .ctx c, value := cleanCtx q.params }]
    accepted opCtxModify q (ctxInBlock q) s = true → firstRefusal (ctxChecks q.params) = none →
    ((ctxAt a c).isSome = false ∨ u8 (liveValue a (.ctx c)) 2 ≠ u8 q.params 2) → ctxInRange a (namedTxn q a) c = true → ctxKnown a (namedTxn q a) c = true →
    stagingAllowed q items a = true →
    exec (.ctxModify q) s = answered opCtxModify q s (.ok [] (withStaged q items a))) ∧
  (∀ q s, let c := u16 q.params 0
    let a := started q s
    let items : List Item := [{ key := .ctx c, value := [] }]
    accepted opCtxDestroy q (ctxOfBlock q) s = true → ctxKnown a (namedTxn q a) c = true → stagingAllowed q items a = true →
    exec (.ctxDestroy q) s = answered opCtxDestroy q s (.ok [] (withStaged q items a))) ∧
  (∀ q s, accepted opCtxRead q (ctxOfBlock q) s = true → (ctxAt (started q s) (u16 q.params 0)).isSome = true →
    ∃ n, RepliesOnly opCtxRead (.ctxRead q) q s n) ∧
  (∀ q s, let p := q.params
    let n := (p.length - 16) / 4
    let carried := (List.range n).map fun i => (u32 p 12 + i, u32 p (16 + 4 * i) % 2 ^ 20)
    let c := u16 p 0
    let a := started q s
    let t : TreeConf := { k := u8 p 2, s := u32 p 4, j := u32 p 8 }
    let staged := treeConf (((namedTxn q a).bind fun x => x.staged (.tree c)).getD [])
    let old := if { staged with gids := [] } = t then staged.gids else []
    let t' := { t with gids := treeGids t old carried }
    let missing := (t'.uses.filter fun x => !(t'.gids.any fun g => g.1 = x)).length
    let items : List Item := [{ key := .tree c, value := t'.bytes }]
    accepted opTreeSet q (fun s key => ctxOfBlock q s key && (blockAt s key).any fun b => carried.all fun g => b.hasGid g.2) s = true →
    1 ≤ t.k → t.k ≤ 64 → 1 ≤ t.s → t.s ≤ 1048576 → t.j < t.s → u32 p 12 < t.s → u32 p 12 + n ≤ t.s →
    t.children.length + (ctxConf (seenValue a (namedTxn q a) (.ctx c))).recs.length ≤ 64 →
    ctxKnown a (namedTxn q a) c = true → stagingAllowed q items a = true →
    exec (.treeSet q) s = answered opTreeSet q s (.ok
      (beBytes 2 t'.children.length ++ beBytes 1 (if t'.j = 0 then 0xFF else t'.parentMember) ++ zeros 1 ++
        beBytes 4 (if t'.j = 0 then 0xFFFFFFFF else t'.parentPos) ++ beBytes 2 missing ++ zeros 2) (withStaged q items a))) ∧
  (∀ q s, accepted opEngineFlagsRead q anyBlock s = true → u8 q.params 0 ≤ 1 →
    RepliesOnly opEngineFlagsRead (.engineFlagsRead q) q s 140) ∧
  (∀ q s, let m := u8 q.params 0
    let flags := u8 q.params 1
    let ms := if m = 0xFF then [0, 1] else [m]
    let es := setBits 34 (u64 q.params 4)
    accepted opEngineFlagsClear q anyBlock s = true → (m ≤ 1 ∨ m = 0xFF) → 1 ≤ flags → flags < 16 → 1 ≤ u64 q.params 4 →
    u64 q.params 4 < 2 ^ 34 →
    exec (.engineFlagsClear q) s = answered opEngineFlagsClear q s (.ok (beBytes 4 (ms.length * es.length))
      (ms.foldl (fun s m => es.foldl (fun s e => modEngine m e (Engine.clear flags) s) s) (started q s)))) ∧
  (∀ q s, accepted opEngineStateRead q anyBlock s = true → u8 q.params 0 ≤ 1 →
    RepliesOnly opEngineStateRead (.engineStateRead q) q s 548) ∧
  (∀ q s, accepted opEpochStatus q (ctxOfBlock q) s = true → (ctxAt (started q s) (u16 q.params 0)).isSome = true →
    u8 q.params 2 ≤ 1 → ∃ n, RepliesOnly opEpochStatus (.epochStatus q) q s n) ∧
  (∀ q s r, let c := u16 q.params 0
    let a := started q s
    let is := (sortNat (r.chunks.map (·.1) ++ r.done ++ r.hamper.map (·.1) ++ r.unlogged)).filter (r.rel ≤ ·)
    accepted opEpochAbort q (ctxOfBlock q) s = true → ctxAt a c = some r → u8 q.params 2 = (ctxOf a c).gen →
    exec (.epochAbort q) s = answered opEpochAbort q s (.ok (beBytes 4 is.length ++ beBytes 4 r.hamper.length)
      (raiseLead 0x0927 2 c is.length (routeOf q.src) (is.foldl (fun s i => resetChunk c i 5 s) a)))) ∧
  (∀ q s, let a := started q s
    accepted opHamperConfig q anyBlock s = true → 10 ≤ u32 q.params 0 → u32 q.params 0 ≤ 100000 → 1 ≤ u32 q.params 4 →
    u32 q.params 4 ≤ 1000000 → 1 ≤ u32 q.params 8 → u32 q.params 8 ≤ 60000 →
    exec (.hamperConfig q) s = answered opHamperConfig q s (.ok [] { a with coll := { a.coll with
      replayWait := u32 q.params 0, straggle := u32 q.params 4, runLimit := u32 q.params 8 } }))

/-- The time commands: MANTEL_CONFIG sets the part (TYPE 0) or a range of ports (TYPE 1) and ranks the sources afresh; STEP_CONFIG
sets one generator and answers its next instant; CALENDAR_SET sets the calendar, at once or at a Mantel time; PTP_CONFIG sets one
port; TS_QUEUE_READ takes the oldest entries off the queue; the reads only answer. -/
def Obligations.TimeCommandsComplete : Prop :=
  (∀ q s, let p := q.params
    accepted opMantelConfig q anyBlock s = true → u8 p 0 = 0 → u8 p 1 ≤ 1 → 1 ≤ u16 p 4 → u16 p 4 ≤ 1000 → 64 ≤ u32 p 8 →
    u32 p 8 ≤ 1000000 → p.length = 12 →
    exec (.mantelConfig q) s = answered opMantelConfig q s (.ok [] (rankSources (keepSettings (.bootcfg [(16, p)])
      (modTime (fun t => { t with
        master := u8 p 1 = 1, gmPriority := u8 p 2, interval := u16 p 4, stepLimit := u32 p 8 }) (started q s)))))) ∧
  (∀ q s, let p := q.params
    let asym := signedOf 32 (u32 p 8)
    let excl := bit (u8 p 12) 0
    accepted opMantelConfig q anyBlock s = true → u8 p 0 = 1 → u16 p 4 < 1024 → u16 p 4 + u16 p 6 ≤ 1024 →
    -500000 ≤ asym → asym ≤ 500000 → u8 p 12 < 2 → p.length = 16 →
    exec (.mantelConfig q) s = answered opMantelConfig q s (.ok [] (rankSources (keepSettings
      (.portTime (u16 p 4) (List.replicate (u16 p 6) (u32 p 8 * 256 + b2n excl)))
      ((List.range (u16 p 6)).foldl (fun s i =>
        modMantelPort (u16 p 4 + i) (fun m => { m with asym, exclude := excl }) s) (started q s)))))) ∧
  (∀ q s, let n := u16 q.params 0
    accepted opMantelStatus q anyBlock s = true → (n < 1024 ∨ n = 0xFFFF) →
    RepliesOnly opMantelStatus (.mantelStatus q) q s (if n = 0xFFFF then 68 else 84)) ∧
  (∀ q s, let p := q.params
    let x : StepGen := { enable := bit (u8 p 1) 0, base := u64 p 4, period := u64 p 12, actions := u8 p 2 % 16 }
    let k := x.firstFrom (mantel (started q s))
    accepted opStepConfig q anyBlock s = true → u8 p 0 ≤ 3 → 65536 ≤ x.period → x.period ≤ 2 ^ 40 → x.period % 1024 = 0 →
    (bit (u8 p 2) 2 = true → 1000000 ≤ x.period) →
    exec (.stepConfig q) s = answered opStepConfig q s (.ok (beBytes 8 (x.base + k * x.period))
      (modGen (u8 p 0) (fun _ => { x with k }) (started q s)))) ∧
  (∀ q s, let p := q.params
    let a := started q s
    let src := u8 p 0
    accepted opCalendarSet q anyBlock s = true → src = a.time.cal.source → src ≤ 2 → bit (u8 p 1) 0 = true → bit (u8 p 1) 1 = false →
    u32 p 12 < second → u64 p 16 = 0 → 1 ≤ u32 p 24 → u32 p 24 ≤ 1000000 → (src = 0 → a.time.cal.state ≠ 0) →
    exec (.calendarSet q) s = answered opCalendarSet q s
      (.ok [] (setCalendar (u64 p 4) (u32 p 12) (modCal (fun c => { c with stepLimit := u32 p 24 }) a)))) ∧
  (∀ q s, let p := q.params
    let a := started q s
    let src := u8 p 0
    accepted opCalendarSet q anyBlock s = true → src ≤ 2 → (bit (u8 p 1) 0 = true → u32 p 12 < second) →
    (bit (u8 p 1) 0 = true → u64 p 16 ≠ 0 → mantel a ≤ u64 p 16 ∧ u64 p 16 ≤ mantel a + 10 * second) →
    1 ≤ u32 p 24 → u32 p 24 ≤ 1000000 →
    ∃ t, exec (.calendarSet q) s = answered opCalendarSet q s (.ok [] t) ∧
      t.time.cal.source = src ∧ t.time.cal.stepLimit = u32 p 24 ∧
      t.time.cal.utc = (if bit (u8 p 1) 1 then u16 p 2 else a.time.cal.utc) ∧ t.time.count = a.time.count ∧
      (bit (u8 p 1) 0 = true → u64 p 16 ≠ 0 → t.time.cal.setAt = some (u64 p 16, u64 p 4, u32 p 12))) ∧
  (∀ q s, accepted opCalendarRead q anyBlock s = true → RepliesOnly opCalendarRead (.calendarRead q) q s 36) ∧
  (∀ q s, let p := q.params
    let n := u8 p 0
    let within (off : Nat) (lo hi : Int) : Prop := lo ≤ signedOf 8 (u8 p off) ∧ signedOf 8 (u8 p off) ≤ hi
    accepted opPtpConfig q anyBlock s = true → n ≤ 1 → u8 p 1 < 16 → u8 p 2 ≤ 2 → u8 p 3 ≤ 127 → within 7 (-7) 1 → within 8 (-3) 4 →
    within 9 (-7) 5 → 2 ≤ u8 p 10 → u8 p 10 ≤ 10 →
    (bit (u8 p 1) 0 = true → (ptpAt (started q s) (1 - n)).enabled = true → u8 (ptpAt (started q s) (1 - n)).config 3 = u8 p 3) →
    (tget (started q s).boot.dies n {}).state ≠ 3 →
    exec (.ptpConfig q) s = answered opPtpConfig q s (.ok [] (ptpLost (modPtp n (fun x => { x with
      config := p.take 11, portState := if bit (u8 p 1) 0 then 4 else 3, parent := 0, gm := 0, stepsRemoved := 0 }) (started q s))))) ∧
  (∀ q s, accepted opPtpStatus q anyBlock s = true → u8 q.params 0 ≤ 1 → RepliesOnly opPtpStatus (.ptpStatus q) q s 44) ∧
  (∀ q s, let n := u8 q.params 0
    let a := started q s
    accepted opTsQueueRead q anyBlock s = true → 1 ≤ n → n ≤ 64 →
    exec (.tsQueueRead q) s = answered opTsQueueRead q s (.ok
      (beBytes 1 (a.time.ts.take n).length ++ beBytes 1 (a.time.ts.drop n).length ++ beBytes 2 a.time.tsOvf ++
        (a.time.ts.take n).flatMap fun e =>
          beBytes 2 e.id ++ beBytes 1 e.port ++ beBytes 1 e.msgType ++ beBytes 8 e.sec ++ beBytes 4 e.ns)
      (modTime (fun t => { t with ts := t.ts.drop n }) a)))

/-- The Darning commands: DARNING_CONFIG sets the part (TYPE 0), stages ports (TYPE 1), controls ports (TYPE 2) or restores service
(TYPE 3); HEARTH_HANDOVER starts a handover and waits for it; SELFTEST_CONFIG sets the periods; SELFTEST_RUN answers what the test
found; the reads only answer. -/
def Obligations.DarningCommandsComplete : Prop :=
  (∀ q s, accepted opDarningMaskRead q anyBlock s = true → RepliesOnly opDarningMaskRead (.darningMaskRead q) q s 836) ∧
  (∀ q s, let p := q.params
    accepted opDarningConfig q anyBlock s = true → q.txn = 0 → u8 p 0 = 0 → firstRefusal (darningChecks p) = none →
    exec (.darningConfig q) s = answered opDarningConfig q s (.ok [] (keepSettings
      (.bootcfg [(28, zeros 4 ++ (p.drop 4).take 6 ++ zeros 2 ++ p.drop 12)]) (modDarn (setDarning p) (started q s))))) ∧
  (∀ q s, let p := q.params
    let a := started q s
    let items : List Item := (List.range (u16 p 4)).map fun i => { key := .darnPort (u16 p 2 + i), value := p.drop 6 }
    accepted opDarningConfig q anyBlock s = true → u8 p 0 = 1 → p.length = 8 →
    txnRefused { opDarningConfig with ownTxn := false, staging := true } q a = none → u16 p 2 < 1280 →
    u16 p 2 + u16 p 4 ≤ 1280 → u16 p 6 ≤ 4095 → stagingAllowed q items a = true →
    exec (.darningConfig q) s = answered opDarningConfig q s (.ok [] (withStaged q items a))) ∧
  (∀ q s, let p := q.params
    accepted opDarningConfig q anyBlock s = true → q.txn = 0 → u8 p 0 = 2 → p.length = 8 → u8 p 1 < 4 → u16 p 2 < 1280 →
    u16 p 2 + u16 p 4 ≤ 1280 →
    exec (.darningConfig q) s = answered opDarningConfig q s (.ok [] (controlPorts (u8 p 1) (u16 p 2) (u16 p 4) (started q s)))) ∧
  (∀ q s, let p := q.params
    let a := started q s
    accepted opDarningConfig q anyBlock s = true → q.txn = 0 → u8 p 0 = 3 → p.length = 4 → u8 p 1 < 2 → partFailed a = false →
    exec (.darningConfig q) s = answered opDarningConfig q s
      (.ok [] (if a.darn.state = 0 then a else setPartState (if bit (u8 p 1) 0 then 2 else 1) 4 a))) ∧
  (∀ q s, accepted opFaultRead q anyBlock s = true → 1 ≤ u8 q.params 5 → u8 q.params 5 ≤ 127 →
    ∃ n, RepliesOnly opFaultRead (.faultRead q) q s n) ∧
  (∀ q s, accepted opHearthHandover q anyBlock s = true → s.fw.step = 0 → s.boot.standbyReady = true →
    exec (.hearthHandover q) s = answered opHearthHandover q s (.wait .handover (beginHandover 1 (started q s)))) ∧
  (∀ q s, let ps := (List.range 5).map fun i => u32 q.params (4 + 4 * i)
    accepted opSelftestConfig q anyBlock s = true → (∀ x ∈ ps, 1 ≤ x ∧ x ≤ 86400) →
    exec (.selftestConfig q) s = answered opSelftestConfig q s
      (.ok [] (modDarn (fun d => { d with testEnable := u32 q.params 0, testPeriods := ps }) (started q s)))) ∧
  (∀ q failed s, let item := u8 q.params 0
    let m := u8 q.params 1
    let a := started q s
    let r := runSelftest item m failed a
    accepted opSelftestRun q anyBlock s = true → 1 ≤ item → item ≤ 6 → (item = 6 → m ≤ 1) → 7 ≤ a.boot.phase →
    (item = 6 → ∀ c ∈ reservers a, (ctxOf a c).slotsIn m = 0) →
    exec (.selftestRun q failed) s = answered opSelftestRun q s (if r.2.1 = 0 then .ok (beBytes 4 r.1 ++ beBytes 4 r.2.1) r.2.2
      else .reply 0x0E 0x80 0 (beBytes 4 r.1 ++ beBytes 4 r.2.1) r.2.2))

/-- The firmware commands: FW_IMAGE_BEGIN opens a session; FW_IMAGE_WRITE keeps the words it brings; FW_IMAGE_VERIFY accepts a whole
image that checks; FW_ACTIVATE marks it for the next reset or starts an activation; FW_STATUS only answers. -/
def Obligations.FirmwareCommandsComplete : Prop :=
  (∀ q s, let size := u32 q.params 0
    let a := started q s
    accepted opFwImageBegin q anyBlock s = true → a.fw.step = 0 → 4 ≤ size → size ≤ 67108864 → size % 4 = 0 → storeUp a = true →
    size ≤ slotCapacity a →
    exec (.fwImageBegin q) s = answered opFwImageBegin q s (.ok [] (anchorWrite (countSlot (nvSmaller a).slotBlocks 0
      (modFw (fun f => { f with session := some size, words := [], pending := 1, pendImage := none }) a))))) ∧
  (∀ q s size, let off := u32 q.params 0
    let data := q.params.drop 8
    let a := started q s
    accepted opFwImageWrite q anyBlock s = true → a.fw.session = some size → off % 4 = 0 → off + data.length ≤ size →
    storeUp a = true →
    exec (.fwImageWrite q) s = answered opFwImageWrite q s (.ok [] (countSlot 0 data.length (modFw (fun f => { f with
      words := (List.range (data.length / 4)).foldl (fun t i => tset t (off / 4 + i) (slice data (4 * i) 4)) f.words }) a)))) ∧
  (∀ q s size, let a := started q s
    let b := uploaded a size
    let i := imageOf b
    accepted opFwImageVerify q anyBlock s = true → a.fw.session = some size → size ≤ 4 * a.fw.words.length →
    exec (.fwImageVerify q) s = answered opFwImageVerify q s (
      if imageCheck b a = 5 then .refuse { status := 9, reason := 0x82 } a
      else if imageCheck b a ≠ 0 then .refuse { status := 9, reason := 0x81 } a
      else .ok (beBytes 4 i.version ++ beBytes 4 i.svn ++ beBytes 2 i.stateMin ++ beBytes 2 i.stateMax ++
          beBytes 1 (b2n (hitlessOk i a.fw.running)) ++ zeros 3)
        (anchorWrite (modFw (fun f => { f with session := none, pending := 2, pendImage := some i }) a)))) ∧
  (∀ q s, let a := started q s
    accepted opFwActivate q anyBlock s = true → u8 q.params 0 = 0 → a.fw.step = 0 → (a.fw.pending = 2 ∨ a.fw.pending = 3) →
    a.fw.pendImage.isSome = true →
    exec (.fwActivate q) s = answered opFwActivate q s
      (.ok (beBytes 1 (leadCode a) ++ zeros 3) (anchorWrite (modFw (fun f => { f with pending := 3 }) a)))) ∧
  (∀ q s, let p := q.params
    let a := started q s
    accepted opFwActivate q anyBlock s = true → u8 p 0 = 1 → a.boot.recovery = false → a.fw.step = 0 →
    (a.fw.pending = 2 ∨ a.fw.pending = 3) → a.fw.pendImage.isSome = true → firstRefusal (activateChecks p a) = none →
    exec (.fwActivate q) s = answered opFwActivate q s (.wait .activation (setStandby false 1 (modFw (fun f => { f with
      step := 2, returnToA := bit (u8 p 1) 0, trial := u16 p 2 }) a)))) ∧
  (∀ q s, accepted opFwStatus q anyBlock s = true → RepliesOnly opFwStatus (.fwStatus q) q s 20)

/-- POWER_CAP_SET and THERMAL_LIMITS_SET take effect at once (the limits are also stored, or answered DEGRADED where the store is
unavailable); the reads only answer. -/
def Obligations.PowerCommandsComplete : Prop :=
  (∀ q analog s, accepted opPowerRead q anyBlock s = true → RepliesOnly opPowerRead (.powerRead q analog) q s 136) ∧
  (∀ q s, accepted opThermalRead q anyBlock s = true → RepliesOnly opThermalRead (.thermalRead q) q s 320) ∧
  (∀ q s, let p := q.params
    let z := u8 p 0
    let a := modPower (fun w => { w with limits := w.limits.set z (u8 p 1, u8 p 2, u8 p 3) }) (started q s)
    accepted opThermalLimitsSet q anyBlock s = true → z ≤ 5 → 40 ≤ u8 p 1 → u8 p 1 + 3 ≤ u8 p 2 → u8 p 2 + 3 ≤ u8 p 3 →
    u8 p 3 ≤ maxShutdown z →
    exec (.thermalLimitsSet q) s = answered opThermalLimitsSet q s
      (if storeUp a then storing { id := 0, effect := .limits z p } a else .reply 0x0E 0x80 0 [] a)) ∧
  (∀ q s, accepted opPowerCapSet q anyBlock s = true → 1100 ≤ u16 q.params 0 → u16 q.params 0 ≤ 1600 →
    exec (.powerCapSet q) s = answered opPowerCapSet q s
      (.ok [] (modPower (fun p => { p with cap := u16 q.params 0 }) (started q s)))) ∧
  (∀ q s, accepted opLoopStatus q anyBlock s = true → RepliesOnly opLoopStatus (.loopStatus q) q s 128)

/-- The security commands: RANDOM_READ answers bytes of the DRBG; KEY_GENERATE draws a key and waits for its store transaction;
DEBUG_UNLOCK issues a challenge, takes token data or judges a token; PORCH_ALARM_CLEAR clears the latched alarms whose monitor no longer
alarms; the reads only answer. -/
def Obligations.SecurityCommandsComplete : Prop :=
  (∀ q s, let n := u16 q.params 0
    let r := random n (started q s)
    accepted opRandomRead q anyBlock s = true → 4 ≤ n → n ≤ 4080 → n % 4 = 0 → firstRefusal (randomChecks (started q s)) = none →
    exec (.randomRead q) s = answered opRandomRead q s (.ok r.1 r.2)) ∧
  (∀ q s, let a := random 97 (started q s)
    let b := random 2592 a.2
    let share := random 32 b.2
    let reply := ownerKeyId (a.1, b.1) ++ a.1 ++ b.1 ++ zeros 3
    let x : NvTxn := { id := 0, effect := .ownerKey (routeOf q.src) a.1 b.1 share.1, payload := reply }
    accepted opKeyGenerate q anyBlock s = true → (started q s).sec.full = false →
    firstRefusal (randomChecks (started q s)) = none → storeUp share.2 = true →
    exec (.keyGenerate q) s = answered opKeyGenerate q s
      (storing x { share.2 with porch := { share.2.porch with share := share.1 } })) ∧
  (∀ q s, accepted opDebugUnlock q anyBlock s = true → u8 q.params 0 = 0 → q.params.length = 4 →
    exec (.debugUnlock q) s = answered opDebugUnlock q s (debugChallenge (started q s))) ∧
  (∀ q s, let off := u32 q.params 4
    let data := q.params.drop 8
    let ws (t : Tbl Nat Bytes) := (List.range (data.length / 4)).foldl (fun t i => tset t (off / 4 + i) (slice data (4 * i) 4)) t
    accepted opDebugUnlock q anyBlock s = true → u8 q.params 0 = 1 → q.params.length ≠ 4 → off % 4 = 0 → off + data.length ≤ 7460 →
    (∃ nonce t, (started q s).sec.challenge = some (nonce, t) ∧ s.ns < t + 600 * second) →
    exec (.debugUnlock q) s = answered opDebugUnlock q s
      (.ok [] (modSec (fun c => { c with tokenData := ws c.tokenData }) (started q s)))) ∧
  (∀ q s nonce t, accepted opDebugUnlock q anyBlock s = true → u8 q.params 0 = 2 → q.params.length = 4 →
    (started q s).sec.challenge = some (nonce, t) →
    exec (.debugUnlock q) s = answered opDebugUnlock q s (if t + 600 * second ≤ s.ns then
        .refuse { status := 0x0B, reason := 4 } (started q s)
      else debugSubmit (routeOf q.src) nonce (started q s))) ∧
  (∀ q s, accepted opPorchRead q anyBlock s = true →
    exec (.porchRead q) s = answered opPorchRead q s (.ok ((porchMirror (started q s)).flatMap (beBytes 4)) (started q s))) ∧
  (∀ q s, let mask := u8 q.params 0
    let a := started q s
    let cleared := (setBits 6 a.porch.latched).filter fun i => bit mask i && !bit a.porch.live i
    let left := (setBits 6 a.porch.latched).filter fun i => !cleared.contains i
    let t := raiseLead 0x0D31 2 (maskOf cleared) (maskOf left) (routeOf q.src) (modPorch (fun p => { p with
      latched := maskOf left, first := 0, alarmSecs := 0, onCell := false, count := 0, stateLost := false }) a)
    accepted opPorchAlarmClear q anyBlock s = true → mask < 64 →
    exec (.porchAlarmClear q) s = answered opPorchAlarmClear q s (if left.any (bit mask)
      then .reply 0x0E 0x80 0 (beBytes 4 (porchStat t)) t else .ok (beBytes 4 (porchStat t)) t)) ∧
  (∀ q s, accepted opFuseRead q anyBlock s = true → RepliesOnly opFuseRead (.fuseRead q) q s 256) ∧
  (∀ q s, accepted opDeedReport q anyBlock s = true → (started q s).sec.full = false →
    exec (.deedReport q) s = answered opDeedReport q s (.ok (deedReport q.params (started q s)) (started q s)))

/-- The store commands: NV_WRITE and BOOTCFG_WRITE wait for the store transaction that carries their effect; NV_READ, BOOTCFG_READ and
NV_LOG_READ answer what they read and count the corrections they met; NV_SCRUB starts or stops a pass; NV_STATUS only answers. -/
def Obligations.StoreCommandsComplete : Prop :=
  (∀ q s, accepted opNvStatus q anyBlock s = true → RepliesOnly opNvStatus (.nvStatus q) q s 92) ∧
  (∀ q obs s, let off := u32 q.params 0
    let n := u32 q.params 4
    let a := nvReadEffects 4 n obs (started q s)
    accepted opNvRead q anyBlock s = true → off % 4 = 0 → 4 ≤ n → n ≤ 4080 → n % 4 = 0 → off + n ≤ 4194304 →
    (readable (started q s) 0 = true ∨ readable (started q s) 1 = true) → nvLost obs (started q s) = false →
    exec (.nvRead q obs) s = answered opNvRead q s (.ok ((List.range n).map fun i => memGet a.nv.user (off + i)) a)) ∧
  (∀ q s, let off := u32 q.params 0
    let data := q.params.drop 8
    accepted opNvWrite q anyBlock s = true → off % 4 = 0 → off + data.length ≤ 4194304 → storeUp (started q s) = true →
    exec (.nvWrite q) s = answered opNvWrite q s (storing { id := 0, effect := .user off data } (started q s))) ∧
  (∀ q s, accepted opNvScrub q anyBlock s = true → u8 q.params 0 = 0 → s.nv.scrubRun = false →
    exec (.nvScrub q) s = answered opNvScrub q s
      (.ok (beBytes 4 (startScrub true (started q s)).nv.scrubTotal) (startScrub true (started q s)))) ∧
  (∀ q s, accepted opNvScrub q anyBlock s = true → u8 q.params 0 = 1 →
    exec (.nvScrub q) s = answered opNvScrub q s
      (.ok (zeros 4) (modNv (fun n => { n with scrubRun := false, scrubFast := false }) (started q s)))) ∧
  (∀ q obs s, let a := nvReadEffects 3 256 obs (started q s)
    accepted opBootcfgRead q anyBlock s = true → (readable (started q s) 0 = true ∨ readable (started q s) 1 = true) →
    nvLost obs (started q s) = false →
    exec (.bootcfgRead q obs) s = answered opBootcfgRead q s (.ok (bootcfg a) a)) ∧
  (∀ q s, let p := q.params
    let f := u8 p 0
    let fields := (if bit f 0 then [(2, (p.drop 1).take 1)] else []) ++ (if bit f 1 then [(3, (p.drop 2).take 1)] else []) ++
      (if bit f 2 then [(4, (p.drop 4).take 6)] else [])
    accepted opBootcfgWrite q anyBlock s = true → 1 ≤ f → f < 8 → (bit f 0 = true → u8 p 1 ≤ 1) →
    (bit f 1 = true → 1 ≤ u8 p 2 ∧ u8 p 2 ≤ 168) →
    (bit f 2 = true → 8 ≤ u16 p 4 ∧ u16 p 4 ≤ 32 ∧ 2 ≤ u16 p 6 ∧ u16 p 6 ≤ 16 ∧ u16 p 8 ≤ 128 ∧ 4 + u16 p 4 + u16 p 6 + u16 p 8 ≤ 224) →
    storeUp (started q s) = true →
    exec (.bootcfgWrite q) s = answered opBootcfgWrite q s (storing { id := 0, effect := .bootcfg fields } (started q s))) ∧
  (∀ q lost s, accepted opNvLogRead q anyBlock s = true → 1 ≤ u8 q.params 5 → u8 q.params 5 ≤ 84 →
    let a := started q s
    let held := if readable a 0 || readable a 1 then a.nv.log else []
    let words := ((held.filter fun r => lost.contains r.index).map fun r => (r.index - 1) % 174762 / 20).eraseDups.length
    ∃ payload pages, exec (.nvLogRead q lost) s = answered opNvLogRead q s (.ok payload
      (countNv 1 4 words (countNv 0 4 words (countNv (readDevice a) 0 pages a)))))

/-- The counter commands: COUNTER_READ answers the counters it selects and changes none; COUNTER_CLEAR clears exactly those it
selects; COUNTER_FILTER_SET, OCC_THRESHOLD_SET and TELEMETRY_EXPORT_SET set what they name. -/
def Obligations.CounterCommandsComplete : Prop :=
  (∀ q s, let p := q.params
    let inst := u32 p 4 % 2 ^ 24
    let a := started q s
    let out := someOut a (u8 p 0) inst (u8 p 2) (u8 p 3)
    accepted opCounterRead q (fun s key => instanceOfBlock (u8 p 0) inst key s) s = true →
    firstRefusal (selectionChecks (u8 p 0) (u8 p 2) (u8 p 3) inst 1) = none →
    exec (.counterRead q) s = answered opCounterRead q s (.reply (if out then 0x0E else 0) (if out then 0x80 else 0) 0
      ([u8 p 0, 0, u8 p 2, u8 p 3].map byteOf ++ beBytes 4 inst ++ (captureWords a (u8 p 0) inst (u8 p 2) (u8 p 3)).flatMap (beBytes 8)) a)) ∧
  (∀ q s, let p := q.params
    let scope := u8 p 0
    let k := u8 p 3
    let n := u32 p 8
    let a := started q s
    let out := (List.range n).any fun i => someOut a scope (u32 p 4 + i) (u8 p 2) k
    let gauges := ((List.range k).filter fun i => isGauge scope (u8 p 2 + i)).length
    accepted opCounterClear q anyBlock s = true → scope ≠ 0xFF → 1 ≤ u8 p 1 → u8 p 1 < 4 → 1 ≤ n → n ≤ 65536 →
    firstRefusal (selectionChecks scope (u8 p 2) k (u32 p 4) n) = none →
    exec (.counterClear q) s = answered opCounterClear q s (.reply (if out then 0x0E else 0) (if out then 0x80 else 0) 0
      (beBytes 4 (n * (k - gauges))) (countersCleared scope (u8 p 2) k (u32 p 4) (routeOf q.src)
        (clearCounters (selected scope (u8 p 2) k (u32 p 4) n) (bit (u8 p 1) 0) (bit (u8 p 1) 1) a)))) ∧
  (∀ q s, let p := q.params
    let a := started q s
    let out := (List.range 40).any fun d => (dieAt a d).state = 3
    accepted opCounterClear q anyBlock s = true → u8 p 0 = 0xFF → 1 ≤ u8 p 1 → u8 p 1 < 4 →
    exec (.counterClear q) s = answered opCounterClear q s (.reply (if out then 0x0E else 0) (if out then 0x80 else 0) 0
      (beBytes 4 allCounters) (countersCleared 0xFF 0 0 0 (routeOf q.src)
        (clearCounters (fun _ => true) (bit (u8 p 1) 0) (bit (u8 p 1) 1) a)))) ∧
  (∀ q s, let p := q.params
    let a := clearCounters (fun k => k.scope = 18 && k.inst = u8 p 0) true true (started q s)
    let x : Filter := { type := u8 p 1, enable := bit (u8 p 2) 0, priv := u8 p 3, mask := u8 p 4, lo := u32 p 8, hi := u32 p 12,
                        cls := u16 p 16 }
    accepted opCounterFilterSet q anyBlock s = true → u8 p 0 ≤ 31 → u8 p 1 ≤ 2 → filterReserved p = false → u32 p 8 ≤ u32 p 12 →
    exec (.counterFilterSet q) s = answered opCounterFilterSet q s (.ok [] { a with filters := tset a.filters (u8 p 0) x })) ∧
  (∀ q s, let p := q.params
    let a := started q s
    let keys := (List.range (u16 p 2)).flatMap fun i => (setBits 8 (u8 p 4)).map fun v => (u16 p 0 + i, v)
    let occ := keys.foldl (fun t k => if u32 p 8 = occNever then tdel t k else tset t k (u32 p 8)) a.occ
    accepted opOccThresholdSet q anyBlock s = true → u16 p 0 < 1280 → 1 ≤ u16 p 2 → u16 p 0 + u16 p 2 ≤ 1280 → 1 ≤ u8 p 4 →
    u32 p 8 ≤ occNever →
    exec (.occThresholdSet q) s = answered opOccThresholdSet q s (.ok [] { a with occ })) ∧
  (∀ q s, let p := q.params
    accepted opTelemetryExportSet q anyBlock s = true → u8 p 0 = 0 → p.length = 28 → u8 p 2 < 2 → u8 p 1 ≤ 1 → 1 ≤ u32 p 24 →
    u32 p 24 ≤ 5000 → (dieAt (started q s) (u8 p 1)).state ≠ 3 →
    exec (.telemetryExportSet q) s = answered opTelemetryExportSet q s (.ok [] (modTel (fun t => { t with
      mgmt := u8 p 1, enable := bit (u8 p 2) 0, port := u16 p 4, addr := field p 8 16, maxRate := u32 p 24 }) (started q s)))) ∧
  (∀ q s, let p := q.params
    accepted opTelemetryExportSet q anyBlock s = true → u8 p 0 = 1 → firstRefusal (exportChecks p) = none →
    exec (.telemetryExportSet q) s = answered opTelemetryExportSet q s (.ok [] (modSet (u8 p 1) (fun x => {
      enable := bit (u8 p 2) 0, step := bit (u8 p 2) 1, generator := u8 p 3, scope := u8 p 4, first := u8 p 5, count := u8 p 6,
      inst := u32 p 8, instCount := u32 p 12, period := u32 p 16, busyUntil := x.busyUntil }) (started q s))))

/-! ## Events: each takes the block to the state its rule gives -/

/-- Resets. A power-on reset leaves the Porch, the fuses and the store's devices, and everything else as `State.reset` has it; the other
sources perform a warm reset once start-up has left P0, which sets their cause bit; a PCIe reset clears Bus Master Enable and the
configuration space; a rail out of range holds the part in a cold reset. -/
def Obligations.ResetEventsComplete : Prop :=
  (∀ s, ∃ t, exec .powerOnReset s = .next t ∧ t.boot = { State.reset.boot with released := s.ns } ∧ t.sec = s.sec.reset false ∧
    t.porch = { s.porch with mainPower := true } ∧
    t = { State.reset with
      pending := s.pending, ns := s.ns, draws := t.draws, out := s.out, boot := t.boot, sec := t.sec, fw := s.fw.reset,
      porch := t.porch, nv := t.nv, modules := t.modules }) ∧
  (∀ s, s.boot.cold = false → s.boot.phase ≠ 0 → s.boot.held = false →
    exec .resetNAsserted s = .next (warmState (some 30) s)) ∧
  (∀ s, s.boot.resetPending = true → exec .warmReset s = .next (warmState (some 29) s)) ∧
  (∀ s, s.boot.resetPending = false → s.boot.cold = false → s.boot.phase ≠ 0 → s.boot.held = false →
    exec .warmReset s = .next (warmState none s)) ∧
  (∀ s, s.boot.cold = false → ∃ d retry, exec .pcieReset s = .next { s with
    draws := d, boot := { s.boot with busMaster := false },
    pcie := { up := s.pcie.up, speed := s.pcie.speed, width := s.pcie.width, sris := s.pcie.sris, retryUntil := retry } } ∧ s.ns ≤ retry ∧
    retry ≤ s.ns + second) ∧
  (∀ tenthMv s, let rails := railsOut s tenthMv
    tenthMv.length = 10 → rails ≠ 0 → ∃ t, exec (.railOutOfRange tenthMv) s = .next t ∧ t.boot.held = true ∧ t.boot.cold = true ∧
    t.boot.phase = 0 ∧ (s.porch.cellPresent = true → t.porch.railFault = s.porch.railFault ||| rails) ∧
    (bit rails 9 = true → t.porch.mainPower = false) ∧ t.sec = s.sec.reset false ∧
    t = { State.reset with
      pending := s.pending, ns := s.ns, draws := t.draws, out := s.out, boot := t.boot, sec := t.sec, fw := s.fw.reset,
      porch := t.porch, nv := t.nv, modules := t.modules }) ∧
  (∀ h s, h < 2 → s.boot.held = false → s.boot.watchdogs ||| 2 ^ h ≠ 3 → exec (.hearthWatchdogExpired h) s =
    .next (failHearth h 2 (modBoot (fun b => { b with watchdogs := b.watchdogs ||| 2 ^ h }) s))) ∧
  (∀ h s, h < 2 → s.boot.held = false → s.boot.watchdogs ||| 2 ^ h = 3 → s.boot.cold = false → s.boot.phase ≠ 0 →
    exec (.hearthWatchdogExpired h) s = .next (warmState (some 26) (modBoot (fun b => { b with watchdogs := 0 }) s)))

/-- The reference clock, the PLLs and the Porch's crystal: REF_LOST starts the holdover and records CLK_REF_LOST; its expiry holds every
die but the Porch in reset; REF_RETURNED within 100 ms ends the holdover and later makes a warm reset; PLL_UNLOCK clears the domain's LOCKED bit
and records PLL_UNLOCK; PORCH_XTAL_FAIL puts the Porch on its RC oscillator. -/
def Obligations.ClockEventsComplete : Prop :=
  (∀ s, s.boot.refPresent = true → exec .refLost s = .next (raiseLead 0x0104 4 0 0 0
    (modBoot (fun b => { b with refPresent := false, refHoldover := true }) s))) ∧
  (∀ s, s.boot.refHoldover = true → s.boot.held = false → ∃ t, exec .refHoldoverExpired s = .next t ∧ t.boot.held = true ∧
    t.boot.cold = false ∧ t.boot.phase = 0 ∧ t.boot.cause = s.boot.cause ∧ t.sec = s.sec ∧ t.porch = s.porch ∧
    t = { State.reset with
      pending := s.pending, ns := s.ns, draws := t.draws, out := s.out, boot := t.boot, sec := t.sec, fw := s.fw.reset,
      porch := t.porch, nv := t.nv, modules := t.modules
      power := { rails := s.power.rails.map fun e => (e.1, { setpoint := e.2.setpoint }) } }) ∧
  (∀ us s, s.boot.clockHeld = false → s.boot.refHoldover = true → us < 100000 →
    exec (.refReturned us) s = .next (raiseLead 0x0105 2 us 0 0
      (modBoot (fun b => { b with refPresent := true, refHoldover := false }) s))) ∧
  (∀ us s, s.boot.clockHeld = true → s.boot.thermalHeld = [] → exec (.refReturned us) s = .next (modBoot (fun b => { b with
    refPresent := true, refHoldover := false }) (warmState (some 28) s))) ∧
  (∀ s, startsIn 0 s = true → s.boot.refPresent = false →
    exec .refAbsent s = .next (haltStart 1 s)) ∧
  (∀ die domain s, (domainDies domain).contains die = true → s.boot.refPresent = true → s.boot.held = false → s.boot.phase ≠ 0 →
    let u := modBoot (fun b => { b with unlocked := (b.unlocked ++ [(die, domain)]).eraseDups }) s
    exec (.pllUnlock die domain) s = .next (declareFault die 1 (recordFault 0xD 0 die domain (raise 0x0106 die 4 domain 0 0 u))) ∧
    (clockCounts u die = true → bit (lockedReg u) (domain - 1) = false)) ∧
  (∀ s, s.porch.onRc = false → ∃ t, exec .porchXtalFail s = .next t ∧ t.porch = { s.porch with onRc := true, xtalFailed := true } ∧
    t.boot.porchOnRc = true ∧ ((dieAt s 0).state ≠ 3 → bit (lockedReg t) 24 = false) ∧
    t = { s with boot := t.boot, porch := t.porch })

/-- Start-up: each phase's end enters the next phase, and only from its own phase. P0_COMPLETE and HEARTBEAT_TIMEOUT enter P1;
P1_IMAGE_CHECKED enters P2 with the first image that verifies, or recovery with none; DISCOVERY_DONE enters P3 or halts with code 0x20; P3_COMPLETE
starts every Window; P4_COMPLETE needs a Window in service; P6 ends when Mantel is locked or free-running. -/
def Obligations.StartupEventsComplete : Prop :=
  (∀ pcieRef s, s.boot.phase = 0 → s.boot.held = false → s.boot.lost = false → ∃ t, exec (.p0Complete pcieRef) s = .next t ∧
    t.boot.phase = 1 ∧ t.boot.refPresent = true ∧ t.boot.trngState = 1 ∧ t.boot.failed = false ∧ t.pcie.sris = !pcieRef ∧
    s.ns ≤ t.pcie.retryUntil ∧ t.pcie.retryUntil ≤ s.ns + second ∧
    t = { s with draws := t.draws, boot := t.boot, porch := t.porch, ev := t.ev, time := t.time, pcie := t.pcie }) ∧
  (∀ pcieRef s, s.boot.phase ≤ 1 → s.boot.held = false → s.boot.leadB = false → s.boot.recovery = false → (dieAt s 1).state ≠ 3 →
    ∃ t, exec (.heartbeatTimeout pcieRef) s = .next t ∧ t.boot.phase = 1 ∧ t.boot.leadB = true ∧ t.boot.bLeads = true ∧
    t.boot.hearthB = 3 ∧ t.pcie.sris = !pcieRef ∧
    t = { s with draws := t.draws, boot := t.boot, porch := t.porch, ev := t.ev, time := t.time, pcie := t.pcie }) ∧
  (∀ m n copies bad s, let a := judgeMount m
    let b := judgeMount n
    startsIn 1 s = true → a.state = 0 → b.state = 0 → exec (.p1ImageChecked [m, n] copies bad) s = .next (enterRecovery 0x12 a b s)) ∧
  (∀ m n copies bad s source img rest, let a := judgeMount m
    let b := judgeMount n
    startsIn 1 s = true → (a.state ≠ 0 ∨ b.state ≠ 0) → imageTries copies [a, b] s = (source, 0, img) :: rest →
    exec (.p1ImageChecked [m, n] copies bad) s = .next (enterP2 a b bad
      (fun t =>
        let t := raiseLead 0x0D01 1 img.version img.svn source t
        let t := if img.burn then raiseSvn (leadCode s) img.svn t else t
        if source = 0 then takeCurrent 0 img t else t)
      (modFw (fun f => { f with running := img, current := if source = 0 then f.current else some img }) s))) ∧
  (∀ dies untrained miswired s, dies.length = 40 → startsIn 2 s = true → s.boot.discDone = false →
    let cut := untrained ++ (List.range 39).filter fun k => !seamUp s k
    let w := walkAll dies cut miswired (leadCode s)
    let u := modBoot (fun b => { b with
      dies := w.dies.map fun e => if (dieAt s e.1).state = 3 then (e.1, { e.2 with state := 3 }) else e
      discDone := true, discCode := 0, discFirst := 0, discLinks := w.trained.length }) (cut.foldl seamUntrained s)
    let v := modBoot (fun b => { b with dies := b.dies.map (settleDie u dies) }) u
    w.fail = none → exec (.discoveryDone dies untrained miswired) s =
      .next ((mismatched u dies).foldl (fun s d => declareFault d 0 s) (enterP3 v))) ∧
  (∀ dies untrained miswired code first s, dies.length = 40 → startsIn 2 s = true → s.boot.discDone = false →
    let cut := untrained ++ (List.range 39).filter fun k => !seamUp s k
    let w := walkAll dies cut miswired (leadCode s)
    w.fail = some (code, first) → exec (.discoveryDone dies untrained miswired) s =
      .next (haltStart 0x20 (raiseLead 0x0103 5 code first w.trained.length (modBoot (fun b => { b with
        dies := w.dies.map fun e => if (dieAt s e.1).state = 3 then (e.1, { e.2 with state := 3 }) else e
        discDone := true, discCode := code, discFirst := first, discLinks := w.trained.length }) (cut.foldl seamUntrained s))))) ∧
  (∀ rows chunks s, startsIn 3 s = true → pastSpares rows chunks = false →
    let t := modBoot (fun b => { b with locked := b.locked ||| domainBits ((List.range 8).map (11 + ·)) })
      (enterPhase 4 (chunks.foldl chunkInP3 (rows.foldl spareInP3 s)))
    exec (.p3Complete 0 rows chunks) s =
      .next (((List.range 8).filter fun w => !windowOut (windowAt t w)).foldl (fun s w => startBringUp w false s) t)) ∧
  (∀ rows chunks halt s, startsIn 3 s = true → (halt = 0x30 ∨ halt = 0x31) →
    exec (.p3Complete halt rows chunks) s = .next (haltStart halt (chunks.foldl chunkInP3 (rows.foldl spareInP3 s)))) ∧
  (∀ rows chunks s, startsIn 3 s = true → pastSpares rows chunks = true →
    exec (.p3Complete 0 rows chunks) s = .next (haltStart 0x31 (chunks.foldl chunkInP3 (rows.foldl spareInP3 s)))) ∧
  (∀ s, startsIn 4 s = true → (∀ w < 8, (windowAt s w).inService = true ∨ windowOut (windowAt s w) = true) →
    (∃ w < 8, (windowAt s w).inService = true) → exec .p4Complete s = .next (enterPhase 5 s)) ∧
  (∀ s, startsIn 4 s = true → (∀ w < 8, (windowAt s w).inService = false ∧ windowOut (windowAt s w) = true) →
    exec .p4Complete s = .next (haltStart 0x40 s)) ∧
  (∀ obs bad s, startsIn 5 s = true → ((cfgRead s).boot.emptyTables = true ∨ field (readableCfg (cfgRead s)) 76 8 = 0) →
    exec (.p5Complete obs bad) s = .next (enterP6 (modBoot (fun b => { b with emptyTables := false }) (cfgRead s)))) ∧
  (∀ obs bad s n, startsIn 5 s = true → (cfgRead s).boot.emptyTables = false → field (readableCfg (cfgRead s)) 76 8 ≠ 0 →
    snapshotAt (cfgRead s) (field (readableCfg (cfgRead s)) 76 8) = some n →
    let u := nvReadEffects 6 n.content.length obs (cfgRead s)
    bootRejected n obs bad (cfgRead s) = none → exec (.p5Complete obs bad) s =
      .next (enterP6 (modBoot (fun b => { b with emptyTables := false }) (layItems {
        handle := 0, token := 0, route := 0, idle := 0,
        device := true, latchkey := 0, lastNamed := u.ns, items := snapshotDiff u n } u)))) ∧
  (∀ s, startsIn 6 s = true → mantelLocked s = true → exec .p6Complete s = .next (enterP7 s)) ∧
  (∀ s, startsIn 6 s = true → s.time.state = .freeRun → s.time.master = false →
    exec .mantelFreeRun s = .next (enterP7 (raiseLead 0x0A05 3 0 0 0 s))) ∧
  (∀ s, 3 ≤ s.boot.phase → s.boot.held = false → s.boot.lost = false → s.boot.standbyReady = false → s.boot.handover = false →
    (dieAt s (standbyDie s)).state ≠ 3 → s.fw.step ∉ [2, 3, 6] →
    exec .hearthBStandbyReady s = .next (advertise (copyCounters (setStandby true 2
      (raiseSvn 0 (svnCounter s) (raiseSvn 1 (svnCounter s) s)))))) ∧
  (∀ standby pass s, (trngAt s standby).state = 1 → exec (.trngRunEnd standby pass) s = .next (setTrng standby
    { trngAt s standby with runs := (trngAt s standby).runs + 1
                            state := if pass then 2 else if 3 ≤ (trngAt s standby).runs + 1 then 3 else 1 } s)) ∧
  (∀ standby s, (trngAt s standby).state = 2 → exec (.trngRetest standby) s =
    .next (raiseLead 0x0D20 3 (if standby then standbyDie s else leadCode s) (min 0xFFFF ((trngAt s standby).retests + 1)) 0
      (setTrng standby { state := 1, runs := 0, retests := min 0xFFFF ((trngAt s standby).retests + 1) } s)))

/-- Windows: WINDOW_UP brings a Window in service: its fibres start afresh, its Transom outputs and routes are set as the map has them, its
enabled ports tune, and the wavelengths that no module lights are treated as their light's loss is; WINDOW_LIGHT_TIMEOUT takes out of
service a Window that was starting, with the cause; a port that has tuned keeps its equaliser's settings and trains. -/
def Obligations.WindowEventsComplete : Prop :=
  (∀ w ms s, w < 8 → (windowAt s w).bringUp = true → picCold s w = false →
    let sel := (lightAt s w).sel
    let entries := (List.range 32).map (32 * w + ·)
    let a := trainSill w (modWindow w (fun x => { x with inService := true, bringUp := false, cause := 0 }) s)
    let b := calibrate w ((dataPairs w ++ (List.range 4).map (128 + 4 * w + ·)).foldl
      (fun s n => modFibre n (Fibre.fresh fun l => sel.getD l 0 ≠ 0) s) a)
    let c := { b with transom := { b.transom with changing := tdel b.transom.changing w } }
    let d := (dataPairs w).foldl (fun s n => sendIdle n 8 s) (modLight w (fun x => { x with relight := [] })
      (setRoutes entries (dropRoutes entries (parkOutputs entries c))))
    let e := (windowPorts d w).foldl (fun s p =>
      if (portAt s p).enabled then settlePort p s else idlePort p (setPortState p .disabled s)) d
    let f := ((List.range 9).filter fun l => sel.getD l 0 = 0).foldl (fun s l =>
      (litPairs s w l).foldl (fun s n => faultLanes n l 4 true true s) s) e
    exec (.windowUp w ms) s = .next (advertise (clearFault 6 (eicDie w) w (clearFault 4 (eicDie w) w
      (raise 0x0501 (eicDie w) 1 w (readyPorts f w) ms f))))) ∧
  (∀ w rings s, w < 8 → (windowAt s w).bringUp = true → (rings = false ∨ lockHeld s w = false) →
    exec (.windowLightTimeout w rings) s = .next (windowOutOfService w (if rings then 2 else 1) s)) ∧
  (∀ port s, isPort port = true → carriesFrames s port = true → (windowAt s (windowOf port)).inService = true →
    ((portAt s port).state = .tuning ∨ (portAt s port).state = .noLight) → usableLanes s port ≠ 0 →
    let u := startTraining port (setPortState port .phyReady (convergePort port s))
    exec (.portPhyReady port) s = .next (if (windowPorts u (windowOf port)).any fun p => (portAt u p).state = .tuning then u
      else answerWindow (windowOf port) u)) ∧
  (∀ port counts st s, isPort port = true → (portAt s port).prbs = some st →
    exec (.prbsRunEnd port counts) s = .next (complete (.prbs port) 0 0 0 (beBytes 1 counts.length ++ zeros 3 ++
      counts.flatMap fun c => beBytes 8 c.1 ++ beBytes 8 c.2)
      (setPortState port st (modPort port (fun x => { x with prbs := none }) s))))

/-- Seam and Sill. At a flit slot the transmitter picks a channel that the link carries, with a flit ready, credit and room under its cap,
and none where there is none; a flit takes the next sequence number and a credit; one that fails its check is counted and waits to be
replayed; a replay delivers what waits, or fails once more, and after eight failures the failing lanes fail; a lane that fails uses a
spare of its group while one is left; a cell that fails its check is resent. -/
def Obligations.SeamEventsComplete : Prop :=
  (∀ w k ready c, SeamWay.pick w k ready = some c →
    c ∈ linkChannels k ∧ bit ready c = true ∧ w.hasCredit k c = true ∧ w.underCap ready c = true) ∧
  (∀ w k ready c, SeamWay.pick w k ready = none → c ∈ linkChannels k → bit ready c = true → w.hasCredit k c = true →
    w.underCap ready c = false) ∧
  (∀ link high ready returns ok flit w s, link < 39 → activeLanes s link high ≠ 0 →
    ((seamAt s link).way high).send link ready = (some flit, w) →
    exec (.seamFlitReceived link high ready returns ok) s = .next
      (let x := (seamAt s link).setWay high (w.receive flit ok)
       if ok then modSeam link (fun _ => x.setWay (!high) ((x.way (!high)).refund returns)) s
       else count 13 link 0 1 (modSeam link (fun _ => x) s))) ∧
  (∀ link high ready returns ok w s, link < 39 → activeLanes s link high ≠ 0 →
    ((seamAt s link).way high).send link ready = (none, w) →
    exec (.seamFlitReceived link high ready returns ok) s = .next (modSeam link (fun x => x.setWay high w) s)) ∧
  (∀ link high ok failing s, link < 39 → ((seamAt s link).way high).replay ≠ [] →
    let t := modSeam link (fun x => x.setWay high (((seamAt s link).way high).again ok)) (count 13 link 1 1 s)
    exec (.seamReplay link high ok failing) s = .next (if !ok && ((seamAt s link).way high).fails = 7 then
      (failing.filter fun e => isLane link e.1 e.2).foldl (fun s e => failLane link high e.1 e.2 s) t else t)) ∧
  (∀ link high group lane s, link < 39 → group < (linkGroups link).1 → lane < (linkGroups link).2 →
    group < ((seamAt s link).dir high).length → 0 < (((seamAt s link).dir high).getD group { spares := 0 }).spares →
    ∃ t, exec (.seamLaneFailed link high group lane) s = .next (advertise t) ∧
      ((seamAt t link).dir high).getD group { spares := 0 } = { ((seamAt s link).dir high).getD group { spares := 0 } with
        spares := (((seamAt s link).dir high).getD group { spares := 0 }).spares - 1 } ∧
      (∀ k, k ≠ link → seamAt t k = seamAt s k) ∧
    t = { s with boot := t.boot, seam := t.seam, ev := t.ev, darn := t.darn }) ∧
  (∀ w toHall ok wire s, w < 8 → (∀ n, wire = some n → n < 2560) → (tget s.sill w {}).start + 1000000 > s.ns →
    exec (.sillCellReceived w toHall ok wire) s = .next { s with sill := tset s.sill w (
      let x := { tget s.sill w {} with cells := (tget s.sill w {}).cells + 1, resends := (tget s.sill w {}).resends + b2n (!ok) }
      if toHall then { x with up := x.up.cell ok wire } else { x with down := x.down.cell ok wire }) })

/-- BAR0 registers. A whole-register write acts on its region's register and is counted by the filters that watch it; a sub-word write changes
no register and records PCIE_MALFORMED_WRITE; a sub-word read returns the enabled bytes of the register, latching what a full read latches. -/
def Obligations.RegisterEventsComplete : Prop :=
  (∀ o v s, o < 65536 → o % 4 = 0 → bar0Takes s (0x10000 + o) = true →
    exec (.bar0RegisterWrite (0x10000 + o) v) s = .next (writeMailbox o (v % 2 ^ 32) (countBar0 1 (0x10000 + o) s))) ∧
  (∀ o v s, 4 ≤ o → o < 65536 → o % 4 = 0 → bar0Takes s (0x20000 + o) = true →
    exec (.bar0RegisterWrite (0x20000 + o) v) s = .next (writeTce o (v % 2 ^ 32) (countBar0 1 (0x20000 + o) s))) ∧
  (∀ v s, v < 2 ^ 31 → bar0Takes s 0x20000 = true →
    exec (.bar0RegisterWrite 0x20000 v) s = writeTceCtrl v (countBar0 1 0x20000 s)) ∧
  (∀ o v s, o < 65536 → o % 4 = 0 → bar0Takes s (0x30000 + o) = true →
    exec (.bar0RegisterWrite (0x30000 + o) v) s = .next (writeTime o (v % 2 ^ 32) (countBar0 1 (0x30000 + o) s))) ∧
  (∀ o v s, o < 65536 → o % 4 = 0 → bar0Takes s (0x40000 + o) = true →
    exec (.bar0RegisterWrite (0x40000 + o) v) s = .next (writeCtr o (v % 2 ^ 32) (countBar0 1 (0x40000 + o) s))) ∧
  (∀ o v s, o < 65536 → o % 4 = 0 → bar0Takes s (0x50000 + o) = true →
    exec (.bar0RegisterWrite (0x50000 + o) v) s = .next (writeEvent o (v % 2 ^ 32) (countBar0 1 (0x50000 + o) s))) ∧
  (∀ v s, bar0Takes s 0x60004 = true → exec (.bar0RegisterWrite 0x60004 v) s =
    .next (modBoot (fun b => { b with cause := stickyCause (v % 2 ^ 32) b.cause }) (countBar0 1 0x60004 s))) ∧
  (∀ off v s, 0x8000 ≤ off → off < 0x8040 → off % 4 = 0 → endpointRuns s = true →
    exec (.bar0RegisterWrite off v) s = .next (modPcie (fun p => { p with msix := tset p.msix off (v % 2 ^ 32) }) s)) ∧
  (∀ off be s, off < 0x400000 → be < 15 → isMsix off = false → endpointRuns s = true → bar0Takes s off = true →
    exec (.bar0SubwordAccess true off be) s = .next (raiseLead 0x0120 3 off be 0 (countBar0 1 off s))) ∧
  (∀ off be s, off < 0x400000 → be < 16 → endpointRuns s = true → bar0Takes s off = true →
    exec (.bar0SubwordAccess false off be) s =
      .next (emit (.bar0 off (enabledBits be (bar0Register (off / 4 * 4) (countBar0 0 off s)).1))
        (readLatches (off / 4 * 4) (bar0Register (off / 4 * 4) (countBar0 0 off s)).2)))

/-- The mailbox's rings: a doorbell and a reply-head write set their index and are tested against the ring's size; MBX_CTRL is written; RESET_RINGS clears
the four indices and the error; a fetched request advances REQ_IDX.HEAD; a waiting reply segment takes a free slot and advances RPL_IDX.TAIL;
a failed DMA access stops the mailbox with error 3. -/
def Obligations.MailboxEventsComplete : Prop :=
  (∀ tail s, bar0Takes s 0x10018 = true → (tail % 65536 + 65536 - s.maloa.reqHead) % 65536 ≤ 2 ^ s.maloa.reqLog2 →
    exec (.doorbell tail) s = .next (modMbx (fun m => { m with reqTail := tail % 65536 }) (countBar0 1 0x10018 s))) ∧
  (∀ tail s, bar0Takes s 0x10018 = true → 2 ^ s.maloa.reqLog2 < (tail % 65536 + 65536 - s.maloa.reqHead) % 65536 →
    exec (.doorbell tail) s = .next (mailboxError 1 (modMbx (fun m => { m with reqTail := tail % 65536 }) (countBar0 1 0x10018 s)))) ∧
  (∀ head s, bar0Takes s 0x1001C = true → (s.maloa.rplTail + 65536 - head % 65536) % 65536 ≤ 2 ^ s.maloa.rplLog2 →
    exec (.rplIdxHeadWrite head) s = .next (modMbx (fun m => { m with rplHead := head % 65536 }) (countBar0 1 0x1001C s))) ∧
  (∀ v s, bar0Takes s 0x10000 = true →
    exec (.mailboxEnable v) s = .next (writeMbxCtrl v (countBar0 1 0x10000 s))) ∧
  (∀ s, bar0Takes s 0x10000 = true → exec .resetRings s = .next (modMbx (fun m => { m with
    reqHead := 0, reqTail := 0, rplHead := 0, rplTail := 0, err := 0, waiting := [], ringGen := m.ringGen + 1,
    outstanding := m.outstanding.filter fun o => o.wait ≠ .ring }) (countBar0 1 0x10000 s))) ∧
  (∀ slot ok s, mailboxRuns s = true → s.maloa.reqHead ≠ s.maloa.reqTail → outstandingOf .pcie s < 64 →
    exec (.requestFetch slot ok) s = .next (if ok
      then arrivePacket .pcie 0 0 slot (modMbx (fun m => { m with reqHead := (m.reqHead + 1) % 65536 }) (emit (.fetch (requestSlotAddr s)) s))
      else mailboxError 3 (emit (.fetch (requestSlotAddr s)) s))) ∧
  (∀ r rest s, mailboxRuns s = true → replySlotFree s = true → s.maloa.waiting = r :: rest → r.more = true →
    exec (.replySegmentWrite true) s = .next (writeSlot r (modMbx (fun m => { m with waiting := rest }) s))) ∧
  (∀ r rest s, mailboxRuns s = true → replySlotFree s = true → s.maloa.waiting = r :: rest →
    exec (.replySegmentWrite false) s = .next (mailboxError 3 s))

/-- The interpreter's timers and the event log: a command that has run out of time is answered TIMEOUT, but a WINDOW_RESET what its Window
reached; an idle source and an expired cached reply are forgotten; a request of no assigned opcode is answered BAD_OPCODE; an event reaches
the log in the order its die raised it; lost events are counted in one EVENT_LOSS; EV_CTRL is written, and EV_NEWEST_LO latches the high
half of the newest SEQ. -/
def Obligations.InterpreterEventsComplete : Prop :=
  (∀ src tag o s, s.maloa.outstanding.find? (fun o => o.src = src && o.tag = tag && o.wait ≠ .ring) = some o → timeUp o s = true →
    (∀ w, o.wait ≠ .window w) → exec (.commandTimeout src tag) s = .next (answerLater o 0x0A 1 0 []
      (abandon o.wait (modMbx (fun m => { m with outstanding := m.outstanding.erase o }) s)))) ∧
  (∀ src tag o w s, s.maloa.outstanding.find? (fun o => o.src = src && o.tag = tag && o.wait ≠ .ring) = some o → timeUp o s = true →
    o.wait = .window w → exec (.commandTimeout src tag) s = .next (answerWindow w s)) ∧
  (∀ src s, outstandingOf src s = 0 → exec (.sourceForgotten src) s =
    .next (modMbx (fun m => { m with sources := m.sources.filter fun e => e.src ≠ src }) s)) ∧
  (∀ src tag s, ∃ t, exec (.replyCacheExpiry src tag) s = .next t ∧
    (∀ e ∈ t.maloa.sources, e.src = src → ∀ c ∈ e.cache, c.tag ≠ tag) ∧ (∀ e ∈ s.maloa.sources, e.src ≠ src → e ∈ t.maloa.sources) ∧
    t = { s with maloa := { s.maloa with sources := t.maloa.sources } }) ∧
  (∀ src ingress udp packet s, routeOpen src s = true → discardCause src udp packet = none → duplicateTag src (u16 packet 2) s = false →
    assignedOpcodes.contains (u16 packet 0) = false →
    let a := takeArrival src (· = packet) s
    let came := s.maloa.arrived.find? fun x => x.src = src && x.packet = packet
    let q : Request := { src, ingress := (came.map (·.ingress)).getD ingress, latchkey := (came.map (·.latchkey)).getD 0
                         tag := u16 packet 2, token := u16 packet 6, txn := u32 packet 8, params := (packet.drop 16).take (u16 packet 4) }
    cachedFor (u16 packet 0) q a = none → limitRefusal src a = none →
    exec (.maloaRequestRefused src ingress udp packet) s = .next (refuseRequest (u16 packet 0) q
      { status := 2, reason := if u16 packet 0 / 256 = 0 ∨ 0x11 < u16 packet 0 / 256 then 1 else 2, info := u16 packet 0 } 0
      (trackSource src q.tag a))) ∧
  (∀ die m rest s, 2 ≤ s.boot.phase → tget s.ev.queues die [] = m :: rest → (∀ t, s.ev.lastAt = some t → t + 50 ≤ s.ns) →
    exec (.eventRaised die) s = .next (logEvent (stamp m s)
      { s with ev := { s.ev with queues := tset s.ev.queues die rest, lastAt := some s.ns } })) ∧
  (∀ die s, tget s.ev.lost die 0 ≠ 0 → (tget s.ev.queues die []).length < 64 →
    exec (.eventLoss die) s = .next (raise 0x0132 die 3 (tget s.ev.lost die 0) 0 0 { s with ev := { s.ev with lost := tdel s.ev.lost die } })) ∧
  (∀ v s, bar0Takes s 0x50000 = true → exec (.evCtrlWrite v) s =
    .next (setIrq s.ev.irq (bit v 7) (v % 8) (countBar0 1 0x50000 s))) ∧
  (∀ s, bar0Open s = true → exec .evNewestLoRead s =
    (let a := countBar0 0 0x50008 s
     .next (emit (.bar0 0x50008 (newestSeq s % 2 ^ 32)) { a with ev := { a.ev with newestHi := newestSeq s / 2 ^ 32 } })))

/-- A port's receive side, in the order of R111: the front of the frame stream is judged, and the state after each check's failure, after a
duplicate and a gap in LSEQ, and after a frame that passes. A frame found whole has passed its prefix, header and length checks. -/
def Obligations.ReceiveEventsComplete : Prop :=
  (∀ c pos r lseq rtx f rest p, readFrame c pos r = (.frame lseq rtx f, rest, p) →
    f.hcrc = headerCrc f ∧ f.length ≤ 4096 ∧ f.payload.length = f.length) ∧
  (∀ p parity s, isPort p = true → (linkAt s p).state = .active →
    let x := frontOf (linkAt s p).rx
    let a := modLink p (fun l => { l with rx := { l.rx with codewords := x.2.1, pos := x.2.2 } }) s
    (x.1 = .nothing → exec (.frameReceived p parity) s = .next a) ∧
    (x.1 = .aborted → exec (.frameReceived p parity) s = .next (countPort p 18 1 a)) ∧
    (x.1 = .lost → exec (.frameReceived p parity) s = .next (setNak p a)) ∧
    (x.1 = .badPrefix → exec (.frameReceived p parity) s = .next (setNak p (countPort p 12 1 a))) ∧
    (x.1 = .badHeader → exec (.frameReceived p parity) s = .next (setNak p (countPort p 13 1 a))) ∧
    (x.1 = .badLength → exec (.frameReceived p parity) s = .next (retrain p 3 false (linkProtocol p 1 (countPort p 15 1 a)))) ∧
    (∀ lseq rtx f, x.1 = .frame lseq rtx f → f.fcrc ≠ frameCrc f →
      exec (.frameReceived p parity) s = .next (setNak p (countPort p 14 1 a))) ∧
    (∀ lseq rtx f, x.1 = .frame lseq rtx f → f.fcrc = frameCrc f →
      let d := (lseq + 4096 - (linkAt s p).expect) % 4096
      exec (.frameReceived p parity) s = .next (if d = 0 then acceptFrame p rtx f parity a
        else if d < 2048 then setNak p (countPort p 16 1 a) else countPort p 17 1 a)))

/-- The link's own events: codewords, link words, replay timeouts, training and its timers, and the transmitter. -/
def Obligations.LinkEventsComplete : Prop :=
  (∀ p lane levels s, isPort p = true → lane < 8 → bit (activeMask s p) lane = true →
    let c := parted (levelSymbols levels)
    let a := readCodeword c.1
    let b := readCodeword c.2
    let u := countCodeword p (b.map (·.1)) (countCodeword p (a.map (·.1)) s)
    ((linkAt s p).state = .active → exec (.codewordPairDecoded p lane levels) s = .next (judgeLane p lane a.isNone b.isNone
      (modLink p (fun l => { l with rx := takePair (tget (linkAt u p).rx.index lane (laneIndex u p lane)) (linkAt u p).width a b l.rx }) u))) ∧
    (isTraining s p = true → (linkAt s p).locked = true → exec (.codewordPairDecoded p lane levels) s =
      .next (modLink p (fun l => { l with rx := takeTraining lane a b l.rx }) u)) ∧
    ((linkAt s p).state ≠ .active → (isTraining s p = false ∨ (linkAt s p).locked = false) →
      exec (.codewordPairDecoded p lane levels) s = .next u)) ∧
  (∀ p lw r s, isPort p = true → (linkAt s p).state = .active → (linkAt s p).rx.words = lw :: r → lw.train = true →
    exec (.linkWordReceived p) s =
      .next (retrain p 3 false (linkProtocol p 3 (modLink p (fun l => { l with rx := { l.rx with words := r } }) s)))) ∧
  (∀ p lw r s, isPort p = true → (linkAt s p).state = .active → (linkAt s p).rx.words = lw :: r → lw.train = false → lw.nak = false →
    ∃ u, exec (.linkWordReceived p) s = .next (touchHeads p u) ∧ u = modLink p (fun l =>
      let l := { l with lastAck := lw.ackSeq, peerNak := false,
                        unacked := l.unacked.filter fun u => !((lw.ackSeq + 4096 - u.lseq) % 4096 < 2048) }
      let l := { l with credit := lmod l.credit lw.cvcA (· + (lw.credA + 256 - l.lastCred.getD lw.cvcA 0) % 256),
                        lastCred := l.lastCred.set lw.cvcA lw.credA }
      { l with credit := lmod l.credit lw.cvcB (· + (lw.credB + 256 - l.lastCred.getD lw.cvcB 0) % 256),
               lastCred := l.lastCred.set lw.cvcB lw.credB }) (modLink p (fun l => { l with rx := { l.rx with words := r } }) s)) ∧
  (∀ p s, isPort p = true → (linkAt s p).state = .active → (linkAt s p).unacked ≠ [] →
    exec (.replayTimeout p) s = .next (startReplay p (linkAt s p).lastAck (countPort p 26 1 s))) ∧
  (∀ p s, isPort p = true → (linkAt s p).state = .locking →
    exec (.codewordLock p) s = .next (sendTrain p 1 0 (announceGrant p (modLink p (fun l => { l with state := .exchange }) s)))) ∧
  (∀ p lane msg r s, isPort p = true → (linkAt s p).rx.train = (lane, msg) :: r → msg.tcrcOk = true → msg.version = 1 →
    (linkAt s p).locked = true → isTraining s p = true →
    let a := modLink p (fun l => { l with rx := { l.rx with train := r } }) s
    let b := modLink p (fun l => { l with ann := some msg, rx := { l.rx with index := tset l.rx.index lane msg.laneIndex } }) a
    (msg.kind = 1 → msg.gang = gangWidth s p → (linkAt s p).ann = none → exec (.trainingMessageReceived p) s =
      .next (sendTrain p 3 s.ns (sendTrain p 2 0 b))) ∧
    (msg.kind = 1 → msg.gang = gangWidth s p → (linkAt s p).ann.isSome = true → exec (.trainingMessageReceived p) s = .next b) ∧
    (msg.kind = 1 → msg.gang ≠ gangWidth s p → exec (.trainingMessageReceived p) s = .next (trainFail p 2 a)) ∧
    (msg.kind = 3 → laneIndex a p lane = 0 → exec (.trainingMessageReceived p) s = .next (sendTrain p 4 msg.probeTime a)) ∧
    (msg.kind = 4 → laneIndex a p lane = 0 → (linkAt s p).probes < 8 →
      exec (.trainingMessageReceived p) s = .next (probeEchoed p (s.ns - msg.probeTime) a)) ∧
    (∀ m, msg.kind = 5 → laneIndex a p lane = 0 → (linkAt s p).ann = some m → (linkAt s p).selfActive = true →
      exec (.trainingMessageReceived p) s = .next (linkActive p m (modLink p (fun l => { l with peerActive := true }) a)))) ∧
  (∀ p s, isPort p = true → isTraining s p = true →
    exec (.trainingAttemptTimeout p) s = .next (trainFail p (if (linkAt s p).locked then 4 else 1) s)) ∧
  (∀ p s, isPort p = true → phyReady s p = true → exec (.trainingRetry p) s = .next (startTraining p s)) ∧
  (∀ p err s n, isPort p = true → (linkAt s p).state = .active → (linkAt s p).busyUntil ≤ s.ns →
    let a := markWaits p (fillCaps p (endFrame p s))
    (linkAt a p).replayNext = some n → exec (.frameTransmit p err) s = .next (touchHeads p (sendReplay p n a))) ∧
  (∀ p s v x, isPort p = true → (linkAt s p).state = .active → (linkAt s p).busyUntil ≤ s.ns →
    let a := markWaits p (fillCaps p (endFrame p s))
    (linkAt a p).replayNext = none → (pickVc a p).1 = some v → eligibleHead a p v = some x → windowFull a p x.frame = false →
    exec (.frameTransmit p .none) s = .next (touchHeads p (sendNew p v x (pickVc a p).2 (noteReadError (hallOf p) .none (popHead p v a))))) ∧
  (∀ p err s, isPort p = true → (linkAt s p).state = .active → (linkAt s p).busyUntil ≤ s.ns →
    let a := markWaits p (fillCaps p (endFrame p s))
    (linkAt a p).replayNext = none → (pickVc a p).1 = none →
    exec (.frameTransmit p err) s = .next (touchHeads p (idleFill p (modLink p (fun l => { l with round := (pickVc a p).2 }) a)))) ∧
  (∀ p s, isPort p = true → (linkAt s p).symWindow * 100000 ≤ (linkAt s p).cwWindow * 272 →
    exec (.linkFecHigh p) s = .next (modLink p (fun l => { l with
      symLast := l.symWindow, uncLast := l.uncWindow, symWindow := 0, uncWindow := 0, cwWindow := 0, fecHigh := false }) s))

/-- Lanes and their spares: a fault that holds is marked at its wavelength and, in a Window in service, its lane is swapped with the spare or
dropped, and one that does not hold changes nothing; the bridge is identified, selected and parked; the timeout withdraws it; a lane comes back; a
ring locks, and lock is lost with its heater range; the equaliser adapts every 10 ms. -/
def Obligations.LaneEventsComplete : Prop :=
  (∀ pair k c level s, pair < 160 → k < 8 → (c = 1 ∨ c = 2 ∨ c = 5 ∨ c = 6) → faultHolds s pair k c level = true →
    ∃ t, exec (.laneFault pair k c false level) s =
        .next (if (windowAt s (windowOf (8 * pair))).inService then faultLanes pair k c false false t else t) ∧
      ((fibreAt s pair).lambdas.length = 9 →
        let l := (fibreAt s pair).lambdas.getD k {}
        (fibreAt t pair).lambdas.getD k {} = { l with rxFault := true, faultAt := s.ns, lastFault := c, rxOk := l.rxOk && decide (5 ≤ c) }) ∧
      (fibreAt t pair).spare = (fibreAt s pair).spare ∧ t = { s with fibres := t.fibres, light := t.light }) ∧
  (∀ pair k c level s, pair < 160 → k < 8 → (c = 3 ∨ c = 4) →
    ∃ t, exec (.laneFault pair k c true level) s = .next (if (windowAt s (windowOf (8 * pair))).inService then
          faultLanes pair k c true (decide (c = 4) && feedMissing s pair k level) t else t) ∧
      ((fibreAt s pair).lambdas.length = 9 →
        let l := (fibreAt s pair).lambdas.getD k {}
        (fibreAt t pair).lambdas.getD k {} =
          { l with txFault := true, faultAt := s.ns, lastFault := c, txOk := false, txLock := l.txLock && decide (c = 4) }) ∧
      (fibreAt t pair).spare = (fibreAt s pair).spare ∧ t = { s with ev := t.ev, fibres := t.fibres, light := t.light }) ∧
  (∀ pair k c level s, pair < 128 → k < 9 → (c = 1 ∨ c = 5 ∨ c = 6) → faultHolds s pair k c level = false →
    exec (.laneFault pair k c false level) s = .next s) ∧
  (∀ pair k s, pair < 128 → k < 8 → ((fibreAt s pair).spare = .standby ∨ (fibreAt s pair).spare = .unmatched) →
    exec (.lambdaBridgeIdentified pair (some k)) s = .next (emit (.lane pair 8 1 k) (modFibre pair (fun x => { x with
      spare := .mirroring k, swapClass := (x.lambdas.getD k {}).lastFault, since := s.ns, selected := false }) s))) ∧
  (∀ pair s, pair < 128 → (fibreAt s pair).spare = .standby →
    exec (.lambdaBridgeIdentified pair none) s = .next (raise 0x0511 (eicDie (pair / 16)) 3 (portOfLane s pair 0) (fibreNo pair * 256) 0
      (modFibre pair (fun x => { x with spare := .unmatched }) s))) ∧
  (∀ pair k s, pair < 128 → (fibreAt s pair).selected = false →
    ((fibreAt s pair).spare = .bridging k ∨ (fibreAt s pair).spare = .mirroring k) →
    ∃ t, exec (.lambdaSpareSelect pair) s = .next t ∧ (fibreAt t pair) = { fibreAt s pair with selected := true } ∧
      t = { s with out := t.out, ev := t.ev, fibres := t.fibres, darn := t.darn }) ∧
  (∀ pair k s, pair < 128 → (fibreAt s pair).selected = true →
    ((fibreAt s pair).spare = .bridging k ∨ (fibreAt s pair).spare = .mirroring k) →
    exec (.lambdaPark pair) s = .next (settleWaiting pair (park pair k k (modFibre pair (fun x => { x with spare := .carries k }) s)))) ∧
  (∀ pair k s, pair < 128 → (fibreAt s pair).selected = false →
    ((fibreAt s pair).spare = .bridging k ∧ (fibreAt s pair).since + 20000 ≤ s.ns ∨ (fibreAt s pair).spare = .mirroring k) →
    exec (.spareBridgeTimeout pair) s =
      .next (settleWaiting pair (dropLane pair k (fibreAt s pair).swapClass false (withdrawBridge pair k s)))) ∧
  (∀ pair k s, pair < 160 → k < 8 → bit (fibreAt s pair).lightDrop k = false →
    exec (.portLaneRestored pair k) s = .next (modLambda pair (if (fibreAt s pair).spare = .carries k then 8 else k) (fun l =>
      { l with txFault := false, rxFault := false, txOk := true, rxOk := true }) s)) ∧
  (∀ pair k tx s, pair < 128 → k < 9 → picCold s (windowOf (8 * pair)) = false → bit (fibreAt s pair).lightDrop k = false →
    exec (.ringLockAcquired pair k tx) s = .next (settleLight (windowOf (8 * pair)) (modLambda pair k (fun l =>
      if tx then { l with txLock := true, txOk := true, txFault := false } else { l with rxLock := true, rxOk := true, rxFault := false }) s))) ∧
  (∀ e k tx s, e < 32 → k < 8 → picCold s (windowOf (8 * (128 + e))) = false → bit (fibreAt s (128 + e)).lightDrop k = false →
    ∃ t, exec (.ringLockAcquired (128 + e) k tx) s = .next (settleLight (windowOf (8 * (128 + e))) t) ∧
      t = { s with fibres := t.fibres, transom := t.transom } ∧
      (tx = false → ∀ r, tfind s.transom.routes (8 * e + k) = some r →
        tfind t.transom.routes (8 * e + k) = some { r with switch := true, matrix := true, add := true, holding := false })) ∧
  (∀ pair k tx s, pair < 160 → k < 9 → picCold s (windowOf (8 * pair)) = true → exec (.ringLockAcquired pair k tx) s = .next s) ∧
  (∀ pair k tx pct s, pair < 160 → k < 9 → (pair < 128 ∨ k < 8) → 10 ≤ pct → exec (.ringHeadroom pair k tx pct) s =
    .next (modLambda pair k (fun l => if tx then { l with txHead := pct } else { l with rxHead := pct }) s)) ∧
  (∀ pair k s, pair < 128 → k < 9 → ((fibreAt s pair).lambdas.getD k {}).txLock = true →
    ∃ t, exec (.ringHeadroom pair k true 0) s = .next (laneFault pair k 3 true false t) ∧
      t = { s with ev := t.ev, fibres := t.fibres }) ∧
  (∀ p lane margin s, isPort p = true → lane < 8 →
    ((portAt s p).eqFreeze = true ∨ eqHeld s (p / 8) (p % 8 + lane) = true ∨
      ∃ t, ((portAt s p).eq.getD lane {}).stepped = some t ∧ s.ns < t + 10000000) →
    exec (.eqAdaptStep p lane margin) s = .next (modPort p (fun x => { x with eqMargin := x.eqMargin.set lane margin }) s)) ∧
  (∀ p lane margin s, isPort p = true → lane < 8 → (portAt s p).eqFreeze = false → eqHeld s (p / 8) (p % 8 + lane) = false →
    ((portAt s p).eq.getD lane {}).stepped = none → (portAt s p).eq.length = 8 →
    ∃ t, exec (.eqAdaptStep p lane margin) s = .next t ∧ t = { s with draws := t.draws, ports := t.ports } ∧
      (portAt t p).eqMargin = (portAt s p).eqMargin.set lane margin ∧ ((portAt t p).eq.getD lane {}).stepped = some s.ns ∧
      ((portAt t p).eq.getD lane {}).ctle ≤ 15 ∧
      ∀ i, i ≠ lane → (portAt t p).eq.getD i {} = (portAt s p).eq.getD i {}) ∧
  (∀ p lane margin s, isPort p = true → lane < 8 → exec (.eqMarginLow p lane margin) s =
    .next (raise 0x0522 (eicDie (windowOf p)) 3 p lane margin (modPort p (fun x => { x with eqMargin := x.eqMargin.set lane margin }) s)))

/-- Laser modules and light. A module is inserted, readied, removed, read; a feed that loses its light makes each selected wavelength fail over or
go dark; light comes back; the odd group of a staggered switch moves; the frequency match and the light loop set lasers; a monitor window is kept. -/
def Obligations.LightEventsComplete : Prop :=
  (∀ m s, m < 16 → exec (.laserModuleInserted m) s = .next (modModule m (fun x => { x with
    state := 1, fineTune := false, cmisOk := false, serial := [], temp := 0, power := 0, lasers := List.replicate 9 {} }) s)) ∧
  (∀ m obs s, m < 16 → (moduleAt s m).state ≠ 2 → 3 ≤ s.boot.phase → rejectCode obs ≠ 0 →
    exec (.laserModuleReady m obs) s = .next (raise 0x0603 (eicDie (m / 2)) 4 m (rejectCode obs) 0
      (modModule m (fun x => { x with state := 3, serial := obs.serial, cmisOk := obs.cmis }) s))) ∧
  (∀ m obs s, m < 16 → (moduleAt s m).state ≠ 2 → 3 ≤ s.boot.phase → rejectCode obs = 0 →
    (moduleAt s (moduleOf (m / 2) (3 - sideOf m))).state = 0 →
    ∃ (power d : Nat), power ≤ 80 ∧ exec (.laserModuleReady m obs) s = .next (selectLight (m / 2)
      (raise 0x0601 (eicDie (m / 2)) 1 m (sideOf m) (if 50 ≤ obs.tuning then 1 else 0) (modModule m (fun x => { x with
        state := 2, fineTune := decide (50 ≤ obs.tuning), serial := obs.serial, cmisOk := true,
        lasers := x.lasers.map fun y => { y with on := true, setpoint := 1600 + 5 * (power : Int) } }) { s with draws := d })))) ∧
  (∀ m s, m < 16 → (moduleAt s m).state ≠ 0 → exec (.laserModuleRemoved m) s =
    .next ((activeOn s (m / 2) (sideOf m)).foldl (fun s l => lightGone m l s)
      (raise 0x0602 (eicDie (m / 2)) 3 m (maskOf (activeOn s (m / 2) (sideOf m))) 0 (modModule m (fun x => { x with
        state := 0, fineTune := false, cmisOk := false, serial := [], temp := 0, power := 0, lasers := List.replicate 9 {} }) s)))) ∧
  (∀ m faulty s, m < 16 → (∀ l ∈ faulty, l < 9) →
    exec (.laserInterrupt m faulty) s = .next (faulty.foldl (fun s l => lightGone m l s) s)) ∧
  (∀ m temp power s, m < 16 → (moduleAt s m).state ≠ 0 → exec (.moduleMonitorRead m temp power []) s =
    .next (settleQueued (m / 2) (modModule m (fun x => { x with temp, power, cmisOk := true }) s))) ∧
  (∀ m temp power bias offset s, m < 16 → (moduleAt s m).state ≠ 0 → exec (.moduleMonitorRead m temp power [(bias, offset)]) s =
    .next (settleQueued (m / 2) (judgeBias m 0 (modLaser m 0 (fun x => { x with bias, offset })
      (modModule m (fun x => { x with temp, power, cmisOk := true }) s))))) ∧
  (∀ m l s, m < 16 → l < 9 → exec (.feedLos m l) s = .next (lightGone m l (setLos (m / 2) (sideOf m + 1, 0, l) true s))) ∧
  (∀ m l s, m < 16 → l < 9 → bit (lightAt s (m / 2)).lost l = true → (moduleAt s m).state = 2 →
    ∃ t, exec (.lightRestored m l) s = .next t ∧
    (lightAt t (m / 2)).lost = (lightAt s (m / 2)).lost - 2 ^ l ∧ (lightAt t (m / 2)).sel = (lightAt s (m / 2)).sel.set l (sideOf m) ∧
    (pointAt t (m / 2) (sideOf m + 1, 0, l)).los = false ∧ t = { s with ev := t.ev, light := t.light, darn := t.darn }) ∧
  (∀ m l s, m < 16 → l < 9 → bit (lightAt s (m / 2)).lost l = false → (lightAt s (m / 2)).sel.getD l 0 ≠ 0 →
    exec (.lightRestored m l) s = .next s) ∧
  (∀ w y s, w < 8 → (lightAt s w).switch = some y → exec (.staggerOddGroup w) s = .next (settleLight w (moveGroup w y.target y.odd
    (modLight w (fun x => { x with switch := some { y with odd := [] } }) s)))) ∧
  (∀ m s, m < 16 → (moduleAt s m).state = 2 → (moduleAt s m).fineTune = true → (moduleAt s m).lasers.length = 9 →
    ∃ t, exec (.frequencyMatch m) s = .next t ∧ t = { s with draws := t.draws, modules := t.modules } ∧
      moduleAt t (moduleOf (m / 2) (3 - sideOf m)) = moduleAt s (moduleOf (m / 2) (3 - sideOf m)) ∧
      ∀ l < 9, (lightAt s (m / 2)).sel.getD l 0 = 3 - sideOf m →
        let a := ((moduleAt s (moduleOf (m / 2) (3 - sideOf m))).lasers.getD l {}).offset
        let b := ((moduleAt t m).lasers.getD l {}).offset
        a - 20 ≤ b ∧ b ≤ a + 20) ∧
  (∀ w s, w < 8 → let t := takeLimits (2 * w + 1) (takeLimits (2 * w) s)
    lightHeld t w = false → exec (.lightLoopPass w) s =
    .next ((List.range 9).foldl (fun s l => loopLaser w 2 l s) ((List.range 9).foldl (fun s l => loopLaser w 1 l s) t))) ∧
  (∀ w l obs s, w < 8 → l < 9 → ∃ t value flag, exec (.monitorWindowEnd w 2 0 l obs) s = .next t ∧
    (pointAt t w (2, 0, l)).windows.map Prod.snd = (keepWindows s.ns 64 ((s.ns, value, flag) :: (pointAt s w (2, 0, l)).windows)).map Prod.snd ∧
    (obs.value = none → value = none) ∧ (∀ v, obs.value = some v → value = if v < -3000 then none else some (min v (fullScale 2))) ∧
    ((pointAt t w (2, 0, l)).los = true ↔ ¬ ((pointAt s w (2, 0, l)).cls.getD (classAtReset 2)).los + 100 ≤ obs.last ∧
      (2000 ≤ obs.below ∨ (pointAt s w (2, 0, l)).los = true)) ∧
    (flag = true → (pointAt t w (2, 0, l)).lowAlarm = (pointAt s w (2, 0, l)).lowAlarm ∧
      (pointAt t w (2, 0, l)).lowWarn = (pointAt s w (2, 0, l)).lowWarn ∧ (pointAt t w (2, 0, l)).highAlarm = (pointAt s w (2, 0, l)).highAlarm) ∧
    (pointAt t w (2, 0, l)).cls = some (classOf s w 2) ∧ t = { s with ev := t.ev, light := t.light })

/-- Transom paths: an applied map sets its Window's routes and lets its terminated ports tune; a pass-through path that loses its light holds its
rings, and locks them again when the light is back; a ring that loses lock is unlocked. -/
def Obligations.TransomEventsComplete : Prop :=
  (∀ w t0 is s, w < 8 → tget s.transom.changing w [] = [(t0, is)] →
    ∃ f : State → Nat → State, exec (.transomMapApplied w) s = .next (is.foldl f
      (raise 0x0701 (eicDie w) 1 w is.length ((s.ns - t0) / 1000)
        (setRoutes is { s with transom := { s.transom with changing := tdel s.transom.changing w } }))) ∧
      (∀ s i, terminated s (1024 + i) = false → f s i = s) ∧
      (∀ s i, terminated s (1024 + i) = true → (portAt s (1024 + i)).enabled = true → (portAt s (1024 + i)).state = .disabled →
        f s i = settlePort (1024 + i) (parkOutputs [i] s))) ∧
  (∀ w s, w < 8 → tget s.transom.changing w [] = [] → exec (.transomMapApplied w) s = .next s) ∧
  (∀ w e s, w < 8 → e < 32 → transomMode s (32 * w + e) = 2 → exec (.transomPassLos w e) s =
    .next (raise 0x0702 (eicDie w) 3 w e (pathId s (32 * w + e))
      (modRoute (32 * w + e) (fun r => { r with switch := false, matrix := false, add := false, holding := true })
        (setLos w (1, e / 8, e % 8) true s)))) ∧
  (∀ w e s, w < 8 → e < 32 → transomMode s (32 * w + e) = 2 → exec (.transomPassRestored w e) s =
    .next (raise 0x0703 (eicDie w) 2 w e (pathId s (32 * w + e)) (lockRoute (32 * w + e) (setLos w (1, e / 8, e % 8) false s)))) ∧
  (∀ w e ring s, w < 8 → e < 32 → ring < 3 → transomMode s (32 * w + e) = 2 → ∃ t, exec (.transomRingUnlock w e ring) s = .next t ∧
    tget t.transom.routes (32 * w + e) {} = { tget s.transom.routes (32 * w + e) {} with
      switch := (tget s.transom.routes (32 * w + e) {}).switch && ring ≠ 0,
      matrix := (tget s.transom.routes (32 * w + e) {}).matrix && ring ≠ 1,
      add := (tget s.transom.routes (32 * w + e) {}).add && ring ≠ 2 } ∧
    t = { s with ev := t.ev, transom := t.transom })

/-- The flowlet sweep clears V of the idle entries of its slot, the queue loads are published, an ECC record of a Chute is repaired, and the table engine runs
each operation of TCE_CTRL: it is BUSY with a result in hand until TCE_OPERATION_DONE shows it; a START while it is BUSY only sets OVERRUN. -/
def Obligations.TableEventsComplete : Prop :=
  (∀ s, ∃ t, exec .flowletSweep s = .next t ∧ t = { s with fwd := { s.fwd with flow := t.fwd.flow } } ∧
    ∀ k, tfind t.fwd.flow k = (tfind s.fwd.flow k).map fun f =>
      { f with valid := f.valid && !(decide (k.2 / 16 = flowNow s % 2 ^ 14) &&
        decide (flowIdle s ≤ (flowNow s % 65536 + 65536 - f.ts) % 65536)) }) ∧
  (∀ s, exec .queueLoadPublish s = .next { s with fwd := { s.fwd with
    published := (s.buf.queues.map fun e => (e.1, sumCells e.2.frames)).filter fun e => e.2 ≠ 0 } }) ∧
  (∀ h ns r table code s, h < 4 → (chuteAt s h).records.find? (fun r => !r.read) = some r → repairTable r = some (table, code) →
    let marked := setChute h { chuteAt s h with
        records := mapFirst (fun r => !r.read) (fun r => { r with read := true }) (chuteAt s h).records } s
    ((code, h, r.index) ∉ s.fwd.bad → exec (.chuteRepair h true ns) s = .next (raise 0x0350 (hallDie h) 3 code r.index ns marked)) ∧
    ((code, h, r.index) ∈ s.fwd.bad → exec (.chuteRepair h true ns) s = .next
      (let a := recordFault 0xF 0 (hallDie h) (code * 2 ^ 20 + r.index) marked
       clearFault 0xF (hallDie h) (code * 2 ^ 20 + r.index) (raise 0x0350 (hallDie h) 3 code r.index ns
        { a with fwd := { a.fwd with bad := a.fwd.bad.filter (· ≠ (code, h, r.index)) } })))) ∧
  (∀ ctrl bad s, bar0Takes s 0x20000 = true → s.setup.tce.busy = false → bit ctrl 16 = true → 1 ≤ bitsOf ctrl 15 8 → bitsOf ctrl 15 8 ≤ 6 →
    s.setup.tce.index < tableSize (bitsOf ctrl 15 8) →
    ∃ t, exec (.tceRead ctrl bad) s = .next t ∧ t.setup.tce.busy = true ∧ t = { s with draws := t.draws, counters := t.counters, setup := { s.setup with tce := t.setup.tce } } ∧
      ∃ words, t.setup.tce.result = some (0, 0, false, words) ∧
        (bitsOf ctrl 15 8 ≠ 5 → (∀ b ∈ s.fwd.bad, b.2.2 ≠ s.setup.tce.index) →
          words = entryWords s (bitsOf ctrl 15 8) s.setup.tce.index)) ∧
  (∀ ctrl s, bar0Takes s 0x20000 = true → s.setup.tce.busy = true →
    exec (.tceWrite ctrl) s = .next (modTce (fun t => { t with overrun := true }) (countBar0 1 0x20000 s))) ∧
  (∀ ctrl s, bar0Takes s 0x20000 = true → s.setup.tce.busy = false → bit ctrl 16 = true → 1 ≤ bitsOf ctrl 15 8 →
    bitsOf ctrl 15 8 ≤ 6 → bitsOf ctrl 15 8 ≠ 5 → s.setup.tce.index < tableSize (bitsOf ctrl 15 8) →
    ∃ t, exec (.tceWrite ctrl) s = .next t ∧ t.setup.tce.result = some (3, 6, false, []) ∧
    t = { s with counters := t.counters, setup := { s.setup with tce := t.setup.tce } }) ∧
  (∀ ctrl s, bar0Takes s 0x20000 = true → s.setup.tce.busy = false →
    let a := modTce (fun t => { t with ctrl := bitsOf ctrl 19 8 * 256 + 2, busy := true }) (countBar0 1 0x20000 s)
    bit ctrl 16 = false → 1 ≤ bitsOf ctrl 15 8 → bitsOf ctrl 15 8 ≤ 6 → bitsOf ctrl 15 8 ≠ 5 →
    s.setup.tce.index < tableSize (bitsOf ctrl 15 8) → tceTxnRefused a = none →
    let r := engineWrite (tceRequest a) 0 0 (bitsOf ctrl 15 8) s.setup.tce.index (s.setup.tce.data.take (tableWords (bitsOf ctrl 15 8))) a
    exec (.tceWrite ctrl) s = .next (modTce (fun t => { t with
      result := some (r.1.refuse.status, r.1.refuse.reason, r.1.matched, r.1.words) }) r.2)) ∧
  (∀ ctrl bad s, bar0Takes s 0x20000 = true → s.setup.tce.busy = false →
    let a := modTce (fun t => { t with ctrl := bitsOf ctrl 19 8 * 256 + 3, busy := true }) (countBar0 1 0x20000 s)
    bit ctrl 16 = false → 1 ≤ bitsOf ctrl 15 8 → bitsOf ctrl 15 8 ≤ 6 → bitsOf ctrl 15 8 ≠ 5 →
    s.setup.tce.index < tableSize (bitsOf ctrl 15 8) → tceTxnRefused a = none →
    let r := engineCompareWrite (tceRequest a) 0 0 (bitsOf ctrl 15 8) s.setup.tce.index bad
      (s.setup.tce.cmp.take (tableWords (bitsOf ctrl 15 8))) (s.setup.tce.data.take (tableWords (bitsOf ctrl 15 8))) a
    exec (.tceCompareWrite ctrl bad) s = .next (modTce (fun t => { t with
      result := some (r.1.refuse.status, r.1.refuse.reason, r.1.matched, r.1.words) }) r.2)) ∧
  (∀ ctrl s, bar0Takes s 0x20000 = true → s.setup.tce.busy = false → bitsOf ctrl 15 8 = 5 → bit ctrl 16 = true →
    s.setup.tce.index < 262144 → ∃ t word, exec (.tceClearAge ctrl) s = .next t ∧ t.setup.tce.result = some (0, 0, false, [word]) ∧
      t.fwd.flow = (clearAge (bitsOf ctrl 18 17) s.setup.tce.index s).fwd.flow ∧ 
      t = { s with counters := t.counters, fwd := { s.fwd with flow := t.fwd.flow }, setup := { s.setup with tce := t.setup.tce } }) ∧
  (∀ s st rs m ws, s.setup.tce.result = some (st, rs, m, ws) → exec .tceOperationDone s = .next (modTce (fun t => { t with
      busy := false, done := true, matched := m, status := st, reason := rs, result := none, data := ws ++ t.data.drop ws.length }) s))

/-- Transactions and drains: an idle transaction is rolled back and a committing one commits at its instant; a drained block is QUIESCED; at its limit a
drain is answered FAULT, or with FORCE its frames are flushed. -/
def Obligations.TransactionEventsComplete : Prop :=
  (∀ h t s, txnAt s h = some t → t.state ≠ .committing →
    exec (.txnIdleTimeout h) s = .next (if s.ns < t.lastNamed + t.idle * 1000000000 then s else rollBack t 2 s)) ∧
  (∀ h t s, txnAt s h = some t → t.state = .committing →
    exec (.commitInstant h) s = .next (if t.t ≤ mantel s then commitNow t s else s)) ∧
  (∀ k b s, blockAt s k = some b → b.state = .quiescing → drained s k = true →
    exec (.quiesceDrainCheck k) s = .next (enterQuiesced k 0 s)) ∧
  (∀ k b d s, blockAt s k = some b → b.state = .quiescing → b.drain = some d → d.expired = false → d.start + d.limit * 1000 ≤ s.ns → d.force = false →
    exec (.drainLimitExpired k) s = .next (complete (.quiesce k) 9 0x80 0 []
      (modBlock k (fun b => { b with drain := some { d with expired := true } }) s))) ∧
  (∀ k b d s, blockAt s k = some b → b.state = .quiescing → b.drain = some d → d.expired = false → d.start + d.limit * 1000 ≤ s.ns → d.force = true →
    let flushedOf (s : State) : Nat := ((List.range 4).map fun h => (counterAt { scope := 5, inst := 4 * k + h, idx := 1 } s).value).sum
    let u := purge (fun _ f => f.latchkey = k) (fun h c s => countPool k h 1 c s) s
    exec (.drainLimitExpired k) s = .next (enterQuiesced k (flushedOf u - flushedOf s) ((blockCtxs u k).foldl (fun s c =>
      match ctxAt s c with
      | none => s
      | some r => r.chunks.foldl (fun s x => resetChunk c x.1 6 s) s) u)))

/-- Buffers. Held frames are retried oldest first; the buffer loop moves one threshold; a frame crosses to another Hall and is admitted there; a spilled
frame's write is acknowledged, and it comes back when its cells fit; heads' timers and gates are looked at. -/
def Obligations.BufferEventsComplete : Prop :=
  (∀ h s, h < 4 → let a := holdStall h s
    let l := (hallAt a h).held.filter fun x => x.turn.isNone
    l ≠ [] → exec (.heldFrameRetry h) s = .next (withShares h l (fun s => l.foldl (fun s x => offer h 4 x s)
      (modHall h (fun a => { a with held := a.held.filter fun x => x.turn.isSome }) s)) a)) ∧
  (∀ h s, h < 4 → bit (hallSetting s h 4 1) 0 = false →
    exec (.bufferLoop h) s = .next (modHall h (fun a => { a with refusedVcs := 0 }) s)) ∧
  (∀ h v s, h < 4 → bit (hallSetting s h 4 1) 0 = true →
    (sharedSpace s h - sharedUsed s h) * 256 < hallSetting s h 24 2 * sharedSpace s h →
    [1, 2, 3, 4].find? (fun v => vcHolds s h v && hallSetting s h (15 + v) 1 < (hallAt s h).k.getD v 0) = some v →
    ∃ t, exec (.bufferLoop h) s = .next t ∧ (hallAt t h).k = (hallAt s h).k.set v ((hallAt s h).k.getD v 0 - 1) ∧
      (hallAt t h).refusedVcs = 0 ∧ (∀ h', h' ≠ h → hallAt t h' = hallAt s h') ∧ t = { s with counters := t.counters, buf := t.buf }) ∧
  (∀ src dst route s, src < 4 → dst < 4 → pickRoute s src dst (tget (hallAt s src).relay dst [0, 0, 0]) = some route →
    let a := modHall src (fun a => { a with rounds := tset a.rounds dst (pickCross s src dst).2 }) s
    ∀ x, ((pickCross s src dst).1.bind fun v => crossHead a src dst v) = some x →
    exec (.crossHallArrival src dst) s = .next
      (let s := modHall src (fun a => { a with xfer := tset a.xfer dst ((tget a.xfer dst []).erase x) }) (countRelay src dst route x.cells a)
       let s := countHall src (48 + 8 * dst + x.vc) 1 (freeFrame x src s)
       let s := modHall dst (fun a => { a with crossUse := tset a.crossUse (src, x.vc) (tget a.crossUse (src, x.vc) 0 + x.cells) }) s
       arrive dst { x with store := .cross src x.vc } s)) ∧
  (∀ src dst s, src < 4 → dst < 4 → pickRoute s src dst (tget (hallAt s src).relay dst [0, 0, 0]) = none →
    exec (.crossHallArrival src dst) s = .next s) ∧
  (∀ h x r s, h < 4 → tget s.buf.spillWrites h [] = x :: r → exec (.spillWriteAck h) s =
    .next (freeFrame x h { s with buf := { s.buf with spillWrites := tset s.buf.spillWrites h r } })) ∧
  (∀ p vc x r s, isPort p = true → vc < 8 → (queueAt s p vc).spilled = x :: r →
    sumCells (queueAt s p vc).frames < hallSetting s (hallOf p) 34 2 + 128 →
    let a := countLines (hallOf p) 0 0 (2 * x.cells) (useTokens (hallOf p) 0 (2 * x.cells) s)
    x.cells ≤ freeCells a (hallOf p) (poolKey s x.frame.latchkey) →
    exec (.spillReturn p vc .none []) s = .next
      (let s' := setQueue p vc { queueAt s p vc with spilled := r } a
       linkTail { x with store := .pool (poolKey s x.frame.latchkey) }
        (countHall (hallOf p) 32 x.cells (chargePool (hallOf p) (poolKey s x.frame.latchkey) x.cells (freeFrame x (hallOf p) s'))))) ∧
  (∀ s, exec .headTimerCheck s = .next (((s.buf.queues.map fun e => e.1.1).eraseDups).foldl (fun s p => checkHeads p s) s)) ∧
  (∀ p s, isPort p = true → exec (.gateEntryChange p) s = .next (touchHeads p (markWaits p s)))

/-- Cellar. The scrub looks at the next line and moves on; a row and a chunk are rewritten into spares; refresh and its mode follow the hottest sensor; a
memory test ends with its counts. -/
def Obligations.CellarEventsComplete : Prop :=
  (∀ h obs s, h < 4 → s.ns - (scrubAt s h).start ≤ u8 (bootcfg s) 3 * hour → (scrubAt s h).pos + 1 < 2 ^ 30 →
    scrubSkips s h (lineOf ((scrubAt s h).pos % 128) ((scrubAt s h).pos / 128)) = true →
    exec (.cellarScrub h obs) s = .next (modScrub h (fun b => { b with pos := b.pos + 1 }) s)) ∧
  (∀ h obs s, h < 4 → s.ns - (scrubAt s h).start ≤ u8 (bootcfg s) 3 * hour → (scrubAt s h).pos + 1 < 2 ^ 30 →
    let line := lineOf ((scrubAt s h).pos % 128) ((scrubAt s h).pos / 128)
    let d := cellarDieId h (lineParts line).1
    let c := (lineParts line).1 % 32
    scrubSkips s h line = false →
    (∀ t, ((cellarDie s d).channel c).scrubbed = some t → s.ns < t + 4000 → exec (.cellarScrub h obs) s =
      .next (modScrub h (fun b => { b with pos := b.pos + 1 })
        (askAccess h { kind := .background, line, obs } (countPart h (partOfLine s line) 8 1 s)))) ∧
    ((∀ t, ((cellarDie s d).channel c).scrubbed = some t → t + 4000 ≤ s.ns) →
      let a := modChannel d c (fun x => { x with scrubbed := some s.ns }) s
      exec (.cellarScrub h obs) s = .next (modScrub h (fun b => { b with pos := b.pos + 1 })
        (askAccess h { kind := .scrub, line, obs } (countPart h (partOfLine a line) 8 1 a))))) ∧
  (∀ die k rest s, (cellarDie s die).copies = k :: rest → ∃ t, exec (.cellarRowSpared die []) s = .next t ∧
    (cellarDie t die).copies = rest ∧ (cellarDie t die).spared = (cellarDie s die).spared ++ [k] ∧
    t.cellar.poisoned = s.cellar.poisoned ∧
    t = { s with ev := t.ev, counters := t.counters, darn := t.darn, cellar := t.cellar }) ∧
  (∀ die ch s, isCellar die = true → ch < 32 → ((cellarDie s die).channel ch).marked.isSome = true →
    ((cellarDie s die).channel ch).spareUsed = false → ((cellarDie s die).channel ch).rewriting = none →
    exec (.chunkRewriteStart die ch) s = .next (modChannel die ch (fun x => { x with rewriting := some s.ns }) s)) ∧
  (∀ die ch start chunk s, isCellar die = true → ch < 32 → ((cellarDie s die).channel ch).rewriting = some start →
    ((cellarDie s die).channel ch).marked = some chunk → exec (.cellarChunkSpared die ch []) s =
      .next (count 0xC die 2 1 (raise 0x1011 (hallDie (hallOfCellar die)) 2 die (ch * 256 + chunk) ((s.ns - start) / 1000000)
        (modChannel die ch (fun x => { x with marked := none, spareUsed := true, rewriting := none, fixes := [] }) s)))) ∧
  (∀ die s, isCellar die = true →
    exec (.cellarRefresh die) s = .next (modCellar die (fun x => { x with lastRefresh := s.ns }) s)) ∧
  (∀ die t s, isCellar die = true → (cellarDie s die).mode < refreshModeOf t → ∃ u, exec (.cellarRefreshMode die t) s = .next u ∧
    (cellarDie u die).mode = refreshModeOf t ∧ (cellarDie u die).hottest = t ∧ (cellarDie u die).coolSince = none ∧
    u = { s with ev := u.ev, cellar := u.cellar }) ∧
  (∀ h a first n s, h < 4 → tfind s.cellar.tests h = some (a, first, n) → exec (.cellarMemtestDone h []) s =
    .next (complete (.memtest h) 0 0 0 (beBytes 4 n ++ beBytes 4 0 ++ beBytes 4 0 ++ beBytes 4 0xFFFFFFFF ++ beBytes 2 0 ++ beBytes 1 0 ++
      zeros 1) { s with cellar := { s.cellar with tests := tdel s.cellar.tests h, testing := s.cellar.testing.filter (· ≠ h) } }))

/-- Collectives. A contribution is accumulated; a complete chunk is handed on; a release is sent; a self-tested chunk goes on; a Hamper entry is written; a
replay is sent when its wait ends; stragglers and stalled runs are reported once. -/
def Obligations.CollectiveEventsComplete : Prop :=
  (∀ m check y s, m < 2 → nextInput (mangleAt s m).input = some y → exec (.mangleContribReceived m check) s =
    .next (takeContrib m check y (pushOut m (admitInput m (modMangle m (fun x => { x with input := x.input.erase y }) s))))) ∧
  (∀ m c i ch s, m < 2 → oldestFinal (pushOut m s) m = some (c, i, ch) → (mangleAt (pushOut m s) m).output = [] →
    chunkRoom (pushOut m s) c ch = true → isRoot (pushOut m s) c = false →
    bufferUsed (pushOut m s) m + entrySize ((ch.frames.map fun f => f.length).sum) ≤ 4194304 →
    exec (.chunkDone m) s = .next (handChunk c ch (modCtx c (fun r => { r with chunks := tdel r.chunks i, done := r.done ++ [i] })
      (logChunk c i ch (pushOut m s))))) ∧
  (∀ ctx r s, ctxAt s ctx = some r → r.due = true → isRoot s ctx = true → (∀ t, r.lastRelease = some t → t + 500 ≤ s.ns) →
    groupRoom s (ctxOf s ctx).home (releaseFrame s ctx r.rel) = true →
    exec (.releaseSend ctx) s = .next (handGroup (ctxOf s ctx).home (releaseFrame s ctx r.rel)
      (modCtx ctx (fun r => { r with due := false, lastRelease := some s.ns }) s))) ∧
  (∀ m c i ch s, m < 2 → oldestTest s m = some (c, i) → chunkAt s c i = some ch →
    exec (.engineSelftestDone m false true) s = .next (buildFrames c i (match ch.shadow with
      | some e => retireEngine m e 3 c (patternOf (ctxOf s c) ch) (modChunk c i (fun x => { x with testing := false }) s)
      | none => modChunk c i (fun x => { x with testing := false }) s))) ∧
  (∀ m c i e s u, m < 2 → s.coll.ctxs = [(c, u)] → u.hamper = [(i, e)] → e.mangle = m → e.written = false →
    (takeTokens (2 * m + i % 2) 1 (e.size / 64) s).isSome = true →
    ∃ t, exec (.hamperEntryWrite m) s = .next t ∧ (∃ v, ctxAt t c = some v ∧ tfind v.hamper i = some { e with written := true }) ∧
    t = { s with draws := t.draws, counters := t.counters, cellar := t.cellar, coll := t.coll }) ∧
  (∀ ctx r t0 us s, ctxAt s ctx = some r → isRoot s ctx = false → r.failed = false → ctxRunning s ctx = true →
    r.replayTimer = some (t0, us) →
    exec (.replayWaitExpired ctx []) s = .next (if s.ns < t0 + us * 1000 then s else replay ctx [] s)) ∧
  (∀ ctx i r ch s, ctxAt s ctx = some r → chunkAt s ctx i = some ch → ch.final = false → ch.straggler = false → ctxRunning s ctx = true →
    (s.ns < ch.opened + ch.limit * 1000 → exec (.collStraggler ctx i) s = .next s) ∧
    (ch.opened + ch.limit * 1000 ≤ s.ns → ∃ t, exec (.collStraggler ctx i) s = .next t ∧
      counterAt { scope := 7, inst := ch.mangle, idx := 26 } t = (counterAt { scope := 7, inst := ch.mangle, idx := 26 } s).add 1 ∧
      t = { s with ev := t.ev, counters := t.counters, coll := t.coll })) ∧
  (∀ ctx run r x s, ctxAt s ctx = some r → tfind r.runOpen run = some x → isRoot s ctx = true → r.rel ≤ run → run ∉ r.stalled →
    ctxRunning s ctx = true → x.start + x.limit * 1000000 ≤ s.ns → exec (.collRunStalled ctx run) s =
      .next (raise 0x0924 (mangleDie (ctxOf s ctx).home) 4 ctx r.rel ((s.ns - x.opened) / 1000000)
        (modCtx ctx (fun r => { r with stalled := r.stalled ++ [run] }) s)))

/-- Mantel: frames are sent on every eligible port and taken from those that arrive, a source that falls silent is ranked out, a STEP generator acts, an edge
of MSYNC_IN is captured, and the Calendar steps at the instant it was told. -/
def Obligations.MantelEventsComplete : Prop :=
  (∀ s, (∀ t, s.time.lastSend = some t → t + s.time.interval * 1000 ≤ s.ns) → exec .mantelFrameSend s =
    .next (((s.links.map (·.1)).filter (mantelEligible s)).foldl sendMantel (modTime (fun t => { t with lastSend := some s.ns }) s))) ∧
  (∀ t s, s.time.lastSend = some t → s.ns < t + s.time.interval * 1000 → exec .mantelFrameSend s = .next s) ∧
  (∀ p x s, isPort p = true → s.time.inbox.find? (fun x => x.port = p) = some x → (x.frame.length ≠ 64 ∨ u8 x.frame.payload 0 ≠ 1) →
    exec (.mantelFrameReceived p) s = .next (countPort p 69 1 (modTime (fun t => { t with inbox := t.inbox.erase x }) s))) ∧
  (∀ p x s, isPort p = true → s.time.inbox.find? (fun x => x.port = p) = some x → x.frame.length = 64 → u8 x.frame.payload 0 = 1 →
    let a := countPort p 68 1 (modTime (fun t => { t with inbox := t.inbox.erase x }) s)
    exec (.mantelFrameReceived p) s = .next (takeMantel x (if x.rtx then countPort p 70 1 a else a))) ∧
  (∀ p s, isPort p = true → (mantelPort s p).info.isSome = true → exec (.mantelSourceLost p) s = .next (rankSources
    (modMantelPort p (fun m => { m with info := m.info.map fun i => { i with valid := false } }) s))) ∧
  (∀ g s, g < 4 → (s.time.gens.getD g {}).enable = true →
    let x := s.time.gens.getD g {}
    exec (.stepInstant g) s =
      .next (if x.base + x.k * x.period ≤ mantel s then modGen g (fun x => { x with k := x.k + 1 }) (stepAct g x.k 0 s) else s)) ∧
  (∀ s, (∀ e, s.time.lastEdge = some e → e + 1000 ≤ s.ns) → exec .msyncInEdge s = .next (modTime (fun t => { t with
    capture := (t.count, t.frac, t.cal.sec, t.cal.ns, t.cal.frac), captures := (t.captures + 1) % 2 ^ 32, lastEdge := some s.ns }) s)) ∧
  (∀ t0 sec ns s, s.time.cal.setAt = some (t0, sec, ns) → exec .calendarSetTimeAt s =
    .next (if mantel s < t0 then s else setCalendar sec ns s))

/-- The Calendar's PTP ports, the timestamp queue and the clock registers: a PTP message sets its port's view; a port without a master listens or becomes
one; an event message's time is queued while there is room; reads of the low half latch the rest; the legacy counter is rebased. -/
def Obligations.ClockReadEventsComplete : Prop :=
  (∀ p obs s, p < 2 → ptpRuns s p = true → (obs.kind = 0 ∨ obs.domain ≠ u8 (ptpAt s p).config 3) →
    exec (.ptpMessageReceived p obs) s = .next (count 15 p 2 1 s)) ∧
  (∀ p obs s, p < 2 → ptpRuns s p = true → obs.kind ≠ 0 → obs.domain = u8 (ptpAt s p).config 3 → s.time.ptp.length = 2 →
    s.time.cal.source ≠ 1 →
    ∃ t, exec (.ptpMessageReceived p obs) s = .next t ∧ (ptpAt t p).portState = obs.portState ∧ (ptpAt t p).parent = obs.parent ∧
      (ptpAt t p).gm = obs.gm ∧ (ptpAt t p).stepsRemoved = obs.stepsRemoved ∧ t.time.cal = s.time.cal ∧
    t = { s with ev := t.ev, counters := t.counters, time := t.time }) ∧
  (∀ p s, p < 2 → ptpRuns s p = true → exec (.ptpAnnounceTimeout p) s = .next (ptpLost (modPtp p (fun x => { x with
    portState := if bit (u8 (ptpAt s p).config 1) 2 then 4 else 6 }) s))) ∧
  (∀ p k id s, p < 2 → k < 4 → ptpRuns s p = true → s.time.ts.length < 64 → s.time.tsIrqEn = false → exec (.ptpEventMessageSend p k id) s =
    .next (modTime (fun t => { t with ts := t.ts ++ [{ id := id % 65536, port := p, msgType := k, sec := t.cal.sec, ns := t.cal.ns, frac := t.cal.frac }] })
      (emit (.ptp p k id) (count 15 p 0 1 s)))) ∧
  (∀ p k id s, p < 2 → k < 4 → ptpRuns s p = true → 64 ≤ s.time.ts.length → ∃ t, exec (.ptpEventMessageSend p k id) s = .next t ∧ 
    t = { s with
      out := s.out ++ [.ptp p k id], ev := t.ev, counters := t.counters,
      time := { s.time with tsOvf := min 0xFFFF (s.time.tsOvf + 1) } }) ∧
  (∀ s, bar0Takes s 0x30050 = true → exec .tsPop s = .next (modTime (fun t => { t with ts := t.ts.drop 1 }) (countBar0 1 0x30050 s))) ∧
  (∀ s, bar0Takes s 0x30050 = true → exec .tsClearOvf s = .next (modTime (fun t => { t with tsOvf := 0 }) (countBar0 1 0x30050 s))) ∧
  (∀ s, bar0Open s = true → ∃ t, exec .mantelLoRead s = .next t ∧ t.out = s.out ++ [.bar0 0x30000 (s.time.count % 2 ^ 32)] ∧
    t.time = { s.time with latchMantelHi := s.time.count / 2 ^ 32, latchMantelFrac := s.time.frac } ∧
    t = { s with out := t.out, counters := t.counters, time := t.time }) ∧
  (∀ s, bar0Open s = true → ∃ t, exec .calNsRead s = .next t ∧ t.out = s.out ++ [.bar0 0x30010 s.time.cal.ns] ∧
    t.time = { s.time with latchCalSec := s.time.cal.sec, latchCalFrac := s.time.cal.frac } ∧
    t = { s with out := t.out, counters := t.counters, time := t.time }) ∧
  (∀ s, bar0Open s = true → ∃ t, exec .legLoRead s = .next t ∧ t.out = s.out ++ [.bar0 0x30020 (legacyView s % 2 ^ 32)] ∧
    t.time = { s.time with latchLegHi := legacyView s / 2 ^ 32 } ∧
    t = { s with out := t.out, counters := t.counters, time := t.time }) ∧
  (∀ v s, bar0Takes s 0x30030 = true → ∃ t, exec (.legRateWrite v) s = .next t ∧ t.time = { s.time with
    legOffset := legacyView s, legBase := s.time.raw, legRate := v % 2 ^ 32 } ∧
    t = { s with counters := t.counters, time := t.time }) ∧
  (∀ v s, bar0Takes s 0x30028 = true → ∃ t, exec (.legOffsetLoWrite v) s = .next t ∧ t.time = { s.time with
    legOffsetLo := v % 2 ^ 32,
    legOffset := s.time.legOffsetHi * 2 ^ 32 + v % 2 ^ 32, legBase := s.time.raw } ∧
    t = { s with counters := t.counters, time := t.time })

/-- Darning: frames are sent and taken, a silent neighbour is judged down, and each hold's end lets its mask change happen. -/
def Obligations.DarningEventsComplete : Prop :=
  (∀ s, exec .darningFrameSend s = .next (if s.ns < s.darn.nextSend then s else
    (darnSenders s).foldl (sendDarning false) (modDarn (fun d => { d with nextSend := s.ns + d.interval * 1000 }) s))) ∧
  (∀ p f s, isPort p = true → s.darn.inbox.find? (fun e => e.1 = p) = some (p, f) → (f.length ≠ 544 ∨ u8 f.payload 0 ≠ 1) →
    exec (.darningFrameReceived p) s = .next (countPort p 73 1 (modDarn (fun d => { d with inbox := d.inbox.eraseP fun e => e.1 = p }) s))) ∧
  (∀ p f s, isPort p = true → s.darn.inbox.find? (fun e => e.1 = p) = some (p, f) → f.length = 544 → u8 f.payload 0 = 1 →
    let a := countPort p 72 1 (modDarn (fun d => { d with inbox := d.inbox.eraseP fun e => e.1 = p }) s)
    ∃ r : DarnRx, exec (.darningFrameReceived p) s = .next (advertise (judgePort false p (modDarnPort p (fun d => { d with rx := some r }) a))) ∧
      r.state = u8 f.payload 1 ∧ r.verdict = u8 f.payload 3 ∧ r.reach = bitmapNat (f.payload.drop 32) % 2 ^ 4095 ∧
      r.at' = s.ns ∧ r.limit = s.darn.silentLimit * s.darn.interval * 1000) ∧
  (∀ p r s, isPort p = true → switchPeer s p = true → (darnPort s p).rx = some r → exec (.darningSilent p) s =
    .next (if r.at' + r.limit ≤ s.ns then
      advertise (judgePort false p (modDarnPort p (fun d => { d with rx := none }) (countPort p 74 1 s))) else s)) ∧
  (∀ p h s, isPort p = true → maskBit s p = true → (darnPort s p).outSince = some h → isUp s p = false →
    exec (.maskHoldExpired p) s = .next (if h.start + h.limit ≤ s.ns then advertise (clearMask p 1 s) else s)) ∧
  (∀ p h s, isPort p = true → maskBit s p = false → (darnPort s p).since = some h → isUp s p = true → carriesFrames s p = true →
    darnCause s p = none → exec (.restoreHoldExpired p) s = .next (if h.start + h.limit ≤ s.ns then
      advertise (setMask p (modDarnPort p (fun d => { d with since := none }) s)) else s)) ∧
  (∀ p s, isPort p = true → (darnPort s p).flapHeld = true → exec (.flapHoldExpired p) s =
    .next (if (darnPort s p).flapHold.start + (darnPort s p).flapHold.limit ≤ s.ns then
      advertise (judgePort false p (modDarnPort p (fun d => { d with flapHeld := false }) s)) else s))

/-- Die faults, failover and activation: a die's fault is declared; the loss of the leader's heartbeat begins a handover, the loss of the standby's ends
its readiness; a silent Hall is failed; a handover changes the leader; an activation goes through its steps; a self-test runs. -/
def Obligations.FailoverEventsComplete : Prop :=
  (∀ die c s, 1 ≤ c → c ≤ dieConditions die → exec (.dieFault die c) s = .next (declareFault die c s)) ∧
  (∀ s, exec (.dieFault (leadDie s) 0) s = .next (fatalError s)) ∧
  (∀ s, exec (.dieFault (standbyDie s) 0) s = .next s) ∧
  (∀ s, s.boot.standbyReady = true → exec .leaderHeartbeatLoss s = .next (failHearth (leadDie s) 5 s)) ∧
  (∀ s, s.boot.standbyReady = true → exec .standbyKeepaliveLoss s = .next (failHearth (standbyDie s) 5 s)) ∧
  (∀ h s, h < 4 → h ∉ s.darn.hallFailed → partFailed s = false →
    let a := discardHalls (· = h) (modDarn (fun d => { d with hallFailed := d.hallFailed ++ [h] }) s)
    let b := advertise (((a.links.map (·.1)).filter fun p => hallOf p = h).foldl (fun s p => judgePort false p s) a)
    let c := ((darnSenders b).filter fun p => hallOf p = h).foldl (sendDarning true) b
    exec (.hallKeepaliveTimeout h) s = .next (if allHallsFailed c then failPart 3 c else c)) ∧
  (∀ s, s.boot.handover = true → s.boot.handoverCause ≠ 2 →
    let us := (s.ns - s.boot.handoverStart) / 1000
    let a := modBoot (fun b => { b with
      handover := false, bLeads := !b.bLeads, standbyReady := true, hearthB := if b.bLeads then 2 else 3
      trngState := b.standbyTrng.state, trngRuns := b.standbyTrng.runs, trngRetests := b.standbyTrng.retests
      standbyTrng := { state := b.trngState, runs := b.trngRuns, retests := b.trngRetests } }) s
    let b := modSec (fun c => { c with challenge := none, tokenData := [], reseeds := c.reseeds + 1, drawn := 0, seeded := s.ns })
      (remountStore (activationAfter false { a with power := { a.power with windowAt := some s.ns, capNow := a.power.cap, lowWindows := 0 } }))
    let c := answerAll (decide (s.fw.step = 4)) us b
    exec .hearthHandoverDone s = .next (ptpLost (advertise (raiseLead 0x0B06 3 (leadCode c) s.boot.handoverCause us c)))) ∧
  (∀ s, (s.fw.step = 2 ∨ s.fw.step = 3) → exec .activationStandbyReady s =
    .next (beginHandover 3 (setStandby true 2 (modFw (fun f => { f with step := 4 }) s)))) ∧
  (∀ s, s.fw.step = 5 → s.ns < s.fw.trialStart + s.fw.trial * 1000000000 → exec .fwTrialEnd s = .next s) ∧
  (∀ s, s.fw.step = 5 → s.fw.trialStart + s.fw.trial * 1000000000 ≤ s.ns → s.boot.standbyReady = true → exec .fwTrialEnd s = .next (setStandby false 1 (modFw (fun f => { f with step := 6 }) s))) ∧
  (∀ s, s.fw.step = 5 → s.fw.trialStart + s.fw.trial * 1000000000 ≤ s.ns → s.boot.standbyReady = false → exec .fwTrialEnd s = .next (finishActivation s)) ∧
  (∀ s, s.fw.step = 6 → exec .fwActivated s = .next (advertise (finishActivation (setStandby true 2 s)))) ∧
  (∀ item failed s, 1 ≤ item → item ≤ 5 → bit s.darn.testEnable item = true → s.boot.phase = 7 → partFailed s = false →
    (s.ns < s.darn.testDue.getD (item - 1) 0 → exec (.selftestPeriod item failed) s = .next s) ∧
    (s.darn.testDue.getD (item - 1) 0 ≤ s.ns →
      let a := modDarn (fun d => { d with testDue := d.testDue.set (item - 1) (s.ns + d.testPeriods.getD (item - 1) 1 * 1000000000) }) s
      exec (.selftestPeriod item failed) s = .next (runSelftest item 0 (failed.filter fun e => !suspended a item e.1 e.2) a).2.2))

/-- Heat and power: zones are sampled and levels change after their dwell; a trip resets the part; the Mangle's level moves by one; the power cap's window
moves the cap's step; the rails step, rise at once on a Hall's margin, and are read. -/
def Obligations.ThermalEventsComplete : Prop :=
  (∀ samples s, (∀ e ∈ samples, e.1 < 40) → ∃ f : State → Nat × List Reading → State,
    exec (.thermalSample samples) s = .next (samples.foldl f s) ∧
    (∀ s e, e.1 < 32 → f s e = sampleZone e.1 e.2 s) ∧
    (∀ s e, 32 ≤ e.1 → let a := sampleZone e.1 e.2 s
      let b := correctHeaters (e.1 - 32) a
      f s e = if picCold s (e.1 - 32) && !picCold b (e.1 - 32) then modWindow (e.1 - 32) (fun x => { x with warmAt := some s.ns }) b else b)) ∧
  (∀ z k s, z < 40 → (zoneAt s z).bad.length < sensorsOf z → dueLevel (zoneAt s z) s.ns = some k →
    exec (.thermalDwellExpired z) s = .next (settleHolds (setLevel z k s))) ∧
  (∀ z i r s, z < 40 → i < sensorsOf z → i ∉ (zoneAt s z).bad → 125 * 256 ≤ r → s.boot.cold = false →
    (s.boot.phase ≠ 0 ∨ s.boot.held = true) → ∃ t, exec (.thermalTrip z i r) s = .next t ∧
    t.boot.held = true ∧ z ∈ t.boot.thermalHeld ∧ (zoneAt t z).trip = some (i, r) ∧ t.porch = s.porch ∧
    (s.boot.held = true → t = { s with boot := t.boot, zones := t.zones }) ∧
    (s.boot.held = false → t = { warmState (some 27) s with draws := t.draws, boot := t.boot, zones := t.zones, nv := t.nv, power := t.power })) ∧
  (∀ z i r s, z < 40 → i < sensorsOf z → r < 125 * 256 → exec (.thermalTrip z i r) s = .next s) ∧
  (∀ m s, m < 2 → s.power.levels.length = 2 →
    (∀ t, s.power.stepped.getD m none = some t → t + dwell ≤ s.ns) → ∃ t, exec (.mangleLevelStep m) s = .next t ∧
    (let old := s.power.levels.getD m 0
     let want := wantedLevel s m
     t.power.levels.getD m 0 = if old < want then old + 1 else if want < old then old - 1 else old) ∧
    t = { s with ev := t.ev, power := { s.power with levels := t.power.levels, stepped := t.power.stepped } }) ∧
  (∀ m t s, m < 2 → s.power.stepped.getD m none = some t → s.ns < t + dwell → exec (.mangleLevelStep m) s = .next s) ∧
  (∀ avg t s, s.power.windowAt = some t → s.ns < t + capWindow → exec (.powerCapWindow avg) s = .next s) ∧
  (∀ avg s, s.boot.handover = false → (∀ t, s.power.windowAt = some t → t + capWindow ≤ s.ns) → s.power.capNow * 1000 < avg →
    s.power.sCap < 4 → exec (.powerCapWindow avg) s = .next { s with power := { s.power with
      avg, sCap := s.power.sCap + 1, lowWindows := 0, unmet := false, windowAt := some s.ns, capNow := s.power.cap } }) ∧
  (∀ avg s, s.boot.handover = false → (∀ t, s.power.windowAt = some t → t + capWindow ≤ s.ns) → avg ≤ s.power.capNow * 1000 →
    (s.power.capNow - 30) * 1000 ≤ avg → exec (.powerCapWindow avg) s = .next { s with power := { s.power with
      avg, lowWindows := 0, unmet := false, windowAt := some s.ns, capNow := s.power.cap } }) ∧
  (∀ k m s, k < 6 → (railAt s k).setpoint < 850 → exec (.avsStep k true m) s =
    .next (writeRail k (min 850 ((railAt s k).setpoint + 5)) (noteMargin k m s))) ∧
  (∀ k m s, k < 4 → 620 < (railAt s k).setpoint → (∀ t, (railAt s k).lastDown = some t → t + 1000000 ≤ s.ns) → ∃ t, exec (.avsStep k false m) s = .next t ∧
    ((railAt s k).readOnly = false → 3 ≤ s.boot.phase → (railAt t k).setpoint = max 620 ((railAt s k).setpoint - 5)) ∧
    (railAt t k).lastDown = some s.ns ∧
    t = { s with out := t.out, power := t.power }) ∧
  (∀ h m s, h < 4 → exec (.hallMargin h m) s = .next (raise 0x0C07 (hallDie h) 4 (hallDie h) (natOfInt 32 m) 0
    (modRail h (fun r => { r with emergency := some s.ns }) (writeRail h 850 (noteMargin h m s))))) ∧
  (∀ m s, m < 2 → (s.power.guards.getD m {}).on = false → exec (.frequencyGuard m) s =
    .next (modGuard m (fun g => { g with
      on := true, since := s.ns, pushed := false, acts := (g.acts.filter fun t => s.ns < t + second) ++ [s.ns] }) s)) ∧
  (∀ m s, m < 2 → (s.power.guards.getD m {}).on = true →
    exec (.frequencyGuardRelease m) s = .next (if (s.power.guards.getD m {}).since + 1000 ≤ s.ns then
      modGuard m (fun g => { g with on := false, last := some s.ns }) (pushVoltage m s) else s)) ∧
  (∀ k mv ma s, k < 6 → exec (.avsBusPoll k (some (mv, ma))) s = .next (modRail k (fun r => { r with mv, ma, errors := 0 }) s)) ∧
  (∀ k s, k < 6 → (railAt s k).errors = 2 → (railAt s k).readOnly = false → exec (.avsBusPoll k none) s =
    .next (raiseLead 0x0C10 5 k (railAt s k).mv 0 (modRail k (fun r => { r with errors := 3, readOnly := true, setpoint := 850 }) s)))

/-- The Porch and the root of trust: a tamper monitor latches its bit, and its end clears the live bit only; seconds count; the cell's loss loses what only it kept;
the DRBG is reseeded and an old debug challenge forgotten. -/
def Obligations.SecurityEventsComplete : Prop :=
  (∀ mon s, let new := (setBits 6 mon).filter fun i => !bit s.porch.live i
    new ≠ [] → ∃ t, exec (.porchAlarm mon) s = .next t ∧
    t.porch.latched = s.porch.latched ||| maskOf new ∧ t.porch.live = s.porch.live ||| maskOf new ∧
    t.porch.share = [] ∧ t.porch.count = min 0xFFFF (s.porch.count + new.length) ∧
    (s.porch.latched = 0 → t.porch.alarmSecs = s.porch.secs ∧ t.porch.first = 2 ^ new.headD 0) ∧
    (s.porch.latched ≠ 0 → t.porch.alarmSecs = s.porch.alarmSecs ∧ t.porch.first = s.porch.first) ∧
    t = { s with porch := t.porch, ev := t.ev }) ∧
  (∀ mon s, setBits 6 mon ≠ [] → (∀ i ∈ setBits 6 mon, bit s.porch.live i = true) → exec (.porchAlarm mon) s = .next s) ∧
  (∀ mon s, exec (.porchMonitorAlarmEnd mon) s = .next { s with porch := { s.porch with
    live := maskOf ((setBits 6 s.porch.live).filter fun i => !bit mon i) } }) ∧
  (∀ temp mv s, exec (.porchSecond temp mv) s = .next { s with porch := { s.porch with
    secs := (s.porch.secs + 1) % 2 ^ 64, temp, cellMv := mv, cellPresent := decide (2000 < mv) } }) ∧
  (∀ s, s.porch.mainPower = true → exec .backupCellLost s = .next { s with porch := { s.porch with cellPresent := false, cellMv := 0 } }) ∧
  (∀ s, s.porch.mainPower = false → exec .backupCellLost s = .next { s with porch := s.porch.lose }) ∧
  (∀ s, s.boot.phase ≠ 0 → s.boot.lost = false →
    exec .calendarSecond s = .next { s with porch := { s.porch with secs := s.time.cal.sec, timeValid := true } }) ∧
  (∀ c t0 s, s.sec.challenge = some (c, t0) → exec .debugChallengeExpiry s =
    .next (if t0 + 600 * second ≤ s.ns then { s with sec := { s.sec with challenge := none, tokenData := [] } } else s)) ∧
  (∀ s, s.sec.challenge = none → exec .debugChallengeExpiry s = .next s) ∧
  (∀ s, s.boot.trngState = 2 → exec .drbgReseed s = .next { s with sec := { s.sec with
    reseeds := s.sec.reseeds + 1, drawn := 0, seeded := s.ns } })

/-- The store: the oldest transaction commits on every working device and is answered; a scrub pass rewrites and ends; wear levelling and resynchronisation
finish; the persistent log takes the waiting events. -/
def Obligations.StoreEventsComplete : Prop :=
  (∀ x rest s, s.nv.queue = x :: rest → storeUp s = true → (∀ route a b share, x.effect ≠ .ownerKey route a b share) →
    exec (.nvTransactionCommit []) s = .next (complete (.store x.id) x.status x.reason 0 x.payload
      (applyStored x.effect (applyLive x.effect (commitPages x.effect (modNv (fun n => { n with queue := rest }) s)))))) ∧
  (∀ x rest s, s.nv.queue = x :: rest → storeUp s = false → x.effect.always = false → exec (.nvTransactionCommit []) s =
    .next (complete (.store x.id) 9 0x80 0 [] (modNv (fun n => { n with queue := rest }) s))) ∧
  (∀ d region block s, d < 2 → readable s d = true → s.nv.scrubRun = true → s.nv.scrubDone + 1 < s.nv.scrubTotal →
    exec (.nvScrubBlock d region { first := { block } }) s =
      .next (modNv (fun n => { n with scrubDone := n.scrubDone + 1 }) (countNv d 0 64 s))) ∧
  (∀ d region block s, d < 2 → readable s d = true → s.nv.scrubRun = true → s.nv.scrubTotal ≤ s.nv.scrubDone + 1 →
    ∃ t, exec (.nvScrubBlock d region { first := { block } }) s = .next t ∧
    t.nv.scrubRun = false ∧ t.nv.scrubDone = s.nv.scrubDone + 1 ∧ (∀ x ∈ t.nv.devices, x.state = 1 → x.lastPass = some s.ns) ∧
    t.nv.queue = s.nv.queue ∧
    t = { s with ev := t.ev, counters := t.counters, nv := t.nv }) ∧
  (∀ d region obs s, d < 2 → readable s d = false → exec (.nvScrubBlock d region obs) s = .next s) ∧
  (∀ d m s, d < 2 → (nvDev s d).minErase + 2000 < (nvDev s d).maxErase →
    (∀ t, (nvDev s d).lastMove = some t → t + second ≤ s.ns) → exec (.nvWearLevel d m) s =
    .next (countNv d 2 1 (countNv d 1 64 (countNv d 0 64 (modDev d (fun x => { x with
      minErase := m, maxErase := max x.maxErase (x.minErase + 1), lastMove := some s.ns }) s))))) ∧
  (∀ d n s, d < 2 → (nvDev s d).state = 2 → exec (.nvResyncDone d n) s = .next (raiseLead 0x0E06 2 d n
    ((s.ns - (nvDev s d).resyncStart) / second) (setDeviceState d 1 (modDev d (fun x => { x with resync := 1000, jseq := lastJseq s }) s)))) ∧
  (∀ s, storeUp s = true → s.nv.logQueue ≠ [] → ∃ t, exec .nvLogWrite s = .next t ∧ t.nv.logQueue = [] ∧
    t.nv.nextIndex = s.nv.nextIndex + s.nv.logQueue.length ∧ t.nv.queue = s.nv.queue ∧
    t = { s with counters := t.counters, nv := t.nv })

/-- Counters and telemetry: a capture starts, and with READ_CLEAR clears; a trigger captures its set; a datagram carries the oldest records. -/
def Obligations.CounterEventsComplete : Prop :=
  (∀ s, bar0Takes s 0x40008 = true → exec .ctrCapture s = .next (startCapture false (countBar0 1 0x40008 s))) ∧
  (∀ s, bar0Takes s 0x40008 = true → exec .ctrReadClear s = .next (startCapture true (countBar0 1 0x40008 s))) ∧
  (∀ n s, n < 8 → (s.tel.sets.getD n {}).step = false → exec (.telemetryTrigger n) s =
    .next (if mantel s % ((s.tel.sets.getD n {}).period * 1000) = 0 then triggerSet n s else s)) ∧
  (∀ s, s.tel.enable = true → (s.mgmt.getD s.tel.mgmt {}).up = true → (dieAt s s.tel.mgmt).state ≠ 3 → s.boot.handover = false →
    s.boot.lost = false →
    let sent := (s.tel.recent.filter fun e => s.ns < e.1 + 1000000).map (·.2)
    let rs := fitRecords (min 4072 (s.tel.maxRate * 125 - sent.sum - 24)) s.tel.stored
    rs ≠ [] →
    ∃ t, exec (.telemetryDatagramSend []) s = .next t ∧ t.tel.seq = (s.tel.seq + 1) % 2 ^ 64 ∧ t.tel.dropped = 0 ∧
      t.tel.stored = s.tel.stored.drop rs.length ∧
      t = { s with draws := t.draws, out := t.out, counters := t.counters, tel := t.tel, cellar := t.cellar } ∧
      t.out = s.out ++ [.telemetry s.tel.mgmt s.tel.addr s.tel.port (beBytes 2 1 ++ beBytes 2 rs.length ++
        beBytes 8 Config.deviceSerial ++ beBytes 8 s.tel.seq ++ beBytes 4 s.tel.dropped ++ rs.flatMap TelRecord.bytes)])

/-- The outside interfaces: the PCIe link and its configuration space, the management ports and their addresses, the sideband's map, and the JTAG port. -/
def Obligations.InterfaceEventsComplete : Prop :=
  (∀ speed width s, speed ∈ [2, 5, 8, 16, 32] → width ∈ [1, 2, 4, 8] → s.pcie.up = false → endpointRuns s = true →
    exec (.pcieLink true speed width) s = .next (raiseLead 0x0150 2 1 speed width (modPcie (fun x => { x with up := true, speed, width }) s))) ∧
  (∀ speed width s, s.pcie.up = true → exec (.pcieLink false speed width) s =
    .next (raiseLead 0x0150 4 0 0 0 (modPcie (fun x => { x with up := false, speed := 0, width := 0 }) s))) ∧
  (∀ off v s, off < 4096 → endpointRuns s = true → s.ns < s.pcie.retryUntil → ∀ w,
    exec (.pcieConfigurationRequest w off v) s = .next (emit (.config 0 true) s)) ∧
  (∀ off v s, off < 4096 → endpointRuns s = true → s.pcie.retryUntil ≤ s.ns →
    exec (.pcieConfigurationRequest true off v) s = .next (emit (.config 0 false) (configWrite off v s))) ∧
  (∀ v s, endpointRuns s = true → s.pcie.retryUntil ≤ s.ns →
    exec (.pcieConfigurationRequest false 0 v) s = .next (emit (.config 0x10245747 false) s)) ∧
  (∀ p s, p < 2 → (mgmtAt s p).up = false → mgmtRuns s p = true →
    exec (.mgmtLink p true) s = .next (raise 0x0151 p 2 p 1 0 (modMgmt p (fun x => { x with up := true }) s))) ∧
  (∀ p s, p < 2 → (mgmtAt s p).up = true →
    exec (.mgmtLink p false) s = .next (raise 0x0151 p 3 p 0 0 (modMgmt p (fun x => { x with up := false }) s))) ∧
  (∀ p a s, p < 2 → a < 2 ^ 32 → mgmtRuns s p = true → (mgmtAt s p).up = true → (mgmtAt s p).v4 ≠ some a →
    exec (.ipAddress p false a true) s = .next (raise 0x0152 p 2 p 4 1 (modMgmt p (fun x => { x with v4 := some a }) s))) ∧
  (∀ p a s, p < 2 → a < 2 ^ 128 → mgmtRuns s p = true → (mgmtAt s p).up = true → a ∉ (mgmtAt s p).v6 → (mgmtAt s p).v6.length < 2 →
    exec (.ipAddress p true a true) s = .next (raise 0x0152 p 2 p 6 1 (modMgmt p (fun x => { x with v6 := x.v6 ++ [a] }) s))) ∧
  (∀ p k a s, p < 2 → k < 4 → mgmtRuns s p = true → (mgmtAt s p).up = true → portHasAddress s p (decide (k % 2 = 1)) a = true →
    exec (.mgmtNeighbourRequest p k a) s = .next (emit (.neighbour p k a) s)) ∧
  (∀ off n s, sidebandServes s = true → exec (.sidebandRead off n) s =
    .next (emit (.sideband ((List.range n).map fun i => (sidebandMap s).getD ((off + i) % 64) 0)) s)) ∧
  (∀ code s, code ∈ [0x00, 0x01, 0x02, 0xFF] → exec (.jtagInstruction code) s =
    .next (emit (.jtag code (if code = 1 then some 0x110244A5 else if code = 0xFF then some 0 else none)) s)) ∧
  (∀ code s, code < 256 → code ∉ [0x00, 0x01, 0x02, 0xFF] → s.sec.lifecycle ≠ 0 → s.sec.full = false → s.sec.trace = false →
    exec (.jtagInstruction code) s = .next (emit (.jtag 0xFF (some 0)) s))
end

