-- ==== Sys2Proof/Laws/State.lean ====
section
/-!
SUPPORT. Which fields of the state each named update leaves alone: one fact for each field, given to the simplifier together.
-/
namespace Sys2Proof.Machine

@[simp] theorem emit_kept (o : Out) (s : State) :
  (emit o s).pending = s.pending ∧ (emit o s).ns = s.ns ∧ (emit o s).draws = s.draws ∧ (emit o s).boot = s.boot ∧
    (emit o s).seam = s.seam ∧ (emit o s).sill = s.sill ∧ (emit o s).fw = s.fw ∧ (emit o s).sec = s.sec ∧
    (emit o s).porch = s.porch ∧ (emit o s).ev = s.ev ∧ (emit o s).maloa = s.maloa ∧ (emit o s).counters = s.counters ∧
    (emit o s).filters = s.filters ∧ (emit o s).occ = s.occ ∧ (emit o s).ctrCopy = s.ctrCopy ∧ (emit o s).ctr = s.ctr ∧
    (emit o s).tel = s.tel ∧ (emit o s).time = s.time ∧ (emit o s).links = s.links ∧ (emit o s).ports = s.ports ∧
    (emit o s).fibres = s.fibres ∧ (emit o s).windows = s.windows ∧ (emit o s).modules = s.modules ∧
    (emit o s).light = s.light ∧ (emit o s).transom = s.transom ∧ (emit o s).blocks = s.blocks ∧
    (emit o s).fabricPool = s.fabricPool ∧ (emit o s).setup = s.setup ∧ (emit o s).fwd = s.fwd ∧ (emit o s).buf = s.buf ∧
    (emit o s).sched = s.sched ∧ (emit o s).darn = s.darn ∧ (emit o s).cellar = s.cellar ∧ (emit o s).nv = s.nv ∧
    (emit o s).coll = s.coll ∧ (emit o s).zones = s.zones ∧ (emit o s).power = s.power ∧ (emit o s).pcie = s.pcie ∧
    (emit o s).mgmt = s.mgmt ∧ (emit o s).alerts = s.alerts := by
  and_intros <;> rfl

@[simp] theorem emit_out (o : Out) (s : State) : (emit o s).out = s.out ++ [o] := rfl

@[simp] theorem count_kept (sc i k n : Nat) (s : State) :
  (count sc i k n s).pending = s.pending ∧ (count sc i k n s).ns = s.ns ∧ (count sc i k n s).draws = s.draws ∧
    (count sc i k n s).out = s.out ∧ (count sc i k n s).boot = s.boot ∧ (count sc i k n s).seam = s.seam ∧
    (count sc i k n s).sill = s.sill ∧ (count sc i k n s).fw = s.fw ∧ (count sc i k n s).sec = s.sec ∧
    (count sc i k n s).porch = s.porch ∧ (count sc i k n s).ev = s.ev ∧ (count sc i k n s).maloa = s.maloa ∧
    (count sc i k n s).filters = s.filters ∧ (count sc i k n s).occ = s.occ ∧ (count sc i k n s).ctrCopy = s.ctrCopy ∧
    (count sc i k n s).ctr = s.ctr ∧ (count sc i k n s).tel = s.tel ∧ (count sc i k n s).time = s.time ∧
    (count sc i k n s).links = s.links ∧ (count sc i k n s).ports = s.ports ∧ (count sc i k n s).fibres = s.fibres ∧
    (count sc i k n s).windows = s.windows ∧ (count sc i k n s).modules = s.modules ∧ (count sc i k n s).light = s.light ∧
    (count sc i k n s).transom = s.transom ∧ (count sc i k n s).blocks = s.blocks ∧
    (count sc i k n s).fabricPool = s.fabricPool ∧ (count sc i k n s).setup = s.setup ∧ (count sc i k n s).fwd = s.fwd ∧
    (count sc i k n s).buf = s.buf ∧ (count sc i k n s).sched = s.sched ∧ (count sc i k n s).darn = s.darn ∧
    (count sc i k n s).cellar = s.cellar ∧ (count sc i k n s).nv = s.nv ∧ (count sc i k n s).coll = s.coll ∧
    (count sc i k n s).zones = s.zones ∧ (count sc i k n s).power = s.power ∧ (count sc i k n s).pcie = s.pcie ∧
    (count sc i k n s).mgmt = s.mgmt ∧ (count sc i k n s).alerts = s.alerts := by
  and_intros <;> rfl

@[simp] theorem raise_kept (code die sev a b c : Nat) (s : State) :
  (raise code die sev a b c s).pending = s.pending ∧ (raise code die sev a b c s).ns = s.ns ∧
    (raise code die sev a b c s).draws = s.draws ∧ (raise code die sev a b c s).out = s.out ∧
    (raise code die sev a b c s).boot = s.boot ∧ (raise code die sev a b c s).seam = s.seam ∧
    (raise code die sev a b c s).sill = s.sill ∧ (raise code die sev a b c s).fw = s.fw ∧
    (raise code die sev a b c s).sec = s.sec ∧ (raise code die sev a b c s).porch = s.porch ∧
    (raise code die sev a b c s).maloa = s.maloa ∧ (raise code die sev a b c s).counters = s.counters ∧
    (raise code die sev a b c s).filters = s.filters ∧ (raise code die sev a b c s).occ = s.occ ∧
    (raise code die sev a b c s).ctrCopy = s.ctrCopy ∧ (raise code die sev a b c s).ctr = s.ctr ∧
    (raise code die sev a b c s).tel = s.tel ∧ (raise code die sev a b c s).time = s.time ∧
    (raise code die sev a b c s).links = s.links ∧ (raise code die sev a b c s).ports = s.ports ∧
    (raise code die sev a b c s).fibres = s.fibres ∧ (raise code die sev a b c s).windows = s.windows ∧
    (raise code die sev a b c s).modules = s.modules ∧ (raise code die sev a b c s).light = s.light ∧
    (raise code die sev a b c s).transom = s.transom ∧ (raise code die sev a b c s).blocks = s.blocks ∧
    (raise code die sev a b c s).fabricPool = s.fabricPool ∧ (raise code die sev a b c s).setup = s.setup ∧
    (raise code die sev a b c s).fwd = s.fwd ∧ (raise code die sev a b c s).buf = s.buf ∧
    (raise code die sev a b c s).sched = s.sched ∧ (raise code die sev a b c s).darn = s.darn ∧
    (raise code die sev a b c s).cellar = s.cellar ∧ (raise code die sev a b c s).nv = s.nv ∧
    (raise code die sev a b c s).coll = s.coll ∧ (raise code die sev a b c s).zones = s.zones ∧
    (raise code die sev a b c s).power = s.power ∧ (raise code die sev a b c s).pcie = s.pcie ∧
    (raise code die sev a b c s).mgmt = s.mgmt ∧ (raise code die sev a b c s).alerts = s.alerts := by
  unfold raise; dsimp only; split <;> and_intros <;> rfl

@[simp] theorem raiseLead_kept (code sev a b c : Nat) (s : State) :
  (raiseLead code sev a b c s).pending = s.pending ∧ (raiseLead code sev a b c s).ns = s.ns ∧
    (raiseLead code sev a b c s).draws = s.draws ∧ (raiseLead code sev a b c s).out = s.out ∧
    (raiseLead code sev a b c s).boot = s.boot ∧ (raiseLead code sev a b c s).seam = s.seam ∧
    (raiseLead code sev a b c s).sill = s.sill ∧ (raiseLead code sev a b c s).fw = s.fw ∧
    (raiseLead code sev a b c s).sec = s.sec ∧ (raiseLead code sev a b c s).porch = s.porch ∧
    (raiseLead code sev a b c s).maloa = s.maloa ∧ (raiseLead code sev a b c s).counters = s.counters ∧
    (raiseLead code sev a b c s).filters = s.filters ∧ (raiseLead code sev a b c s).occ = s.occ ∧
    (raiseLead code sev a b c s).ctrCopy = s.ctrCopy ∧ (raiseLead code sev a b c s).ctr = s.ctr ∧
    (raiseLead code sev a b c s).tel = s.tel ∧ (raiseLead code sev a b c s).time = s.time ∧
    (raiseLead code sev a b c s).links = s.links ∧ (raiseLead code sev a b c s).ports = s.ports ∧
    (raiseLead code sev a b c s).fibres = s.fibres ∧ (raiseLead code sev a b c s).windows = s.windows ∧
    (raiseLead code sev a b c s).modules = s.modules ∧ (raiseLead code sev a b c s).light = s.light ∧
    (raiseLead code sev a b c s).transom = s.transom ∧ (raiseLead code sev a b c s).blocks = s.blocks ∧
    (raiseLead code sev a b c s).fabricPool = s.fabricPool ∧ (raiseLead code sev a b c s).setup = s.setup ∧
    (raiseLead code sev a b c s).fwd = s.fwd ∧ (raiseLead code sev a b c s).buf = s.buf ∧
    (raiseLead code sev a b c s).sched = s.sched ∧ (raiseLead code sev a b c s).darn = s.darn ∧
    (raiseLead code sev a b c s).cellar = s.cellar ∧ (raiseLead code sev a b c s).nv = s.nv ∧
    (raiseLead code sev a b c s).coll = s.coll ∧ (raiseLead code sev a b c s).zones = s.zones ∧
    (raiseLead code sev a b c s).power = s.power ∧ (raiseLead code sev a b c s).pcie = s.pcie ∧
    (raiseLead code sev a b c s).mgmt = s.mgmt ∧ (raiseLead code sev a b c s).alerts = s.alerts := by
  simp [raiseLead]

@[simp] theorem draw_kept (n : Nat) (s : State) :
  (draw n s).2.pending = s.pending ∧ (draw n s).2.ns = s.ns ∧ (draw n s).2.out = s.out ∧ (draw n s).2.boot = s.boot ∧
    (draw n s).2.seam = s.seam ∧ (draw n s).2.sill = s.sill ∧ (draw n s).2.fw = s.fw ∧ (draw n s).2.sec = s.sec ∧
    (draw n s).2.porch = s.porch ∧ (draw n s).2.ev = s.ev ∧ (draw n s).2.maloa = s.maloa ∧ (draw n s).2.counters = s.counters ∧
    (draw n s).2.filters = s.filters ∧ (draw n s).2.occ = s.occ ∧ (draw n s).2.ctrCopy = s.ctrCopy ∧ (draw n s).2.ctr = s.ctr ∧
    (draw n s).2.tel = s.tel ∧ (draw n s).2.time = s.time ∧ (draw n s).2.links = s.links ∧ (draw n s).2.ports = s.ports ∧
    (draw n s).2.fibres = s.fibres ∧ (draw n s).2.windows = s.windows ∧ (draw n s).2.modules = s.modules ∧
    (draw n s).2.light = s.light ∧ (draw n s).2.transom = s.transom ∧ (draw n s).2.blocks = s.blocks ∧
    (draw n s).2.fabricPool = s.fabricPool ∧ (draw n s).2.setup = s.setup ∧ (draw n s).2.fwd = s.fwd ∧
    (draw n s).2.buf = s.buf ∧ (draw n s).2.sched = s.sched ∧ (draw n s).2.darn = s.darn ∧ (draw n s).2.cellar = s.cellar ∧
    (draw n s).2.nv = s.nv ∧ (draw n s).2.coll = s.coll ∧ (draw n s).2.zones = s.zones ∧ (draw n s).2.power = s.power ∧
    (draw n s).2.pcie = s.pcie ∧ (draw n s).2.mgmt = s.mgmt ∧ (draw n s).2.alerts = s.alerts := by
  and_intros <;> rfl

@[simp] theorem setTxn_kept (t : Txn) (s : State) :
  (setTxn t s).pending = s.pending ∧ (setTxn t s).ns = s.ns ∧ (setTxn t s).draws = s.draws ∧ (setTxn t s).out = s.out ∧
    (setTxn t s).boot = s.boot ∧ (setTxn t s).seam = s.seam ∧ (setTxn t s).sill = s.sill ∧ (setTxn t s).fw = s.fw ∧
    (setTxn t s).sec = s.sec ∧ (setTxn t s).porch = s.porch ∧ (setTxn t s).ev = s.ev ∧ (setTxn t s).maloa = s.maloa ∧
    (setTxn t s).counters = s.counters ∧ (setTxn t s).filters = s.filters ∧ (setTxn t s).occ = s.occ ∧
    (setTxn t s).ctrCopy = s.ctrCopy ∧ (setTxn t s).ctr = s.ctr ∧ (setTxn t s).tel = s.tel ∧ (setTxn t s).time = s.time ∧
    (setTxn t s).links = s.links ∧ (setTxn t s).ports = s.ports ∧ (setTxn t s).fibres = s.fibres ∧
    (setTxn t s).windows = s.windows ∧ (setTxn t s).modules = s.modules ∧ (setTxn t s).light = s.light ∧
    (setTxn t s).transom = s.transom ∧ (setTxn t s).blocks = s.blocks ∧ (setTxn t s).fabricPool = s.fabricPool ∧
    (setTxn t s).fwd = s.fwd ∧ (setTxn t s).buf = s.buf ∧ (setTxn t s).sched = s.sched ∧ (setTxn t s).darn = s.darn ∧
    (setTxn t s).cellar = s.cellar ∧ (setTxn t s).nv = s.nv ∧ (setTxn t s).coll = s.coll ∧ (setTxn t s).zones = s.zones ∧
    (setTxn t s).power = s.power ∧ (setTxn t s).pcie = s.pcie ∧ (setTxn t s).mgmt = s.mgmt ∧
    (setTxn t s).alerts = s.alerts := by
  and_intros <;> rfl

@[simp] theorem nameTxn_kept (h : Nat) (s : State) :
  (nameTxn h s).pending = s.pending ∧ (nameTxn h s).ns = s.ns ∧ (nameTxn h s).draws = s.draws ∧ (nameTxn h s).out = s.out ∧
    (nameTxn h s).boot = s.boot ∧ (nameTxn h s).seam = s.seam ∧ (nameTxn h s).sill = s.sill ∧ (nameTxn h s).fw = s.fw ∧
    (nameTxn h s).sec = s.sec ∧ (nameTxn h s).porch = s.porch ∧ (nameTxn h s).ev = s.ev ∧ (nameTxn h s).maloa = s.maloa ∧
    (nameTxn h s).counters = s.counters ∧ (nameTxn h s).filters = s.filters ∧ (nameTxn h s).occ = s.occ ∧
    (nameTxn h s).ctrCopy = s.ctrCopy ∧ (nameTxn h s).ctr = s.ctr ∧ (nameTxn h s).tel = s.tel ∧ (nameTxn h s).time = s.time ∧
    (nameTxn h s).links = s.links ∧ (nameTxn h s).ports = s.ports ∧ (nameTxn h s).fibres = s.fibres ∧
    (nameTxn h s).windows = s.windows ∧ (nameTxn h s).modules = s.modules ∧ (nameTxn h s).light = s.light ∧
    (nameTxn h s).transom = s.transom ∧ (nameTxn h s).blocks = s.blocks ∧ (nameTxn h s).fabricPool = s.fabricPool ∧
    (nameTxn h s).fwd = s.fwd ∧ (nameTxn h s).buf = s.buf ∧ (nameTxn h s).sched = s.sched ∧ (nameTxn h s).darn = s.darn ∧
    (nameTxn h s).cellar = s.cellar ∧ (nameTxn h s).nv = s.nv ∧ (nameTxn h s).coll = s.coll ∧ (nameTxn h s).zones = s.zones ∧
    (nameTxn h s).power = s.power ∧ (nameTxn h s).pcie = s.pcie ∧ (nameTxn h s).mgmt = s.mgmt ∧
    (nameTxn h s).alerts = s.alerts := by
  unfold nameTxn; split <;> and_intros <;> rfl

@[simp] theorem modMbx_kept (g : Maloa → Maloa) (s : State) :
  (modMbx g s).pending = s.pending ∧ (modMbx g s).ns = s.ns ∧ (modMbx g s).draws = s.draws ∧ (modMbx g s).out = s.out ∧
    (modMbx g s).boot = s.boot ∧ (modMbx g s).seam = s.seam ∧ (modMbx g s).sill = s.sill ∧ (modMbx g s).fw = s.fw ∧
    (modMbx g s).sec = s.sec ∧ (modMbx g s).porch = s.porch ∧ (modMbx g s).ev = s.ev ∧ (modMbx g s).counters = s.counters ∧
    (modMbx g s).filters = s.filters ∧ (modMbx g s).occ = s.occ ∧ (modMbx g s).ctrCopy = s.ctrCopy ∧ (modMbx g s).ctr = s.ctr ∧
    (modMbx g s).tel = s.tel ∧ (modMbx g s).time = s.time ∧ (modMbx g s).links = s.links ∧ (modMbx g s).ports = s.ports ∧
    (modMbx g s).fibres = s.fibres ∧ (modMbx g s).windows = s.windows ∧ (modMbx g s).modules = s.modules ∧
    (modMbx g s).light = s.light ∧ (modMbx g s).transom = s.transom ∧ (modMbx g s).blocks = s.blocks ∧
    (modMbx g s).fabricPool = s.fabricPool ∧ (modMbx g s).setup = s.setup ∧ (modMbx g s).fwd = s.fwd ∧
    (modMbx g s).buf = s.buf ∧ (modMbx g s).sched = s.sched ∧ (modMbx g s).darn = s.darn ∧ (modMbx g s).cellar = s.cellar ∧
    (modMbx g s).nv = s.nv ∧ (modMbx g s).coll = s.coll ∧ (modMbx g s).zones = s.zones ∧ (modMbx g s).power = s.power ∧
    (modMbx g s).pcie = s.pcie ∧ (modMbx g s).mgmt = s.mgmt ∧ (modMbx g s).alerts = s.alerts := by
  and_intros <;> rfl

@[simp] theorem modMbx_maloa (g : Maloa → Maloa) (s : State) : (modMbx g s).maloa = g s.maloa := rfl

@[simp] theorem modTime_kept (g : Time → Time) (s : State) :
  (modTime g s).pending = s.pending ∧ (modTime g s).ns = s.ns ∧ (modTime g s).draws = s.draws ∧ (modTime g s).out = s.out ∧
    (modTime g s).boot = s.boot ∧ (modTime g s).seam = s.seam ∧ (modTime g s).sill = s.sill ∧ (modTime g s).fw = s.fw ∧
    (modTime g s).sec = s.sec ∧ (modTime g s).porch = s.porch ∧ (modTime g s).ev = s.ev ∧ (modTime g s).maloa = s.maloa ∧
    (modTime g s).counters = s.counters ∧ (modTime g s).filters = s.filters ∧ (modTime g s).occ = s.occ ∧
    (modTime g s).ctrCopy = s.ctrCopy ∧ (modTime g s).ctr = s.ctr ∧ (modTime g s).tel = s.tel ∧ (modTime g s).links = s.links ∧
    (modTime g s).ports = s.ports ∧ (modTime g s).fibres = s.fibres ∧ (modTime g s).windows = s.windows ∧
    (modTime g s).modules = s.modules ∧ (modTime g s).light = s.light ∧ (modTime g s).transom = s.transom ∧
    (modTime g s).blocks = s.blocks ∧ (modTime g s).fabricPool = s.fabricPool ∧ (modTime g s).setup = s.setup ∧
    (modTime g s).fwd = s.fwd ∧ (modTime g s).buf = s.buf ∧ (modTime g s).sched = s.sched ∧ (modTime g s).darn = s.darn ∧
    (modTime g s).cellar = s.cellar ∧ (modTime g s).nv = s.nv ∧ (modTime g s).coll = s.coll ∧ (modTime g s).zones = s.zones ∧
    (modTime g s).power = s.power ∧ (modTime g s).pcie = s.pcie ∧ (modTime g s).mgmt = s.mgmt ∧
    (modTime g s).alerts = s.alerts := by
  and_intros <;> rfl

@[simp] theorem modTime_time (g : Time → Time) (s : State) : (modTime g s).time = g s.time := rfl

@[simp] theorem modCal_kept (g : Calendar → Calendar) (s : State) :
  (modCal g s).pending = s.pending ∧ (modCal g s).ns = s.ns ∧ (modCal g s).draws = s.draws ∧ (modCal g s).out = s.out ∧
    (modCal g s).boot = s.boot ∧ (modCal g s).seam = s.seam ∧ (modCal g s).sill = s.sill ∧ (modCal g s).fw = s.fw ∧
    (modCal g s).sec = s.sec ∧ (modCal g s).porch = s.porch ∧ (modCal g s).ev = s.ev ∧ (modCal g s).maloa = s.maloa ∧
    (modCal g s).counters = s.counters ∧ (modCal g s).filters = s.filters ∧ (modCal g s).occ = s.occ ∧
    (modCal g s).ctrCopy = s.ctrCopy ∧ (modCal g s).ctr = s.ctr ∧ (modCal g s).tel = s.tel ∧ (modCal g s).links = s.links ∧
    (modCal g s).ports = s.ports ∧ (modCal g s).fibres = s.fibres ∧ (modCal g s).windows = s.windows ∧
    (modCal g s).modules = s.modules ∧ (modCal g s).light = s.light ∧ (modCal g s).transom = s.transom ∧
    (modCal g s).blocks = s.blocks ∧ (modCal g s).fabricPool = s.fabricPool ∧ (modCal g s).setup = s.setup ∧
    (modCal g s).fwd = s.fwd ∧ (modCal g s).buf = s.buf ∧ (modCal g s).sched = s.sched ∧ (modCal g s).darn = s.darn ∧
    (modCal g s).cellar = s.cellar ∧ (modCal g s).nv = s.nv ∧ (modCal g s).coll = s.coll ∧ (modCal g s).zones = s.zones ∧
    (modCal g s).power = s.power ∧ (modCal g s).pcie = s.pcie ∧ (modCal g s).mgmt = s.mgmt ∧
    (modCal g s).alerts = s.alerts := by
  and_intros <;> rfl

@[simp] theorem modTel_kept (g : Telemetry → Telemetry) (s : State) :
  (modTel g s).pending = s.pending ∧ (modTel g s).ns = s.ns ∧ (modTel g s).draws = s.draws ∧ (modTel g s).out = s.out ∧
    (modTel g s).boot = s.boot ∧ (modTel g s).seam = s.seam ∧ (modTel g s).sill = s.sill ∧ (modTel g s).fw = s.fw ∧
    (modTel g s).sec = s.sec ∧ (modTel g s).porch = s.porch ∧ (modTel g s).ev = s.ev ∧ (modTel g s).maloa = s.maloa ∧
    (modTel g s).counters = s.counters ∧ (modTel g s).filters = s.filters ∧ (modTel g s).occ = s.occ ∧
    (modTel g s).ctrCopy = s.ctrCopy ∧ (modTel g s).ctr = s.ctr ∧ (modTel g s).time = s.time ∧ (modTel g s).links = s.links ∧
    (modTel g s).ports = s.ports ∧ (modTel g s).fibres = s.fibres ∧ (modTel g s).windows = s.windows ∧
    (modTel g s).modules = s.modules ∧ (modTel g s).light = s.light ∧ (modTel g s).transom = s.transom ∧
    (modTel g s).blocks = s.blocks ∧ (modTel g s).fabricPool = s.fabricPool ∧ (modTel g s).setup = s.setup ∧
    (modTel g s).fwd = s.fwd ∧ (modTel g s).buf = s.buf ∧ (modTel g s).sched = s.sched ∧ (modTel g s).darn = s.darn ∧
    (modTel g s).cellar = s.cellar ∧ (modTel g s).nv = s.nv ∧ (modTel g s).coll = s.coll ∧ (modTel g s).zones = s.zones ∧
    (modTel g s).power = s.power ∧ (modTel g s).pcie = s.pcie ∧ (modTel g s).mgmt = s.mgmt ∧
    (modTel g s).alerts = s.alerts := by
  and_intros <;> rfl

@[simp] theorem modTel_tel (g : Telemetry → Telemetry) (s : State) : (modTel g s).tel = g s.tel := rfl

@[simp] theorem modCtr_kept (g : CtrWindow → CtrWindow) (s : State) :
  (modCtr g s).pending = s.pending ∧ (modCtr g s).ns = s.ns ∧ (modCtr g s).draws = s.draws ∧ (modCtr g s).out = s.out ∧
    (modCtr g s).boot = s.boot ∧ (modCtr g s).seam = s.seam ∧ (modCtr g s).sill = s.sill ∧ (modCtr g s).fw = s.fw ∧
    (modCtr g s).sec = s.sec ∧ (modCtr g s).porch = s.porch ∧ (modCtr g s).ev = s.ev ∧ (modCtr g s).maloa = s.maloa ∧
    (modCtr g s).counters = s.counters ∧ (modCtr g s).filters = s.filters ∧ (modCtr g s).occ = s.occ ∧
    (modCtr g s).ctrCopy = s.ctrCopy ∧ (modCtr g s).tel = s.tel ∧ (modCtr g s).time = s.time ∧ (modCtr g s).links = s.links ∧
    (modCtr g s).ports = s.ports ∧ (modCtr g s).fibres = s.fibres ∧ (modCtr g s).windows = s.windows ∧
    (modCtr g s).modules = s.modules ∧ (modCtr g s).light = s.light ∧ (modCtr g s).transom = s.transom ∧
    (modCtr g s).blocks = s.blocks ∧ (modCtr g s).fabricPool = s.fabricPool ∧ (modCtr g s).setup = s.setup ∧
    (modCtr g s).fwd = s.fwd ∧ (modCtr g s).buf = s.buf ∧ (modCtr g s).sched = s.sched ∧ (modCtr g s).darn = s.darn ∧
    (modCtr g s).cellar = s.cellar ∧ (modCtr g s).nv = s.nv ∧ (modCtr g s).coll = s.coll ∧ (modCtr g s).zones = s.zones ∧
    (modCtr g s).power = s.power ∧ (modCtr g s).pcie = s.pcie ∧ (modCtr g s).mgmt = s.mgmt ∧
    (modCtr g s).alerts = s.alerts := by
  and_intros <;> rfl

@[simp] theorem modCtr_ctr (g : CtrWindow → CtrWindow) (s : State) : (modCtr g s).ctr = g s.ctr := rfl

@[simp] theorem modFw_kept (g : Firmware → Firmware) (s : State) :
  (modFw g s).pending = s.pending ∧ (modFw g s).ns = s.ns ∧ (modFw g s).draws = s.draws ∧ (modFw g s).out = s.out ∧
    (modFw g s).boot = s.boot ∧ (modFw g s).seam = s.seam ∧ (modFw g s).sill = s.sill ∧ (modFw g s).sec = s.sec ∧
    (modFw g s).porch = s.porch ∧ (modFw g s).ev = s.ev ∧ (modFw g s).maloa = s.maloa ∧ (modFw g s).counters = s.counters ∧
    (modFw g s).filters = s.filters ∧ (modFw g s).occ = s.occ ∧ (modFw g s).ctrCopy = s.ctrCopy ∧ (modFw g s).ctr = s.ctr ∧
    (modFw g s).tel = s.tel ∧ (modFw g s).time = s.time ∧ (modFw g s).links = s.links ∧ (modFw g s).ports = s.ports ∧
    (modFw g s).fibres = s.fibres ∧ (modFw g s).windows = s.windows ∧ (modFw g s).modules = s.modules ∧
    (modFw g s).light = s.light ∧ (modFw g s).transom = s.transom ∧ (modFw g s).blocks = s.blocks ∧
    (modFw g s).fabricPool = s.fabricPool ∧ (modFw g s).setup = s.setup ∧ (modFw g s).fwd = s.fwd ∧ (modFw g s).buf = s.buf ∧
    (modFw g s).sched = s.sched ∧ (modFw g s).darn = s.darn ∧ (modFw g s).cellar = s.cellar ∧ (modFw g s).nv = s.nv ∧
    (modFw g s).coll = s.coll ∧ (modFw g s).zones = s.zones ∧ (modFw g s).power = s.power ∧ (modFw g s).pcie = s.pcie ∧
    (modFw g s).mgmt = s.mgmt ∧ (modFw g s).alerts = s.alerts := by
  and_intros <;> rfl

@[simp] theorem modFw_fw (g : Firmware → Firmware) (s : State) : (modFw g s).fw = g s.fw := rfl

@[simp] theorem modBoot_kept (g : Boot → Boot) (s : State) :
  (modBoot g s).pending = s.pending ∧ (modBoot g s).ns = s.ns ∧ (modBoot g s).draws = s.draws ∧ (modBoot g s).out = s.out ∧
    (modBoot g s).seam = s.seam ∧ (modBoot g s).sill = s.sill ∧ (modBoot g s).fw = s.fw ∧ (modBoot g s).sec = s.sec ∧
    (modBoot g s).porch = s.porch ∧ (modBoot g s).ev = s.ev ∧ (modBoot g s).maloa = s.maloa ∧
    (modBoot g s).counters = s.counters ∧ (modBoot g s).filters = s.filters ∧ (modBoot g s).occ = s.occ ∧
    (modBoot g s).ctrCopy = s.ctrCopy ∧ (modBoot g s).ctr = s.ctr ∧ (modBoot g s).tel = s.tel ∧ (modBoot g s).time = s.time ∧
    (modBoot g s).links = s.links ∧ (modBoot g s).ports = s.ports ∧ (modBoot g s).fibres = s.fibres ∧
    (modBoot g s).windows = s.windows ∧ (modBoot g s).modules = s.modules ∧ (modBoot g s).light = s.light ∧
    (modBoot g s).transom = s.transom ∧ (modBoot g s).blocks = s.blocks ∧ (modBoot g s).fabricPool = s.fabricPool ∧
    (modBoot g s).setup = s.setup ∧ (modBoot g s).fwd = s.fwd ∧ (modBoot g s).buf = s.buf ∧ (modBoot g s).sched = s.sched ∧
    (modBoot g s).darn = s.darn ∧ (modBoot g s).cellar = s.cellar ∧ (modBoot g s).nv = s.nv ∧ (modBoot g s).coll = s.coll ∧
    (modBoot g s).zones = s.zones ∧ (modBoot g s).power = s.power ∧ (modBoot g s).pcie = s.pcie ∧ (modBoot g s).mgmt = s.mgmt ∧
    (modBoot g s).alerts = s.alerts := by
  and_intros <;> rfl

@[simp] theorem modBoot_boot (g : Boot → Boot) (s : State) : (modBoot g s).boot = g s.boot := rfl

@[simp] theorem modSec_kept (g : Security → Security) (s : State) :
  (modSec g s).pending = s.pending ∧ (modSec g s).ns = s.ns ∧ (modSec g s).draws = s.draws ∧ (modSec g s).out = s.out ∧
    (modSec g s).boot = s.boot ∧ (modSec g s).seam = s.seam ∧ (modSec g s).sill = s.sill ∧ (modSec g s).fw = s.fw ∧
    (modSec g s).porch = s.porch ∧ (modSec g s).ev = s.ev ∧ (modSec g s).maloa = s.maloa ∧ (modSec g s).counters = s.counters ∧
    (modSec g s).filters = s.filters ∧ (modSec g s).occ = s.occ ∧ (modSec g s).ctrCopy = s.ctrCopy ∧ (modSec g s).ctr = s.ctr ∧
    (modSec g s).tel = s.tel ∧ (modSec g s).time = s.time ∧ (modSec g s).links = s.links ∧ (modSec g s).ports = s.ports ∧
    (modSec g s).fibres = s.fibres ∧ (modSec g s).windows = s.windows ∧ (modSec g s).modules = s.modules ∧
    (modSec g s).light = s.light ∧ (modSec g s).transom = s.transom ∧ (modSec g s).blocks = s.blocks ∧
    (modSec g s).fabricPool = s.fabricPool ∧ (modSec g s).setup = s.setup ∧ (modSec g s).fwd = s.fwd ∧
    (modSec g s).buf = s.buf ∧ (modSec g s).sched = s.sched ∧ (modSec g s).darn = s.darn ∧ (modSec g s).cellar = s.cellar ∧
    (modSec g s).nv = s.nv ∧ (modSec g s).coll = s.coll ∧ (modSec g s).zones = s.zones ∧ (modSec g s).power = s.power ∧
    (modSec g s).pcie = s.pcie ∧ (modSec g s).mgmt = s.mgmt ∧ (modSec g s).alerts = s.alerts := by
  and_intros <;> rfl

@[simp] theorem modSec_sec (g : Security → Security) (s : State) : (modSec g s).sec = g s.sec := rfl

@[simp] theorem modPcie_kept (g : Pcie → Pcie) (s : State) :
  (modPcie g s).pending = s.pending ∧ (modPcie g s).ns = s.ns ∧ (modPcie g s).draws = s.draws ∧ (modPcie g s).out = s.out ∧
    (modPcie g s).boot = s.boot ∧ (modPcie g s).seam = s.seam ∧ (modPcie g s).sill = s.sill ∧ (modPcie g s).fw = s.fw ∧
    (modPcie g s).sec = s.sec ∧ (modPcie g s).porch = s.porch ∧ (modPcie g s).ev = s.ev ∧ (modPcie g s).maloa = s.maloa ∧
    (modPcie g s).counters = s.counters ∧ (modPcie g s).filters = s.filters ∧ (modPcie g s).occ = s.occ ∧
    (modPcie g s).ctrCopy = s.ctrCopy ∧ (modPcie g s).ctr = s.ctr ∧ (modPcie g s).tel = s.tel ∧ (modPcie g s).time = s.time ∧
    (modPcie g s).links = s.links ∧ (modPcie g s).ports = s.ports ∧ (modPcie g s).fibres = s.fibres ∧
    (modPcie g s).windows = s.windows ∧ (modPcie g s).modules = s.modules ∧ (modPcie g s).light = s.light ∧
    (modPcie g s).transom = s.transom ∧ (modPcie g s).blocks = s.blocks ∧ (modPcie g s).fabricPool = s.fabricPool ∧
    (modPcie g s).setup = s.setup ∧ (modPcie g s).fwd = s.fwd ∧ (modPcie g s).buf = s.buf ∧ (modPcie g s).sched = s.sched ∧
    (modPcie g s).darn = s.darn ∧ (modPcie g s).cellar = s.cellar ∧ (modPcie g s).nv = s.nv ∧ (modPcie g s).coll = s.coll ∧
    (modPcie g s).zones = s.zones ∧ (modPcie g s).power = s.power ∧ (modPcie g s).mgmt = s.mgmt ∧
    (modPcie g s).alerts = s.alerts := by
  and_intros <;> rfl

@[simp] theorem modPcie_pcie (g : Pcie → Pcie) (s : State) : (modPcie g s).pcie = g s.pcie := rfl

@[simp] theorem modMgmt_kept (p : Nat) (g : MgmtPort → MgmtPort) (s : State) :
  (modMgmt p g s).pending = s.pending ∧ (modMgmt p g s).ns = s.ns ∧ (modMgmt p g s).draws = s.draws ∧
    (modMgmt p g s).out = s.out ∧ (modMgmt p g s).boot = s.boot ∧ (modMgmt p g s).seam = s.seam ∧
    (modMgmt p g s).sill = s.sill ∧ (modMgmt p g s).fw = s.fw ∧ (modMgmt p g s).sec = s.sec ∧ (modMgmt p g s).porch = s.porch ∧
    (modMgmt p g s).ev = s.ev ∧ (modMgmt p g s).maloa = s.maloa ∧ (modMgmt p g s).counters = s.counters ∧
    (modMgmt p g s).filters = s.filters ∧ (modMgmt p g s).occ = s.occ ∧ (modMgmt p g s).ctrCopy = s.ctrCopy ∧
    (modMgmt p g s).ctr = s.ctr ∧ (modMgmt p g s).tel = s.tel ∧ (modMgmt p g s).time = s.time ∧
    (modMgmt p g s).links = s.links ∧ (modMgmt p g s).ports = s.ports ∧ (modMgmt p g s).fibres = s.fibres ∧
    (modMgmt p g s).windows = s.windows ∧ (modMgmt p g s).modules = s.modules ∧ (modMgmt p g s).light = s.light ∧
    (modMgmt p g s).transom = s.transom ∧ (modMgmt p g s).blocks = s.blocks ∧ (modMgmt p g s).fabricPool = s.fabricPool ∧
    (modMgmt p g s).setup = s.setup ∧ (modMgmt p g s).fwd = s.fwd ∧ (modMgmt p g s).buf = s.buf ∧
    (modMgmt p g s).sched = s.sched ∧ (modMgmt p g s).darn = s.darn ∧ (modMgmt p g s).cellar = s.cellar ∧
    (modMgmt p g s).nv = s.nv ∧ (modMgmt p g s).coll = s.coll ∧ (modMgmt p g s).zones = s.zones ∧
    (modMgmt p g s).power = s.power ∧ (modMgmt p g s).pcie = s.pcie ∧ (modMgmt p g s).alerts = s.alerts := by
  and_intros <;> rfl

@[simp] theorem modDarn_kept (g : Darn → Darn) (s : State) :
  (modDarn g s).pending = s.pending ∧ (modDarn g s).ns = s.ns ∧ (modDarn g s).draws = s.draws ∧ (modDarn g s).out = s.out ∧
    (modDarn g s).boot = s.boot ∧ (modDarn g s).seam = s.seam ∧ (modDarn g s).sill = s.sill ∧ (modDarn g s).fw = s.fw ∧
    (modDarn g s).sec = s.sec ∧ (modDarn g s).porch = s.porch ∧ (modDarn g s).ev = s.ev ∧ (modDarn g s).maloa = s.maloa ∧
    (modDarn g s).counters = s.counters ∧ (modDarn g s).filters = s.filters ∧ (modDarn g s).occ = s.occ ∧
    (modDarn g s).ctrCopy = s.ctrCopy ∧ (modDarn g s).ctr = s.ctr ∧ (modDarn g s).tel = s.tel ∧ (modDarn g s).time = s.time ∧
    (modDarn g s).links = s.links ∧ (modDarn g s).ports = s.ports ∧ (modDarn g s).fibres = s.fibres ∧
    (modDarn g s).windows = s.windows ∧ (modDarn g s).modules = s.modules ∧ (modDarn g s).light = s.light ∧
    (modDarn g s).transom = s.transom ∧ (modDarn g s).blocks = s.blocks ∧ (modDarn g s).fabricPool = s.fabricPool ∧
    (modDarn g s).setup = s.setup ∧ (modDarn g s).fwd = s.fwd ∧ (modDarn g s).buf = s.buf ∧ (modDarn g s).sched = s.sched ∧
    (modDarn g s).cellar = s.cellar ∧ (modDarn g s).nv = s.nv ∧ (modDarn g s).coll = s.coll ∧ (modDarn g s).zones = s.zones ∧
    (modDarn g s).power = s.power ∧ (modDarn g s).pcie = s.pcie ∧ (modDarn g s).mgmt = s.mgmt ∧
    (modDarn g s).alerts = s.alerts := by
  and_intros <;> rfl

@[simp] theorem modDarn_darn (g : Darn → Darn) (s : State) : (modDarn g s).darn = g s.darn := rfl

@[simp] theorem modPorch_kept (g : Porch → Porch) (s : State) :
  (modPorch g s).pending = s.pending ∧ (modPorch g s).ns = s.ns ∧ (modPorch g s).draws = s.draws ∧ (modPorch g s).out = s.out ∧
    (modPorch g s).boot = s.boot ∧ (modPorch g s).seam = s.seam ∧ (modPorch g s).sill = s.sill ∧ (modPorch g s).fw = s.fw ∧
    (modPorch g s).sec = s.sec ∧ (modPorch g s).ev = s.ev ∧ (modPorch g s).maloa = s.maloa ∧
    (modPorch g s).counters = s.counters ∧ (modPorch g s).filters = s.filters ∧ (modPorch g s).occ = s.occ ∧
    (modPorch g s).ctrCopy = s.ctrCopy ∧ (modPorch g s).ctr = s.ctr ∧ (modPorch g s).tel = s.tel ∧
    (modPorch g s).time = s.time ∧ (modPorch g s).links = s.links ∧ (modPorch g s).ports = s.ports ∧
    (modPorch g s).fibres = s.fibres ∧ (modPorch g s).windows = s.windows ∧ (modPorch g s).modules = s.modules ∧
    (modPorch g s).light = s.light ∧ (modPorch g s).transom = s.transom ∧ (modPorch g s).blocks = s.blocks ∧
    (modPorch g s).fabricPool = s.fabricPool ∧ (modPorch g s).setup = s.setup ∧ (modPorch g s).fwd = s.fwd ∧
    (modPorch g s).buf = s.buf ∧ (modPorch g s).sched = s.sched ∧ (modPorch g s).darn = s.darn ∧
    (modPorch g s).cellar = s.cellar ∧ (modPorch g s).nv = s.nv ∧ (modPorch g s).coll = s.coll ∧
    (modPorch g s).zones = s.zones ∧ (modPorch g s).power = s.power ∧ (modPorch g s).pcie = s.pcie ∧
    (modPorch g s).mgmt = s.mgmt ∧ (modPorch g s).alerts = s.alerts := by
  and_intros <;> rfl

@[simp] theorem modPorch_porch (g : Porch → Porch) (s : State) : (modPorch g s).porch = g s.porch := rfl

@[simp] theorem modNv_kept (g : Nv → Nv) (s : State) :
  (modNv g s).pending = s.pending ∧ (modNv g s).ns = s.ns ∧ (modNv g s).draws = s.draws ∧ (modNv g s).out = s.out ∧
    (modNv g s).boot = s.boot ∧ (modNv g s).seam = s.seam ∧ (modNv g s).sill = s.sill ∧ (modNv g s).fw = s.fw ∧
    (modNv g s).sec = s.sec ∧ (modNv g s).porch = s.porch ∧ (modNv g s).ev = s.ev ∧ (modNv g s).maloa = s.maloa ∧
    (modNv g s).counters = s.counters ∧ (modNv g s).filters = s.filters ∧ (modNv g s).occ = s.occ ∧
    (modNv g s).ctrCopy = s.ctrCopy ∧ (modNv g s).ctr = s.ctr ∧ (modNv g s).tel = s.tel ∧ (modNv g s).time = s.time ∧
    (modNv g s).links = s.links ∧ (modNv g s).ports = s.ports ∧ (modNv g s).fibres = s.fibres ∧
    (modNv g s).windows = s.windows ∧ (modNv g s).modules = s.modules ∧ (modNv g s).light = s.light ∧
    (modNv g s).transom = s.transom ∧ (modNv g s).blocks = s.blocks ∧ (modNv g s).fabricPool = s.fabricPool ∧
    (modNv g s).setup = s.setup ∧ (modNv g s).fwd = s.fwd ∧ (modNv g s).buf = s.buf ∧ (modNv g s).sched = s.sched ∧
    (modNv g s).darn = s.darn ∧ (modNv g s).cellar = s.cellar ∧ (modNv g s).coll = s.coll ∧ (modNv g s).zones = s.zones ∧
    (modNv g s).power = s.power ∧ (modNv g s).pcie = s.pcie ∧ (modNv g s).mgmt = s.mgmt ∧ (modNv g s).alerts = s.alerts := by
  and_intros <;> rfl

@[simp] theorem modNv_nv (g : Nv → Nv) (s : State) : (modNv g s).nv = g s.nv := rfl

@[simp] theorem modPower_kept (g : Power → Power) (s : State) :
  (modPower g s).pending = s.pending ∧ (modPower g s).ns = s.ns ∧ (modPower g s).draws = s.draws ∧ (modPower g s).out = s.out ∧
    (modPower g s).boot = s.boot ∧ (modPower g s).seam = s.seam ∧ (modPower g s).sill = s.sill ∧ (modPower g s).fw = s.fw ∧
    (modPower g s).sec = s.sec ∧ (modPower g s).porch = s.porch ∧ (modPower g s).ev = s.ev ∧ (modPower g s).maloa = s.maloa ∧
    (modPower g s).counters = s.counters ∧ (modPower g s).filters = s.filters ∧ (modPower g s).occ = s.occ ∧
    (modPower g s).ctrCopy = s.ctrCopy ∧ (modPower g s).ctr = s.ctr ∧ (modPower g s).tel = s.tel ∧
    (modPower g s).time = s.time ∧ (modPower g s).links = s.links ∧ (modPower g s).ports = s.ports ∧
    (modPower g s).fibres = s.fibres ∧ (modPower g s).windows = s.windows ∧ (modPower g s).modules = s.modules ∧
    (modPower g s).light = s.light ∧ (modPower g s).transom = s.transom ∧ (modPower g s).blocks = s.blocks ∧
    (modPower g s).fabricPool = s.fabricPool ∧ (modPower g s).setup = s.setup ∧ (modPower g s).fwd = s.fwd ∧
    (modPower g s).buf = s.buf ∧ (modPower g s).sched = s.sched ∧ (modPower g s).darn = s.darn ∧
    (modPower g s).cellar = s.cellar ∧ (modPower g s).nv = s.nv ∧ (modPower g s).coll = s.coll ∧
    (modPower g s).zones = s.zones ∧ (modPower g s).pcie = s.pcie ∧ (modPower g s).mgmt = s.mgmt ∧
    (modPower g s).alerts = s.alerts := by
  and_intros <;> rfl

@[simp] theorem modPower_power (g : Power → Power) (s : State) : (modPower g s).power = g s.power := rfl

@[simp] theorem modTce_kept (g : Tce → Tce) (s : State) :
  (modTce g s).pending = s.pending ∧ (modTce g s).ns = s.ns ∧ (modTce g s).draws = s.draws ∧ (modTce g s).out = s.out ∧
    (modTce g s).boot = s.boot ∧ (modTce g s).seam = s.seam ∧ (modTce g s).sill = s.sill ∧ (modTce g s).fw = s.fw ∧
    (modTce g s).sec = s.sec ∧ (modTce g s).porch = s.porch ∧ (modTce g s).ev = s.ev ∧ (modTce g s).maloa = s.maloa ∧
    (modTce g s).counters = s.counters ∧ (modTce g s).filters = s.filters ∧ (modTce g s).occ = s.occ ∧
    (modTce g s).ctrCopy = s.ctrCopy ∧ (modTce g s).ctr = s.ctr ∧ (modTce g s).tel = s.tel ∧ (modTce g s).time = s.time ∧
    (modTce g s).links = s.links ∧ (modTce g s).ports = s.ports ∧ (modTce g s).fibres = s.fibres ∧
    (modTce g s).windows = s.windows ∧ (modTce g s).modules = s.modules ∧ (modTce g s).light = s.light ∧
    (modTce g s).transom = s.transom ∧ (modTce g s).blocks = s.blocks ∧ (modTce g s).fabricPool = s.fabricPool ∧
    (modTce g s).fwd = s.fwd ∧ (modTce g s).buf = s.buf ∧ (modTce g s).sched = s.sched ∧ (modTce g s).darn = s.darn ∧
    (modTce g s).cellar = s.cellar ∧ (modTce g s).nv = s.nv ∧ (modTce g s).coll = s.coll ∧ (modTce g s).zones = s.zones ∧
    (modTce g s).power = s.power ∧ (modTce g s).pcie = s.pcie ∧ (modTce g s).mgmt = s.mgmt ∧
    (modTce g s).alerts = s.alerts := by
  and_intros <;> rfl

@[simp] theorem modLink_kept (p : Nat) (g : Link → Link) (s : State) :
  (modLink p g s).pending = s.pending ∧ (modLink p g s).ns = s.ns ∧ (modLink p g s).draws = s.draws ∧
    (modLink p g s).out = s.out ∧ (modLink p g s).boot = s.boot ∧ (modLink p g s).seam = s.seam ∧
    (modLink p g s).sill = s.sill ∧ (modLink p g s).fw = s.fw ∧ (modLink p g s).sec = s.sec ∧ (modLink p g s).porch = s.porch ∧
    (modLink p g s).ev = s.ev ∧ (modLink p g s).maloa = s.maloa ∧ (modLink p g s).counters = s.counters ∧
    (modLink p g s).filters = s.filters ∧ (modLink p g s).occ = s.occ ∧ (modLink p g s).ctrCopy = s.ctrCopy ∧
    (modLink p g s).ctr = s.ctr ∧ (modLink p g s).tel = s.tel ∧ (modLink p g s).time = s.time ∧
    (modLink p g s).ports = s.ports ∧ (modLink p g s).fibres = s.fibres ∧ (modLink p g s).windows = s.windows ∧
    (modLink p g s).modules = s.modules ∧ (modLink p g s).light = s.light ∧ (modLink p g s).transom = s.transom ∧
    (modLink p g s).blocks = s.blocks ∧ (modLink p g s).fabricPool = s.fabricPool ∧ (modLink p g s).setup = s.setup ∧
    (modLink p g s).fwd = s.fwd ∧ (modLink p g s).buf = s.buf ∧ (modLink p g s).sched = s.sched ∧
    (modLink p g s).darn = s.darn ∧ (modLink p g s).cellar = s.cellar ∧ (modLink p g s).nv = s.nv ∧
    (modLink p g s).coll = s.coll ∧ (modLink p g s).zones = s.zones ∧ (modLink p g s).power = s.power ∧
    (modLink p g s).pcie = s.pcie ∧ (modLink p g s).mgmt = s.mgmt ∧ (modLink p g s).alerts = s.alerts := by
  and_intros <;> rfl

@[simp] theorem modPort_kept (p : Nat) (g : PhyPort → PhyPort) (s : State) :
  (modPort p g s).pending = s.pending ∧ (modPort p g s).ns = s.ns ∧ (modPort p g s).draws = s.draws ∧
    (modPort p g s).out = s.out ∧ (modPort p g s).boot = s.boot ∧ (modPort p g s).seam = s.seam ∧
    (modPort p g s).sill = s.sill ∧ (modPort p g s).fw = s.fw ∧ (modPort p g s).sec = s.sec ∧ (modPort p g s).porch = s.porch ∧
    (modPort p g s).ev = s.ev ∧ (modPort p g s).maloa = s.maloa ∧ (modPort p g s).counters = s.counters ∧
    (modPort p g s).filters = s.filters ∧ (modPort p g s).occ = s.occ ∧ (modPort p g s).ctrCopy = s.ctrCopy ∧
    (modPort p g s).ctr = s.ctr ∧ (modPort p g s).tel = s.tel ∧ (modPort p g s).time = s.time ∧
    (modPort p g s).links = s.links ∧ (modPort p g s).fibres = s.fibres ∧ (modPort p g s).windows = s.windows ∧
    (modPort p g s).modules = s.modules ∧ (modPort p g s).light = s.light ∧ (modPort p g s).transom = s.transom ∧
    (modPort p g s).blocks = s.blocks ∧ (modPort p g s).fabricPool = s.fabricPool ∧ (modPort p g s).setup = s.setup ∧
    (modPort p g s).fwd = s.fwd ∧ (modPort p g s).buf = s.buf ∧ (modPort p g s).sched = s.sched ∧
    (modPort p g s).darn = s.darn ∧ (modPort p g s).cellar = s.cellar ∧ (modPort p g s).nv = s.nv ∧
    (modPort p g s).coll = s.coll ∧ (modPort p g s).zones = s.zones ∧ (modPort p g s).power = s.power ∧
    (modPort p g s).pcie = s.pcie ∧ (modPort p g s).mgmt = s.mgmt ∧ (modPort p g s).alerts = s.alerts := by
  and_intros <;> rfl

@[simp] theorem modFibre_kept (n : Nat) (g : Fibre → Fibre) (s : State) :
  (modFibre n g s).pending = s.pending ∧ (modFibre n g s).ns = s.ns ∧ (modFibre n g s).draws = s.draws ∧
    (modFibre n g s).out = s.out ∧ (modFibre n g s).boot = s.boot ∧ (modFibre n g s).seam = s.seam ∧
    (modFibre n g s).sill = s.sill ∧ (modFibre n g s).fw = s.fw ∧ (modFibre n g s).sec = s.sec ∧
    (modFibre n g s).porch = s.porch ∧ (modFibre n g s).ev = s.ev ∧ (modFibre n g s).maloa = s.maloa ∧
    (modFibre n g s).counters = s.counters ∧ (modFibre n g s).filters = s.filters ∧ (modFibre n g s).occ = s.occ ∧
    (modFibre n g s).ctrCopy = s.ctrCopy ∧ (modFibre n g s).ctr = s.ctr ∧ (modFibre n g s).tel = s.tel ∧
    (modFibre n g s).time = s.time ∧ (modFibre n g s).links = s.links ∧ (modFibre n g s).ports = s.ports ∧
    (modFibre n g s).windows = s.windows ∧ (modFibre n g s).modules = s.modules ∧ (modFibre n g s).light = s.light ∧
    (modFibre n g s).transom = s.transom ∧ (modFibre n g s).blocks = s.blocks ∧ (modFibre n g s).fabricPool = s.fabricPool ∧
    (modFibre n g s).setup = s.setup ∧ (modFibre n g s).fwd = s.fwd ∧ (modFibre n g s).buf = s.buf ∧
    (modFibre n g s).sched = s.sched ∧ (modFibre n g s).darn = s.darn ∧ (modFibre n g s).cellar = s.cellar ∧
    (modFibre n g s).nv = s.nv ∧ (modFibre n g s).coll = s.coll ∧ (modFibre n g s).zones = s.zones ∧
    (modFibre n g s).power = s.power ∧ (modFibre n g s).pcie = s.pcie ∧ (modFibre n g s).mgmt = s.mgmt ∧
    (modFibre n g s).alerts = s.alerts := by
  and_intros <;> rfl

@[simp] theorem modWindow_kept (w : Nat) (g : Window → Window) (s : State) :
  (modWindow w g s).pending = s.pending ∧ (modWindow w g s).ns = s.ns ∧ (modWindow w g s).draws = s.draws ∧
    (modWindow w g s).out = s.out ∧ (modWindow w g s).boot = s.boot ∧ (modWindow w g s).seam = s.seam ∧
    (modWindow w g s).sill = s.sill ∧ (modWindow w g s).fw = s.fw ∧ (modWindow w g s).sec = s.sec ∧
    (modWindow w g s).porch = s.porch ∧ (modWindow w g s).ev = s.ev ∧ (modWindow w g s).maloa = s.maloa ∧
    (modWindow w g s).counters = s.counters ∧ (modWindow w g s).filters = s.filters ∧ (modWindow w g s).occ = s.occ ∧
    (modWindow w g s).ctrCopy = s.ctrCopy ∧ (modWindow w g s).ctr = s.ctr ∧ (modWindow w g s).tel = s.tel ∧
    (modWindow w g s).time = s.time ∧ (modWindow w g s).links = s.links ∧ (modWindow w g s).ports = s.ports ∧
    (modWindow w g s).fibres = s.fibres ∧ (modWindow w g s).modules = s.modules ∧ (modWindow w g s).light = s.light ∧
    (modWindow w g s).transom = s.transom ∧ (modWindow w g s).blocks = s.blocks ∧ (modWindow w g s).fabricPool = s.fabricPool ∧
    (modWindow w g s).setup = s.setup ∧ (modWindow w g s).fwd = s.fwd ∧ (modWindow w g s).buf = s.buf ∧
    (modWindow w g s).sched = s.sched ∧ (modWindow w g s).darn = s.darn ∧ (modWindow w g s).cellar = s.cellar ∧
    (modWindow w g s).nv = s.nv ∧ (modWindow w g s).coll = s.coll ∧ (modWindow w g s).zones = s.zones ∧
    (modWindow w g s).power = s.power ∧ (modWindow w g s).pcie = s.pcie ∧ (modWindow w g s).mgmt = s.mgmt ∧
    (modWindow w g s).alerts = s.alerts := by
  and_intros <;> rfl

@[simp] theorem modModule_kept (m : Nat) (g : LaserModule → LaserModule) (s : State) :
  (modModule m g s).pending = s.pending ∧ (modModule m g s).ns = s.ns ∧ (modModule m g s).draws = s.draws ∧
    (modModule m g s).out = s.out ∧ (modModule m g s).boot = s.boot ∧ (modModule m g s).seam = s.seam ∧
    (modModule m g s).sill = s.sill ∧ (modModule m g s).fw = s.fw ∧ (modModule m g s).sec = s.sec ∧
    (modModule m g s).porch = s.porch ∧ (modModule m g s).ev = s.ev ∧ (modModule m g s).maloa = s.maloa ∧
    (modModule m g s).counters = s.counters ∧ (modModule m g s).filters = s.filters ∧ (modModule m g s).occ = s.occ ∧
    (modModule m g s).ctrCopy = s.ctrCopy ∧ (modModule m g s).ctr = s.ctr ∧ (modModule m g s).tel = s.tel ∧
    (modModule m g s).time = s.time ∧ (modModule m g s).links = s.links ∧ (modModule m g s).ports = s.ports ∧
    (modModule m g s).fibres = s.fibres ∧ (modModule m g s).windows = s.windows ∧ (modModule m g s).light = s.light ∧
    (modModule m g s).transom = s.transom ∧ (modModule m g s).blocks = s.blocks ∧ (modModule m g s).fabricPool = s.fabricPool ∧
    (modModule m g s).setup = s.setup ∧ (modModule m g s).fwd = s.fwd ∧ (modModule m g s).buf = s.buf ∧
    (modModule m g s).sched = s.sched ∧ (modModule m g s).darn = s.darn ∧ (modModule m g s).cellar = s.cellar ∧
    (modModule m g s).nv = s.nv ∧ (modModule m g s).coll = s.coll ∧ (modModule m g s).zones = s.zones ∧
    (modModule m g s).power = s.power ∧ (modModule m g s).pcie = s.pcie ∧ (modModule m g s).mgmt = s.mgmt ∧
    (modModule m g s).alerts = s.alerts := by
  and_intros <;> rfl

@[simp] theorem modLight_kept (w : Nat) (g : Light → Light) (s : State) :
  (modLight w g s).pending = s.pending ∧ (modLight w g s).ns = s.ns ∧ (modLight w g s).draws = s.draws ∧
    (modLight w g s).out = s.out ∧ (modLight w g s).boot = s.boot ∧ (modLight w g s).seam = s.seam ∧
    (modLight w g s).sill = s.sill ∧ (modLight w g s).fw = s.fw ∧ (modLight w g s).sec = s.sec ∧
    (modLight w g s).porch = s.porch ∧ (modLight w g s).ev = s.ev ∧ (modLight w g s).maloa = s.maloa ∧
    (modLight w g s).counters = s.counters ∧ (modLight w g s).filters = s.filters ∧ (modLight w g s).occ = s.occ ∧
    (modLight w g s).ctrCopy = s.ctrCopy ∧ (modLight w g s).ctr = s.ctr ∧ (modLight w g s).tel = s.tel ∧
    (modLight w g s).time = s.time ∧ (modLight w g s).links = s.links ∧ (modLight w g s).ports = s.ports ∧
    (modLight w g s).fibres = s.fibres ∧ (modLight w g s).windows = s.windows ∧ (modLight w g s).modules = s.modules ∧
    (modLight w g s).transom = s.transom ∧ (modLight w g s).blocks = s.blocks ∧ (modLight w g s).fabricPool = s.fabricPool ∧
    (modLight w g s).setup = s.setup ∧ (modLight w g s).fwd = s.fwd ∧ (modLight w g s).buf = s.buf ∧
    (modLight w g s).sched = s.sched ∧ (modLight w g s).darn = s.darn ∧ (modLight w g s).cellar = s.cellar ∧
    (modLight w g s).nv = s.nv ∧ (modLight w g s).coll = s.coll ∧ (modLight w g s).zones = s.zones ∧
    (modLight w g s).power = s.power ∧ (modLight w g s).pcie = s.pcie ∧ (modLight w g s).mgmt = s.mgmt ∧
    (modLight w g s).alerts = s.alerts := by
  and_intros <;> rfl

@[simp] theorem modSeam_kept (k : Nat) (g : SeamLink → SeamLink) (s : State) :
  (modSeam k g s).pending = s.pending ∧ (modSeam k g s).ns = s.ns ∧ (modSeam k g s).draws = s.draws ∧
    (modSeam k g s).out = s.out ∧ (modSeam k g s).boot = s.boot ∧ (modSeam k g s).sill = s.sill ∧ (modSeam k g s).fw = s.fw ∧
    (modSeam k g s).sec = s.sec ∧ (modSeam k g s).porch = s.porch ∧ (modSeam k g s).ev = s.ev ∧
    (modSeam k g s).maloa = s.maloa ∧ (modSeam k g s).counters = s.counters ∧ (modSeam k g s).filters = s.filters ∧
    (modSeam k g s).occ = s.occ ∧ (modSeam k g s).ctrCopy = s.ctrCopy ∧ (modSeam k g s).ctr = s.ctr ∧
    (modSeam k g s).tel = s.tel ∧ (modSeam k g s).time = s.time ∧ (modSeam k g s).links = s.links ∧
    (modSeam k g s).ports = s.ports ∧ (modSeam k g s).fibres = s.fibres ∧ (modSeam k g s).windows = s.windows ∧
    (modSeam k g s).modules = s.modules ∧ (modSeam k g s).light = s.light ∧ (modSeam k g s).transom = s.transom ∧
    (modSeam k g s).blocks = s.blocks ∧ (modSeam k g s).fabricPool = s.fabricPool ∧ (modSeam k g s).setup = s.setup ∧
    (modSeam k g s).fwd = s.fwd ∧ (modSeam k g s).buf = s.buf ∧ (modSeam k g s).sched = s.sched ∧
    (modSeam k g s).darn = s.darn ∧ (modSeam k g s).cellar = s.cellar ∧ (modSeam k g s).nv = s.nv ∧
    (modSeam k g s).coll = s.coll ∧ (modSeam k g s).zones = s.zones ∧ (modSeam k g s).power = s.power ∧
    (modSeam k g s).pcie = s.pcie ∧ (modSeam k g s).mgmt = s.mgmt ∧ (modSeam k g s).alerts = s.alerts := by
  and_intros <;> rfl

@[simp] theorem modZone_kept (d : Nat) (g : Zone → Zone) (s : State) :
  (modZone d g s).pending = s.pending ∧ (modZone d g s).ns = s.ns ∧ (modZone d g s).draws = s.draws ∧
    (modZone d g s).out = s.out ∧ (modZone d g s).boot = s.boot ∧ (modZone d g s).seam = s.seam ∧
    (modZone d g s).sill = s.sill ∧ (modZone d g s).fw = s.fw ∧ (modZone d g s).sec = s.sec ∧ (modZone d g s).porch = s.porch ∧
    (modZone d g s).ev = s.ev ∧ (modZone d g s).maloa = s.maloa ∧ (modZone d g s).counters = s.counters ∧
    (modZone d g s).filters = s.filters ∧ (modZone d g s).occ = s.occ ∧ (modZone d g s).ctrCopy = s.ctrCopy ∧
    (modZone d g s).ctr = s.ctr ∧ (modZone d g s).tel = s.tel ∧ (modZone d g s).time = s.time ∧
    (modZone d g s).links = s.links ∧ (modZone d g s).ports = s.ports ∧ (modZone d g s).fibres = s.fibres ∧
    (modZone d g s).windows = s.windows ∧ (modZone d g s).modules = s.modules ∧ (modZone d g s).light = s.light ∧
    (modZone d g s).transom = s.transom ∧ (modZone d g s).blocks = s.blocks ∧ (modZone d g s).fabricPool = s.fabricPool ∧
    (modZone d g s).setup = s.setup ∧ (modZone d g s).fwd = s.fwd ∧ (modZone d g s).buf = s.buf ∧
    (modZone d g s).sched = s.sched ∧ (modZone d g s).darn = s.darn ∧ (modZone d g s).cellar = s.cellar ∧
    (modZone d g s).nv = s.nv ∧ (modZone d g s).coll = s.coll ∧ (modZone d g s).power = s.power ∧
    (modZone d g s).pcie = s.pcie ∧ (modZone d g s).mgmt = s.mgmt ∧ (modZone d g s).alerts = s.alerts := by
  and_intros <;> rfl

@[simp] theorem modHall_kept (h : Nat) (g : Hall → Hall) (s : State) :
  (modHall h g s).pending = s.pending ∧ (modHall h g s).ns = s.ns ∧ (modHall h g s).draws = s.draws ∧
    (modHall h g s).out = s.out ∧ (modHall h g s).boot = s.boot ∧ (modHall h g s).seam = s.seam ∧
    (modHall h g s).sill = s.sill ∧ (modHall h g s).fw = s.fw ∧ (modHall h g s).sec = s.sec ∧ (modHall h g s).porch = s.porch ∧
    (modHall h g s).ev = s.ev ∧ (modHall h g s).maloa = s.maloa ∧ (modHall h g s).counters = s.counters ∧
    (modHall h g s).filters = s.filters ∧ (modHall h g s).occ = s.occ ∧ (modHall h g s).ctrCopy = s.ctrCopy ∧
    (modHall h g s).ctr = s.ctr ∧ (modHall h g s).tel = s.tel ∧ (modHall h g s).time = s.time ∧
    (modHall h g s).links = s.links ∧ (modHall h g s).ports = s.ports ∧ (modHall h g s).fibres = s.fibres ∧
    (modHall h g s).windows = s.windows ∧ (modHall h g s).modules = s.modules ∧ (modHall h g s).light = s.light ∧
    (modHall h g s).transom = s.transom ∧ (modHall h g s).blocks = s.blocks ∧ (modHall h g s).fabricPool = s.fabricPool ∧
    (modHall h g s).setup = s.setup ∧ (modHall h g s).fwd = s.fwd ∧ (modHall h g s).sched = s.sched ∧
    (modHall h g s).darn = s.darn ∧ (modHall h g s).cellar = s.cellar ∧ (modHall h g s).nv = s.nv ∧
    (modHall h g s).coll = s.coll ∧ (modHall h g s).zones = s.zones ∧ (modHall h g s).power = s.power ∧
    (modHall h g s).pcie = s.pcie ∧ (modHall h g s).mgmt = s.mgmt ∧ (modHall h g s).alerts = s.alerts := by
  and_intros <;> rfl

@[simp] theorem takeArrival_kept (src : Source) (mine : Bytes → Bool) (s : State) :
  (takeArrival src mine s).pending = s.pending ∧ (takeArrival src mine s).ns = s.ns ∧
    (takeArrival src mine s).draws = s.draws ∧ (takeArrival src mine s).out = s.out ∧ (takeArrival src mine s).boot = s.boot ∧
    (takeArrival src mine s).seam = s.seam ∧ (takeArrival src mine s).sill = s.sill ∧ (takeArrival src mine s).fw = s.fw ∧
    (takeArrival src mine s).sec = s.sec ∧ (takeArrival src mine s).porch = s.porch ∧ (takeArrival src mine s).ev = s.ev ∧
    (takeArrival src mine s).counters = s.counters ∧ (takeArrival src mine s).filters = s.filters ∧
    (takeArrival src mine s).occ = s.occ ∧ (takeArrival src mine s).ctrCopy = s.ctrCopy ∧
    (takeArrival src mine s).ctr = s.ctr ∧ (takeArrival src mine s).tel = s.tel ∧ (takeArrival src mine s).time = s.time ∧
    (takeArrival src mine s).links = s.links ∧ (takeArrival src mine s).ports = s.ports ∧
    (takeArrival src mine s).fibres = s.fibres ∧ (takeArrival src mine s).windows = s.windows ∧
    (takeArrival src mine s).modules = s.modules ∧ (takeArrival src mine s).light = s.light ∧
    (takeArrival src mine s).transom = s.transom ∧ (takeArrival src mine s).blocks = s.blocks ∧
    (takeArrival src mine s).fabricPool = s.fabricPool ∧ (takeArrival src mine s).setup = s.setup ∧
    (takeArrival src mine s).fwd = s.fwd ∧ (takeArrival src mine s).buf = s.buf ∧ (takeArrival src mine s).sched = s.sched ∧
    (takeArrival src mine s).darn = s.darn ∧ (takeArrival src mine s).cellar = s.cellar ∧ (takeArrival src mine s).nv = s.nv ∧
    (takeArrival src mine s).coll = s.coll ∧ (takeArrival src mine s).zones = s.zones ∧
    (takeArrival src mine s).power = s.power ∧ (takeArrival src mine s).pcie = s.pcie ∧
    (takeArrival src mine s).mgmt = s.mgmt ∧ (takeArrival src mine s).alerts = s.alerts := by
  and_intros <;> rfl

@[simp] theorem trackSource_kept (src : Source) (tag : Nat) (s : State) :
  (trackSource src tag s).pending = s.pending ∧ (trackSource src tag s).ns = s.ns ∧ (trackSource src tag s).draws = s.draws ∧
    (trackSource src tag s).out = s.out ∧ (trackSource src tag s).boot = s.boot ∧ (trackSource src tag s).seam = s.seam ∧
    (trackSource src tag s).sill = s.sill ∧ (trackSource src tag s).fw = s.fw ∧ (trackSource src tag s).sec = s.sec ∧
    (trackSource src tag s).porch = s.porch ∧ (trackSource src tag s).ev = s.ev ∧
    (trackSource src tag s).counters = s.counters ∧ (trackSource src tag s).filters = s.filters ∧
    (trackSource src tag s).occ = s.occ ∧ (trackSource src tag s).ctrCopy = s.ctrCopy ∧ (trackSource src tag s).ctr = s.ctr ∧
    (trackSource src tag s).tel = s.tel ∧ (trackSource src tag s).time = s.time ∧ (trackSource src tag s).links = s.links ∧
    (trackSource src tag s).ports = s.ports ∧ (trackSource src tag s).fibres = s.fibres ∧
    (trackSource src tag s).windows = s.windows ∧ (trackSource src tag s).modules = s.modules ∧
    (trackSource src tag s).light = s.light ∧ (trackSource src tag s).transom = s.transom ∧
    (trackSource src tag s).blocks = s.blocks ∧ (trackSource src tag s).fabricPool = s.fabricPool ∧
    (trackSource src tag s).setup = s.setup ∧ (trackSource src tag s).fwd = s.fwd ∧ (trackSource src tag s).buf = s.buf ∧
    (trackSource src tag s).sched = s.sched ∧ (trackSource src tag s).darn = s.darn ∧
    (trackSource src tag s).cellar = s.cellar ∧ (trackSource src tag s).nv = s.nv ∧ (trackSource src tag s).coll = s.coll ∧
    (trackSource src tag s).zones = s.zones ∧ (trackSource src tag s).power = s.power ∧ (trackSource src tag s).pcie = s.pcie ∧
    (trackSource src tag s).mgmt = s.mgmt ∧ (trackSource src tag s).alerts = s.alerts := by
  unfold trackSource; repeat' split
  all_goals and_intros <;> rfl

@[simp] theorem tracked_kept (q : Request) (s : State) :
  (tracked q s).pending = s.pending ∧ (tracked q s).ns = s.ns ∧ (tracked q s).draws = s.draws ∧ (tracked q s).out = s.out ∧
    (tracked q s).boot = s.boot ∧ (tracked q s).seam = s.seam ∧ (tracked q s).sill = s.sill ∧ (tracked q s).fw = s.fw ∧
    (tracked q s).sec = s.sec ∧ (tracked q s).porch = s.porch ∧ (tracked q s).ev = s.ev ∧ (tracked q s).counters = s.counters ∧
    (tracked q s).filters = s.filters ∧ (tracked q s).occ = s.occ ∧ (tracked q s).ctrCopy = s.ctrCopy ∧
    (tracked q s).ctr = s.ctr ∧ (tracked q s).tel = s.tel ∧ (tracked q s).time = s.time ∧ (tracked q s).links = s.links ∧
    (tracked q s).ports = s.ports ∧ (tracked q s).fibres = s.fibres ∧ (tracked q s).windows = s.windows ∧
    (tracked q s).modules = s.modules ∧ (tracked q s).light = s.light ∧ (tracked q s).transom = s.transom ∧
    (tracked q s).blocks = s.blocks ∧ (tracked q s).fabricPool = s.fabricPool ∧ (tracked q s).setup = s.setup ∧
    (tracked q s).fwd = s.fwd ∧ (tracked q s).buf = s.buf ∧ (tracked q s).sched = s.sched ∧ (tracked q s).darn = s.darn ∧
    (tracked q s).cellar = s.cellar ∧ (tracked q s).nv = s.nv ∧ (tracked q s).coll = s.coll ∧ (tracked q s).zones = s.zones ∧
    (tracked q s).power = s.power ∧ (tracked q s).pcie = s.pcie ∧ (tracked q s).mgmt = s.mgmt ∧
    (tracked q s).alerts = s.alerts := by
  simp [tracked]

@[simp] theorem started_kept (q : Request) (s : State) :
  (started q s).pending = s.pending ∧ (started q s).ns = s.ns ∧ (started q s).draws = s.draws ∧ (started q s).out = s.out ∧
    (started q s).boot = s.boot ∧ (started q s).seam = s.seam ∧ (started q s).sill = s.sill ∧ (started q s).fw = s.fw ∧
    (started q s).sec = s.sec ∧ (started q s).porch = s.porch ∧ (started q s).ev = s.ev ∧ (started q s).counters = s.counters ∧
    (started q s).filters = s.filters ∧ (started q s).occ = s.occ ∧ (started q s).ctrCopy = s.ctrCopy ∧
    (started q s).ctr = s.ctr ∧ (started q s).tel = s.tel ∧ (started q s).time = s.time ∧ (started q s).links = s.links ∧
    (started q s).ports = s.ports ∧ (started q s).fibres = s.fibres ∧ (started q s).windows = s.windows ∧
    (started q s).modules = s.modules ∧ (started q s).light = s.light ∧ (started q s).transom = s.transom ∧
    (started q s).blocks = s.blocks ∧ (started q s).fabricPool = s.fabricPool ∧ (started q s).fwd = s.fwd ∧
    (started q s).buf = s.buf ∧ (started q s).sched = s.sched ∧ (started q s).darn = s.darn ∧ (started q s).cellar = s.cellar ∧
    (started q s).nv = s.nv ∧ (started q s).coll = s.coll ∧ (started q s).zones = s.zones ∧ (started q s).power = s.power ∧
    (started q s).pcie = s.pcie ∧ (started q s).mgmt = s.mgmt ∧ (started q s).alerts = s.alerts := by
  simp [started]

/-- Counting an access of BAR0 changes counters only. -/
theorem countBar0_eq {α : Type} (g : State → α) (h : ∀ sc i k n s, g (count sc i k n s) = g s) (c off : Nat) (s : State) :
    g (countBar0 c off s) = g s := by
  unfold countBar0 countFilter
  generalize s.filters = l
  induction l generalizing s with
  | nil => rfl
  | cons e l ih =>
    simp only [List.foldl_cons]
    split
    · rw [ih, h]
    · exact ih s

@[simp] theorem countBar0_kept (c off : Nat) (s : State) :
  (countBar0 c off s).pending = s.pending ∧ (countBar0 c off s).ns = s.ns ∧ (countBar0 c off s).draws = s.draws ∧
    (countBar0 c off s).out = s.out ∧ (countBar0 c off s).boot = s.boot ∧ (countBar0 c off s).seam = s.seam ∧
    (countBar0 c off s).sill = s.sill ∧ (countBar0 c off s).fw = s.fw ∧ (countBar0 c off s).sec = s.sec ∧
    (countBar0 c off s).porch = s.porch ∧ (countBar0 c off s).ev = s.ev ∧ (countBar0 c off s).maloa = s.maloa ∧
    (countBar0 c off s).filters = s.filters ∧ (countBar0 c off s).occ = s.occ ∧ (countBar0 c off s).ctrCopy = s.ctrCopy ∧
    (countBar0 c off s).ctr = s.ctr ∧ (countBar0 c off s).tel = s.tel ∧ (countBar0 c off s).time = s.time ∧
    (countBar0 c off s).links = s.links ∧ (countBar0 c off s).ports = s.ports ∧ (countBar0 c off s).fibres = s.fibres ∧
    (countBar0 c off s).windows = s.windows ∧ (countBar0 c off s).modules = s.modules ∧ (countBar0 c off s).light = s.light ∧
    (countBar0 c off s).transom = s.transom ∧ (countBar0 c off s).blocks = s.blocks ∧ (countBar0 c off s).fabricPool = s.fabricPool ∧
    (countBar0 c off s).setup = s.setup ∧ (countBar0 c off s).fwd = s.fwd ∧ (countBar0 c off s).buf = s.buf ∧
    (countBar0 c off s).sched = s.sched ∧ (countBar0 c off s).darn = s.darn ∧ (countBar0 c off s).cellar = s.cellar ∧
    (countBar0 c off s).nv = s.nv ∧ (countBar0 c off s).coll = s.coll ∧ (countBar0 c off s).zones = s.zones ∧
    (countBar0 c off s).power = s.power ∧ (countBar0 c off s).pcie = s.pcie ∧ (countBar0 c off s).mgmt = s.mgmt ∧
    (countBar0 c off s).alerts = s.alerts := by
  and_intros <;> exact countBar0_eq _ (fun _ _ _ _ _ => rfl) c off s

end Sys2Proof.Machine
end

