-- ==== Sys2Proof/Laws/Maloa.lean ====
section
/-!
SUPPORT. What taking a Maloa command can do, once for every command.
-/
namespace Sys2Proof.Machine

/-- An accepted command runs its own part on the state it starts from, and answers with what that part ends in. -/
theorem runCommand_accepted {op : OpSpec} {i : Instr} {q : Request} {inBlock : State → Nat → Bool} {body : Caller → State → Done}
    {s : State} (h : accepted op q inBlock s = true) :
    runCommand op i q inBlock body s = answered op q s (body (callerOf (tracked q s) q) (started q s)) := by
  simp only [accepted, tracked, Bool.and_eq_true, Bool.not_eq_true', Option.isNone_iff_eq_none] at h
  obtain ⟨⟨⟨⟨⟨⟨⟨⟨h1, h2⟩, h3⟩, h4⟩, h5⟩, h6⟩, h7⟩, h8⟩, h9⟩ := h
  simp [runCommand, answered, started, tracked, h1, h2, h3, h4, h5, h6, h7, h8, h9]

/-- Whatever the checks find, a Maloa command takes the block to a next state. -/
theorem runCommand_next (op : OpSpec) (i : Instr) (q : Request) (inBlock : State → Nat → Bool) (body : Caller → State → Done)
    (s : State) : ∃ t, runCommand op i q inBlock body s = .next t := by
  unfold runCommand
  simp only
  repeat' split
  all_goals exact ⟨_, rfl⟩

/-- A command's route is its source's. -/
@[simp] theorem callerOf_route (s : State) (q : Request) : (callerOf s q).route = routeOf q.src := by
  unfold callerOf
  split
  · rfl
  · split <;> rfl

/-! ## A command's own checks -/

@[simp] theorem firstRefusal_nil : firstRefusal [] = none := rfl

@[simp] theorem firstRefusal_cons (b : Bool) (r : Refuse) (l : List (Bool × Refuse)) :
    firstRefusal ((b, r) :: l) = none ↔ b = false ∧ firstRefusal l = none := by
  cases b <;> simp [firstRefusal]

@[simp] theorem firstRefusal_append (l k : List (Bool × Refuse)) :
    firstRefusal (l ++ k) = none ↔ firstRefusal l = none ∧ firstRefusal k = none := by
  induction l with
  | nil => simp
  | cons c l ih => obtain ⟨b, r⟩ := c; simp [ih, and_assoc]

@[simp] theorem firstRefusal_chk (b : Bool) (r : Refuse) (l : List (Bool × Refuse)) :
    firstRefusal (chk b r :: l) = none ↔ b = false ∧ firstRefusal l = none := firstRefusal_cons b r l

theorem firstRefusal_none_iff (l : List (Bool × Refuse)) : firstRefusal l = none ↔ ∀ c ∈ l, c.1 = false := by
  induction l with
  | nil => simp
  | cons c l ih => obtain ⟨b, r⟩ := c; simp [ih]

/-- Where no check fails, the command goes on. -/
theorem withChecks_none {cs : List (Bool × Refuse)} (h : firstRefusal cs = none) (s : State) (k : State → Done) :
    withChecks cs s k = k s := by simp [withChecks, h]

/-- A staging command whose items may be staged stages them and replies OK. -/
theorem stageDone_allowed {q : Request} {items : List Item} {s : State} (h : stagingAllowed q items s = true) (off : Nat)
    (payload : Bytes) : stageDone q off items payload s = .ok payload (withStaged q items s) := by
  unfold stagingAllowed at h
  unfold stageDone stage withStaged
  cases ht : txnAt s q.txn with
  | none => simp [ht] at h
  | some t =>
    simp only [ht, Bool.and_eq_true, Bool.not_eq_true'] at h
    simp [h.1, h.2]

/-- A command whose effect is stored waits, where the store takes transactions. -/
theorem storeThen_up {s : State} (h : storeUp s = true) (x : NvTxn) : storeThen x s = storing x s := by
  simp [storeThen, storing, h]

end Sys2Proof.Machine
end

