-- ==== Sys2Proof/Laws/Answers.lean ====
section
/-!
SUPPORT. When the shared forms of a meaning answer a next state.
-/
namespace Sys2Proof.Machine

theorem guard_next {ok : Bool} (h : ok = true) (what : String) (s : State) : guard ok what s = .next s := by simp [guard, h]

theorem bar0Write_next {off : Nat} {k : State → Answer} {s : State} (h : ∀ s, ∃ t, k s = .next t) :
    ∃ t, bar0Write off k s = .next t := by
  unfold bar0Write; split
  · exact h _
  · exact ⟨_, rfl⟩

theorem bar0Read_next {off : Nat} {k : State → Answer} {s : State} (h : ∀ s, ∃ t, k s = .next t) :
    ∃ t, bar0Read off k s = .next t := by
  unfold bar0Read; split
  · exact h _
  · exact ⟨_, rfl⟩

theorem tceStart_next (ctrl : Nat) (f : State → EngineEnd × State) (s : State) : ∃ t, tceStart ctrl f s = .next t := by
  unfold tceStart
  refine bar0Write_next fun s => ?_
  dsimp only
  split <;> exact ⟨_, rfl⟩

theorem writeTceCtrl_next (v : Nat) (s : State) : ∃ t, writeTceCtrl v s = .next t := by
  unfold writeTceCtrl
  split
  · exact ⟨_, rfl⟩
  · split <;> exact tceStart_next _ _ _

/-- The bounds of `WellFormed` are the bounds that the meanings check. -/
theorem seamGroups_eq (k : Nat) : seamGroups k = linkGroups k := rfl

theorem faultConditions_eq (d : Nat) : faultConditions d = dieConditions d := by
  unfold faultConditions dieConditions
  repeat' split
  all_goals omega

theorem sensorCount_eq (d : Nat) : sensorCount d = sensorsOf d := by
  unfold sensorCount sensorsOf
  simp only [Bool.and_eq_true, Bool.or_eq_true, decide_eq_true_eq]
  repeat' split
  all_goals omega

theorem hasClock_lt {die domain : Nat} (h : hasClock die domain = true) : die < 32 ∧ domain < 23 := by
  unfold hasClock at h
  split at h
  · cases h
  · repeat' split at h
    all_goals simp_all
    all_goals omega

theorem hasClock_table : ∀ domain < 23, ∀ die < 32, hasClock die domain = true → (domainDies domain).contains die = true := by
  decide

theorem hasClock_mem {die domain : Nat} (h : hasClock die domain = true) : (domainDies domain).contains die = true :=
  hasClock_table domain (hasClock_lt h).2 die (hasClock_lt h).1 h

end Sys2Proof.Machine
end

