-- ==== Sys2Proof/Laws/Bytes.lean ====
section
/-!
SUPPORT. Lengths of the byte strings that replies are made of.
-/
namespace Sys2Proof.Machine

@[simp] theorem length_zeros (n : Nat) : (zeros n).length = n := by simp [zeros]

@[simp] theorem length_beBytes (k n : Nat) : (beBytes k n).length = k := by
  induction k generalizing n with
  | zero => rfl
  | succ k ih => simp [beBytes, ih]

@[simp] theorem length_padTo (n : Nat) (bs : Bytes) : (padTo n bs).length = n := by
  simp [padTo]; omega

@[simp] theorem length_bitmapBytes (n bits : Nat) : (bitmapBytes n bits).length = n := by simp [bitmapBytes]

/-- Records of one length, joined. -/
theorem length_flatMap_const {α : Type} {f : α → Bytes} {n : Nat} {l : List α} (h : ∀ x ∈ l, (f x).length = n) :
    (l.flatMap f).length = l.length * n := by
  induction l with
  | nil => simp
  | cons x l ih =>
    rw [List.flatMap_cons, List.length_append, ih fun y hy => h y (by simp [hy]), h x (by simp), List.length_cons]
    rw [Nat.succ_mul, Nat.add_comm]

@[simp] theorem length_wordBytes (ws : List Nat) : (wordBytes ws).length = 4 * ws.length := by
  rw [wordBytes, length_flatMap_const (n := 4) (by simp), Nat.mul_comm]

end Sys2Proof.Machine
end

