-- ==== Sys2Proof/Laws/Frames.lean ====
section
/-!
SUPPORT. What each shared operation may change: the state after it is the state before with those components alone replaced.
-/
namespace Sys2Proof.Machine

theorem raise_frame (code die sev a b c : Nat) (s : State) : ∃ ev, raise code die sev a b c s = { s with ev } := by
  unfold raise
  dsimp only
  split <;> exact ⟨_, rfl⟩

theorem raiseLead_frame (code sev a b c : Nat) (s : State) : ∃ ev, raiseLead code sev a b c s = { s with ev } :=
  raise_frame _ _ _ _ _ _ _

/-- A limited event changes the event log only, if what it raises does. -/
theorem raiseLimited_frame (code key period : Nat) (mk : Nat → State → State) (hm : ∀ n s, ∃ ev, mk n s = { s with ev }) (s : State) :
    ∃ ev, raiseLimited code key period mk s = { s with ev } := by
  unfold raiseLimited
  split
  · split
    · exact ⟨_, rfl⟩
    · obtain ⟨ev, h⟩ := hm _ _; exact ⟨ev, h⟩
  · obtain ⟨ev, h⟩ := hm _ _; exact ⟨ev, h⟩

theorem recordFault_frame (cls st die object : Nat) (s : State) : ∃ darn, recordFault cls st die object s = { s with darn } := by
  unfold recordFault
  dsimp only
  split
  · exact ⟨_, rfl⟩
  · generalize (if s.darn.faults.length < 1024 then s.darn.faults else dropCleared s.darn.faults) = kept
    split
    · exact ⟨s.darn, rfl⟩
    · exact ⟨_, rfl⟩

theorem clearFault_frame (cls die object : Nat) (s : State) : ∃ darn, clearFault cls die object s = { s with darn } := ⟨_, rfl⟩

theorem degradeDie_frame (s : State) (d : Nat) : ∃ boot, degradeDie s d = { s with boot } := ⟨_, rfl⟩

/-- A fold whose steps change the counters only. -/
theorem foldl_counters {α : Type} (f : State → α → State) (hf : ∀ s x, ∃ counters, f s x = { s with counters }) (l : List α) (s : State) :
    ∃ counters, l.foldl f s = { s with counters } := by
  induction l generalizing s with
  | nil => exact ⟨s.counters, rfl⟩
  | cons x l ih =>
    obtain ⟨c, h⟩ := hf s x
    obtain ⟨d, h'⟩ := ih (f s x)
    exact ⟨d, by rw [List.foldl_cons, h', h]⟩

theorem countFilter_frame (type : Nat) (f : Filter → Bool) (s : State) : ∃ counters, countFilter type f s = { s with counters } := by
  unfold countFilter
  refine foldl_counters _ (fun s x => ?_) _ _
  split
  · exact ⟨_, rfl⟩
  · exact ⟨s.counters, rfl⟩

theorem linesInRange_frame (s : State) (part lo hi n : Nat) : ∃ draws, (linesInRange s part lo hi n).2 = { s with draws } := by
  unfold linesInRange
  dsimp only
  split
  · exact ⟨s.draws, rfl⟩
  · split
    · exact ⟨s.draws, rfl⟩
    · exact ⟨s.draws + 1, rfl⟩

theorem countLines_frame (h part idx n : Nat) (s : State) : ∃ draws counters, countLines h part idx n s = { s with draws, counters } := by
  unfold countLines
  have hc : ∃ draws counters, count 0xB (5 * h + part) idx n s = { s with draws, counters } := ⟨s.draws, _, rfl⟩
  revert hc
  generalize count 0xB (5 * h + part) idx n s = t
  have hl : ∀ (l : List (Nat × Filter)) (t : State), (∃ draws counters, t = { s with draws, counters }) →
      ∃ draws counters, l.foldl (fun s e =>
        if e.2.enable && e.2.type = 2 && bit e.2.mask h && bit e.2.cls part && bit e.2.cls (5 + idx) then
          count 18 e.1 0 (linesInRange s part e.2.lo e.2.hi n).1 (linesInRange s part e.2.lo e.2.hi n).2
        else s) t = { s with draws, counters } := by
    intro l
    induction l with
    | nil => exact fun _ h => h
    | cons e l ih =>
      rintro t ⟨d, c, rfl⟩
      refine ih _ ?_
      dsimp only
      split
      · obtain ⟨d', h'⟩ := linesInRange_frame { s with draws := d, counters := c } part e.2.lo e.2.hi n
        rw [h']
        exact ⟨_, _, rfl⟩
      · exact ⟨_, _, rfl⟩
  exact hl s.filters t

theorem takeTokens_frame (h part n : Nat) (s t : State) (ht : takeTokens h part n s = some t) : ∃ cellar, t = { s with cellar } := by
  unfold takeTokens at ht
  dsimp only at ht
  split at ht
  · cases ht; exact ⟨_, rfl⟩
  · cases ht

theorem useTokens_frame (h part n : Nat) (s : State) : ∃ counters cellar, useTokens h part n s = { s with counters, cellar } := by
  unfold useTokens
  split
  · rename_i t ht
    obtain ⟨c, rfl⟩ := takeTokens_frame _ _ _ _ _ ht
    exact ⟨s.counters, c, rfl⟩
  · exact ⟨_, _, rfl⟩

theorem setLos_frame (w : Nat) (k : Nat × Nat × Nat) (los : Bool) (s : State) : ∃ light, setLos w k los s = { s with light } := ⟨_, rfl⟩

theorem writeRail_frame (k mv : Nat) (s : State) : ∃ out power, writeRail k mv s = { s with out, power } := by
  unfold writeRail
  split
  · exact ⟨s.out, s.power, rfl⟩
  · exact ⟨_, _, rfl⟩

theorem phaseEntered_frame (s : State) (p : Nat) : ∃ ev, phaseEntered s p = { s with ev } := raiseLead_frame _ _ _ _ _ _

theorem enterPhase_frame (p : Nat) (s : State) : ∃ boot ev, enterPhase p s = { s with boot, ev } := by
  unfold enterPhase
  dsimp only
  split
  · exact ⟨_, s.ev, rfl⟩
  · obtain ⟨ev, h⟩ := phaseEntered_frame (modBoot (fun b => { b with
      phase := p, entry := b.entry.set p ((s.ns - b.released) / 1000 % 2 ^ 32) }) s) p
    exact ⟨_, ev, h⟩

/-- A state that differs in the counters and the store alone. -/
def OnlyStore (s t : State) : Prop := ∃ counters nv, t = { s with counters, nv }

theorem OnlyStore.refl (s : State) : OnlyStore s s := ⟨s.counters, s.nv, rfl⟩

theorem OnlyStore.trans {s t u : State} (h : OnlyStore s t) (h' : OnlyStore t u) : OnlyStore s u := by
  obtain ⟨c, n, rfl⟩ := h
  obtain ⟨c', n', rfl⟩ := h'
  exact ⟨c', n', rfl⟩

theorem OnlyStore.ite {s t u : State} {c : Prop} [Decidable c] (h : OnlyStore s t) (h' : OnlyStore s u) :
    OnlyStore s (if c then t else u) := by
  split <;> assumption

theorem OnlyStore.foldl {α : Type} {f : State → α → State} (hf : ∀ s x, OnlyStore s (f s x)) (l : List α) (s : State) :
    OnlyStore s (l.foldl f s) := by
  induction l generalizing s with
  | nil => exact .refl s
  | cons x l ih => exact (hf s x).trans (ih _)

theorem countNv_store (d idx n : Nat) (s : State) : OnlyStore s (countNv d idx n s) := ⟨_, _, rfl⟩

theorem modDev_store (d : Nat) (g : NvDevice → NvDevice) (s : State) : OnlyStore s (modDev d g s) := ⟨_, _, rfl⟩

theorem anchorWrite_frame (s : State) : ∃ counters nv, anchorWrite s = { s with counters, nv } :=
  OnlyStore.foldl (fun s d => .ite ((modDev_store d _ s).trans ((countNv_store d 2 _ _).trans (countNv_store d 1 1 _))) (.refl s)) _ s

theorem checkpoint_frame (s : State) : ∃ counters nv, checkpoint s = { s with counters, nv } := by
  unfold checkpoint
  split
  · obtain ⟨c, n, h⟩ := anchorWrite_frame (modNv (fun n => { n with devices := n.devices.map fun d => { d with journal := 0 } }) s)
    exact ⟨c, n, h⟩
  · exact ⟨_, _, rfl⟩

theorem commitPages_frame (e : NvEffect) (s : State) : ∃ counters nv, commitPages e s = { s with counters, nv } :=
  (OnlyStore.foldl (fun s d => .ite ((modDev_store d _ s).trans (countNv_store d 1 _ _)) (.refl s)) [0, 1] s).trans
    (checkpoint_frame _)

end Sys2Proof.Machine
end

