-- ==== Sys2Proof/Laws/Kept.lean ====
section
/-!
SUPPORT. The part of the state that almost every operation leaves alone: the queue of waiting commands, the time, and the fuses
(lifecycle, revoked keys and the two anti-rollback counters). One lemma for each operation says that it does; these lemmas stand in
the files Laws/Kept….lean beside this one, and Laws/KeptStep.lean draws the conclusion for a step.
-/
namespace Sys2Proof.Machine

/-! ## The kept part -/

/-- The queue, the time and the fuses. -/
def State.core (s : State) : List Instr × Nat × Nat × Nat × Nat × Nat :=
  (s.pending, s.ns, s.sec.lifecycle, s.sec.revoked, s.sec.svnA, s.sec.svnB)

/-- The event log within its bounds: at most 64 events wait in a die's queue (R93), and the log holds at most 65,536 records (R94). -/
def EventsBounded (queues : Tbl Nat (List EventMsg)) (log : List EventRec) : Prop :=
  (∀ die, (tget queues die []).length ≤ 64) ∧ log.length ≤ 65536

/-- A state whose queue, time and fuses are those of `o₀`, and whose event log is within its bounds if that of `o₀` is. -/
def Kept (o₀ s : State) : Prop :=
  s.core = o₀.core ∧ (EventsBounded o₀.ev.queues o₀.ev.log → EventsBounded s.ev.queues s.ev.log)

/-- An answer whose next state, if it has one, keeps them. -/
def KeptAnswer (o₀ : State) (a : Answer) : Prop := match a with | .next s => Kept o₀ s | _ => True

/-- A command's end whose state keeps them. -/
def KeptDone (o₀ : State) (d : Done) : Prop := match d with | .reply _ _ _ _ s => Kept o₀ s | .wait _ s => Kept o₀ s

/-- A state that may be absent. -/
def KeptOption (o₀ : State) (a : Option State) : Prop := match a with | some s => Kept o₀ s | none => True

/-- A state, or something else. -/
def KeptSum {α : Type} (o₀ : State) (a : State ⊕ α) : Prop := match a with | .inl s => Kept o₀ s | _ => True

/-- A value and a state, if there are any. -/
def KeptPair {α : Type} (o₀ : State) (a : Option (α × State)) : Prop := match a with | some p => Kept o₀ p.2 | _ => True

/-- A change of the state, if there is one. -/
def KeptMap (p : Option (State → State)) : Prop := ∀ f, p = some f → ∀ o₀ s, Kept o₀ s → Kept o₀ (f s)

theorem kept_iff {o₀ s : State} : Kept o₀ s ↔ s.pending = o₀.pending ∧ s.ns = o₀.ns ∧ s.sec.lifecycle = o₀.sec.lifecycle ∧
    s.sec.revoked = o₀.sec.revoked ∧ s.sec.svnA = o₀.sec.svnA ∧ s.sec.svnB = o₀.sec.svnB ∧
    (EventsBounded o₀.ev.queues o₀.ev.log → EventsBounded s.ev.queues s.ev.log) := by
  simp [Kept, State.core, and_assoc]

theorem Kept.refl {s : State} : Kept s s := ⟨rfl, id⟩

/-! ## Ways to answer -/

theorem next_core {o₀ s} (h : Kept o₀ s) : KeptAnswer o₀ (.next s) := h
theorem refused_core {o₀ r} : KeptAnswer o₀ (.refused r) := trivial
theorem ok_core {o₀ s p} (h : Kept o₀ s) : KeptDone o₀ (.ok p s) := h
theorem refuse_core {o₀ s r} (h : Kept o₀ s) : KeptDone o₀ (.refuse r s) := h
theorem reply_core {o₀ s a b c p} (h : Kept o₀ s) : KeptDone o₀ (.reply a b c p s) := h
theorem wait_core {o₀ s w} (h : Kept o₀ s) : KeptDone o₀ (.wait w s) := h
theorem some_core {o₀ s} (h : Kept o₀ s) : KeptOption o₀ (some s) := h
theorem none_core {o₀} : KeptOption o₀ none := trivial
theorem inl_core {o₀ s} {α : Type} (h : Kept o₀ s) : KeptSum (α := α) o₀ (.inl s) := h
theorem inr_core {o₀} {α : Type} {a : α} : KeptSum o₀ (.inr a) := trivial
theorem somep_core {o₀} {α : Type} {p : α × State} (h : Kept o₀ p.2) : KeptPair o₀ (some p) := h
theorem nonep_core {o₀} {α : Type} : KeptPair (α := α) o₀ none := trivial

/-! ## Ways on from an answer -/

theorem of_pair {o₀ s} {α : Type} {a : α} {p : α × State} (e : p = (a, s)) (h : Kept o₀ p.2) : Kept o₀ s := by
  rw [e] at h; exact h

theorem of_triple {o₀ s} {α β : Type} {a : α} {b : β} {p : α × β × State} (e : p = (a, b, s)) (h : Kept o₀ p.2.2) : Kept o₀ s := by
  rw [e] at h; exact h

theorem of_some {o₀ s} {p : Option State} (e : p = some s) (h : KeptOption o₀ p) : Kept o₀ s := by rw [e] at h; exact h

theorem of_somep {o₀ s} {α : Type} {a : α} {p : Option (α × State)} (e : p = some (a, s)) (h : KeptPair o₀ p) : Kept o₀ s := by
  rw [e] at h; exact h

theorem of_inl {o₀ s} {α : Type} {p : State ⊕ α} (e : p = .inl s) (h : KeptSum o₀ p) : Kept o₀ s := by rw [e] at h; exact h

theorem of_next {o₀ s} {p : Answer} (e : p = .next s) (h : KeptAnswer o₀ p) : Kept o₀ s := by rw [e] at h; exact h

theorem of_wait {o₀ s w} {p : Done} (e : p = .wait w s) (h : KeptDone o₀ p) : Kept o₀ s := by rw [e] at h; exact h

theorem of_reply {o₀ s a b c d} {p : Done} (e : p = .reply a b c d s) (h : KeptDone o₀ p) : Kept o₀ s := by rw [e] at h; exact h

theorem of_map {o₀ s} {p : Option (State → State)} {f : State → State} (h : KeptMap p) (e : p = some f) (hk : Kept o₀ s) :
    Kept o₀ (f s) :=
  h f e o₀ s hk

theorem getD_core {o₀ s} {p : Option State} (h : KeptOption o₀ p) (hs : Kept o₀ s) : Kept o₀ (p.getD s) := by
  cases p with | none => exact hs | some t => exact h

theorem ite_core {o₀ a b : State} {c : Prop} [Decidable c] (ha : Kept o₀ a) (hb : Kept o₀ b) : Kept o₀ (if c then a else b) := by
  split <;> assumption

theorem ite_answer_core {o₀ : State} {a b : Answer} {c : Prop} [Decidable c] (ha : KeptAnswer o₀ a) (hb : KeptAnswer o₀ b) :
    KeptAnswer o₀ (if c then a else b) := by
  split <;> assumption

theorem ite_done_core {o₀ : State} {a b : Done} {c : Prop} [Decidable c] (ha : KeptDone o₀ a) (hb : KeptDone o₀ b) :
    KeptDone o₀ (if c then a else b) := by
  split <;> assumption

/-! ## Folds -/

theorem foldl_core {o₀ : State} {α : Type} {f : State → α → State} {l : List α} {s : State} (hf : ∀ s x, Kept o₀ s → Kept o₀ (f s x))
    (h : Kept o₀ s) : Kept o₀ (l.foldl f s) := by
  induction l generalizing s with
  | nil => exact h
  | cons x l ih => exact ih (hf s x h)

theorem foldl_kept2 {o₀ : State} {α β : Type} {f : β × State → α → β × State} {l : List α} {a : β × State}
    (hf : ∀ a x, Kept o₀ a.2 → Kept o₀ (f a x).2) (h : Kept o₀ a.2) : Kept o₀ (l.foldl f a).2 := by
  induction l generalizing a with
  | nil => exact h
  | cons x l ih => exact ih (hf a x h)

theorem foldl_kept3 {o₀ : State} {α β γ : Type} {f : β × γ × State → α → β × γ × State} {l : List α} {a : β × γ × State}
    (hf : ∀ a x, Kept o₀ a.2.2 → Kept o₀ (f a x).2.2) (h : Kept o₀ a.2.2) : Kept o₀ (l.foldl f a).2.2 := by
  induction l generalizing a with
  | nil => exact h
  | cons x l ih => exact ih (hf a x h)

/-! ## The event queues -/

theorem tget_tset {κ α : Type} [DecidableEq κ] (t : Tbl κ α) (k k' : κ) (v d : α) :
    tget (tset t k v) k' d = if k = k' then v else tget t k' d := by
  induction t with
  | nil => simp [tset, tget]
  | cons e t ih =>
    obtain ⟨a, b⟩ := e
    by_cases h : a = k
    · subst h; by_cases h' : a = k' <;> simp [tset, tget, h']
    · by_cases h' : a = k'
      · subst h'; simp [tset, tget, h, Ne.symm h]
      · simp [tset, tget, h, h', ih]

theorem EventsBounded.set {q : Tbl Nat (List EventMsg)} {l : List EventRec} (h : EventsBounded q l) {die : Nat} {v : List EventMsg}
    (hv : v.length ≤ 64) : EventsBounded (tset q die v) l := by
  refine ⟨fun d => ?_, h.2⟩
  rw [tget_tset]
  split
  · exact hv
  · exact h.1 d

theorem EventsBounded.push {q : Tbl Nat (List EventMsg)} {l : List EventRec} (h : EventsBounded q l) (r : EventRec) :
    EventsBounded q (lastOf 65536 (l ++ [r])) :=
  ⟨h.1, by simp only [lastOf, List.length_drop]; omega⟩

theorem EventsBounded.tail {q : Tbl Nat (List EventMsg)} {l : List EventRec} (h : EventsBounded q l) {die : Nat} {m : EventMsg}
    {rest : List EventMsg} (hq : tget q die [] = m :: rest) : EventsBounded (tset q die rest) l := by
  have := h.1 die
  rw [hq, List.length_cons] at this
  exact h.set (by omega)

theorem EventsBounded.empty : EventsBounded [] [] := ⟨fun _ => by simp [tget], by simp⟩

/-! ## Updates of other fields -/

/-- A state written out keeps what its own fields keep. -/
theorem kept_mk {o₀ : State}
    {x_pending x_ns x_draws x_out x_boot x_seam x_sill x_fw x_sec x_porch x_ev x_maloa x_counters x_filters x_occ x_ctrCopy x_ctr x_tel
     x_time x_links x_ports x_fibres x_windows x_modules x_light x_transom x_blocks x_fabricPool x_setup x_fwd x_buf x_sched x_darn
     x_cellar x_nv x_coll x_zones x_power x_pcie x_mgmt x_alerts} :
    Kept o₀ (State.mk
     x_pending x_ns x_draws x_out x_boot x_seam x_sill x_fw x_sec x_porch x_ev x_maloa x_counters x_filters x_occ x_ctrCopy x_ctr
     x_tel x_time x_links x_ports x_fibres x_windows x_modules x_light x_transom x_blocks x_fabricPool x_setup x_fwd x_buf x_sched
     x_darn x_cellar x_nv x_coll x_zones x_power x_pcie x_mgmt x_alerts) ↔
    ((x_pending, x_ns, x_sec.lifecycle, x_sec.revoked, x_sec.svnA, x_sec.svnB) = o₀.core ∧
      (EventsBounded o₀.ev.queues o₀.ev.log → EventsBounded x_ev.queues x_ev.log)) := Iff.rfl

theorem kept_fold {o₀ s : State} :
    ((s.pending, s.ns, s.sec.lifecycle, s.sec.revoked, s.sec.svnA, s.sec.svnB) = o₀.core ∧
      (EventsBounded o₀.ev.queues o₀.ev.log → EventsBounded s.ev.queues s.ev.log)) ↔ Kept o₀ s := Iff.rfl

end Sys2Proof.Machine
end

