-- ==== Sys2Proof/Laws/KeptOps.lean ====
section
/-!
SUPPORT. What the operations on registers, ports, stores and forwarding leave alone.
-/
namespace Sys2Proof.Machine

/-! ## Machine/Ops.lean -/

theorem draw_core {o₀ : State} (n : Nat) (s : State) (hk : Kept o₀ s) :
    Kept o₀ (draw n s).2 := by
  unfold draw
  try dsimp only
  repeat' first
    | with_reducible assumption | with_reducible exact trivial | simp only [kept_mk, kept_fold] | (intro _) | with_reducible rfl
    | split | with_reducible apply ite_answer_core | with_reducible apply ite_done_core | with_reducible apply ite_core
    | refine of_pair (by with_reducible assumption) ?_ | refine of_triple (by with_reducible assumption) ?_
    | refine of_some (by with_reducible assumption) ?_ | refine of_somep (by with_reducible assumption) ?_
    | refine of_next (by with_reducible assumption) ?_ | refine of_inl (by with_reducible assumption) ?_

theorem drawInt_core {o₀ : State} (s : State) (hk : Kept o₀ s) :
    Kept o₀ (drawInt s).2 := by
  unfold drawInt
  try dsimp only
  repeat' first
    | with_reducible assumption | with_reducible exact trivial | simp only [kept_mk, kept_fold] | (intro _) | with_reducible rfl
    | split | with_reducible apply ite_answer_core | with_reducible apply ite_done_core | with_reducible apply ite_core
    | refine of_pair (by with_reducible assumption) ?_ | refine of_triple (by with_reducible assumption) ?_
    | refine of_some (by with_reducible assumption) ?_ | refine of_somep (by with_reducible assumption) ?_
    | refine of_next (by with_reducible assumption) ?_ | refine of_inl (by with_reducible assumption) ?_

theorem count_core {o₀ : State} (scope inst idx n : Nat) (s : State) (hk : Kept o₀ s) :
    Kept o₀ (count scope inst idx n s) := by
  unfold count
  try dsimp only
  repeat' first
    | with_reducible assumption | simp only [kept_mk, kept_fold] | with_reducible rfl

theorem countPort_core {o₀ : State} (p idx n : Nat) (s : State) (hk : Kept o₀ s) :
    Kept o₀ (countPort p idx n s) := by
  unfold countPort
  try dsimp only
  repeat' first
    | with_reducible assumption | with_reducible apply count_core | with_reducible rfl

theorem countQueue_core {o₀ : State} (p vc idx n : Nat) (s : State) (hk : Kept o₀ s) :
    Kept o₀ (countQueue p vc idx n s) := by
  unfold countQueue
  try dsimp only
  repeat' first
    | with_reducible assumption | with_reducible apply count_core | with_reducible rfl

theorem countPool_core {o₀ : State} (key hall idx n : Nat) (s : State) (hk : Kept o₀ s) :
    Kept o₀ (countPool key hall idx n s) := by
  unfold countPool
  try dsimp only
  repeat' first
    | with_reducible assumption | with_reducible apply count_core | with_reducible rfl

theorem countHall_core {o₀ : State} (h idx n : Nat) (s : State) (hk : Kept o₀ s) :
    Kept o₀ (countHall h idx n s) := by
  unfold countHall
  try dsimp only
  repeat' first
    | with_reducible assumption | with_reducible apply count_core | with_reducible rfl

theorem countMangle_core {o₀ : State} (m idx n : Nat) (s : State) (hk : Kept o₀ s) :
    Kept o₀ (countMangle m idx n s) := by
  unfold countMangle
  try dsimp only
  repeat' first
    | with_reducible assumption | with_reducible apply count_core | with_reducible rfl

theorem countRoute_core {o₀ : State} (r idx n : Nat) (s : State) (hk : Kept o₀ s) :
    Kept o₀ (countRoute r idx n s) := by
  unfold countRoute
  try dsimp only
  repeat' first
    | with_reducible assumption | with_reducible apply count_core | with_reducible rfl

theorem countFilter_core {o₀ : State} (type : Nat) (hit : Filter → Bool) (s : State) (hk : Kept o₀ s) :
    Kept o₀ (countFilter type hit s) := by
  unfold countFilter
  try dsimp only
  repeat' first
    | with_reducible assumption | with_reducible apply count_core | with_reducible apply foldl_core | with_reducible apply foldl_kept2
    | with_reducible apply foldl_kept3 | (intro _) | with_reducible rfl | split | with_reducible apply ite_core

theorem emit_core {o₀ : State} (o : Out) (s : State) (hk : Kept o₀ s) :
    Kept o₀ (emit o s) := by
  unfold emit
  try dsimp only
  repeat' first
    | with_reducible assumption | simp only [kept_mk, kept_fold] | with_reducible rfl

theorem raise_core {o₀ : State} (code die severity arg0 arg1 arg2 : Nat) (s : State) (hk : Kept o₀ s) :
    Kept o₀ (raise code die severity arg0 arg1 arg2 s) := by
  unfold raise
  dsimp only
  split
  · rename_i h
    exact ⟨hk.1, fun he => (hk.2 he).set (by simp only [List.length_append, List.length_singleton]; exact h)⟩
  · exact hk

theorem raiseLead_core {o₀ : State} (code severity arg0 arg1 arg2 : Nat) (s : State) (hk : Kept o₀ s) :
    Kept o₀ (raiseLead code severity arg0 arg1 arg2 s) := by
  unfold raiseLead
  try dsimp only
  repeat' first
    | with_reducible assumption | with_reducible apply raise_core | with_reducible rfl

theorem raiseLimited_core {o₀ : State} (code key period : Nat) (mk : Nat → State → State) (s : State)
    (hf_mk : ∀ x0 x1, Kept o₀ x1 → Kept o₀ (mk x0 x1))
    (hk : Kept o₀ s) :
    Kept o₀ (raiseLimited code key period mk s) := by
  unfold raiseLimited
  try dsimp only
  repeat' first
    | with_reducible assumption | with_reducible apply hf_mk | with_reducible apply count_core | simp only [kept_mk, kept_fold] | (intro _)
    | with_reducible rfl | split | with_reducible apply ite_core | refine of_pair (by with_reducible assumption) ?_
    | refine of_some (by with_reducible assumption) ?_ | refine of_next (by with_reducible assumption) ?_
    | refine of_inl (by with_reducible assumption) ?_

theorem guard_core {o₀ : State} (ok : Bool) (what : String) (s : State) (hk : Kept o₀ s) :
    KeptAnswer o₀ (guard ok what s) := by
  unfold guard
  try dsimp only
  repeat' first
    | with_reducible assumption | with_reducible apply next_core | with_reducible apply refused_core | with_reducible apply refuse_core
    | with_reducible rfl | split | with_reducible apply ite_answer_core | with_reducible apply ite_done_core | with_reducible apply ite_core

theorem countBar0_core {o₀ : State} (cls off : Nat) (s : State) (hk : Kept o₀ s) :
    Kept o₀ (countBar0 cls off s) := by
  unfold countBar0
  try dsimp only
  repeat' first
    | with_reducible assumption | with_reducible apply countFilter_core | (intro _) | with_reducible rfl

theorem bar0Write_core {o₀ : State} (off : Nat) (k : State → Answer) (s : State) (hf_k : ∀ x0, Kept o₀ x0 → KeptAnswer o₀ (k x0))
    (hk : Kept o₀ s) :
    KeptAnswer o₀ (bar0Write off k s) := by
  unfold bar0Write; split
  · exact hf_k _ (countBar0_core _ _ _ hk)
  · exact hk

theorem bar0Read_core {o₀ : State} (off : Nat) (k : State → Answer) (s : State) (hf_k : ∀ x0, Kept o₀ x0 → KeptAnswer o₀ (k x0))
    (hk : Kept o₀ s) :
    KeptAnswer o₀ (bar0Read off k s) := by
  unfold bar0Read; split
  · exact hf_k _ (countBar0_core _ _ _ hk)
  · apply next_core; split
    · exact emit_core _ _ hk
    · exact hk

/-! ## Machine/Seam.lean -/

theorem modSeam_core {o₀ : State} (k : Nat) (g : SeamLink → SeamLink) (s : State) (hk : Kept o₀ s) :
    Kept o₀ (modSeam k g s) := by
  unfold modSeam
  try dsimp only
  repeat' first
    | with_reducible assumption | simp only [kept_mk, kept_fold] | with_reducible rfl

theorem trainSill_core {o₀ : State} (w : Nat) (s : State) (hk : Kept o₀ s) :
    Kept o₀ (trainSill w s) := by
  unfold trainSill
  try dsimp only
  repeat' first
    | with_reducible assumption | with_reducible exact trivial | simp only [kept_mk, kept_fold] | (intro _) | with_reducible rfl
    | split | with_reducible apply ite_answer_core | with_reducible apply ite_done_core | with_reducible apply ite_core
    | refine of_pair (by with_reducible assumption) ?_ | refine of_triple (by with_reducible assumption) ?_
    | refine of_some (by with_reducible assumption) ?_ | refine of_somep (by with_reducible assumption) ?_
    | refine of_next (by with_reducible assumption) ?_ | refine of_inl (by with_reducible assumption) ?_

/-! ## Machine/Ports.lean -/

theorem modLink_core {o₀ : State} (p : Nat) (g : Link → Link) (s : State) (hk : Kept o₀ s) :
    Kept o₀ (modLink p g s) := by
  unfold modLink
  try dsimp only
  repeat' first
    | with_reducible assumption | simp only [kept_mk, kept_fold] | with_reducible rfl

theorem modPort_core {o₀ : State} (p : Nat) (g : PhyPort → PhyPort) (s : State) (hk : Kept o₀ s) :
    Kept o₀ (modPort p g s) := by
  unfold modPort
  try dsimp only
  repeat' first
    | with_reducible assumption | simp only [kept_mk, kept_fold] | with_reducible rfl

theorem modFibre_core {o₀ : State} (n : Nat) (g : Fibre → Fibre) (s : State) (hk : Kept o₀ s) :
    Kept o₀ (modFibre n g s) := by
  unfold modFibre
  try dsimp only
  repeat' first
    | with_reducible assumption | simp only [kept_mk, kept_fold] | with_reducible rfl

theorem modWindow_core {o₀ : State} (w : Nat) (g : Window → Window) (s : State) (hk : Kept o₀ s) :
    Kept o₀ (modWindow w g s) := by
  unfold modWindow
  try dsimp only
  repeat' first
    | with_reducible assumption | simp only [kept_mk, kept_fold] | with_reducible rfl

theorem modBlock_core {o₀ : State} (key : Nat) (g : Block → Block) (s : State) (hk : Kept o₀ s) :
    Kept o₀ (modBlock key g s) := by
  unfold modBlock
  try dsimp only
  repeat' first
    | with_reducible assumption | simp only [kept_mk, kept_fold] | with_reducible rfl | split
    | refine of_pair (by with_reducible assumption) ?_ | refine of_some (by with_reducible assumption) ?_
    | refine of_next (by with_reducible assumption) ?_ | refine of_inl (by with_reducible assumption) ?_

/-! ## Machine/Landing.lean -/

theorem modHall_core {o₀ : State} (h : Nat) (g : Hall → Hall) (s : State) (hk : Kept o₀ s) :
    Kept o₀ (modHall h g s) := by
  unfold modHall
  try dsimp only
  repeat' first
    | with_reducible assumption | simp only [kept_mk, kept_fold] | with_reducible rfl

theorem setQueue_core {o₀ : State} (p vc : Nat) (q : Queue) (s : State) (hk : Kept o₀ s) :
    Kept o₀ (setQueue p vc q s) := by
  unfold setQueue
  try dsimp only
  repeat' first
    | with_reducible assumption | simp only [kept_mk, kept_fold] | with_reducible rfl

theorem updateSpilling_core {o₀ : State} (h : Nat) (s : State) (hk : Kept o₀ s) :
    Kept o₀ (updateSpilling h s) := by
  unfold updateSpilling
  try dsimp only
  repeat' first
    | with_reducible assumption | with_reducible exact trivial | with_reducible apply modHall_core
    | with_reducible apply raiseLimited_core | with_reducible apply raise_core | simp only [kept_mk, kept_fold] | (intro _)
    | with_reducible rfl | split | with_reducible apply ite_answer_core | with_reducible apply ite_done_core
    | with_reducible apply ite_core | refine of_pair (by with_reducible assumption) ?_
    | refine of_triple (by with_reducible assumption) ?_ | refine of_some (by with_reducible assumption) ?_
    | refine of_somep (by with_reducible assumption) ?_ | refine of_next (by with_reducible assumption) ?_
    | refine of_inl (by with_reducible assumption) ?_

theorem judgeSpilling_core {o₀ : State} (s : State) (hk : Kept o₀ s) :
    Kept o₀ (judgeSpilling s) := by
  unfold judgeSpilling
  try dsimp only
  repeat' first
    | with_reducible assumption | with_reducible exact trivial | with_reducible apply updateSpilling_core
    | with_reducible apply foldl_core | with_reducible apply foldl_kept2 | with_reducible apply foldl_kept3
    | simp only [kept_mk, kept_fold] | (intro _) | with_reducible rfl | split | with_reducible apply ite_answer_core
    | with_reducible apply ite_done_core | with_reducible apply ite_core | refine of_pair (by with_reducible assumption) ?_
    | refine of_triple (by with_reducible assumption) ?_ | refine of_some (by with_reducible assumption) ?_
    | refine of_somep (by with_reducible assumption) ?_ | refine of_next (by with_reducible assumption) ?_
    | refine of_inl (by with_reducible assumption) ?_

theorem chargePool_core {o₀ : State} (h key c : Nat) (s : State) (hk : Kept o₀ s) :
    Kept o₀ (chargePool h key c s) := by
  unfold chargePool
  try dsimp only
  repeat' first
    | with_reducible assumption | with_reducible apply updateSpilling_core | with_reducible apply modHall_core
    | simp only [kept_mk, kept_fold] | (intro _) | with_reducible rfl

theorem freeStore_core {o₀ : State} (st : Store) (h c : Nat) (s : State) (hk : Kept o₀ s) :
    Kept o₀ (freeStore st h c s) := by
  unfold freeStore
  try dsimp only
  repeat' first
    | with_reducible assumption | with_reducible apply modLink_core | with_reducible apply modHall_core
    | with_reducible apply updateSpilling_core | simp only [kept_mk, kept_fold] | (intro _) | with_reducible rfl | split
    | with_reducible apply ite_core | refine of_pair (by with_reducible assumption) ?_ | refine of_some (by with_reducible assumption) ?_
    | refine of_next (by with_reducible assumption) ?_ | refine of_inl (by with_reducible assumption) ?_

theorem freeFrame_core {o₀ : State} (x : Held) (h : Nat) (s : State) (hk : Kept o₀ s) :
    Kept o₀ (freeFrame x h s) := by
  unfold freeFrame
  try dsimp only
  repeat' first
    | with_reducible assumption | with_reducible apply freeStore_core | simp only [kept_mk, kept_fold] | with_reducible rfl | split
    | with_reducible apply ite_core | refine of_pair (by with_reducible assumption) ?_ | refine of_some (by with_reducible assumption) ?_
    | refine of_next (by with_reducible assumption) ?_ | refine of_inl (by with_reducible assumption) ?_

theorem linesInRange_core {o₀ : State} (s : State) (part lo hi n : Nat) (hk : Kept o₀ s) :
    Kept o₀ (linesInRange s part lo hi n).2 := by
  unfold linesInRange
  try dsimp only
  repeat' first
    | with_reducible assumption | with_reducible apply draw_core | with_reducible rfl | split | with_reducible apply ite_core

theorem countLines_core {o₀ : State} (h part idx n : Nat) (s : State) (hk : Kept o₀ s) :
    Kept o₀ (countLines h part idx n s) := by
  unfold countLines
  try dsimp only
  repeat' first
    | with_reducible assumption | with_reducible apply linesInRange_core | with_reducible apply count_core | with_reducible apply foldl_core
    | with_reducible apply foldl_kept2 | with_reducible apply foldl_kept3 | (intro _) | with_reducible rfl | split
    | with_reducible apply ite_core

theorem takeTokens_core {o₀ : State} (h part n : Nat) (s : State) (hk : Kept o₀ s) :
    KeptOption o₀ (takeTokens h part n s) := by
  unfold takeTokens
  try dsimp only
  repeat' first
    | with_reducible assumption | with_reducible apply some_core | with_reducible apply none_core | simp only [kept_mk, kept_fold]
    | with_reducible rfl | split | with_reducible apply ite_core

theorem useTokens_core {o₀ : State} (h part n : Nat) (s : State) (hk : Kept o₀ s) :
    Kept o₀ (useTokens h part n s) := by
  unfold useTokens
  try dsimp only
  repeat' first
    | with_reducible assumption | with_reducible apply takeTokens_core | with_reducible apply count_core | simp only [kept_mk, kept_fold]
    | with_reducible rfl | split | refine of_pair (by with_reducible assumption) ?_ | refine of_some (by with_reducible assumption) ?_
    | refine of_next (by with_reducible assumption) ?_ | refine of_inl (by with_reducible assumption) ?_

/-! ## Machine/Pace.lean -/

theorem spendShaper_core {o₀ : State} (p vc : Nat) (f : Frame) (s : State) (hk : Kept o₀ s) :
    Kept o₀ (spendShaper p vc f s) := by
  unfold spendShaper
  try dsimp only
  repeat' first
    | with_reducible assumption | simp only [kept_mk, kept_fold] | with_reducible rfl | split | with_reducible apply ite_core

theorem touchHeads_core {o₀ : State} (p : Nat) (s : State) (hk : Kept o₀ s) :
    Kept o₀ (touchHeads p s) := by
  unfold touchHeads
  try dsimp only
  repeat' first
    | with_reducible assumption | with_reducible apply setQueue_core | with_reducible apply foldl_core | with_reducible apply foldl_kept2
    | with_reducible apply foldl_kept3 | simp only [kept_mk, kept_fold] | (intro _) | with_reducible rfl | split
    | refine of_pair (by with_reducible assumption) ?_ | refine of_some (by with_reducible assumption) ?_
    | refine of_next (by with_reducible assumption) ?_ | refine of_inl (by with_reducible assumption) ?_

/-! ## Machine/Forwarding.lean -/

theorem setChute_core {o₀ : State} (h : Nat) (c : Chute) (s : State) (hk : Kept o₀ s) :
    Kept o₀ (setChute h c s) := by
  unfold setChute
  try dsimp only
  repeat' first
    | with_reducible assumption | simp only [kept_mk, kept_fold] | with_reducible rfl

theorem toChute_core {o₀ : State} (h cause index pipe : Nat) (x : Held) (s : State) (hk : Kept o₀ s) :
    Kept o₀ (toChute h cause index pipe x s) := by
  unfold toChute
  try dsimp only
  repeat' first
    | with_reducible assumption | with_reducible apply countHall_core | with_reducible apply raiseLimited_core
    | with_reducible apply raise_core | with_reducible apply setChute_core | simp only [kept_mk, kept_fold] | (intro _) | with_reducible rfl
    | split | with_reducible apply ite_core

theorem sprayChoice_core {o₀ : State} (h pipe set cls : Nat) (f : Frame) (e : List (Nat × Nat)) (s : State) (hk : Kept o₀ s) :
    Kept o₀ (sprayChoice h pipe set cls f e s).2 := by
  unfold sprayChoice
  try dsimp only
  repeat' first
    | with_reducible assumption | with_reducible apply countHall_core | with_reducible apply getD_core | simp only [kept_mk, kept_fold]
    | (intro _) | with_reducible rfl | split | with_reducible apply ite_core

theorem flowletChoice_core {o₀ : State} (h : Nat) (f : Frame) (e : List (Nat × Nat)) (s : State) (hk : Kept o₀ s) :
    Kept o₀ (flowletChoice h f e s).2 := by
  unfold flowletChoice
  try dsimp only
  repeat' first
    | with_reducible assumption | with_reducible exact trivial | with_reducible apply some_core | with_reducible apply none_core
    | with_reducible apply somep_core | with_reducible apply nonep_core | with_reducible apply raise_core
    | with_reducible apply countHall_core | with_reducible apply getD_core | simp only [kept_mk, kept_fold] | (intro _)
    | with_reducible rfl | split | with_reducible apply ite_answer_core | with_reducible apply ite_done_core
    | with_reducible apply ite_core | refine of_pair (by with_reducible assumption) ?_
    | refine of_triple (by with_reducible assumption) ?_ | refine of_some (by with_reducible assumption) ?_
    | refine of_somep (by with_reducible assumption) ?_ | refine of_next (by with_reducible assumption) ?_
    | refine of_inl (by with_reducible assumption) ?_

theorem dispose_core {o₀ : State} (h : Nat) (x : Held) (s : State) (hk : Kept o₀ s) :
    Kept o₀ (dispose h x s).2 := by
  unfold dispose
  try dsimp only
  repeat' first
    | with_reducible assumption | with_reducible apply freeFrame_core | with_reducible rfl

theorem noPath_core {o₀ : State} (h set : Nat) (x : Held) (s : State) (hk : Kept o₀ s) :
    Kept o₀ (noPath h set x s).2 := by
  unfold noPath
  try dsimp only
  repeat' first
    | with_reducible assumption | with_reducible apply dispose_core | with_reducible apply raiseLimited_core
    | with_reducible apply raise_core | with_reducible apply countHall_core | (intro _) | with_reducible rfl

theorem stairChoice_core {o₀ : State} (h : Nat) (entry : Nat) (x : Held) (s : State) (hk : Kept o₀ s) :
    Kept o₀ (stairChoice h entry x s).2 := by
  unfold stairChoice
  try dsimp only
  repeat' first
    | with_reducible assumption | with_reducible apply dispose_core | with_reducible apply toChute_core
    | with_reducible apply countHall_core | with_reducible apply noPath_core | with_reducible apply raiseLimited_core
    | with_reducible apply raise_core | simp only [kept_mk, kept_fold] | (intro _) | with_reducible rfl | split
    | with_reducible apply ite_core | refine of_pair (by with_reducible assumption) ?_ | refine of_some (by with_reducible assumption) ?_
    | refine of_next (by with_reducible assumption) ?_ | refine of_inl (by with_reducible assumption) ?_

theorem routeStep_core {o₀ : State} (h pipe : Nat) (x : Held) (s : State) (hk : Kept o₀ s) :
    Kept o₀ (routeStep h pipe x s).2 := by
  unfold routeStep
  try dsimp only
  repeat' first
    | with_reducible assumption | with_reducible apply dispose_core | with_reducible apply toChute_core
    | with_reducible apply countHall_core | with_reducible apply stairChoice_core | with_reducible apply noPath_core
    | with_reducible apply flowletChoice_core | with_reducible apply sprayChoice_core | simp only [kept_mk, kept_fold] | with_reducible rfl
    | split | with_reducible apply ite_core | refine of_pair (by with_reducible assumption) ?_
    | refine of_some (by with_reducible assumption) ?_ | refine of_next (by with_reducible assumption) ?_
    | refine of_inl (by with_reducible assumption) ?_

theorem latchkeyDrop_core {o₀ : State} (p hall cause idx key : Nat) (s : State) (hk : Kept o₀ s) :
    Kept o₀ (latchkeyDrop p hall cause idx key s) := by
  unfold latchkeyDrop
  try dsimp only
  repeat' first
    | with_reducible assumption | with_reducible apply raiseLimited_core | with_reducible apply raise_core
    | with_reducible apply countPort_core | (intro _) | with_reducible rfl

theorem linkTail_core {o₀ : State} (x : Held) (s : State) (hk : Kept o₀ s) :
    Kept o₀ (linkTail x s) := by
  unfold linkTail
  try dsimp only
  repeat' first
    | with_reducible assumption | with_reducible apply countQueue_core | with_reducible apply setQueue_core | simp only [kept_mk, kept_fold]
    | with_reducible rfl | split | with_reducible apply ite_core

theorem sendAcross_core {o₀ : State} (h : Nat) (x : Held) (s : State) (hk : Kept o₀ s) :
    Kept o₀ (sendAcross h x s) := by
  unfold sendAcross
  try dsimp only
  repeat' first
    | with_reducible assumption | with_reducible apply modHall_core | simp only [kept_mk, kept_fold] | (intro _) | with_reducible rfl

theorem placeHead_core {o₀ : State} (h : Nat) (x : Held) (s : State) (hk : Kept o₀ s) :
    Kept o₀ (placeHead h x s) := by
  unfold placeHead
  try dsimp only
  repeat' first
    | with_reducible assumption | with_reducible apply freeFrame_core | with_reducible apply latchkeyDrop_core
    | with_reducible apply sendAcross_core | with_reducible apply linkTail_core | with_reducible apply chargePool_core
    | with_reducible apply modHall_core | simp only [kept_mk, kept_fold] | (intro _) | with_reducible rfl | split
    | with_reducible apply ite_core | refine of_pair (by with_reducible assumption) ?_ | refine of_some (by with_reducible assumption) ?_
    | refine of_next (by with_reducible assumption) ?_ | refine of_inl (by with_reducible assumption) ?_

theorem trimFrame_core {o₀ : State} (h cause port qcells : Nat) (x : Held) (s : State) (hk : Kept o₀ s) :
    Kept o₀ (trimFrame h cause port qcells x s) := by
  unfold trimFrame
  try dsimp only
  repeat' first
    | with_reducible assumption | with_reducible apply freeFrame_core | with_reducible apply countHall_core
    | with_reducible apply freeStore_core | with_reducible apply routeStep_core | with_reducible apply placeHead_core
    | simp only [kept_mk, kept_fold] | with_reducible rfl | split | with_reducible apply ite_core
    | refine of_pair (by with_reducible assumption) ?_ | refine of_some (by with_reducible assumption) ?_
    | refine of_next (by with_reducible assumption) ?_ | refine of_inl (by with_reducible assumption) ?_

/-! ## Machine/Admission.lean -/

theorem markFrame_core {o₀ : State} (x : Held) (s : State) (hk : Kept o₀ s) :
    Kept o₀ (markFrame x s).2 := by
  unfold markFrame
  try dsimp only
  repeat' first
    | with_reducible assumption | with_reducible apply draw_core | with_reducible apply countQueue_core | simp only [kept_mk, kept_fold]
    | (intro _) | with_reducible rfl | split | with_reducible apply ite_core

theorem linkCharged_core {o₀ : State} (h key : Nat) (x : Held) (s : State) (hk : Kept o₀ s) :
    Kept o₀ (linkCharged h key x s) := by
  unfold linkCharged
  try dsimp only
  repeat' first
    | with_reducible assumption | with_reducible apply markFrame_core | with_reducible apply chargePool_core
    | with_reducible apply freeFrame_core | with_reducible apply linkTail_core | simp only [kept_mk, kept_fold] | with_reducible rfl

theorem spillTokens_core {o₀ : State} (h : Nat) (key : Nat) (n : Nat) (s : State) (hk : Kept o₀ s) :
    KeptOption o₀ (spillTokens h key n s) := by
  unfold spillTokens
  try dsimp only
  repeat' first
    | with_reducible assumption | with_reducible exact trivial | with_reducible apply some_core | with_reducible apply none_core
    | with_reducible apply somep_core | with_reducible apply nonep_core | with_reducible apply takeTokens_core
    | with_reducible apply modHall_core | simp only [kept_mk, kept_fold] | (intro _) | with_reducible rfl | split
    | with_reducible apply ite_answer_core | with_reducible apply ite_done_core | with_reducible apply ite_core
    | refine of_pair (by with_reducible assumption) ?_ | refine of_triple (by with_reducible assumption) ?_
    | refine of_some (by with_reducible assumption) ?_ | refine of_somep (by with_reducible assumption) ?_
    | refine of_next (by with_reducible assumption) ?_ | refine of_inl (by with_reducible assumption) ?_

theorem toSpill_core {o₀ : State} (h : Nat) (key : Nat) (x : Held) (s : State) (hk : Kept o₀ s) :
    KeptSum o₀ (toSpill h key x s) := by
  unfold toSpill
  try dsimp only
  repeat' first
    | with_reducible assumption | with_reducible exact trivial | with_reducible apply some_core | with_reducible apply none_core
    | with_reducible apply somep_core | with_reducible apply nonep_core | with_reducible apply inl_core
    | with_reducible apply inr_core | with_reducible apply spillTokens_core | with_reducible apply markFrame_core
    | with_reducible apply countLines_core | with_reducible apply setQueue_core | with_reducible apply modHall_core
    | with_reducible apply countHall_core | with_reducible apply countQueue_core | simp only [kept_mk, kept_fold] | (intro _)
    | with_reducible rfl | split | with_reducible apply ite_answer_core | with_reducible apply ite_done_core
    | with_reducible apply ite_core | refine of_pair (by with_reducible assumption) ?_
    | refine of_triple (by with_reducible assumption) ?_ | refine of_some (by with_reducible assumption) ?_
    | refine of_somep (by with_reducible assumption) ?_ | refine of_next (by with_reducible assumption) ?_
    | refine of_inl (by with_reducible assumption) ?_

theorem evict_core {o₀ : State} (h port vc : Nat) (v : List Held) (s : State) (hk : Kept o₀ s) :
    Kept o₀ (evict h port vc v s) := by
  unfold evict
  try dsimp only
  repeat' first
    | with_reducible assumption | with_reducible apply setQueue_core | with_reducible apply trimFrame_core
    | with_reducible apply countHall_core | with_reducible apply foldl_core | with_reducible apply foldl_kept2
    | with_reducible apply foldl_kept3 | simp only [kept_mk, kept_fold] | (intro _) | with_reducible rfl

theorem holdFrame_core {o₀ : State} (h : Nat) (x : Held) (s : State) (hk : Kept o₀ s) :
    Kept o₀ (holdFrame h x s) := by
  unfold holdFrame
  try dsimp only
  repeat' first
    | with_reducible assumption | with_reducible apply countQueue_core | with_reducible apply modHall_core | simp only [kept_mk, kept_fold]
    | (intro _) | with_reducible rfl | split | with_reducible apply ite_core

theorem overflow_core {o₀ : State} (h : Nat) (x : Held) (s : State) (hk : Kept o₀ s) :
    Kept o₀ (overflow h x s) := by
  unfold overflow
  try dsimp only
  repeat' first
    | with_reducible assumption | with_reducible apply trimFrame_core | with_reducible apply holdFrame_core | with_reducible rfl | split
    | with_reducible apply ite_core

theorem headroomOr_core {o₀ : State} (h : Nat) (x : Held) (s : State) (hk : Kept o₀ s) :
    Kept o₀ (headroomOr h x s) := by
  unfold headroomOr
  try dsimp only
  repeat' first
    | with_reducible assumption | with_reducible apply markFrame_core | with_reducible apply modHall_core
    | with_reducible apply freeFrame_core | with_reducible apply countHall_core | with_reducible apply linkTail_core
    | with_reducible apply overflow_core | simp only [kept_mk, kept_fold] | (intro _) | with_reducible rfl | split
    | with_reducible apply ite_core

theorem takeIn_core {o₀ : State} (h : Nat) (x : Held) (s : State) (hk : Kept o₀ s) :
    Kept o₀ (takeIn h x s) := by
  unfold takeIn
  try dsimp only
  repeat' first
    | with_reducible assumption | with_reducible apply freeFrame_core | with_reducible apply latchkeyDrop_core
    | with_reducible apply toSpill_core | with_reducible apply overflow_core | with_reducible apply raiseLimited_core
    | with_reducible apply raise_core | with_reducible apply countHall_core | with_reducible apply linkCharged_core
    | with_reducible apply modHall_core | with_reducible apply headroomOr_core | with_reducible apply countQueue_core
    | with_reducible apply evict_core | simp only [kept_mk, kept_fold] | (intro _) | with_reducible rfl | split
    | with_reducible apply ite_core | refine of_pair (by with_reducible assumption) ?_ | refine of_some (by with_reducible assumption) ?_
    | refine of_next (by with_reducible assumption) ?_ | refine of_inl (by with_reducible assumption) ?_

theorem linkCopies_core {o₀ : State} (h key id f0 : Nat) (x : Held) (l : List Nat) (s : State)
    (hk : Kept o₀ s) : Kept o₀ (linkCopies h key id f0 x l s) := by
  induction l generalizing s with
  | nil => exact hk
  | cons p r ih =>
    unfold linkCopies
    dsimp only
    apply ih
    split
    · exact freeFrame_core _ _ _ (latchkeyDrop_core _ _ _ _ _ _ hk)
    · split
      · exact linkTail_core _ _ hk
      · exact freeFrame_core _ _ _ (countHall_core _ _ _ _ hk)

theorem storeCopies_core {o₀ : State} (h key : Nat) (x : Held) (s : State) (hk : Kept o₀ s) :
    Kept o₀ (storeCopies h key x s) := by
  unfold storeCopies
  dsimp only
  apply linkCopies_core
  rw [kept_mk, kept_fold]
  exact chargePool_core _ _ _ _ (freeFrame_core _ _ _ hk)

theorem admitMulticast_core {o₀ : State} (h : Nat) (x : Held) (s : State) (hk : Kept o₀ s) :
    Kept o₀ (admitMulticast h x s) := by
  unfold admitMulticast
  try dsimp only
  repeat' first
    | with_reducible assumption | with_reducible exact trivial | with_reducible apply some_core | with_reducible apply none_core
    | with_reducible apply somep_core | with_reducible apply nonep_core | with_reducible apply storeCopies_core
    | with_reducible apply holdFrame_core | with_reducible apply evict_core | with_reducible apply freeFrame_core
    | with_reducible apply countHall_core | simp only [kept_mk, kept_fold] | (intro _) | with_reducible rfl | split
    | with_reducible apply ite_answer_core | with_reducible apply ite_done_core | with_reducible apply ite_core
    | refine of_pair (by with_reducible assumption) ?_ | refine of_triple (by with_reducible assumption) ?_
    | refine of_some (by with_reducible assumption) ?_ | refine of_somep (by with_reducible assumption) ?_
    | refine of_next (by with_reducible assumption) ?_ | refine of_inl (by with_reducible assumption) ?_

theorem admitNow_core {o₀ : State} (h : Nat) (x : Held) (s : State) (hk : Kept o₀ s) :
    Kept o₀ (admitNow h x s) := by
  unfold admitNow
  try dsimp only
  repeat' first
    | with_reducible assumption | with_reducible exact trivial | with_reducible apply admitMulticast_core
    | with_reducible apply takeIn_core | simp only [kept_mk, kept_fold] | (intro _) | with_reducible rfl | split
    | with_reducible apply ite_answer_core | with_reducible apply ite_done_core | with_reducible apply ite_core
    | refine of_pair (by with_reducible assumption) ?_ | refine of_triple (by with_reducible assumption) ?_
    | refine of_some (by with_reducible assumption) ?_ | refine of_somep (by with_reducible assumption) ?_
    | refine of_next (by with_reducible assumption) ?_ | refine of_inl (by with_reducible assumption) ?_

theorem offer_core {o₀ : State} (h : Nat) (src : Nat) (x : Held) (s : State) (hk : Kept o₀ s) :
    Kept o₀ (offer h src x s) := by
  unfold offer
  try dsimp only
  repeat' first
    | with_reducible assumption | with_reducible exact trivial | with_reducible apply some_core | with_reducible apply none_core
    | with_reducible apply somep_core | with_reducible apply nonep_core | with_reducible apply admitNow_core
    | with_reducible apply modHall_core | simp only [kept_mk, kept_fold] | (intro _) | with_reducible rfl | split
    | with_reducible apply ite_answer_core | with_reducible apply ite_done_core | with_reducible apply ite_core
    | refine of_pair (by with_reducible assumption) ?_ | refine of_triple (by with_reducible assumption) ?_
    | refine of_some (by with_reducible assumption) ?_ | refine of_somep (by with_reducible assumption) ?_
    | refine of_next (by with_reducible assumption) ?_ | refine of_inl (by with_reducible assumption) ?_

theorem decideFrom_core {o₀ : State} (h : Nat) (src : Nat) (s : State) (hk : Kept o₀ s) :
    KeptOption o₀ (decideFrom h src s) := by
  unfold decideFrom
  try dsimp only
  repeat' first
    | with_reducible assumption | with_reducible exact trivial | with_reducible apply some_core | with_reducible apply none_core
    | with_reducible apply somep_core | with_reducible apply nonep_core | with_reducible apply admitNow_core
    | with_reducible apply modHall_core | simp only [kept_mk, kept_fold] | (intro _) | with_reducible rfl | split
    | with_reducible apply ite_answer_core | with_reducible apply ite_done_core | with_reducible apply ite_core
    | refine of_pair (by with_reducible assumption) ?_ | refine of_triple (by with_reducible assumption) ?_
    | refine of_some (by with_reducible assumption) ?_ | refine of_somep (by with_reducible assumption) ?_
    | refine of_next (by with_reducible assumption) ?_ | refine of_inl (by with_reducible assumption) ?_

theorem decideRound_core {o₀ : State} (h start : Nat) (r : Nat × State) (hk : Kept o₀ r.2) :
    Kept o₀ (decideRound h start r).2 := by
  unfold decideRound
  refine foldl_kept2 (fun a x ha => ?_) hk
  try dsimp only
  split
  · exact ha
  · split
    · rename_i h0
      exact of_some h0 (decideFrom_core _ _ _ ha)
    · exact ha

theorem withShares_core {o₀ : State} (h : Nat) (offers : List Held) (f : State → State) (s : State)
    (hf_f : ∀ x0, Kept o₀ x0 → Kept o₀ (f x0)) (hk : Kept o₀ s) :
    Kept o₀ (withShares h offers f s) := by
  unfold withShares
  try dsimp only
  repeat' first
    | with_reducible assumption | with_reducible apply hf_f | with_reducible exact trivial | with_reducible apply modHall_core
    | simp only [kept_mk, kept_fold] | (intro _) | with_reducible rfl | split | with_reducible apply ite_answer_core
    | with_reducible apply ite_done_core | with_reducible apply ite_core | refine of_pair (by with_reducible assumption) ?_
    | refine of_triple (by with_reducible assumption) ?_ | refine of_some (by with_reducible assumption) ?_
    | refine of_somep (by with_reducible assumption) ?_ | refine of_next (by with_reducible assumption) ?_
    | refine of_inl (by with_reducible assumption) ?_

theorem runCycle_core {o₀ : State} (h : Nat) (cycle : Nat) (s : State) (hk : Kept o₀ s) :
    Kept o₀ (runCycle h cycle s) := by
  unfold runCycle
  try dsimp only
  repeat' first
    | with_reducible assumption | with_reducible exact trivial | with_reducible apply withShares_core
    | with_reducible apply decideRound_core | with_reducible apply modHall_core | with_reducible apply foldl_core
    | with_reducible apply foldl_kept2 | with_reducible apply foldl_kept3 | simp only [kept_mk, kept_fold] | (intro _)
    | with_reducible rfl | split | with_reducible apply ite_answer_core | with_reducible apply ite_done_core
    | with_reducible apply ite_core | refine of_pair (by with_reducible assumption) ?_
    | refine of_triple (by with_reducible assumption) ?_ | refine of_some (by with_reducible assumption) ?_
    | refine of_somep (by with_reducible assumption) ?_ | refine of_next (by with_reducible assumption) ?_
    | refine of_inl (by with_reducible assumption) ?_

theorem runCycles_core {o₀ : State} (s : State) (hk : Kept o₀ s) :
    Kept o₀ (runCycles s) := by
  unfold runCycles
  try dsimp only
  repeat' first
    | with_reducible assumption | with_reducible exact trivial | with_reducible apply runCycle_core
    | with_reducible apply foldl_core | with_reducible apply foldl_kept2 | with_reducible apply foldl_kept3
    | simp only [kept_mk, kept_fold] | (intro _) | with_reducible rfl | split | with_reducible apply ite_answer_core
    | with_reducible apply ite_done_core | with_reducible apply ite_core | refine of_pair (by with_reducible assumption) ?_
    | refine of_triple (by with_reducible assumption) ?_ | refine of_some (by with_reducible assumption) ?_
    | refine of_somep (by with_reducible assumption) ?_ | refine of_next (by with_reducible assumption) ?_
    | refine of_inl (by with_reducible assumption) ?_

theorem arrive_core {o₀ : State} (h : Nat) (x : Held) (s : State) (hk : Kept o₀ s) :
    Kept o₀ (arrive h x s) := by
  unfold arrive
  try dsimp only
  repeat' first
    | with_reducible assumption | with_reducible exact trivial | with_reducible apply offer_core
    | with_reducible apply placeHead_core | simp only [kept_mk, kept_fold] | (intro _) | with_reducible rfl | split
    | with_reducible apply ite_answer_core | with_reducible apply ite_done_core | with_reducible apply ite_core
    | refine of_pair (by with_reducible assumption) ?_ | refine of_triple (by with_reducible assumption) ?_
    | refine of_some (by with_reducible assumption) ?_ | refine of_somep (by with_reducible assumption) ?_
    | refine of_next (by with_reducible assumption) ?_ | refine of_inl (by with_reducible assumption) ?_

theorem enqueue_core {o₀ : State} (h : Nat) (x : Held) (s : State) (hk : Kept o₀ s) :
    Kept o₀ (enqueue h x s) := by
  unfold enqueue
  try dsimp only
  repeat' first
    | with_reducible assumption | with_reducible apply arrive_core | with_reducible apply sendAcross_core | with_reducible rfl | split
    | with_reducible apply ite_core

theorem replicate_core {o₀ : State} (h : Nat) (ports : List Nat) (x : Held) (s : State) (hk : Kept o₀ s) :
    Kept o₀ (replicate h ports x s) := by
  unfold replicate
  try dsimp only
  repeat' first
    | with_reducible assumption | with_reducible exact trivial | with_reducible apply offer_core
    | with_reducible apply sendAcross_core | with_reducible apply freeFrame_core | with_reducible apply foldl_core
    | with_reducible apply foldl_kept2 | with_reducible apply foldl_kept3 | simp only [kept_mk, kept_fold] | (intro _)
    | with_reducible rfl | split | with_reducible apply ite_answer_core | with_reducible apply ite_done_core
    | with_reducible apply ite_core | refine of_pair (by with_reducible assumption) ?_
    | refine of_triple (by with_reducible assumption) ?_ | refine of_some (by with_reducible assumption) ?_
    | refine of_somep (by with_reducible assumption) ?_ | refine of_next (by with_reducible assumption) ?_
    | refine of_inl (by with_reducible assumption) ?_

theorem collLost_core {o₀ : State} (h : Nat) (x : Held) (s : State) (hk : Kept o₀ s) :
    Kept o₀ (collLost h x s) := by
  unfold collLost
  try dsimp only
  repeat' first
    | with_reducible assumption | with_reducible apply raise_core | with_reducible apply countHall_core | with_reducible rfl | split
    | with_reducible apply ite_core

theorem discardMasked_core {o₀ : State} (h : Nat) (x : Held) (s : State) (hk : Kept o₀ s) :
    Kept o₀ (discardMasked h x s) := by
  unfold discardMasked
  try dsimp only
  repeat' first
    | with_reducible assumption | with_reducible apply collLost_core | with_reducible apply freeFrame_core
    | with_reducible apply countHall_core | with_reducible rfl

theorem relook_core {o₀ : State} (h : Nat) (spilled : Bool) (x : Held) (s : State) (hk : Kept o₀ s) :
    Kept o₀ (relook h spilled x s) := by
  unfold relook
  try dsimp only
  repeat' first
    | with_reducible assumption | with_reducible exact trivial | with_reducible apply some_core | with_reducible apply none_core
    | with_reducible apply somep_core | with_reducible apply nonep_core | with_reducible apply discardMasked_core
    | with_reducible apply takeIn_core | with_reducible apply sendAcross_core | with_reducible apply linkTail_core
    | with_reducible apply latchkeyDrop_core | with_reducible apply routeStep_core | with_reducible apply freeFrame_core
    | simp only [kept_mk, kept_fold] | (intro _) | with_reducible rfl | split | with_reducible apply ite_answer_core
    | with_reducible apply ite_done_core | with_reducible apply ite_core | refine of_pair (by with_reducible assumption) ?_
    | refine of_triple (by with_reducible assumption) ?_ | refine of_some (by with_reducible assumption) ?_
    | refine of_somep (by with_reducible assumption) ?_ | refine of_next (by with_reducible assumption) ?_
    | refine of_inl (by with_reducible assumption) ?_

theorem dropHeldCopies_core {o₀ : State} (p h : Nat) (s : State) (hk : Kept o₀ s) :
    Kept o₀ (dropHeldCopies p h s) := by
  unfold dropHeldCopies
  try dsimp only
  repeat' first
    | with_reducible assumption | with_reducible apply collLost_core | with_reducible apply freeFrame_core
    | with_reducible apply countHall_core | with_reducible apply modHall_core | with_reducible apply foldl_core | (intro _)
    | with_reducible rfl | split | with_reducible apply ite_core

theorem emptyPort_core {o₀ : State} (p : Nat) (s : State) (hk : Kept o₀ s) :
    Kept o₀ (emptyPort p s) := by
  unfold emptyPort
  try dsimp only
  repeat' first
    | with_reducible assumption | with_reducible apply setQueue_core | with_reducible apply relook_core | with_reducible apply modHall_core
    | with_reducible apply routeStep_core | with_reducible apply enqueue_core | with_reducible apply discardMasked_core
    | with_reducible apply dropHeldCopies_core
    | with_reducible apply foldl_core | with_reducible apply foldl_kept2 | with_reducible apply foldl_kept3 | simp only [kept_mk, kept_fold]
    | (intro _) | with_reducible rfl | split | with_reducible apply ite_core | refine of_pair (by with_reducible assumption) ?_
    | refine of_some (by with_reducible assumption) ?_ | refine of_next (by with_reducible assumption) ?_
    | refine of_inl (by with_reducible assumption) ?_

theorem countMeter_core {o₀ : State} (scope inst : Nat) (c : Colour) (b : Nat) (s : State) (hk : Kept o₀ s) :
    Kept o₀ (countMeter scope inst c b s) := by
  unfold countMeter
  try dsimp only
  repeat' first
    | with_reducible assumption | with_reducible apply count_core | simp only [kept_mk, kept_fold] | with_reducible rfl | split
    | refine of_pair (by with_reducible assumption) ?_ | refine of_some (by with_reducible assumption) ?_
    | refine of_next (by with_reducible assumption) ?_ | refine of_inl (by with_reducible assumption) ?_

theorem meterFrame_core {o₀ : State} (x : Held) (s : State) (hk : Kept o₀ s) :
    Kept o₀ (meterFrame x s).2 := by
  unfold meterFrame
  try dsimp only
  repeat' first
    | with_reducible assumption | with_reducible exact trivial | with_reducible apply countMeter_core
    | with_reducible apply count_core | simp only [kept_mk, kept_fold] | (intro _) | with_reducible rfl | split
    | with_reducible apply ite_answer_core | with_reducible apply ite_done_core | with_reducible apply ite_core
    | refine of_pair (by with_reducible assumption) ?_ | refine of_triple (by with_reducible assumption) ?_
    | refine of_some (by with_reducible assumption) ?_ | refine of_somep (by with_reducible assumption) ?_
    | refine of_next (by with_reducible assumption) ?_ | refine of_inl (by with_reducible assumption) ?_

theorem metered_core {o₀ : State} (h : Nat) (x : Held) (s : State) (hk : Kept o₀ s) :
    Kept o₀ (metered h x s).2 := by
  unfold metered
  try dsimp only
  repeat' first
    | with_reducible assumption | with_reducible apply meterFrame_core | with_reducible apply trimFrame_core
    | with_reducible apply freeFrame_core | simp only [kept_mk, kept_fold] | (intro _) | with_reducible rfl | split
    | with_reducible apply ite_core | refine of_pair (by with_reducible assumption) ?_ | refine of_some (by with_reducible assumption) ?_
    | refine of_next (by with_reducible assumption) ?_ | refine of_inl (by with_reducible assumption) ?_

theorem originate_core {o₀ : State} (h pipe : Nat) (f : Frame) (s : State) (hk : Kept o₀ s) :
    Kept o₀ (originate h pipe f s) := by
  unfold originate
  try dsimp only
  repeat' first
    | with_reducible assumption | with_reducible apply routeStep_core | with_reducible apply enqueue_core | simp only [kept_mk, kept_fold]
    | with_reducible rfl | split | refine of_pair (by with_reducible assumption) ?_ | refine of_some (by with_reducible assumption) ?_
    | refine of_next (by with_reducible assumption) ?_ | refine of_inl (by with_reducible assumption) ?_

end Sys2Proof.Machine
end

