-- ==== Sys2Proof/Laws/KeptMaloa.lean ====
section
/-!
SUPPORT. What masking, the interpreter's steps, staging, the table commands and the store leave alone.
-/
namespace Sys2Proof.Machine

/-! ## Machine/CollBase.lean -/

theorem modCtx_core {o₀ : State} (c : Nat) (g : CtxRun → CtxRun) (s : State) (hk : Kept o₀ s) :
    Kept o₀ (modCtx c g s) := by
  unfold modCtx
  try dsimp only
  repeat' first
    | with_reducible assumption | simp only [kept_mk, kept_fold] | with_reducible rfl | split
    | refine of_pair (by with_reducible assumption) ?_ | refine of_some (by with_reducible assumption) ?_
    | refine of_next (by with_reducible assumption) ?_ | refine of_inl (by with_reducible assumption) ?_

theorem modMangle_core {o₀ : State} (m : Nat) (g : Mangle → Mangle) (s : State) (hk : Kept o₀ s) :
    Kept o₀ (modMangle m g s) := by
  unfold modMangle
  try dsimp only
  repeat' first
    | with_reducible assumption | simp only [kept_mk, kept_fold] | with_reducible rfl

theorem modChunk_core {o₀ : State} (c i : Nat) (g : Chunk → Chunk) (s : State) (hk : Kept o₀ s) :
    Kept o₀ (modChunk c i g s) := by
  unfold modChunk
  try dsimp only
  repeat' first
    | with_reducible assumption | with_reducible apply modCtx_core | simp only [kept_mk, kept_fold] | (intro _) | with_reducible rfl | split
    | refine of_pair (by with_reducible assumption) ?_ | refine of_some (by with_reducible assumption) ?_
    | refine of_next (by with_reducible assumption) ?_ | refine of_inl (by with_reducible assumption) ?_

theorem enterReserve_core {o₀ : State} (h port : Nat) (f : Frame) (s : State) (hk : Kept o₀ s) :
    Kept o₀ (enterReserve h port f s).2 := by
  unfold enterReserve
  try dsimp only
  repeat' first
    | with_reducible assumption | with_reducible apply modHall_core | simp only [kept_mk, kept_fold] | (intro _) | with_reducible rfl

theorem handOne_core {o₀ : State} (m : Nat) (port : Nat) (f : Frame) (s : State) (hk : Kept o₀ s) :
    Kept o₀ (handOne m port f s) := by
  unfold handOne
  try dsimp only
  repeat' first
    | with_reducible assumption | with_reducible exact trivial | with_reducible apply enterReserve_core
    | with_reducible apply discardMasked_core | with_reducible apply enqueue_core | simp only [kept_mk, kept_fold] | (intro _)
    | with_reducible rfl | split | with_reducible apply ite_answer_core | with_reducible apply ite_done_core
    | with_reducible apply ite_core | refine of_pair (by with_reducible assumption) ?_
    | refine of_triple (by with_reducible assumption) ?_ | refine of_some (by with_reducible assumption) ?_
    | refine of_somep (by with_reducible assumption) ?_ | refine of_next (by with_reducible assumption) ?_
    | refine of_inl (by with_reducible assumption) ?_

theorem handGroup_core {o₀ : State} (m : Nat) (f : Frame) (s : State) (hk : Kept o₀ s) :
    Kept o₀ (handGroup m f s) := by
  unfold handGroup
  try dsimp only
  repeat' first
    | with_reducible assumption | with_reducible exact trivial | with_reducible apply enterReserve_core
    | with_reducible apply replicate_core | with_reducible apply countHall_core | with_reducible apply foldl_core
    | with_reducible apply foldl_kept2 | with_reducible apply foldl_kept3 | simp only [kept_mk, kept_fold] | (intro _)
    | with_reducible rfl | split | with_reducible apply ite_answer_core | with_reducible apply ite_done_core
    | with_reducible apply ite_core | refine of_pair (by with_reducible assumption) ?_
    | refine of_triple (by with_reducible assumption) ?_ | refine of_some (by with_reducible assumption) ?_
    | refine of_somep (by with_reducible assumption) ?_ | refine of_next (by with_reducible assumption) ?_
    | refine of_inl (by with_reducible assumption) ?_

theorem pushOut_core {o₀ : State} (m : Nat) (s : State) (hk : Kept o₀ s) :
    Kept o₀ (pushOut m s) := by
  unfold pushOut
  try dsimp only
  repeat' first
    | with_reducible assumption | with_reducible exact trivial | with_reducible apply handOne_core
    | with_reducible apply modMangle_core | with_reducible apply foldl_core | with_reducible apply foldl_kept2
    | with_reducible apply foldl_kept3 | simp only [kept_mk, kept_fold] | (intro _) | with_reducible rfl | split
    | with_reducible apply ite_answer_core | with_reducible apply ite_done_core | with_reducible apply ite_core
    | refine of_pair (by with_reducible assumption) ?_ | refine of_triple (by with_reducible assumption) ?_
    | refine of_some (by with_reducible assumption) ?_ | refine of_somep (by with_reducible assumption) ?_
    | refine of_next (by with_reducible assumption) ?_ | refine of_inl (by with_reducible assumption) ?_

theorem resetChunk_core {o₀ : State} (c i cause : Nat) (s : State) (hk : Kept o₀ s) :
    Kept o₀ (resetChunk c i cause s) := by
  unfold resetChunk
  try dsimp only
  repeat' first
    | with_reducible assumption | with_reducible apply modCtx_core | with_reducible apply raiseLimited_core
    | with_reducible apply raise_core | with_reducible apply countMangle_core | simp only [kept_mk, kept_fold] | (intro _)
    | with_reducible rfl

theorem hamperLost_core {o₀ : State} (c i why : Nat) (s : State) (hk : Kept o₀ s) :
    Kept o₀ (hamperLost c i why s) := by
  unfold hamperLost
  try dsimp only
  repeat' first
    | with_reducible assumption | with_reducible apply resetChunk_core | with_reducible apply raise_core
    | with_reducible apply countMangle_core | with_reducible rfl

theorem replayEntry_core {o₀ : State} (c i : Nat) (e : Hamper) (s : State) (hk : Kept o₀ s) :
    Kept o₀ (replayEntry c i e s) := by
  unfold replayEntry
  try dsimp only
  repeat' first
    | with_reducible assumption | with_reducible apply countLines_core | with_reducible apply useTokens_core
    | with_reducible apply modMangle_core | with_reducible apply countMangle_core | with_reducible apply modCtx_core
    | with_reducible apply getD_core | simp only [kept_mk, kept_fold] | (intro _) | with_reducible rfl | split
    | with_reducible apply ite_core

theorem replay_core {o₀ : State} (c : Nat) (lost : List (Nat × Nat)) (s : State) (hk : Kept o₀ s) :
    Kept o₀ (replay c lost s) := by
  unfold replay
  try dsimp only
  repeat' first
    | with_reducible assumption | with_reducible exact trivial | with_reducible apply some_core | with_reducible apply none_core
    | with_reducible apply somep_core | with_reducible apply nonep_core | with_reducible apply replayEntry_core
    | with_reducible apply hamperLost_core | with_reducible apply pushOut_core | with_reducible apply modCtx_core
    | with_reducible apply raiseLimited_core | with_reducible apply raise_core | with_reducible apply foldl_core
    | with_reducible apply foldl_kept2 | with_reducible apply foldl_kept3 | simp only [kept_mk, kept_fold] | (intro _)
    | with_reducible rfl | split | with_reducible apply ite_answer_core | with_reducible apply ite_done_core
    | with_reducible apply ite_core | refine of_pair (by with_reducible assumption) ?_
    | refine of_triple (by with_reducible assumption) ?_ | refine of_some (by with_reducible assumption) ?_
    | refine of_somep (by with_reducible assumption) ?_ | refine of_next (by with_reducible assumption) ?_
    | refine of_inl (by with_reducible assumption) ?_

theorem replayParent_core {o₀ : State} (p : Nat) (s : State) (hk : Kept o₀ s) :
    Kept o₀ (replayParent p s) := by
  unfold replayParent
  try dsimp only
  repeat' first
    | with_reducible assumption | with_reducible apply replay_core | with_reducible apply foldl_core | with_reducible apply foldl_kept2
    | with_reducible apply foldl_kept3 | (intro _) | with_reducible rfl

/-! ## Machine/Mask.lean -/

theorem modDarn_core {o₀ : State} (g : Darn → Darn) (s : State) (hk : Kept o₀ s) :
    Kept o₀ (modDarn g s) := by
  unfold modDarn
  try dsimp only
  repeat' first
    | with_reducible assumption | simp only [kept_mk, kept_fold] | with_reducible rfl

theorem recordFault_core {o₀ : State} (cls st die object : Nat) (s : State) (hk : Kept o₀ s) :
    Kept o₀ (recordFault cls st die object s) := by
  unfold recordFault
  try dsimp only
  repeat' first
    | with_reducible assumption | with_reducible apply modDarn_core | simp only [kept_mk, kept_fold] | (intro _) | with_reducible rfl
    | split | with_reducible apply ite_core

theorem clearFault_core {o₀ : State} (cls die object : Nat) (s : State) (hk : Kept o₀ s) :
    Kept o₀ (clearFault cls die object s) := by
  unfold clearFault
  try dsimp only
  repeat' first
    | with_reducible assumption | with_reducible apply modDarn_core | simp only [kept_mk, kept_fold] | (intro _) | with_reducible rfl
    | split | with_reducible apply ite_core

theorem modDarnPort_core {o₀ : State} (p : Nat) (g : DarnPort → DarnPort) (s : State) (hk : Kept o₀ s) :
    Kept o₀ (modDarnPort p g s) := by
  unfold modDarnPort
  try dsimp only
  repeat' first
    | with_reducible assumption | with_reducible apply modDarn_core | simp only [kept_mk, kept_fold] | (intro _) | with_reducible rfl

theorem sendOwn_core {o₀ : State} (p vc : Nat) (f : Frame) (s : State) (hk : Kept o₀ s) :
    Kept o₀ (sendOwn p vc f s) := by
  unfold sendOwn
  try dsimp only
  repeat' first
    | with_reducible assumption | with_reducible apply linkTail_core | simp only [kept_mk, kept_fold] | with_reducible rfl

theorem sendDarning_core {o₀ : State} (triggered : Bool) (s : State) (p : Nat) (hk : Kept o₀ s) :
    Kept o₀ (sendDarning triggered s p) := by
  unfold sendDarning
  try dsimp only
  repeat' first
    | with_reducible assumption | with_reducible apply modDarnPort_core | with_reducible apply countPort_core
    | with_reducible apply sendOwn_core | simp only [kept_mk, kept_fold] | (intro _) | with_reducible rfl | split
    | with_reducible apply ite_core

theorem advertise_core {o₀ : State} (s : State) (hk : Kept o₀ s) :
    Kept o₀ (advertise s) := by
  unfold advertise
  try dsimp only
  repeat' first
    | with_reducible assumption | with_reducible apply sendDarning_core | with_reducible apply modDarn_core
    | with_reducible apply foldl_core | with_reducible apply foldl_kept2 | with_reducible apply foldl_kept3 | simp only [kept_mk, kept_fold]
    | (intro _) | with_reducible rfl | split | with_reducible apply ite_core

theorem resetRounds_core {o₀ : State} (p : Nat) (s : State) (hk : Kept o₀ s) :
    Kept o₀ (resetRounds p s) := by
  unfold resetRounds
  try dsimp only
  repeat' first
    | with_reducible assumption | simp only [kept_mk, kept_fold] | (intro _) | with_reducible rfl

theorem roundsAfter_core {o₀ : State} (p : Nat) (before : Bool) (s : State) (hk : Kept o₀ s) :
    Kept o₀ (roundsAfter p before s) := by
  unfold roundsAfter
  try dsimp only
  repeat' first
    | with_reducible assumption | with_reducible exact trivial | with_reducible apply resetRounds_core
    | simp only [kept_mk, kept_fold] | (intro _) | with_reducible rfl | split | with_reducible apply ite_answer_core
    | with_reducible apply ite_done_core | with_reducible apply ite_core | refine of_pair (by with_reducible assumption) ?_
    | refine of_triple (by with_reducible assumption) ?_ | refine of_some (by with_reducible assumption) ?_
    | refine of_somep (by with_reducible assumption) ?_ | refine of_next (by with_reducible assumption) ?_
    | refine of_inl (by with_reducible assumption) ?_

theorem clearMask_core {o₀ : State} (p : Nat) (cause : Nat) (s : State) (hk : Kept o₀ s) :
    Kept o₀ (clearMask p cause s) := by
  unfold clearMask
  try dsimp only
  repeat' first
    | with_reducible assumption | with_reducible exact trivial | with_reducible apply some_core | with_reducible apply none_core
    | with_reducible apply somep_core | with_reducible apply nonep_core | with_reducible apply roundsAfter_core
    | with_reducible apply modDarnPort_core | with_reducible apply modDarn_core | with_reducible apply emptyPort_core
    | with_reducible apply raiseLimited_core | with_reducible apply raise_core | with_reducible apply countPort_core
    | simp only [kept_mk, kept_fold] | (intro _) | with_reducible rfl | split | with_reducible apply ite_answer_core
    | with_reducible apply ite_done_core | with_reducible apply ite_core | refine of_pair (by with_reducible assumption) ?_
    | refine of_triple (by with_reducible assumption) ?_ | refine of_some (by with_reducible assumption) ?_
    | refine of_somep (by with_reducible assumption) ?_ | refine of_next (by with_reducible assumption) ?_
    | refine of_inl (by with_reducible assumption) ?_

theorem setMask_core {o₀ : State} (p : Nat) (s : State) (hk : Kept o₀ s) :
    Kept o₀ (setMask p s) := by
  unfold setMask
  try dsimp only
  repeat' first
    | with_reducible assumption | with_reducible exact trivial | with_reducible apply some_core | with_reducible apply none_core
    | with_reducible apply somep_core | with_reducible apply nonep_core | with_reducible apply roundsAfter_core
    | with_reducible apply modDarnPort_core | with_reducible apply modDarn_core | with_reducible apply replayParent_core
    | with_reducible apply raiseLimited_core | with_reducible apply raise_core | simp only [kept_mk, kept_fold] | (intro _)
    | with_reducible rfl | split | with_reducible apply ite_answer_core | with_reducible apply ite_done_core
    | with_reducible apply ite_core | refine of_pair (by with_reducible assumption) ?_
    | refine of_triple (by with_reducible assumption) ?_ | refine of_some (by with_reducible assumption) ?_
    | refine of_somep (by with_reducible assumption) ?_ | refine of_next (by with_reducible assumption) ?_
    | refine of_inl (by with_reducible assumption) ?_

theorem judgePort_core {o₀ : State} (now : Bool) (p : Nat) (s : State) (hk : Kept o₀ s) :
    Kept o₀ (judgePort now p s) := by
  unfold judgePort
  try dsimp only
  repeat' first
    | with_reducible assumption | with_reducible exact trivial | with_reducible apply some_core | with_reducible apply none_core
    | with_reducible apply somep_core | with_reducible apply nonep_core | with_reducible apply setMask_core
    | with_reducible apply clearMask_core | with_reducible apply modDarnPort_core | simp only [kept_mk, kept_fold] | (intro _)
    | with_reducible rfl | split | with_reducible apply ite_answer_core | with_reducible apply ite_done_core
    | with_reducible apply ite_core | refine of_pair (by with_reducible assumption) ?_
    | refine of_triple (by with_reducible assumption) ?_ | refine of_some (by with_reducible assumption) ?_
    | refine of_somep (by with_reducible assumption) ?_ | refine of_next (by with_reducible assumption) ?_
    | refine of_inl (by with_reducible assumption) ?_

theorem judgeAll_core {o₀ : State} (now : Bool) (s : State) (hk : Kept o₀ s) :
    Kept o₀ (judgeAll now s) := by
  unfold judgeAll
  try dsimp only
  repeat' first
    | with_reducible assumption | with_reducible apply advertise_core | with_reducible apply judgePort_core
    | with_reducible apply foldl_core | with_reducible apply foldl_kept2 | with_reducible apply foldl_kept3 | (intro _) | with_reducible rfl

theorem setPartState_core {o₀ : State} (new cause : Nat) (s : State) (hk : Kept o₀ s) :
    Kept o₀ (setPartState new cause s) := by
  unfold setPartState
  try dsimp only
  repeat' first
    | with_reducible assumption | with_reducible apply judgeAll_core | with_reducible apply raiseLead_core
    | with_reducible apply modDarn_core | simp only [kept_mk, kept_fold] | (intro _) | with_reducible rfl | split
    | with_reducible apply ite_core

theorem setPortState_core {o₀ : State} (p : Nat) (new : PortState) (s : State) (hk : Kept o₀ s) :
    Kept o₀ (setPortState p new s) := by
  unfold setPortState
  try dsimp only
  repeat' first
    | with_reducible assumption | with_reducible exact trivial | with_reducible apply judgePort_core
    | with_reducible apply roundsAfter_core | with_reducible apply advertise_core | with_reducible apply modPort_core
    | simp only [kept_mk, kept_fold] | (intro _) | with_reducible rfl | split | with_reducible apply ite_answer_core
    | with_reducible apply ite_done_core | with_reducible apply ite_core | refine of_pair (by with_reducible assumption) ?_
    | refine of_triple (by with_reducible assumption) ?_ | refine of_some (by with_reducible assumption) ?_
    | refine of_somep (by with_reducible assumption) ?_ | refine of_next (by with_reducible assumption) ?_
    | refine of_inl (by with_reducible assumption) ?_

/-! ## Machine/Maloa.lean -/

theorem countCommand_core {o₀ : State} (opcode priv route status : Nat) (s : State) (hk : Kept o₀ s) :
    Kept o₀ (countCommand opcode priv route status s) := by
  unfold countCommand
  try dsimp only
  repeat' first
    | with_reducible assumption | with_reducible apply countFilter_core | (intro _) | with_reducible rfl

theorem writeSlot_core {o₀ : State} (r : ReplySeg) (s : State) (hk : Kept o₀ s) :
    Kept o₀ (writeSlot r s) := by
  unfold writeSlot
  try dsimp only
  repeat' first
    | with_reducible assumption | with_reducible apply emit_core | simp only [kept_mk, kept_fold] | with_reducible rfl | split
    | with_reducible apply ite_core

theorem dropRingWait_core {o₀ : State} (tag : Nat) (s : State) (hk : Kept o₀ s) :
    Kept o₀ (dropRingWait tag s) := by
  unfold dropRingWait
  try dsimp only
  repeat' first
    | with_reducible assumption | simp only [kept_mk, kept_fold] | (intro _) | with_reducible rfl

theorem queueSlot_core {o₀ : State} (r : ReplySeg) (s : State) (hk : Kept o₀ s) :
    Kept o₀ (queueSlot r s) := by
  unfold queueSlot
  try dsimp only
  repeat' first
    | with_reducible assumption | with_reducible exact trivial | simp only [kept_mk, kept_fold] | (intro _) | with_reducible rfl
    | split | with_reducible apply ite_answer_core | with_reducible apply ite_done_core | with_reducible apply ite_core
    | refine of_pair (by with_reducible assumption) ?_ | refine of_triple (by with_reducible assumption) ?_
    | refine of_some (by with_reducible assumption) ?_ | refine of_somep (by with_reducible assumption) ?_
    | refine of_next (by with_reducible assumption) ?_ | refine of_inl (by with_reducible assumption) ?_

theorem routeSegment_core {o₀ : State} (r : ReplySeg) (s : State) (hk : Kept o₀ s) :
    Kept o₀ (routeSegment r s) := by
  unfold routeSegment
  try dsimp only
  repeat' first
    | with_reducible assumption | with_reducible apply queueSlot_core | with_reducible apply originate_core | with_reducible apply emit_core
    | with_reducible rfl | split | refine of_pair (by with_reducible assumption) ?_ | refine of_some (by with_reducible assumption) ?_
    | refine of_next (by with_reducible assumption) ?_ | refine of_inl (by with_reducible assumption) ?_

theorem cacheReply_core {o₀ : State} (c : CachedReply) (src : Source) (s : State) (hk : Kept o₀ s) :
    Kept o₀ (cacheReply c src s) := by
  unfold cacheReply
  try dsimp only
  repeat' first
    | with_reducible assumption | simp only [kept_mk, kept_fold] | (intro _) | with_reducible rfl | split | with_reducible apply ite_core

theorem sendReply_core {o₀ : State} (r : ReplySeg) (crc : Nat) (priv : Nat) (s : State) (hk : Kept o₀ s) :
    Kept o₀ (sendReply r crc priv s) := by
  unfold sendReply
  try dsimp only
  repeat' first
    | with_reducible assumption | with_reducible exact trivial | with_reducible apply ok_core | with_reducible apply refuse_core
    | with_reducible apply reply_core | with_reducible apply wait_core | with_reducible apply cacheReply_core
    | with_reducible apply routeSegment_core | with_reducible apply countCommand_core | with_reducible apply foldl_core
    | with_reducible apply foldl_kept2 | with_reducible apply foldl_kept3 | simp only [kept_mk, kept_fold] | (intro _)
    | with_reducible rfl | split | with_reducible apply ite_answer_core | with_reducible apply ite_done_core
    | with_reducible apply ite_core | refine of_pair (by with_reducible assumption) ?_
    | refine of_triple (by with_reducible assumption) ?_ | refine of_some (by with_reducible assumption) ?_
    | refine of_somep (by with_reducible assumption) ?_ | refine of_next (by with_reducible assumption) ?_
    | refine of_inl (by with_reducible assumption) ?_

theorem setTxn_core {o₀ : State} (t : Txn) (s : State) (hk : Kept o₀ s) :
    Kept o₀ (setTxn t s) := by
  unfold setTxn
  try dsimp only
  repeat' first
    | with_reducible assumption | simp only [kept_mk, kept_fold] | (intro _) | with_reducible rfl | split | with_reducible apply ite_core

theorem nameTxn_core {o₀ : State} (h : Nat) (s : State) (hk : Kept o₀ s) :
    Kept o₀ (nameTxn h s) := by
  unfold nameTxn
  try dsimp only
  repeat' first
    | with_reducible assumption | with_reducible apply setTxn_core | simp only [kept_mk, kept_fold] | with_reducible rfl | split
    | refine of_pair (by with_reducible assumption) ?_ | refine of_some (by with_reducible assumption) ?_
    | refine of_next (by with_reducible assumption) ?_ | refine of_inl (by with_reducible assumption) ?_

theorem Done.ok_core {o₀ : State} (payload : Bytes) (s : State) (hk : Kept o₀ s) :
    KeptDone o₀ (Done.ok payload s) := by
  unfold Done.ok
  try dsimp only
  repeat' first
    | with_reducible assumption | with_reducible apply reply_core | with_reducible rfl

theorem Done.refuse_core {o₀ : State} (r : Refuse) (s : State) (hk : Kept o₀ s) :
    KeptDone o₀ (Done.refuse r s) := by
  unfold Done.refuse
  try dsimp only
  repeat' first
    | with_reducible assumption | with_reducible apply reply_core | with_reducible rfl

theorem withChecks_core {o₀ : State} (cs : List (Bool × Refuse)) (s : State) (k : State → Done)
    (hf_k : ∀ x0, Kept o₀ x0 → KeptDone o₀ (k x0))
    (hk : Kept o₀ s) :
    KeptDone o₀ (withChecks cs s k) := by
  unfold withChecks; split
  · exact hk
  · exact hf_k _ hk

theorem arrivePacket_core {o₀ : State} (src : Source) (ingress : Nat) (latchkey : Nat) (packet : Bytes) (s : State)
    (hk : Kept o₀ s) :
    Kept o₀ (arrivePacket src ingress latchkey packet s) := by
  unfold arrivePacket
  try dsimp only
  repeat' first
    | with_reducible assumption | with_reducible exact trivial | simp only [kept_mk, kept_fold] | (intro _) | with_reducible rfl
    | split | with_reducible apply ite_answer_core | with_reducible apply ite_done_core | with_reducible apply ite_core
    | refine of_pair (by with_reducible assumption) ?_ | refine of_triple (by with_reducible assumption) ?_
    | refine of_some (by with_reducible assumption) ?_ | refine of_somep (by with_reducible assumption) ?_
    | refine of_next (by with_reducible assumption) ?_ | refine of_inl (by with_reducible assumption) ?_

theorem takeArrival_core {o₀ : State} (src : Source) (mine : Bytes → Bool) (s : State) (hk : Kept o₀ s) :
    Kept o₀ (takeArrival src mine s) := by
  unfold takeArrival
  try dsimp only
  repeat' first
    | with_reducible assumption | with_reducible apply getD_core | simp only [kept_mk, kept_fold] | with_reducible rfl

theorem discardRequest_core {o₀ : State} (route cause : Nat) (s : State) (hk : Kept o₀ s) :
    Kept o₀ (discardRequest route cause s) := by
  unfold discardRequest
  try dsimp only
  repeat' first
    | with_reducible assumption | with_reducible apply raiseLimited_core | with_reducible apply raiseLead_core
    | with_reducible apply countRoute_core | (intro _) | with_reducible rfl

theorem sendAgain_core {o₀ : State} (c : CachedReply) (q : Request) (s : State) (hk : Kept o₀ s) :
    Kept o₀ (sendAgain c q s) := by
  unfold sendAgain
  try dsimp only
  repeat' first
    | with_reducible assumption | with_reducible exact trivial | with_reducible apply ok_core | with_reducible apply refuse_core
    | with_reducible apply reply_core | with_reducible apply wait_core | with_reducible apply routeSegment_core
    | with_reducible apply countRoute_core | simp only [kept_mk, kept_fold] | (intro _) | with_reducible rfl | split
    | with_reducible apply ite_answer_core | with_reducible apply ite_done_core | with_reducible apply ite_core
    | refine of_pair (by with_reducible assumption) ?_ | refine of_triple (by with_reducible assumption) ?_
    | refine of_some (by with_reducible assumption) ?_ | refine of_somep (by with_reducible assumption) ?_
    | refine of_next (by with_reducible assumption) ?_ | refine of_inl (by with_reducible assumption) ?_

theorem refuseEarly_core {o₀ : State} (op : Nat) (q : Request) (r : Refuse) (s : State) (hk : Kept o₀ s) :
    Kept o₀ (refuseEarly op q r s) := by
  unfold refuseEarly
  try dsimp only
  repeat' first
    | with_reducible assumption | with_reducible exact trivial | with_reducible apply sendReply_core
    | simp only [kept_mk, kept_fold] | (intro _) | with_reducible rfl | split | with_reducible apply ite_answer_core
    | with_reducible apply ite_done_core | with_reducible apply ite_core | refine of_pair (by with_reducible assumption) ?_
    | refine of_triple (by with_reducible assumption) ?_ | refine of_some (by with_reducible assumption) ?_
    | refine of_somep (by with_reducible assumption) ?_ | refine of_next (by with_reducible assumption) ?_
    | refine of_inl (by with_reducible assumption) ?_

theorem refuseRequest_core {o₀ : State} (op : Nat) (q : Request) (r : Refuse) (priv : Nat) (s : State) (hk : Kept o₀ s) :
    Kept o₀ (refuseRequest op q r priv s) := by
  unfold refuseRequest
  try dsimp only
  repeat' first
    | with_reducible assumption | with_reducible apply sendReply_core | simp only [kept_mk, kept_fold] | with_reducible rfl

theorem trackSource_core {o₀ : State} (src : Source) (tag : Nat) (s : State) (hk : Kept o₀ s) :
    Kept o₀ (trackSource src tag s) := by
  unfold trackSource
  try dsimp only
  repeat' first
    | with_reducible assumption | simp only [kept_mk, kept_fold] | (intro _) | with_reducible rfl | split | with_reducible apply ite_core

theorem finish_core {o₀ : State} (op : OpSpec) (q : Request) (c : Caller) (since : Nat) (d : Done) (hk : KeptDone o₀ d) :
    Kept o₀ (finish op q c since d) := by
  unfold finish
  split
  · exact sendReply_core _ _ _ _ hk
  · rw [kept_mk]; exact hk

theorem runCommand_core {o₀ : State} (op : OpSpec) (i : Instr) (q : Request) (inBlock : State → Nat → Bool) (body : Caller → State → Done)
    (s : State) (hf_body : ∀ x0 x1, Kept o₀ x1 → KeptDone o₀ (body x0 x1)) (hk : Kept o₀ s) :
    KeptAnswer o₀ (runCommand op i q inBlock body s) := by
  have run : ∀ c since s, Kept o₀ s → KeptAnswer o₀ (.next (finish op q c since (body c (nameTxn q.txn s)))) :=
    fun c since s h => finish_core _ _ _ _ _ (hf_body _ _ (nameTxn_core _ _ h))
  unfold runCommand
  dsimp only
  split
  · split
    · exact refuseRequest_core _ _ _ _ _ hk
    · exact run _ _ _ hk
  · have hk := takeArrival_core q.src (fun b => u16 b 2 = q.tag) _ hk
    split
    · exact hk
    · split
      · exact discardRequest_core _ _ _ hk
      · split
        · exact sendAgain_core _ _ _ hk
        · split
          · exact refuseEarly_core _ _ _ _ hk
          · have hk := trackSource_core q.src q.tag _ hk
            split
            · exact refuseRequest_core _ _ _ _ _ hk
            · split
              · exact refuseRequest_core _ _ _ _ _ hk
              · split
                · exact hk
                · exact run _ _ _ hk

theorem answerLater_core {o₀ : State} (o : Outstanding) (status : Nat) (reason : Nat) (info : Nat) (payload : Bytes) (s : State)
    (hk : Kept o₀ s) :
    Kept o₀ (answerLater o status reason info payload s) := by
  unfold answerLater
  try dsimp only
  repeat' first
    | with_reducible assumption | with_reducible exact trivial | with_reducible apply sendReply_core
    | simp only [kept_mk, kept_fold] | (intro _) | with_reducible rfl | split | with_reducible apply ite_answer_core
    | with_reducible apply ite_done_core | with_reducible apply ite_core | refine of_pair (by with_reducible assumption) ?_
    | refine of_triple (by with_reducible assumption) ?_ | refine of_some (by with_reducible assumption) ?_
    | refine of_somep (by with_reducible assumption) ?_ | refine of_next (by with_reducible assumption) ?_
    | refine of_inl (by with_reducible assumption) ?_

theorem complete_core {o₀ : State} (w : Wait) (status reason info : Nat) (payload : Bytes) (s : State) (hk : Kept o₀ s) :
    Kept o₀ (complete w status reason info payload s) := by
  unfold complete
  try dsimp only
  repeat' first
    | with_reducible assumption | with_reducible apply answerLater_core | with_reducible apply foldl_core | with_reducible apply foldl_kept2
    | with_reducible apply foldl_kept3 | simp only [kept_mk, kept_fold] | (intro _) | with_reducible rfl

theorem readyHeld_core {o₀ : State} (s : State) (hk : Kept o₀ s) :
    KeptPair o₀ (readyHeld s) := by
  unfold readyHeld
  try dsimp only
  repeat' first
    | with_reducible assumption | with_reducible exact trivial | with_reducible apply some_core | with_reducible apply none_core
    | with_reducible apply somep_core | with_reducible apply nonep_core | simp only [kept_mk, kept_fold] | (intro _)
    | with_reducible rfl | split | with_reducible apply ite_answer_core | with_reducible apply ite_done_core
    | with_reducible apply ite_core | refine of_pair (by with_reducible assumption) ?_
    | refine of_triple (by with_reducible assumption) ?_ | refine of_some (by with_reducible assumption) ?_
    | refine of_somep (by with_reducible assumption) ?_ | refine of_next (by with_reducible assumption) ?_
    | refine of_inl (by with_reducible assumption) ?_

/-! ## Machine/Staging.lean -/

theorem stage_core {o₀ : State} (q : Request) (off : Nat) (items : List Item) (s : State) (hk : Kept o₀ s) :
    KeptSum o₀ (stage q off items s) := by
  unfold stage
  try dsimp only
  repeat' first
    | with_reducible assumption | with_reducible apply inl_core | with_reducible apply inr_core | with_reducible apply setTxn_core
    | with_reducible apply foldl_core | with_reducible apply foldl_kept2 | with_reducible apply foldl_kept3 | simp only [kept_mk, kept_fold]
    | (intro _) | with_reducible rfl | split | with_reducible apply ite_core | refine of_pair (by with_reducible assumption) ?_
    | refine of_some (by with_reducible assumption) ?_ | refine of_next (by with_reducible assumption) ?_
    | refine of_inl (by with_reducible assumption) ?_

theorem stageDone_core {o₀ : State} (q : Request) (off : Nat) (items : List Item) (payload : Bytes) (s : State) (hk : Kept o₀ s) :
    KeptDone o₀ (stageDone q off items payload s) := by
  unfold stageDone
  try dsimp only
  repeat' first
    | with_reducible assumption | with_reducible apply ok_core | with_reducible apply refuse_core | with_reducible apply stage_core
    | with_reducible rfl | split | refine of_pair (by with_reducible assumption) ?_ | refine of_some (by with_reducible assumption) ?_
    | refine of_next (by with_reducible assumption) ?_ | refine of_inl (by with_reducible assumption) ?_

/-! ## Machine/Tables.lean -/

theorem execRouteWriteRange_core {o₀ : State} (q : Request) (s : State) (hk : Kept o₀ s) :
    KeptAnswer o₀ (execRouteWriteRange q s) := by
  unfold execRouteWriteRange
  try dsimp only
  repeat' first
    | with_reducible assumption | with_reducible apply next_core | with_reducible apply refused_core | with_reducible apply runCommand_core
    | with_reducible apply withChecks_core | with_reducible apply stageDone_core | simp only [kept_mk, kept_fold] | (intro _)
    | with_reducible rfl | split | with_reducible apply ite_answer_core | with_reducible apply ite_core

theorem execPathsetWrite_core {o₀ : State} (q : Request) (s : State) (hk : Kept o₀ s) :
    KeptAnswer o₀ (execPathsetWrite q s) := by
  unfold execPathsetWrite
  try dsimp only
  repeat' first
    | with_reducible assumption | with_reducible exact trivial | with_reducible apply ok_core | with_reducible apply refuse_core
    | with_reducible apply reply_core | with_reducible apply wait_core | with_reducible apply some_core
    | with_reducible apply none_core | with_reducible apply somep_core | with_reducible apply nonep_core
    | with_reducible apply stageDone_core | with_reducible apply runCommand_core | with_reducible apply withChecks_core
    | simp only [kept_mk, kept_fold] | (intro _) | with_reducible rfl | split | with_reducible apply ite_answer_core
    | with_reducible apply ite_done_core | with_reducible apply ite_core | refine of_pair (by with_reducible assumption) ?_
    | refine of_triple (by with_reducible assumption) ?_ | refine of_some (by with_reducible assumption) ?_
    | refine of_somep (by with_reducible assumption) ?_ | refine of_next (by with_reducible assumption) ?_
    | refine of_inl (by with_reducible assumption) ?_

theorem execMcastWrite_core {o₀ : State} (q : Request) (s : State) (hk : Kept o₀ s) :
    KeptAnswer o₀ (execMcastWrite q s) := by
  unfold execMcastWrite
  try dsimp only
  repeat' first
    | with_reducible assumption | with_reducible apply next_core | with_reducible apply refused_core | with_reducible apply runCommand_core
    | with_reducible apply stageDone_core | simp only [kept_mk, kept_fold] | (intro _) | with_reducible rfl

theorem execFlowletConfig_core {o₀ : State} (q : Request) (s : State) (hk : Kept o₀ s) :
    KeptAnswer o₀ (execFlowletConfig q s) := by
  unfold execFlowletConfig
  try dsimp only
  repeat' first
    | with_reducible assumption | with_reducible apply next_core | with_reducible apply refused_core | with_reducible apply runCommand_core
    | with_reducible apply withChecks_core | with_reducible apply stageDone_core | simp only [kept_mk, kept_fold] | (intro _)
    | with_reducible rfl

theorem execStairConfig_core {o₀ : State} (q : Request) (s : State) (hk : Kept o₀ s) :
    KeptAnswer o₀ (execStairConfig q s) := by
  unfold execStairConfig
  try dsimp only
  repeat' first
    | with_reducible assumption | with_reducible apply next_core | with_reducible apply refused_core | with_reducible apply refuse_core
    | with_reducible apply runCommand_core | with_reducible apply stageDone_core | simp only [kept_mk, kept_fold] | (intro _)
    | with_reducible rfl | split | refine of_pair (by with_reducible assumption) ?_ | refine of_some (by with_reducible assumption) ?_
    | refine of_next (by with_reducible assumption) ?_ | refine of_inl (by with_reducible assumption) ?_

theorem execChuteRead_core {o₀ : State} (q : Request) (s : State) (hk : Kept o₀ s) :
    KeptAnswer o₀ (execChuteRead q s) := by
  unfold execChuteRead
  try dsimp only
  repeat' first
    | with_reducible assumption | with_reducible apply next_core | with_reducible apply refused_core | with_reducible apply ok_core
    | with_reducible apply runCommand_core | with_reducible apply withChecks_core | (intro _) | with_reducible rfl

theorem execFlowletSweep_core {o₀ : State} (s : State) (hk : Kept o₀ s) :
    KeptAnswer o₀ (execFlowletSweep s) := by
  unfold execFlowletSweep
  try dsimp only
  repeat' first
    | with_reducible assumption | with_reducible exact trivial | with_reducible apply next_core | with_reducible apply refused_core
    | simp only [kept_mk, kept_fold] | (intro _) | with_reducible rfl | split | with_reducible apply ite_answer_core
    | with_reducible apply ite_done_core | with_reducible apply ite_core | refine of_pair (by with_reducible assumption) ?_
    | refine of_triple (by with_reducible assumption) ?_ | refine of_some (by with_reducible assumption) ?_
    | refine of_somep (by with_reducible assumption) ?_ | refine of_next (by with_reducible assumption) ?_
    | refine of_inl (by with_reducible assumption) ?_

theorem dropFlowlets_core {o₀ : State} (s : State) (hk : Kept o₀ s) :
    Kept o₀ (dropFlowlets s) := by
  unfold dropFlowlets
  try dsimp only
  repeat' first
    | with_reducible assumption | with_reducible exact trivial | simp only [kept_mk, kept_fold] | (intro _) | with_reducible rfl
    | split | with_reducible apply ite_answer_core | with_reducible apply ite_done_core | with_reducible apply ite_core
    | refine of_pair (by with_reducible assumption) ?_ | refine of_triple (by with_reducible assumption) ?_
    | refine of_some (by with_reducible assumption) ?_ | refine of_somep (by with_reducible assumption) ?_
    | refine of_next (by with_reducible assumption) ?_ | refine of_inl (by with_reducible assumption) ?_

theorem execQueueLoadPublish_core {o₀ : State} (s : State) (hk : Kept o₀ s) :
    KeptAnswer o₀ (execQueueLoadPublish s) := by
  unfold execQueueLoadPublish
  try dsimp only
  repeat' first
    | with_reducible assumption | with_reducible apply next_core | with_reducible apply refused_core | simp only [kept_mk, kept_fold]
    | (intro _) | with_reducible rfl

theorem repairEntry_core {o₀ : State} (code : Nat) (hall : Nat) (index : Nat) (shadowOk : Bool) (repairNs : Nat) (s : State)
    (hk : Kept o₀ s) :
    Kept o₀ (repairEntry code hall index shadowOk repairNs s) := by
  unfold repairEntry
  try dsimp only
  repeat' first
    | with_reducible assumption | with_reducible exact trivial | with_reducible apply clearFault_core
    | with_reducible apply recordFault_core | with_reducible apply raise_core | simp only [kept_mk, kept_fold] | (intro _)
    | with_reducible rfl | split | with_reducible apply ite_answer_core | with_reducible apply ite_done_core
    | with_reducible apply ite_core | refine of_pair (by with_reducible assumption) ?_
    | refine of_triple (by with_reducible assumption) ?_ | refine of_some (by with_reducible assumption) ?_
    | refine of_somep (by with_reducible assumption) ?_ | refine of_next (by with_reducible assumption) ?_
    | refine of_inl (by with_reducible assumption) ?_

theorem execChuteRepair_core {o₀ : State} (hall : Nat) (shadowOk : Bool) (repairNs : Nat) (s : State) (hk : Kept o₀ s) :
    KeptAnswer o₀ (execChuteRepair hall shadowOk repairNs s) := by
  unfold execChuteRepair
  try dsimp only
  repeat' first
    | with_reducible assumption | with_reducible exact trivial | with_reducible apply next_core | with_reducible apply refused_core
    | with_reducible apply some_core | with_reducible apply none_core | with_reducible apply somep_core
    | with_reducible apply nonep_core | with_reducible apply repairEntry_core | with_reducible apply setChute_core
    | with_reducible apply guard_core | with_reducible apply raise_core | simp only [kept_mk, kept_fold] | (intro _)
    | with_reducible rfl | split | with_reducible apply ite_answer_core | with_reducible apply ite_done_core
    | with_reducible apply ite_core | refine of_pair (by with_reducible assumption) ?_
    | refine of_triple (by with_reducible assumption) ?_ | refine of_some (by with_reducible assumption) ?_
    | refine of_somep (by with_reducible assumption) ?_ | refine of_next (by with_reducible assumption) ?_
    | refine of_inl (by with_reducible assumption) ?_

theorem readLive_core {o₀ : State} (h pipe table i : Nat) (s : State) (hk : Kept o₀ s) :
    Kept o₀ (readLive h pipe table i s).2 := by
  unfold readLive
  try dsimp only
  repeat' first
    | with_reducible assumption | with_reducible apply draw_core | with_reducible apply foldl_core | with_reducible apply foldl_kept2
    | with_reducible apply foldl_kept3 | (intro _) | with_reducible rfl | split | with_reducible apply ite_core

theorem clearAge_core {o₀ : State} (h : Nat) (i : Nat) (s : State) (hk : Kept o₀ s) :
    Kept o₀ (clearAge h i s) := by
  unfold clearAge
  try dsimp only
  repeat' first
    | with_reducible assumption | with_reducible exact trivial | with_reducible apply some_core | with_reducible apply none_core
    | with_reducible apply somep_core | with_reducible apply nonep_core | simp only [kept_mk, kept_fold] | (intro _)
    | with_reducible rfl | split | with_reducible apply ite_answer_core | with_reducible apply ite_done_core
    | with_reducible apply ite_core | refine of_pair (by with_reducible assumption) ?_
    | refine of_triple (by with_reducible assumption) ?_ | refine of_some (by with_reducible assumption) ?_
    | refine of_somep (by with_reducible assumption) ?_ | refine of_next (by with_reducible assumption) ?_
    | refine of_inl (by with_reducible assumption) ?_

theorem resumeBlock_core {o₀ : State} (key : Nat) (s : State) (hk : Kept o₀ s) :
    Kept o₀ (resumeBlock key s) := by
  unfold resumeBlock
  try dsimp only
  repeat' first
    | with_reducible assumption | with_reducible exact trivial | with_reducible apply some_core | with_reducible apply none_core
    | with_reducible apply somep_core | with_reducible apply nonep_core | with_reducible apply complete_core
    | with_reducible apply modCtx_core | with_reducible apply modBlock_core | with_reducible apply raiseLead_core
    | with_reducible apply foldl_core | with_reducible apply foldl_kept2 | with_reducible apply foldl_kept3
    | simp only [kept_mk, kept_fold] | (intro _) | with_reducible rfl | split | with_reducible apply ite_answer_core
    | with_reducible apply ite_done_core | with_reducible apply ite_core | refine of_pair (by with_reducible assumption) ?_
    | refine of_triple (by with_reducible assumption) ?_ | refine of_some (by with_reducible assumption) ?_
    | refine of_somep (by with_reducible assumption) ?_ | refine of_next (by with_reducible assumption) ?_
    | refine of_inl (by with_reducible assumption) ?_

theorem releaseResumes_core {o₀ : State} (s : State) (hk : Kept o₀ s) :
    Kept o₀ (releaseResumes s) := by
  unfold releaseResumes
  try dsimp only
  repeat' first
    | with_reducible assumption | with_reducible apply complete_core | with_reducible apply resumeBlock_core
    | with_reducible apply foldl_core | with_reducible apply foldl_kept2 | with_reducible apply foldl_kept3 | (intro _) | with_reducible rfl
    | split | with_reducible apply ite_core

theorem loseStaged_core {o₀ : State} (t : Txn) (k : ItemKey) (s : State) (hk : Kept o₀ s) :
    Kept o₀ (loseStaged t k s) := by
  unfold loseStaged
  try dsimp only
  repeat' first
    | with_reducible assumption | with_reducible exact trivial | with_reducible apply releaseResumes_core
    | with_reducible apply complete_core | with_reducible apply setTxn_core | simp only [kept_mk, kept_fold] | (intro _)
    | with_reducible rfl | split | with_reducible apply ite_answer_core | with_reducible apply ite_done_core
    | with_reducible apply ite_core | refine of_pair (by with_reducible assumption) ?_
    | refine of_triple (by with_reducible assumption) ?_ | refine of_some (by with_reducible assumption) ?_
    | refine of_somep (by with_reducible assumption) ?_ | refine of_next (by with_reducible assumption) ?_
    | refine of_inl (by with_reducible assumption) ?_

theorem readShadow_core {o₀ : State} (h : Nat) (k : ItemKey) (parityBad : Bool) (s : State) (hk : Kept o₀ s) :
    Kept o₀ (readShadow h k parityBad s).2 := by
  unfold readShadow
  try dsimp only
  repeat' first
    | with_reducible assumption | with_reducible exact trivial | with_reducible apply some_core | with_reducible apply none_core
    | with_reducible apply somep_core | with_reducible apply nonep_core | with_reducible apply loseStaged_core
    | with_reducible apply raiseLead_core | with_reducible apply count_core | simp only [kept_mk, kept_fold] | (intro _)
    | with_reducible rfl | split | with_reducible apply ite_answer_core | with_reducible apply ite_done_core
    | with_reducible apply ite_core | refine of_pair (by with_reducible assumption) ?_
    | refine of_triple (by with_reducible assumption) ?_ | refine of_some (by with_reducible assumption) ?_
    | refine of_somep (by with_reducible assumption) ?_ | refine of_next (by with_reducible assumption) ?_
    | refine of_inl (by with_reducible assumption) ?_

theorem engineWrite_core {o₀ : State} (q : Request) (off : Nat) (at' : Nat) (table : Nat) (i : Nat) (ws : List Nat) (s : State)
    (hk : Kept o₀ s) :
    Kept o₀ (engineWrite q off at' table i ws s).2 := by
  unfold engineWrite
  try dsimp only
  repeat' first
    | with_reducible assumption | with_reducible exact trivial | with_reducible apply ok_core | with_reducible apply refuse_core
    | with_reducible apply reply_core | with_reducible apply wait_core | with_reducible apply inl_core
    | with_reducible apply inr_core | with_reducible apply stage_core | simp only [kept_mk, kept_fold] | (intro _)
    | with_reducible rfl | split | with_reducible apply ite_answer_core | with_reducible apply ite_done_core
    | with_reducible apply ite_core | refine of_pair (by with_reducible assumption) ?_
    | refine of_triple (by with_reducible assumption) ?_ | refine of_some (by with_reducible assumption) ?_
    | refine of_somep (by with_reducible assumption) ?_ | refine of_next (by with_reducible assumption) ?_
    | refine of_inl (by with_reducible assumption) ?_

theorem engineCompareWrite_core {o₀ : State} (q : Request) (off : Nat) (at' : Nat) (table : Nat) (i : Nat) (bad : Bool)
    (cmp : List Nat) (ws : List Nat) (s : State) (hk : Kept o₀ s) :
    Kept o₀ (engineCompareWrite q off at' table i bad cmp ws s).2 := by
  unfold engineCompareWrite
  try dsimp only
  repeat' first
    | with_reducible assumption | with_reducible exact trivial | with_reducible apply ok_core | with_reducible apply refuse_core
    | with_reducible apply reply_core | with_reducible apply wait_core | with_reducible apply some_core
    | with_reducible apply none_core | with_reducible apply somep_core | with_reducible apply nonep_core
    | with_reducible apply engineWrite_core | with_reducible apply readShadow_core | simp only [kept_mk, kept_fold] | (intro _)
    | with_reducible rfl | split | with_reducible apply ite_answer_core | with_reducible apply ite_done_core
    | with_reducible apply ite_core | refine of_pair (by with_reducible assumption) ?_
    | refine of_triple (by with_reducible assumption) ?_ | refine of_some (by with_reducible assumption) ?_
    | refine of_somep (by with_reducible assumption) ?_ | refine of_next (by with_reducible assumption) ?_
    | refine of_inl (by with_reducible assumption) ?_

theorem execTableRead_core {o₀ : State} (q : Request) (bad : List Nat) (s : State) (hk : Kept o₀ s) :
    KeptAnswer o₀ (execTableRead q bad s) := by
  unfold execTableRead
  try dsimp only
  repeat' first
    | with_reducible assumption | with_reducible apply next_core | with_reducible apply refused_core | with_reducible apply ok_core
    | with_reducible apply refuse_core | with_reducible apply runCommand_core | with_reducible apply withChecks_core
    | with_reducible apply readLive_core | with_reducible apply readShadow_core | with_reducible apply foldl_core
    | with_reducible apply foldl_kept2 | with_reducible apply foldl_kept3 | simp only [kept_mk, kept_fold] | (intro _) | with_reducible rfl
    | split | with_reducible apply ite_answer_core | with_reducible apply ite_done_core | with_reducible apply ite_core
    | refine of_pair (by with_reducible assumption) ?_ | refine of_some (by with_reducible assumption) ?_
    | refine of_next (by with_reducible assumption) ?_ | refine of_inl (by with_reducible assumption) ?_

theorem execTableWrite_core {o₀ : State} (q : Request) (s : State) (hk : Kept o₀ s) :
    KeptAnswer o₀ (execTableWrite q s) := by
  unfold execTableWrite
  try dsimp only
  repeat' first
    | with_reducible assumption | with_reducible exact trivial | with_reducible apply ok_core | with_reducible apply refuse_core
    | with_reducible apply reply_core | with_reducible apply wait_core | with_reducible apply engineWrite_core
    | with_reducible apply runCommand_core | with_reducible apply withChecks_core | simp only [kept_mk, kept_fold] | (intro _)
    | with_reducible rfl | split | with_reducible apply ite_answer_core | with_reducible apply ite_done_core
    | with_reducible apply ite_core | refine of_pair (by with_reducible assumption) ?_
    | refine of_triple (by with_reducible assumption) ?_ | refine of_some (by with_reducible assumption) ?_
    | refine of_somep (by with_reducible assumption) ?_ | refine of_next (by with_reducible assumption) ?_
    | refine of_inl (by with_reducible assumption) ?_

theorem execTableCompareWrite_core {o₀ : State} (q : Request) (parityBad : Bool) (s : State) (hk : Kept o₀ s) :
    KeptAnswer o₀ (execTableCompareWrite q parityBad s) := by
  unfold execTableCompareWrite
  try dsimp only
  repeat' first
    | with_reducible assumption | with_reducible exact trivial | with_reducible apply ok_core | with_reducible apply refuse_core
    | with_reducible apply reply_core | with_reducible apply wait_core | with_reducible apply engineCompareWrite_core
    | with_reducible apply runCommand_core | with_reducible apply withChecks_core | simp only [kept_mk, kept_fold] | (intro _)
    | with_reducible rfl | split | with_reducible apply ite_answer_core | with_reducible apply ite_done_core
    | with_reducible apply ite_core | refine of_pair (by with_reducible assumption) ?_
    | refine of_triple (by with_reducible assumption) ?_ | refine of_some (by with_reducible assumption) ?_
    | refine of_somep (by with_reducible assumption) ?_ | refine of_next (by with_reducible assumption) ?_
    | refine of_inl (by with_reducible assumption) ?_

theorem execTableClearAge_core {o₀ : State} (q : Request) (s : State) (hk : Kept o₀ s) :
    KeptAnswer o₀ (execTableClearAge q s) := by
  unfold execTableClearAge
  try dsimp only
  repeat' first
    | with_reducible assumption | with_reducible apply next_core | with_reducible apply refused_core | with_reducible apply ok_core
    | with_reducible apply runCommand_core | with_reducible apply withChecks_core | with_reducible apply clearAge_core | (intro _)
    | with_reducible rfl

theorem modTce_core {o₀ : State} (g : Tce → Tce) (s : State) (hk : Kept o₀ s) :
    Kept o₀ (modTce g s) := by
  unfold modTce
  try dsimp only
  repeat' first
    | with_reducible assumption | simp only [kept_mk, kept_fold] | with_reducible rfl

theorem tceStart_core {o₀ : State} (ctrl : Nat) (f : State → EngineEnd × State) (s : State) (hf_f : ∀ x0, Kept o₀ x0 → Kept o₀ (f x0).2)
    (hk : Kept o₀ s) :
    KeptAnswer o₀ (tceStart ctrl f s) := by
  unfold tceStart
  try dsimp only
  repeat' first
    | with_reducible assumption | with_reducible apply next_core | with_reducible apply refused_core | with_reducible apply refuse_core
    | with_reducible apply hf_f | with_reducible apply bar0Write_core | with_reducible apply modTce_core | simp only [kept_mk, kept_fold]
    | (intro _) | with_reducible rfl | split | with_reducible apply ite_answer_core | with_reducible apply ite_done_core
    | with_reducible apply ite_core | refine of_pair (by with_reducible assumption) ?_ | refine of_some (by with_reducible assumption) ?_
    | refine of_next (by with_reducible assumption) ?_ | refine of_inl (by with_reducible assumption) ?_

theorem tceChecked_core {o₀ : State} (cs : List (Bool × Refuse)) (k : State → EngineEnd × State) (s : State)
    (hf_k : ∀ x0, Kept o₀ x0 → Kept o₀ (k x0).2)
    (hk : Kept o₀ s) :
    Kept o₀ (tceChecked cs k s).2 := by
  unfold tceChecked
  try dsimp only
  repeat' first
    | with_reducible assumption | with_reducible apply hf_k | simp only [kept_mk, kept_fold] | (intro _) | with_reducible rfl | split
    | refine of_pair (by with_reducible assumption) ?_ | refine of_some (by with_reducible assumption) ?_
    | refine of_next (by with_reducible assumption) ?_ | refine of_inl (by with_reducible assumption) ?_

theorem execTceRead_core {o₀ : State} (ctrl : Nat) (parityBad : Bool) (s : State) (hk : Kept o₀ s) :
    KeptAnswer o₀ (execTceRead ctrl parityBad s) := by
  unfold execTceRead
  try dsimp only
  repeat' first
    | with_reducible assumption | with_reducible apply next_core | with_reducible apply refused_core | with_reducible apply tceStart_core
    | with_reducible apply tceChecked_core | with_reducible apply readLive_core | with_reducible apply readShadow_core
    | simp only [kept_mk, kept_fold] | (intro _) | with_reducible rfl | split | with_reducible apply ite_answer_core
    | with_reducible apply ite_core | refine of_pair (by with_reducible assumption) ?_ | refine of_some (by with_reducible assumption) ?_
    | refine of_next (by with_reducible assumption) ?_ | refine of_inl (by with_reducible assumption) ?_

theorem execTceWrite_core {o₀ : State} (ctrl : Nat) (s : State) (hk : Kept o₀ s) :
    KeptAnswer o₀ (execTceWrite ctrl s) := by
  unfold execTceWrite
  try dsimp only
  repeat' first
    | with_reducible assumption | with_reducible exact trivial | with_reducible apply ok_core | with_reducible apply refuse_core
    | with_reducible apply reply_core | with_reducible apply wait_core | with_reducible apply some_core
    | with_reducible apply none_core | with_reducible apply somep_core | with_reducible apply nonep_core
    | with_reducible apply tceChecked_core | with_reducible apply tceStart_core | with_reducible apply engineWrite_core
    | simp only [kept_mk, kept_fold] | (intro _) | with_reducible rfl | split | with_reducible apply ite_answer_core
    | with_reducible apply ite_done_core | with_reducible apply ite_core | refine of_pair (by with_reducible assumption) ?_
    | refine of_triple (by with_reducible assumption) ?_ | refine of_some (by with_reducible assumption) ?_
    | refine of_somep (by with_reducible assumption) ?_ | refine of_next (by with_reducible assumption) ?_
    | refine of_inl (by with_reducible assumption) ?_

theorem execTceCompareWrite_core {o₀ : State} (ctrl : Nat) (parityBad : Bool) (s : State) (hk : Kept o₀ s) :
    KeptAnswer o₀ (execTceCompareWrite ctrl parityBad s) := by
  unfold execTceCompareWrite
  try dsimp only
  repeat' first
    | with_reducible assumption | with_reducible exact trivial | with_reducible apply ok_core | with_reducible apply refuse_core
    | with_reducible apply reply_core | with_reducible apply wait_core | with_reducible apply some_core
    | with_reducible apply none_core | with_reducible apply somep_core | with_reducible apply nonep_core
    | with_reducible apply tceChecked_core | with_reducible apply tceStart_core | with_reducible apply engineCompareWrite_core
    | simp only [kept_mk, kept_fold] | (intro _) | with_reducible rfl | split | with_reducible apply ite_answer_core
    | with_reducible apply ite_done_core | with_reducible apply ite_core | refine of_pair (by with_reducible assumption) ?_
    | refine of_triple (by with_reducible assumption) ?_ | refine of_some (by with_reducible assumption) ?_
    | refine of_somep (by with_reducible assumption) ?_ | refine of_next (by with_reducible assumption) ?_
    | refine of_inl (by with_reducible assumption) ?_

theorem execTceClearAge_core {o₀ : State} (ctrl : Nat) (s : State) (hk : Kept o₀ s) :
    KeptAnswer o₀ (execTceClearAge ctrl s) := by
  unfold execTceClearAge
  try dsimp only
  repeat' first
    | with_reducible assumption | with_reducible apply next_core | with_reducible apply refused_core | with_reducible apply tceStart_core
    | with_reducible apply tceChecked_core | with_reducible apply clearAge_core | simp only [kept_mk, kept_fold] | (intro _)
    | with_reducible rfl

theorem execTceOperationDone_core {o₀ : State} (s : State) (hk : Kept o₀ s) :
    KeptAnswer o₀ (execTceOperationDone s) := by
  unfold execTceOperationDone
  try dsimp only
  repeat' first
    | with_reducible assumption | with_reducible apply next_core | with_reducible apply refused_core | with_reducible apply modTce_core
    | simp only [kept_mk, kept_fold] | (intro _) | with_reducible rfl | split | refine of_pair (by with_reducible assumption) ?_
    | refine of_some (by with_reducible assumption) ?_ | refine of_next (by with_reducible assumption) ?_
    | refine of_inl (by with_reducible assumption) ?_

theorem closeTxn_core {o₀ : State} (h : Nat) (s : State) (hk : Kept o₀ s) :
    Kept o₀ (closeTxn h s) := by
  unfold closeTxn
  try dsimp only
  repeat' first
    | with_reducible assumption | simp only [kept_mk, kept_fold] | (intro _) | with_reducible rfl

theorem rollBack_core {o₀ : State} (t : Txn) (cause : Nat) (s : State) (hk : Kept o₀ s) :
    Kept o₀ (rollBack t cause s) := by
  unfold rollBack
  try dsimp only
  repeat' first
    | with_reducible assumption | with_reducible apply raiseLead_core | with_reducible apply closeTxn_core | with_reducible rfl

theorem execTxnBegin_core {o₀ : State} (q : Request) (s : State) (hk : Kept o₀ s) :
    KeptAnswer o₀ (execTxnBegin q s) := by
  unfold execTxnBegin
  try dsimp only
  repeat' first
    | with_reducible assumption | with_reducible apply next_core | with_reducible apply refused_core | with_reducible apply ok_core
    | with_reducible apply runCommand_core | with_reducible apply withChecks_core | simp only [kept_mk, kept_fold] | (intro _)
    | with_reducible rfl | split | with_reducible apply ite_answer_core | with_reducible apply ite_done_core | with_reducible apply ite_core

theorem execTxnRollback_core {o₀ : State} (q : Request) (s : State) (hk : Kept o₀ s) :
    KeptAnswer o₀ (execTxnRollback q s) := by
  unfold execTxnRollback
  try dsimp only
  repeat' first
    | with_reducible assumption | with_reducible apply next_core | with_reducible apply refused_core | with_reducible apply ok_core
    | with_reducible apply refuse_core | with_reducible apply runCommand_core | with_reducible apply rollBack_core
    | simp only [kept_mk, kept_fold] | (intro _) | with_reducible rfl | split | with_reducible apply ite_answer_core
    | with_reducible apply ite_done_core | with_reducible apply ite_core | refine of_pair (by with_reducible assumption) ?_
    | refine of_some (by with_reducible assumption) ?_ | refine of_next (by with_reducible assumption) ?_
    | refine of_inl (by with_reducible assumption) ?_

theorem execTxnStatus_core {o₀ : State} (q : Request) (s : State) (hk : Kept o₀ s) :
    KeptAnswer o₀ (execTxnStatus q s) := by
  unfold execTxnStatus
  try dsimp only
  repeat' first
    | with_reducible assumption | with_reducible apply next_core | with_reducible apply refused_core | with_reducible apply ok_core
    | with_reducible apply refuse_core | with_reducible apply runCommand_core | simp only [kept_mk, kept_fold] | (intro _)
    | with_reducible rfl | split | with_reducible apply ite_answer_core | with_reducible apply ite_done_core | with_reducible apply ite_core
    | refine of_pair (by with_reducible assumption) ?_ | refine of_some (by with_reducible assumption) ?_
    | refine of_next (by with_reducible assumption) ?_ | refine of_inl (by with_reducible assumption) ?_

theorem execTxnIdleTimeout_core {o₀ : State} (handle : Nat) (s : State) (hk : Kept o₀ s) :
    KeptAnswer o₀ (execTxnIdleTimeout handle s) := by
  unfold execTxnIdleTimeout
  try dsimp only
  repeat' first
    | with_reducible assumption | with_reducible exact trivial | with_reducible apply next_core | with_reducible apply refused_core
    | with_reducible apply some_core | with_reducible apply none_core | with_reducible apply somep_core
    | with_reducible apply nonep_core | with_reducible apply rollBack_core | simp only [kept_mk, kept_fold] | (intro _)
    | with_reducible rfl | split | with_reducible apply ite_answer_core | with_reducible apply ite_done_core
    | with_reducible apply ite_core | refine of_pair (by with_reducible assumption) ?_
    | refine of_triple (by with_reducible assumption) ?_ | refine of_some (by with_reducible assumption) ?_
    | refine of_somep (by with_reducible assumption) ?_ | refine of_next (by with_reducible assumption) ?_
    | refine of_inl (by with_reducible assumption) ?_

/-! ## Machine/Store.lean -/

theorem modNv_core {o₀ : State} (g : Nv → Nv) (s : State) (hk : Kept o₀ s) :
    Kept o₀ (modNv g s) := by
  unfold modNv
  try dsimp only
  repeat' first
    | with_reducible assumption | simp only [kept_mk, kept_fold] | with_reducible rfl

theorem modDev_core {o₀ : State} (d : Nat) (g : NvDevice → NvDevice) (s : State) (hk : Kept o₀ s) :
    Kept o₀ (modDev d g s) := by
  unfold modDev
  try dsimp only
  repeat' first
    | with_reducible assumption | with_reducible apply modNv_core | simp only [kept_mk, kept_fold] | (intro _) | with_reducible rfl

theorem setDeviceState_core {o₀ : State} (d new : Nat) (s : State) (hk : Kept o₀ s) :
    Kept o₀ (setDeviceState d new s) := by
  unfold setDeviceState
  try dsimp only
  repeat' first
    | with_reducible assumption | with_reducible apply modDev_core | with_reducible apply raiseLead_core | simp only [kept_mk, kept_fold]
    | (intro _) | with_reducible rfl | split | with_reducible apply ite_core

theorem countNv_core {o₀ : State} (d idx n : Nat) (s : State) (hk : Kept o₀ s) :
    Kept o₀ (countNv d idx n s) := by
  unfold countNv
  try dsimp only
  repeat' first
    | with_reducible assumption | with_reducible apply count_core | with_reducible rfl

theorem anchorWrite_core {o₀ : State} (s : State) (hk : Kept o₀ s) :
    Kept o₀ (anchorWrite s) := by
  unfold anchorWrite
  try dsimp only
  repeat' first
    | with_reducible assumption | with_reducible exact trivial | with_reducible apply countNv_core
    | with_reducible apply modDev_core | with_reducible apply foldl_core | with_reducible apply foldl_kept2
    | with_reducible apply foldl_kept3 | simp only [kept_mk, kept_fold] | (intro _) | with_reducible rfl | split
    | with_reducible apply ite_answer_core | with_reducible apply ite_done_core | with_reducible apply ite_core
    | refine of_pair (by with_reducible assumption) ?_ | refine of_triple (by with_reducible assumption) ?_
    | refine of_some (by with_reducible assumption) ?_ | refine of_somep (by with_reducible assumption) ?_
    | refine of_next (by with_reducible assumption) ?_ | refine of_inl (by with_reducible assumption) ?_

theorem rollBackHeld_core {o₀ : State} (token : Nat) (s : State) (hk : Kept o₀ s) :
    Kept o₀ (rollBackHeld token s) := by
  unfold rollBackHeld
  try dsimp only
  repeat' first
    | with_reducible assumption | with_reducible apply rollBack_core | with_reducible apply foldl_core | with_reducible apply foldl_kept2
    | with_reducible apply foldl_kept3 | (intro _) | with_reducible rfl

theorem applyLive_core {o₀ : State} (e : NvEffect) (s : State) (hk : Kept o₀ s) :
    Kept o₀ (applyLive e s) := by
  unfold applyLive
  try dsimp only
  repeat' first
    | with_reducible assumption | with_reducible apply rollBackHeld_core | with_reducible apply raiseLead_core
    | with_reducible apply modBlock_core | with_reducible apply getD_core | simp only [kept_mk, kept_fold] | (intro _) | with_reducible rfl
    | split | with_reducible apply ite_core | refine of_pair (by with_reducible assumption) ?_
    | refine of_some (by with_reducible assumption) ?_ | refine of_next (by with_reducible assumption) ?_
    | refine of_inl (by with_reducible assumption) ?_

theorem cacheSnapshot_core {o₀ : State} (d : Nat) (s : State) (hk : Kept o₀ s) :
    Kept o₀ (cacheSnapshot d s) := by
  unfold cacheSnapshot
  try dsimp only
  repeat' first
    | with_reducible assumption | with_reducible exact trivial | simp only [kept_mk, kept_fold] | (intro _) | with_reducible rfl
    | split | with_reducible apply ite_answer_core | with_reducible apply ite_done_core | with_reducible apply ite_core
    | refine of_pair (by with_reducible assumption) ?_ | refine of_triple (by with_reducible assumption) ?_
    | refine of_some (by with_reducible assumption) ?_ | refine of_somep (by with_reducible assumption) ?_
    | refine of_next (by with_reducible assumption) ?_ | refine of_inl (by with_reducible assumption) ?_

theorem dropCached_core {o₀ : State} (d : Nat) (s : State) (hk : Kept o₀ s) :
    Kept o₀ (dropCached d s) := by
  unfold dropCached
  try dsimp only
  repeat' first
    | with_reducible assumption | with_reducible exact trivial | simp only [kept_mk, kept_fold] | (intro _) | with_reducible rfl
    | split | with_reducible apply ite_answer_core | with_reducible apply ite_done_core | with_reducible apply ite_core
    | refine of_pair (by with_reducible assumption) ?_ | refine of_triple (by with_reducible assumption) ?_
    | refine of_some (by with_reducible assumption) ?_ | refine of_somep (by with_reducible assumption) ?_
    | refine of_next (by with_reducible assumption) ?_ | refine of_inl (by with_reducible assumption) ?_

theorem applyStored_core {o₀ : State} (e : NvEffect) (s : State) (hk : Kept o₀ s) :
    Kept o₀ (applyStored e s) := by
  unfold applyStored
  try dsimp only
  repeat' first
    | with_reducible assumption | with_reducible exact trivial | with_reducible apply some_core | with_reducible apply none_core
    | with_reducible apply somep_core | with_reducible apply nonep_core | with_reducible apply dropCached_core
    | with_reducible apply cacheSnapshot_core | with_reducible apply modNv_core | with_reducible apply raiseLead_core
    | with_reducible apply getD_core | with_reducible apply foldl_core | with_reducible apply foldl_kept2
    | with_reducible apply foldl_kept3 | simp only [kept_mk, kept_fold] | (intro _) | with_reducible rfl | split
    | with_reducible apply ite_answer_core | with_reducible apply ite_done_core | with_reducible apply ite_core
    | refine of_pair (by with_reducible assumption) ?_ | refine of_triple (by with_reducible assumption) ?_
    | refine of_some (by with_reducible assumption) ?_ | refine of_somep (by with_reducible assumption) ?_
    | refine of_next (by with_reducible assumption) ?_ | refine of_inl (by with_reducible assumption) ?_

theorem nvQueue_core {o₀ : State} (t : NvTxn) (s : State) (hk : Kept o₀ s) :
    Kept o₀ (nvQueue t s) := by
  unfold nvQueue
  try dsimp only
  repeat' first
    | with_reducible assumption | with_reducible apply modNv_core | simp only [kept_mk, kept_fold] | (intro _) | with_reducible rfl

theorem storeThen_core {o₀ : State} (t : NvTxn) (s : State) (hk : Kept o₀ s) :
    KeptDone o₀ (storeThen t s) := by
  unfold storeThen
  try dsimp only
  repeat' first
    | with_reducible assumption | with_reducible apply refuse_core | with_reducible apply wait_core | with_reducible apply nvQueue_core
    | simp only [kept_mk, kept_fold] | with_reducible rfl | split | with_reducible apply ite_done_core | with_reducible apply ite_core

theorem storeOrApply_core {o₀ : State} (e : NvEffect) (s : State) (hk : Kept o₀ s) :
    KeptDone o₀ (storeOrApply e s) := by
  unfold storeOrApply
  try dsimp only
  repeat' first
    | with_reducible assumption | with_reducible apply reply_core | with_reducible apply wait_core | with_reducible apply nvQueue_core
    | with_reducible apply applyLive_core | simp only [kept_mk, kept_fold] | with_reducible rfl | split | with_reducible apply ite_done_core
    | with_reducible apply ite_core

theorem checkpoint_core {o₀ : State} (s : State) (hk : Kept o₀ s) :
    Kept o₀ (checkpoint s) := by
  unfold checkpoint
  try dsimp only
  repeat' first
    | with_reducible assumption | with_reducible exact trivial | with_reducible apply anchorWrite_core
    | with_reducible apply modNv_core | simp only [kept_mk, kept_fold] | (intro _) | with_reducible rfl | split
    | with_reducible apply ite_answer_core | with_reducible apply ite_done_core | with_reducible apply ite_core
    | refine of_pair (by with_reducible assumption) ?_ | refine of_triple (by with_reducible assumption) ?_
    | refine of_some (by with_reducible assumption) ?_ | refine of_somep (by with_reducible assumption) ?_
    | refine of_next (by with_reducible assumption) ?_ | refine of_inl (by with_reducible assumption) ?_

theorem commitPages_core {o₀ : State} (e : NvEffect) (s : State) (hk : Kept o₀ s) :
    Kept o₀ (commitPages e s) := by
  unfold commitPages
  try dsimp only
  repeat' first
    | with_reducible assumption | with_reducible exact trivial | with_reducible apply checkpoint_core
    | with_reducible apply countNv_core | with_reducible apply modDev_core | with_reducible apply foldl_core
    | with_reducible apply foldl_kept2 | with_reducible apply foldl_kept3 | simp only [kept_mk, kept_fold] | (intro _)
    | with_reducible rfl | split | with_reducible apply ite_answer_core | with_reducible apply ite_done_core
    | with_reducible apply ite_core | refine of_pair (by with_reducible assumption) ?_
    | refine of_triple (by with_reducible assumption) ?_ | refine of_some (by with_reducible assumption) ?_
    | refine of_somep (by with_reducible assumption) ?_ | refine of_next (by with_reducible assumption) ?_
    | refine of_inl (by with_reducible assumption) ?_

theorem judgeWear_core {o₀ : State} (d : Nat) (s : State) (hk : Kept o₀ s) :
    Kept o₀ (judgeWear d s) := by
  unfold judgeWear
  try dsimp only
  repeat' first
    | with_reducible assumption | with_reducible exact trivial | with_reducible apply setDeviceState_core
    | simp only [kept_mk, kept_fold] | (intro _) | with_reducible rfl | split | with_reducible apply ite_answer_core
    | with_reducible apply ite_done_core | with_reducible apply ite_core | refine of_pair (by with_reducible assumption) ?_
    | refine of_triple (by with_reducible assumption) ?_ | refine of_some (by with_reducible assumption) ?_
    | refine of_somep (by with_reducible assumption) ?_ | refine of_next (by with_reducible assumption) ?_
    | refine of_inl (by with_reducible assumption) ?_

theorem retireBlock_core {o₀ : State} (d : Nat) (block : Nat) (why : Nat) (s : State) (hk : Kept o₀ s) :
    Kept o₀ (retireBlock d block why s) := by
  unfold retireBlock
  try dsimp only
  repeat' first
    | with_reducible assumption | with_reducible exact trivial | with_reducible apply judgeWear_core
    | with_reducible apply anchorWrite_core | with_reducible apply modDev_core | with_reducible apply raiseLead_core
    | simp only [kept_mk, kept_fold] | (intro _) | with_reducible rfl | split | with_reducible apply ite_answer_core
    | with_reducible apply ite_done_core | with_reducible apply ite_core | refine of_pair (by with_reducible assumption) ?_
    | refine of_triple (by with_reducible assumption) ?_ | refine of_some (by with_reducible assumption) ?_
    | refine of_somep (by with_reducible assumption) ?_ | refine of_next (by with_reducible assumption) ?_
    | refine of_inl (by with_reducible assumption) ?_

theorem opFailed_core {o₀ : State} (d : Nat) (s : State) (hk : Kept o₀ s) :
    Kept o₀ (opFailed d s) := by
  unfold opFailed
  try dsimp only
  repeat' first
    | with_reducible assumption | with_reducible exact trivial | with_reducible apply setDeviceState_core
    | with_reducible apply modDev_core | simp only [kept_mk, kept_fold] | (intro _) | with_reducible rfl | split
    | with_reducible apply ite_answer_core | with_reducible apply ite_done_core | with_reducible apply ite_core
    | refine of_pair (by with_reducible assumption) ?_ | refine of_triple (by with_reducible assumption) ?_
    | refine of_some (by with_reducible assumption) ?_ | refine of_somep (by with_reducible assumption) ?_
    | refine of_next (by with_reducible assumption) ?_ | refine of_inl (by with_reducible assumption) ?_

theorem execNvTransactionCommit_core {o₀ : State} (failed : List (Nat × Nat × Bool)) (s : State) (hk : Kept o₀ s) :
    KeptAnswer o₀ (execNvTransactionCommit failed s) := by
  unfold execNvTransactionCommit
  try dsimp only
  repeat' first
    | with_reducible assumption | with_reducible exact trivial | with_reducible apply next_core | with_reducible apply refused_core
    | with_reducible apply opFailed_core | with_reducible apply retireBlock_core | with_reducible apply commitPages_core
    | with_reducible apply applyStored_core | with_reducible apply applyLive_core | with_reducible apply modNv_core
    | with_reducible apply complete_core | with_reducible apply raiseLead_core | with_reducible apply foldl_core
    | with_reducible apply foldl_kept2 | with_reducible apply foldl_kept3 | simp only [kept_mk, kept_fold] | (intro _)
    | with_reducible rfl | split | with_reducible apply ite_answer_core | with_reducible apply ite_done_core
    | with_reducible apply ite_core | refine of_pair (by with_reducible assumption) ?_
    | refine of_triple (by with_reducible assumption) ?_ | refine of_some (by with_reducible assumption) ?_
    | refine of_somep (by with_reducible assumption) ?_ | refine of_next (by with_reducible assumption) ?_
    | refine of_inl (by with_reducible assumption) ?_

theorem noteRead_core {o₀ : State} (d : Nat) (pages : Nat) (r : NandRead) (s : State) (hk : Kept o₀ s) :
    Kept o₀ (noteRead d pages r s) := by
  unfold noteRead
  try dsimp only
  repeat' first
    | with_reducible assumption | with_reducible exact trivial | with_reducible apply opFailed_core
    | with_reducible apply countNv_core | with_reducible apply modDev_core | simp only [kept_mk, kept_fold] | (intro _)
    | with_reducible rfl | split | with_reducible apply ite_answer_core | with_reducible apply ite_done_core
    | with_reducible apply ite_core | refine of_pair (by with_reducible assumption) ?_
    | refine of_triple (by with_reducible assumption) ?_ | refine of_some (by with_reducible assumption) ?_
    | refine of_somep (by with_reducible assumption) ?_ | refine of_next (by with_reducible assumption) ?_
    | refine of_inl (by with_reducible assumption) ?_

theorem readPages_core {o₀ : State} (d : Nat) (region : Nat) (pages : Nat) (obs : NvReadObs) (s : State) (hk : Kept o₀ s) :
    Kept o₀ (readPages d region pages obs s) := by
  unfold readPages
  try dsimp only
  repeat' first
    | with_reducible assumption | with_reducible exact trivial | with_reducible apply noteRead_core
    | with_reducible apply retireBlock_core | with_reducible apply countNv_core | with_reducible apply raiseLimited_core
    | with_reducible apply raiseLead_core | simp only [kept_mk, kept_fold] | (intro _) | with_reducible rfl | split
    | with_reducible apply ite_answer_core | with_reducible apply ite_done_core | with_reducible apply ite_core
    | refine of_pair (by with_reducible assumption) ?_ | refine of_triple (by with_reducible assumption) ?_
    | refine of_some (by with_reducible assumption) ?_ | refine of_somep (by with_reducible assumption) ?_
    | refine of_next (by with_reducible assumption) ?_ | refine of_inl (by with_reducible assumption) ?_

theorem nvReadEffects_core {o₀ : State} (region : Nat) (bytes : Nat) (obs : NvReadObs) (s : State) (hk : Kept o₀ s) :
    Kept o₀ (nvReadEffects region bytes obs s) := by
  unfold nvReadEffects
  try dsimp only
  repeat' first
    | with_reducible assumption | with_reducible exact trivial | with_reducible apply readPages_core
    | simp only [kept_mk, kept_fold] | (intro _) | with_reducible rfl | split | with_reducible apply ite_answer_core
    | with_reducible apply ite_done_core | with_reducible apply ite_core | refine of_pair (by with_reducible assumption) ?_
    | refine of_triple (by with_reducible assumption) ?_ | refine of_some (by with_reducible assumption) ?_
    | refine of_somep (by with_reducible assumption) ?_ | refine of_next (by with_reducible assumption) ?_
    | refine of_inl (by with_reducible assumption) ?_

theorem startScrub_core {o₀ : State} (fast : Bool) (s : State) (hk : Kept o₀ s) :
    Kept o₀ (startScrub fast s) := by
  unfold startScrub
  try dsimp only
  repeat' first
    | with_reducible assumption | with_reducible apply modNv_core | simp only [kept_mk, kept_fold] | (intro _) | with_reducible rfl

theorem execNvScrubBlock_core {o₀ : State} (device : Nat) (region : Nat) (obs : NvReadObs) (s : State) (hk : Kept o₀ s) :
    KeptAnswer o₀ (execNvScrubBlock device region obs s) := by
  unfold execNvScrubBlock
  try dsimp only
  repeat' first
    | with_reducible assumption | with_reducible exact trivial | with_reducible apply next_core | with_reducible apply refused_core
    | with_reducible apply some_core | with_reducible apply none_core | with_reducible apply somep_core
    | with_reducible apply nonep_core | with_reducible apply startScrub_core | with_reducible apply readPages_core
    | with_reducible apply retireBlock_core | with_reducible apply countNv_core | with_reducible apply modDev_core
    | with_reducible apply modNv_core | with_reducible apply raiseLead_core | simp only [kept_mk, kept_fold] | (intro _)
    | with_reducible rfl | split | with_reducible apply ite_answer_core | with_reducible apply ite_done_core
    | with_reducible apply ite_core | refine of_pair (by with_reducible assumption) ?_
    | refine of_triple (by with_reducible assumption) ?_ | refine of_some (by with_reducible assumption) ?_
    | refine of_somep (by with_reducible assumption) ?_ | refine of_next (by with_reducible assumption) ?_
    | refine of_inl (by with_reducible assumption) ?_

theorem execNvWearLevel_core {o₀ : State} (device : Nat) (newMin : Nat) (s : State) (hk : Kept o₀ s) :
    KeptAnswer o₀ (execNvWearLevel device newMin s) := by
  unfold execNvWearLevel
  try dsimp only
  repeat' first
    | with_reducible assumption | with_reducible exact trivial | with_reducible apply next_core | with_reducible apply refused_core
    | with_reducible apply some_core | with_reducible apply none_core | with_reducible apply somep_core
    | with_reducible apply nonep_core | with_reducible apply countNv_core | with_reducible apply modDev_core
    | simp only [kept_mk, kept_fold] | (intro _) | with_reducible rfl | split | with_reducible apply ite_answer_core
    | with_reducible apply ite_done_core | with_reducible apply ite_core | refine of_pair (by with_reducible assumption) ?_
    | refine of_triple (by with_reducible assumption) ?_ | refine of_some (by with_reducible assumption) ?_
    | refine of_somep (by with_reducible assumption) ?_ | refine of_next (by with_reducible assumption) ?_
    | refine of_inl (by with_reducible assumption) ?_

theorem execNvResyncDone_core {o₀ : State} (device copied : Nat) (s : State) (hk : Kept o₀ s) :
    KeptAnswer o₀ (execNvResyncDone device copied s) := by
  unfold execNvResyncDone
  try dsimp only
  repeat' first
    | with_reducible assumption | with_reducible apply next_core | with_reducible apply refused_core | with_reducible apply refuse_core
    | with_reducible apply raiseLead_core | with_reducible apply setDeviceState_core | with_reducible apply modDev_core
    | simp only [kept_mk, kept_fold] | (intro _) | with_reducible rfl | split | with_reducible apply ite_answer_core
    | with_reducible apply ite_done_core | with_reducible apply ite_core

theorem queueLog_core {o₀ : State} (r : EventRec) (s : State) (hk : Kept o₀ s) :
    Kept o₀ (queueLog r s) := by
  unfold queueLog
  try dsimp only
  repeat' first
    | with_reducible assumption | with_reducible apply modNv_core | with_reducible apply raiseLimited_core
    | with_reducible apply raiseLead_core | simp only [kept_mk, kept_fold] | (intro _) | with_reducible rfl | split
    | with_reducible apply ite_core

theorem execNvLogWrite_core {o₀ : State} (s : State) (hk : Kept o₀ s) :
    KeptAnswer o₀ (execNvLogWrite s) := by
  unfold execNvLogWrite
  try dsimp only
  repeat' first
    | with_reducible assumption | with_reducible apply next_core | with_reducible apply refused_core | with_reducible apply commitPages_core
    | with_reducible apply modNv_core | with_reducible apply getD_core | simp only [kept_mk, kept_fold] | (intro _) | with_reducible rfl
    | split | with_reducible apply ite_answer_core | with_reducible apply ite_core

theorem resyncDone_core {o₀ : State} (d : Nat) (s : State) (hk : Kept o₀ s) :
    Kept o₀ (resyncDone d s).2 := by
  unfold resyncDone
  try dsimp only
  repeat' first
    | with_reducible assumption | with_reducible exact trivial | with_reducible apply draw_core | simp only [kept_mk, kept_fold]
    | (intro _) | with_reducible rfl | split | with_reducible apply ite_answer_core | with_reducible apply ite_done_core
    | with_reducible apply ite_core | refine of_pair (by with_reducible assumption) ?_
    | refine of_triple (by with_reducible assumption) ?_ | refine of_some (by with_reducible assumption) ?_
    | refine of_somep (by with_reducible assumption) ?_ | refine of_next (by with_reducible assumption) ?_
    | refine of_inl (by with_reducible assumption) ?_

theorem execNvStatus_core {o₀ : State} (q : Request) (s : State) (hk : Kept o₀ s) :
    KeptAnswer o₀ (execNvStatus q s) := by
  unfold execNvStatus
  try dsimp only
  repeat' first
    | with_reducible assumption | with_reducible exact trivial | with_reducible apply ok_core | with_reducible apply refuse_core
    | with_reducible apply reply_core | with_reducible apply wait_core | with_reducible apply resyncDone_core
    | with_reducible apply runCommand_core | simp only [kept_mk, kept_fold] | (intro _) | with_reducible rfl | split
    | with_reducible apply ite_answer_core | with_reducible apply ite_done_core | with_reducible apply ite_core
    | refine of_pair (by with_reducible assumption) ?_ | refine of_triple (by with_reducible assumption) ?_
    | refine of_some (by with_reducible assumption) ?_ | refine of_somep (by with_reducible assumption) ?_
    | refine of_next (by with_reducible assumption) ?_ | refine of_inl (by with_reducible assumption) ?_

theorem execNvRead_core {o₀ : State} (q : Request) (obs : NvReadObs) (s : State) (hk : Kept o₀ s) :
    KeptAnswer o₀ (execNvRead q obs s) := by
  unfold execNvRead
  try dsimp only
  repeat' first
    | with_reducible assumption | with_reducible exact trivial | with_reducible apply ok_core | with_reducible apply refuse_core
    | with_reducible apply reply_core | with_reducible apply wait_core | with_reducible apply nvReadEffects_core
    | with_reducible apply runCommand_core | with_reducible apply withChecks_core | simp only [kept_mk, kept_fold] | (intro _)
    | with_reducible rfl | split | with_reducible apply ite_answer_core | with_reducible apply ite_done_core
    | with_reducible apply ite_core | refine of_pair (by with_reducible assumption) ?_
    | refine of_triple (by with_reducible assumption) ?_ | refine of_some (by with_reducible assumption) ?_
    | refine of_somep (by with_reducible assumption) ?_ | refine of_next (by with_reducible assumption) ?_
    | refine of_inl (by with_reducible assumption) ?_

theorem execNvWrite_core {o₀ : State} (q : Request) (s : State) (hk : Kept o₀ s) :
    KeptAnswer o₀ (execNvWrite q s) := by
  unfold execNvWrite
  try dsimp only
  repeat' first
    | with_reducible assumption | with_reducible apply next_core | with_reducible apply refused_core | with_reducible apply runCommand_core
    | with_reducible apply withChecks_core | with_reducible apply storeThen_core | simp only [kept_mk, kept_fold] | (intro _)
    | with_reducible rfl

theorem execNvScrub_core {o₀ : State} (q : Request) (s : State) (hk : Kept o₀ s) :
    KeptAnswer o₀ (execNvScrub q s) := by
  unfold execNvScrub
  try dsimp only
  repeat' first
    | with_reducible assumption | with_reducible apply next_core | with_reducible apply refused_core | with_reducible apply ok_core
    | with_reducible apply runCommand_core | with_reducible apply withChecks_core | with_reducible apply startScrub_core
    | with_reducible apply modNv_core | simp only [kept_mk, kept_fold] | (intro _) | with_reducible rfl | split
    | with_reducible apply ite_answer_core | with_reducible apply ite_done_core | with_reducible apply ite_core

theorem execBootcfgRead_core {o₀ : State} (q : Request) (obs : NvReadObs) (s : State) (hk : Kept o₀ s) :
    KeptAnswer o₀ (execBootcfgRead q obs s) := by
  unfold execBootcfgRead
  try dsimp only
  repeat' first
    | with_reducible assumption | with_reducible exact trivial | with_reducible apply ok_core | with_reducible apply refuse_core
    | with_reducible apply reply_core | with_reducible apply wait_core | with_reducible apply nvReadEffects_core
    | with_reducible apply runCommand_core | simp only [kept_mk, kept_fold] | (intro _) | with_reducible rfl | split
    | with_reducible apply ite_answer_core | with_reducible apply ite_done_core | with_reducible apply ite_core
    | refine of_pair (by with_reducible assumption) ?_ | refine of_triple (by with_reducible assumption) ?_
    | refine of_some (by with_reducible assumption) ?_ | refine of_somep (by with_reducible assumption) ?_
    | refine of_next (by with_reducible assumption) ?_ | refine of_inl (by with_reducible assumption) ?_

theorem execBootcfgWrite_core {o₀ : State} (q : Request) (s : State) (hk : Kept o₀ s) :
    KeptAnswer o₀ (execBootcfgWrite q s) := by
  unfold execBootcfgWrite
  try dsimp only
  repeat' first
    | with_reducible assumption | with_reducible apply next_core | with_reducible apply refused_core | with_reducible apply runCommand_core
    | with_reducible apply withChecks_core | with_reducible apply storeThen_core | simp only [kept_mk, kept_fold] | (intro _)
    | with_reducible rfl | split | with_reducible apply ite_answer_core | with_reducible apply ite_core

theorem execNvLogRead_core {o₀ : State} (q : Request) (lost : List Nat) (s : State) (hk : Kept o₀ s) :
    KeptAnswer o₀ (execNvLogRead q lost s) := by
  unfold execNvLogRead
  try dsimp only
  repeat' first
    | with_reducible assumption | with_reducible exact trivial | with_reducible apply ok_core | with_reducible apply refuse_core
    | with_reducible apply reply_core | with_reducible apply wait_core | with_reducible apply countNv_core
    | with_reducible apply runCommand_core | with_reducible apply withChecks_core | simp only [kept_mk, kept_fold] | (intro _)
    | with_reducible rfl | split | with_reducible apply ite_answer_core | with_reducible apply ite_done_core
    | with_reducible apply ite_core | refine of_pair (by with_reducible assumption) ?_
    | refine of_triple (by with_reducible assumption) ?_ | refine of_some (by with_reducible assumption) ?_
    | refine of_somep (by with_reducible assumption) ?_ | refine of_next (by with_reducible assumption) ?_
    | refine of_inl (by with_reducible assumption) ?_

end Sys2Proof.Machine
end

