-- ==== Sys2Proof/Laws/KeptTraffic.lean ====
section
/-!
SUPPORT. What the commands of partitions, links, scheduling, buffers and Cellar leave alone.
-/
namespace Sys2Proof.Machine

/-! ## Machine/Partitions.lean -/

theorem execBlockCreate_core {o₀ : State} (q : Request) (s : State) (hk : Kept o₀ s) :
    KeptAnswer o₀ (execBlockCreate q s) := by
  unfold execBlockCreate
  try dsimp only
  repeat' first
    | with_reducible assumption | with_reducible exact trivial | with_reducible apply ok_core | with_reducible apply refuse_core
    | with_reducible apply reply_core | with_reducible apply wait_core | with_reducible apply stageDone_core
    | with_reducible apply runCommand_core | with_reducible apply withChecks_core | with_reducible apply getD_core
    | simp only [kept_mk, kept_fold] | (intro _) | with_reducible rfl | split | with_reducible apply ite_answer_core
    | with_reducible apply ite_done_core | with_reducible apply ite_core | refine of_pair (by with_reducible assumption) ?_
    | refine of_triple (by with_reducible assumption) ?_ | refine of_some (by with_reducible assumption) ?_
    | refine of_somep (by with_reducible assumption) ?_ | refine of_next (by with_reducible assumption) ?_
    | refine of_inl (by with_reducible assumption) ?_

theorem execBlockDelete_core {o₀ : State} (q : Request) (s : State) (hk : Kept o₀ s) :
    KeptAnswer o₀ (execBlockDelete q s) := by
  unfold execBlockDelete
  try dsimp only
  repeat' first
    | with_reducible assumption | with_reducible apply next_core | with_reducible apply refused_core | with_reducible apply runCommand_core
    | with_reducible apply withChecks_core | with_reducible apply stageDone_core | simp only [kept_mk, kept_fold] | (intro _)
    | with_reducible rfl

theorem execBlockRead_core {o₀ : State} (q : Request) (s : State) (hk : Kept o₀ s) :
    KeptAnswer o₀ (execBlockRead q s) := by
  unfold execBlockRead
  try dsimp only
  repeat' first
    | with_reducible assumption | with_reducible apply next_core | with_reducible apply refused_core | with_reducible apply ok_core
    | with_reducible apply refuse_core | with_reducible apply runCommand_core | (intro _) | with_reducible rfl | split
    | with_reducible apply ite_answer_core | with_reducible apply ite_done_core | with_reducible apply ite_core
    | refine of_pair (by with_reducible assumption) ?_ | refine of_some (by with_reducible assumption) ?_
    | refine of_next (by with_reducible assumption) ?_ | refine of_inl (by with_reducible assumption) ?_

theorem execBlockPoolSet_core {o₀ : State} (q : Request) (s : State) (hk : Kept o₀ s) :
    KeptAnswer o₀ (execBlockPoolSet q s) := by
  unfold execBlockPoolSet
  try dsimp only
  repeat' first
    | with_reducible assumption | with_reducible apply next_core | with_reducible apply refused_core | with_reducible apply runCommand_core
    | with_reducible apply withChecks_core | with_reducible apply stageDone_core | simp only [kept_mk, kept_fold] | (intro _)
    | with_reducible rfl

theorem execGrantSet_core {o₀ : State} (q : Request) (s : State) (hk : Kept o₀ s) :
    KeptAnswer o₀ (execGrantSet q s) := by
  unfold execGrantSet
  try dsimp only
  repeat' first
    | with_reducible assumption | with_reducible apply next_core | with_reducible apply refused_core | with_reducible apply runCommand_core
    | with_reducible apply withChecks_core | with_reducible apply storeOrApply_core | (intro _) | with_reducible rfl

/-! ## Machine/Lanes.lean -/

theorem formCodeword_core {o₀ : State} (p : Nat) (s : State) (hk : Kept o₀ s) :
    Kept o₀ (formCodeword p s) := by
  unfold formCodeword
  try dsimp only
  repeat' first
    | with_reducible assumption | with_reducible exact trivial | with_reducible apply some_core | with_reducible apply none_core
    | with_reducible apply somep_core | with_reducible apply nonep_core | with_reducible apply modLink_core
    | with_reducible apply emit_core | with_reducible apply count_core | simp only [kept_mk, kept_fold] | (intro _)
    | with_reducible rfl | split | with_reducible apply ite_answer_core | with_reducible apply ite_done_core
    | with_reducible apply ite_core | refine of_pair (by with_reducible assumption) ?_
    | refine of_triple (by with_reducible assumption) ?_ | refine of_some (by with_reducible assumption) ?_
    | refine of_somep (by with_reducible assumption) ?_ | refine of_next (by with_reducible assumption) ?_
    | refine of_inl (by with_reducible assumption) ?_

theorem layOver_core {o₀ : State} (p n : Nat) (bs : Bytes) (s : State) (hk : Kept o₀ s) : Kept o₀ (layOver p n bs s) := by
  induction n generalizing bs s with
  | zero => exact hk
  | succ n ih =>
    have hk := modLink_core p (fun l => { l with tx := { l.tx with fill := l.tx.fill ++ bs.take (streamBytes -
      (linkAt s p).tx.fill.length) } }) s hk
    rw [layOver]
    dsimp only
    split
    · exact hk
    · exact ih _ _ (formCodeword_core _ _ hk)

theorem layBytes_core {o₀ : State} (p : Nat) (bs : Bytes) (s : State) (hk : Kept o₀ s) : Kept o₀ (layBytes p bs s) :=
  layOver_core _ _ _ _ hk

theorem layFrame_core {o₀ : State} (p : Nat) (bs : Bytes) (s : State) (hk : Kept o₀ s) :
    Kept o₀ (layFrame p bs s) := by
  unfold layFrame
  try dsimp only
  repeat' first
    | with_reducible assumption | with_reducible exact trivial | with_reducible apply layBytes_core
    | with_reducible apply modLink_core | simp only [kept_mk, kept_fold] | (intro _) | with_reducible rfl | split
    | with_reducible apply ite_answer_core | with_reducible apply ite_done_core | with_reducible apply ite_core
    | refine of_pair (by with_reducible assumption) ?_ | refine of_triple (by with_reducible assumption) ?_
    | refine of_some (by with_reducible assumption) ?_ | refine of_somep (by with_reducible assumption) ?_
    | refine of_next (by with_reducible assumption) ?_ | refine of_inl (by with_reducible assumption) ?_

theorem endFrame_core {o₀ : State} (p : Nat) (s : State) (hk : Kept o₀ s) :
    Kept o₀ (endFrame p s) := by
  unfold endFrame
  try dsimp only
  repeat' first
    | with_reducible assumption | with_reducible exact trivial | with_reducible apply some_core | with_reducible apply none_core
    | with_reducible apply somep_core | with_reducible apply nonep_core | with_reducible apply layFrame_core
    | with_reducible apply modLink_core | simp only [kept_mk, kept_fold] | (intro _) | with_reducible rfl | split
    | with_reducible apply ite_answer_core | with_reducible apply ite_done_core | with_reducible apply ite_core
    | refine of_pair (by with_reducible assumption) ?_ | refine of_triple (by with_reducible assumption) ?_
    | refine of_some (by with_reducible assumption) ?_ | refine of_somep (by with_reducible assumption) ?_
    | refine of_next (by with_reducible assumption) ?_ | refine of_inl (by with_reducible assumption) ?_

theorem idleFill_core {o₀ : State} (p : Nat) (s : State) (hk : Kept o₀ s) :
    Kept o₀ (idleFill p s) := by
  unfold idleFill
  try dsimp only
  repeat' first
    | with_reducible assumption | with_reducible exact trivial | with_reducible apply layBytes_core
    | with_reducible apply modLink_core | simp only [kept_mk, kept_fold] | (intro _) | with_reducible rfl | split
    | with_reducible apply ite_answer_core | with_reducible apply ite_done_core | with_reducible apply ite_core
    | refine of_pair (by with_reducible assumption) ?_ | refine of_triple (by with_reducible assumption) ?_
    | refine of_some (by with_reducible assumption) ?_ | refine of_somep (by with_reducible assumption) ?_
    | refine of_next (by with_reducible assumption) ?_ | refine of_inl (by with_reducible assumption) ?_

theorem abandonFrame_core {o₀ : State} (p : Nat) (bs : Bytes) (s : State) (hk : Kept o₀ s) :
    Kept o₀ (abandonFrame p bs s) := by
  unfold abandonFrame
  try dsimp only
  repeat' first
    | with_reducible assumption | with_reducible exact trivial | with_reducible apply idleFill_core
    | with_reducible apply layFrame_core | with_reducible apply modLink_core | with_reducible apply emit_core
    | simp only [kept_mk, kept_fold] | (intro _) | with_reducible rfl | split | with_reducible apply ite_answer_core
    | with_reducible apply ite_done_core | with_reducible apply ite_core | refine of_pair (by with_reducible assumption) ?_
    | refine of_triple (by with_reducible assumption) ?_ | refine of_some (by with_reducible assumption) ?_
    | refine of_somep (by with_reducible assumption) ?_ | refine of_next (by with_reducible assumption) ?_
    | refine of_inl (by with_reducible assumption) ?_

theorem cutFrame_core {o₀ : State} (p : Nat) (s : State) (hk : Kept o₀ s) :
    Kept o₀ (cutFrame p s) := by
  unfold cutFrame
  try dsimp only
  repeat' first
    | with_reducible assumption | with_reducible exact trivial | with_reducible apply layFrame_core
    | with_reducible apply layBytes_core | with_reducible apply modLink_core | with_reducible apply emit_core
    | with_reducible apply count_core | with_reducible apply getD_core | simp only [kept_mk, kept_fold] | (intro _)
    | with_reducible rfl | split | with_reducible apply ite_answer_core | with_reducible apply ite_done_core
    | with_reducible apply ite_core | refine of_pair (by with_reducible assumption) ?_
    | refine of_triple (by with_reducible assumption) ?_ | refine of_some (by with_reducible assumption) ?_
    | refine of_somep (by with_reducible assumption) ?_ | refine of_next (by with_reducible assumption) ?_
    | refine of_inl (by with_reducible assumption) ?_

theorem sendTrain_core {o₀ : State} (p : Nat) (kind : Nat) (probe : Nat) (s : State) (hk : Kept o₀ s) :
    Kept o₀ (sendTrain p kind probe s) := by
  unfold sendTrain
  try dsimp only
  repeat' first
    | with_reducible assumption | with_reducible exact trivial | with_reducible apply emit_core | with_reducible apply foldl_core
    | with_reducible apply foldl_kept2 | with_reducible apply foldl_kept3 | simp only [kept_mk, kept_fold] | (intro _)
    | with_reducible rfl | split | with_reducible apply ite_answer_core | with_reducible apply ite_done_core
    | with_reducible apply ite_core | refine of_pair (by with_reducible assumption) ?_
    | refine of_triple (by with_reducible assumption) ?_ | refine of_some (by with_reducible assumption) ?_
    | refine of_somep (by with_reducible assumption) ?_ | refine of_next (by with_reducible assumption) ?_
    | refine of_inl (by with_reducible assumption) ?_

/-! ## Machine/Link.lean -/

theorem fillCaps_core {o₀ : State} (p : Nat) (s : State) (hk : Kept o₀ s) :
    Kept o₀ (fillCaps p s) := by
  unfold fillCaps
  try dsimp only
  repeat' first
    | with_reducible assumption | with_reducible apply modLink_core | simp only [kept_mk, kept_fold] | (intro _) | with_reducible rfl

theorem linkProtocol_core {o₀ : State} (p cause : Nat) (s : State) (hk : Kept o₀ s) :
    Kept o₀ (linkProtocol p cause s) := by
  unfold linkProtocol
  try dsimp only
  repeat' first
    | with_reducible assumption | with_reducible apply raiseLimited_core | with_reducible apply raise_core | (intro _) | with_reducible rfl

theorem raiseGrants_core {o₀ : State} (vcs : List Nat) (s : State) (hk : Kept o₀ s) :
    Kept o₀ (raiseGrants vcs s) := by
  unfold raiseGrants
  try dsimp only
  repeat' first
    | with_reducible assumption | with_reducible exact trivial | with_reducible apply modLink_core | with_reducible apply getD_core
    | with_reducible apply foldl_core | with_reducible apply foldl_kept2 | with_reducible apply foldl_kept3
    | simp only [kept_mk, kept_fold] | (intro _) | with_reducible rfl | split | with_reducible apply ite_answer_core
    | with_reducible apply ite_done_core | with_reducible apply ite_core | refine of_pair (by with_reducible assumption) ?_
    | refine of_triple (by with_reducible assumption) ?_ | refine of_some (by with_reducible assumption) ?_
    | refine of_somep (by with_reducible assumption) ?_ | refine of_next (by with_reducible assumption) ?_
    | refine of_inl (by with_reducible assumption) ?_

theorem followLink_core {o₀ : State} (p : Nat) (new : PortState) (s : State) (hk : Kept o₀ s) :
    Kept o₀ (followLink p new s) := by
  unfold followLink
  try dsimp only
  repeat' first
    | with_reducible assumption | with_reducible apply setPortState_core | with_reducible rfl | split | with_reducible apply ite_core

theorem takePreset_core {o₀ : State} (p : Nat) (s : State) (hk : Kept o₀ s) :
    Kept o₀ (takePreset p s) := by
  unfold takePreset
  try dsimp only
  repeat' first
    | with_reducible assumption | with_reducible exact trivial | with_reducible apply modPort_core | simp only [kept_mk, kept_fold]
    | (intro _) | with_reducible rfl | split | with_reducible apply ite_answer_core | with_reducible apply ite_done_core
    | with_reducible apply ite_core | refine of_pair (by with_reducible assumption) ?_
    | refine of_triple (by with_reducible assumption) ?_ | refine of_some (by with_reducible assumption) ?_
    | refine of_somep (by with_reducible assumption) ?_ | refine of_next (by with_reducible assumption) ?_
    | refine of_inl (by with_reducible assumption) ?_

theorem retrain_core {o₀ : State} (p : Nat) (cause : Nat) (fresh : Bool) (s : State) (hk : Kept o₀ s) :
    Kept o₀ (retrain p cause fresh s) := by
  unfold retrain
  try dsimp only
  repeat' first
    | with_reducible assumption | with_reducible exact trivial | with_reducible apply takePreset_core
    | with_reducible apply followLink_core | with_reducible apply fillCaps_core | with_reducible apply touchHeads_core
    | with_reducible apply modLink_core | with_reducible apply raise_core | with_reducible apply countPort_core
    | simp only [kept_mk, kept_fold] | (intro _) | with_reducible rfl | split | with_reducible apply ite_answer_core
    | with_reducible apply ite_done_core | with_reducible apply ite_core | refine of_pair (by with_reducible assumption) ?_
    | refine of_triple (by with_reducible assumption) ?_ | refine of_some (by with_reducible assumption) ?_
    | refine of_somep (by with_reducible assumption) ?_ | refine of_next (by with_reducible assumption) ?_
    | refine of_inl (by with_reducible assumption) ?_

theorem linkDown_core {o₀ : State} (p : Nat) (s : State) (hk : Kept o₀ s) :
    Kept o₀ (linkDown p s) := by
  unfold linkDown
  try dsimp only
  repeat' first
    | with_reducible assumption | with_reducible exact trivial | with_reducible apply followLink_core
    | with_reducible apply fillCaps_core | with_reducible apply complete_core | with_reducible apply judgePort_core
    | with_reducible apply advertise_core | with_reducible apply replicate_core | with_reducible apply touchHeads_core
    | with_reducible apply updateSpilling_core | with_reducible apply modLink_core | with_reducible apply raise_core
    | with_reducible apply countPort_core | simp only [kept_mk, kept_fold] | (intro _) | with_reducible rfl | split
    | with_reducible apply ite_answer_core | with_reducible apply ite_done_core | with_reducible apply ite_core
    | refine of_pair (by with_reducible assumption) ?_ | refine of_triple (by with_reducible assumption) ?_
    | refine of_some (by with_reducible assumption) ?_ | refine of_somep (by with_reducible assumption) ?_
    | refine of_next (by with_reducible assumption) ?_ | refine of_inl (by with_reducible assumption) ?_

theorem trainFail_core {o₀ : State} (p reason : Nat) (s : State) (hk : Kept o₀ s) :
    Kept o₀ (trainFail p reason s) := by
  unfold trainFail
  try dsimp only
  repeat' first
    | with_reducible assumption | with_reducible apply raise_core | with_reducible apply modLink_core | with_reducible apply linkDown_core
    | with_reducible apply retrain_core | simp only [kept_mk, kept_fold] | (intro _) | with_reducible rfl | split
    | with_reducible apply ite_core

theorem startTraining_core {o₀ : State} (p : Nat) (s : State) (hk : Kept o₀ s) :
    Kept o₀ (startTraining p s) := by
  unfold startTraining
  try dsimp only
  repeat' first
    | with_reducible assumption | with_reducible exact trivial | with_reducible apply takePreset_core
    | with_reducible apply updateSpilling_core | with_reducible apply modLink_core | simp only [kept_mk, kept_fold] | (intro _)
    | with_reducible rfl | split | with_reducible apply ite_answer_core | with_reducible apply ite_done_core
    | with_reducible apply ite_core | refine of_pair (by with_reducible assumption) ?_
    | refine of_triple (by with_reducible assumption) ?_ | refine of_some (by with_reducible assumption) ?_
    | refine of_somep (by with_reducible assumption) ?_ | refine of_next (by with_reducible assumption) ?_
    | refine of_inl (by with_reducible assumption) ?_

theorem announceGrant_core {o₀ : State} (p : Nat) (s : State) (hk : Kept o₀ s) :
    Kept o₀ (announceGrant p s) := by
  unfold announceGrant
  try dsimp only
  repeat' first
    | with_reducible assumption | with_reducible exact trivial | with_reducible apply updateSpilling_core
    | with_reducible apply modLink_core | simp only [kept_mk, kept_fold] | (intro _) | with_reducible rfl | split
    | with_reducible apply ite_answer_core | with_reducible apply ite_done_core | with_reducible apply ite_core
    | refine of_pair (by with_reducible assumption) ?_ | refine of_triple (by with_reducible assumption) ?_
    | refine of_some (by with_reducible assumption) ?_ | refine of_somep (by with_reducible assumption) ?_
    | refine of_next (by with_reducible assumption) ?_ | refine of_inl (by with_reducible assumption) ?_

theorem linkActive_core {o₀ : State} (p : Nat) (m : TrainMsg) (s : State) (hk : Kept o₀ s) :
    Kept o₀ (linkActive p m s) := by
  unfold linkActive
  try dsimp only
  repeat' first
    | with_reducible assumption | with_reducible exact trivial | with_reducible apply some_core | with_reducible apply none_core
    | with_reducible apply somep_core | with_reducible apply nonep_core | with_reducible apply followLink_core
    | with_reducible apply fillCaps_core | with_reducible apply complete_core | with_reducible apply replicate_core
    | with_reducible apply touchHeads_core | with_reducible apply updateSpilling_core | with_reducible apply modLink_core
    | with_reducible apply raise_core | with_reducible apply countPort_core | with_reducible apply getD_core
    | simp only [kept_mk, kept_fold] | (intro _) | with_reducible rfl | split | with_reducible apply ite_answer_core
    | with_reducible apply ite_done_core | with_reducible apply ite_core | refine of_pair (by with_reducible assumption) ?_
    | refine of_triple (by with_reducible assumption) ?_ | refine of_some (by with_reducible assumption) ?_
    | refine of_somep (by with_reducible assumption) ?_ | refine of_next (by with_reducible assumption) ?_
    | refine of_inl (by with_reducible assumption) ?_

theorem execCodewordLock_core {o₀ : State} (port : Nat) (s : State) (hk : Kept o₀ s) :
    KeptAnswer o₀ (execCodewordLock port s) := by
  unfold execCodewordLock
  try dsimp only
  repeat' first
    | with_reducible assumption | with_reducible exact trivial | with_reducible apply next_core | with_reducible apply refused_core
    | with_reducible apply announceGrant_core | with_reducible apply retrain_core | with_reducible apply sendTrain_core
    | with_reducible apply modLink_core | simp only [kept_mk, kept_fold] | (intro _) | with_reducible rfl | split
    | with_reducible apply ite_answer_core | with_reducible apply ite_done_core | with_reducible apply ite_core
    | refine of_pair (by with_reducible assumption) ?_ | refine of_triple (by with_reducible assumption) ?_
    | refine of_some (by with_reducible assumption) ?_ | refine of_somep (by with_reducible assumption) ?_
    | refine of_next (by with_reducible assumption) ?_ | refine of_inl (by with_reducible assumption) ?_

theorem probeEchoed_core {o₀ : State} (port : Nat) (rtt : Nat) (s : State) (hk : Kept o₀ s) :
    Kept o₀ (probeEchoed port rtt s) := by
  unfold probeEchoed
  try dsimp only
  repeat' first
    | with_reducible assumption | with_reducible exact trivial | with_reducible apply some_core | with_reducible apply none_core
    | with_reducible apply somep_core | with_reducible apply nonep_core | with_reducible apply linkActive_core
    | with_reducible apply trainFail_core | with_reducible apply sendTrain_core | with_reducible apply modLink_core
    | simp only [kept_mk, kept_fold] | (intro _) | with_reducible rfl | split | with_reducible apply ite_answer_core
    | with_reducible apply ite_done_core | with_reducible apply ite_core | refine of_pair (by with_reducible assumption) ?_
    | refine of_triple (by with_reducible assumption) ?_ | refine of_some (by with_reducible assumption) ?_
    | refine of_somep (by with_reducible assumption) ?_ | refine of_next (by with_reducible assumption) ?_
    | refine of_inl (by with_reducible assumption) ?_

theorem execTrainingMessageReceived_core {o₀ : State} (port : Nat) (s : State) (hk : Kept o₀ s) :
    KeptAnswer o₀ (execTrainingMessageReceived port s) := by
  unfold execTrainingMessageReceived
  try dsimp only
  repeat' first
    | with_reducible assumption | with_reducible exact trivial | with_reducible apply next_core | with_reducible apply refused_core
    | with_reducible apply some_core | with_reducible apply none_core | with_reducible apply somep_core
    | with_reducible apply nonep_core | with_reducible apply probeEchoed_core | with_reducible apply linkActive_core
    | with_reducible apply trainFail_core | with_reducible apply sendTrain_core | with_reducible apply modLink_core
    | simp only [kept_mk, kept_fold] | (intro _) | with_reducible rfl | split | with_reducible apply ite_answer_core
    | with_reducible apply ite_done_core | with_reducible apply ite_core | refine of_pair (by with_reducible assumption) ?_
    | refine of_triple (by with_reducible assumption) ?_ | refine of_some (by with_reducible assumption) ?_
    | refine of_somep (by with_reducible assumption) ?_ | refine of_next (by with_reducible assumption) ?_
    | refine of_inl (by with_reducible assumption) ?_

theorem execTrainingAttemptTimeout_core {o₀ : State} (port : Nat) (s : State) (hk : Kept o₀ s) :
    KeptAnswer o₀ (execTrainingAttemptTimeout port s) := by
  unfold execTrainingAttemptTimeout
  try dsimp only
  repeat' first
    | with_reducible assumption | with_reducible apply next_core | with_reducible apply refused_core | with_reducible apply refuse_core
    | with_reducible apply trainFail_core | with_reducible rfl | split | with_reducible apply ite_answer_core
    | with_reducible apply ite_done_core | with_reducible apply ite_core

theorem execTrainingRetry_core {o₀ : State} (port : Nat) (s : State) (hk : Kept o₀ s) :
    KeptAnswer o₀ (execTrainingRetry port s) := by
  unfold execTrainingRetry
  try dsimp only
  repeat' first
    | with_reducible assumption | with_reducible apply next_core | with_reducible apply refused_core | with_reducible apply guard_core
    | with_reducible apply startTraining_core | with_reducible rfl | split | with_reducible apply ite_answer_core
    | with_reducible apply ite_core

theorem countCodeword_core {o₀ : State} (port : Nat) (c : Option Nat) (s : State) (hk : Kept o₀ s) :
    Kept o₀ (countCodeword port c s) := by
  unfold countCodeword
  try dsimp only
  repeat' first
    | with_reducible assumption | with_reducible exact trivial | with_reducible apply some_core | with_reducible apply none_core
    | with_reducible apply somep_core | with_reducible apply nonep_core | with_reducible apply modLink_core
    | with_reducible apply countPort_core | simp only [kept_mk, kept_fold] | (intro _) | with_reducible rfl | split
    | with_reducible apply ite_answer_core | with_reducible apply ite_done_core | with_reducible apply ite_core
    | refine of_pair (by with_reducible assumption) ?_ | refine of_triple (by with_reducible assumption) ?_
    | refine of_some (by with_reducible assumption) ?_ | refine of_somep (by with_reducible assumption) ?_
    | refine of_next (by with_reducible assumption) ?_ | refine of_inl (by with_reducible assumption) ?_

theorem judgeLane_core {o₀ : State} (port : Nat) (lane : Nat) (a : Bool) (b : Bool) (s : State) (hk : Kept o₀ s) :
    Kept o₀ (judgeLane port lane a b s) := by
  unfold judgeLane
  try dsimp only
  repeat' first
    | with_reducible assumption | with_reducible exact trivial | with_reducible apply retrain_core
    | with_reducible apply modLink_core | simp only [kept_mk, kept_fold] | (intro _) | with_reducible rfl | split
    | with_reducible apply ite_answer_core | with_reducible apply ite_done_core | with_reducible apply ite_core
    | refine of_pair (by with_reducible assumption) ?_ | refine of_triple (by with_reducible assumption) ?_
    | refine of_some (by with_reducible assumption) ?_ | refine of_somep (by with_reducible assumption) ?_
    | refine of_next (by with_reducible assumption) ?_ | refine of_inl (by with_reducible assumption) ?_

theorem execCodewordPairDecoded_core {o₀ : State} (port : Nat) (lane : Nat) (levels : List Nat) (s : State) (hk : Kept o₀ s) :
    KeptAnswer o₀ (execCodewordPairDecoded port lane levels s) := by
  unfold execCodewordPairDecoded
  try dsimp only
  repeat' first
    | with_reducible assumption | with_reducible exact trivial | with_reducible apply next_core | with_reducible apply refused_core
    | with_reducible apply judgeLane_core | with_reducible apply countCodeword_core | with_reducible apply modLink_core
    | simp only [kept_mk, kept_fold] | (intro _) | with_reducible rfl | split | with_reducible apply ite_answer_core
    | with_reducible apply ite_done_core | with_reducible apply ite_core | refine of_pair (by with_reducible assumption) ?_
    | refine of_triple (by with_reducible assumption) ?_ | refine of_some (by with_reducible assumption) ?_
    | refine of_somep (by with_reducible assumption) ?_ | refine of_next (by with_reducible assumption) ?_
    | refine of_inl (by with_reducible assumption) ?_

theorem execLinkFecHigh_core {o₀ : State} (port : Nat) (s : State) (hk : Kept o₀ s) :
    KeptAnswer o₀ (execLinkFecHigh port s) := by
  unfold execLinkFecHigh
  try dsimp only
  repeat' first
    | with_reducible assumption | with_reducible apply next_core | with_reducible apply refused_core | with_reducible apply modLink_core
    | with_reducible apply guard_core | with_reducible apply raiseLimited_core | with_reducible apply raise_core
    | simp only [kept_mk, kept_fold] | (intro _) | with_reducible rfl | split | with_reducible apply ite_answer_core
    | with_reducible apply ite_core

theorem startReplay_core {o₀ : State} (port : Nat) (ack : Nat) (s : State) (hk : Kept o₀ s) :
    Kept o₀ (startReplay port ack s) := by
  unfold startReplay
  try dsimp only
  repeat' first
    | with_reducible assumption | with_reducible exact trivial | with_reducible apply some_core | with_reducible apply none_core
    | with_reducible apply somep_core | with_reducible apply nonep_core | with_reducible apply retrain_core
    | with_reducible apply cutFrame_core | with_reducible apply modLink_core | simp only [kept_mk, kept_fold] | (intro _)
    | with_reducible rfl | split | with_reducible apply ite_answer_core | with_reducible apply ite_done_core
    | with_reducible apply ite_core | refine of_pair (by with_reducible assumption) ?_
    | refine of_triple (by with_reducible assumption) ?_ | refine of_some (by with_reducible assumption) ?_
    | refine of_somep (by with_reducible assumption) ?_ | refine of_next (by with_reducible assumption) ?_
    | refine of_inl (by with_reducible assumption) ?_

theorem applyWord_core {o₀ : State} (port : Nat) (lw : LinkWord) (s : State) (hk : Kept o₀ s) :
    Kept o₀ (applyWord port lw s) := by
  unfold applyWord
  try dsimp only
  repeat' first
    | with_reducible assumption | with_reducible exact trivial | with_reducible apply some_core | with_reducible apply none_core
    | with_reducible apply somep_core | with_reducible apply nonep_core | with_reducible apply startReplay_core
    | with_reducible apply retrain_core | with_reducible apply linkProtocol_core | with_reducible apply touchHeads_core
    | with_reducible apply modLink_core | with_reducible apply countPort_core | with_reducible apply getD_core
    | simp only [kept_mk, kept_fold] | (intro _) | with_reducible rfl | split | with_reducible apply ite_answer_core
    | with_reducible apply ite_done_core | with_reducible apply ite_core | refine of_pair (by with_reducible assumption) ?_
    | refine of_triple (by with_reducible assumption) ?_ | refine of_some (by with_reducible assumption) ?_
    | refine of_somep (by with_reducible assumption) ?_ | refine of_next (by with_reducible assumption) ?_
    | refine of_inl (by with_reducible assumption) ?_

theorem execLinkWordReceived_core {o₀ : State} (port : Nat) (s : State) (hk : Kept o₀ s) :
    KeptAnswer o₀ (execLinkWordReceived port s) := by
  unfold execLinkWordReceived
  try dsimp only
  repeat' first
    | with_reducible assumption | with_reducible exact trivial | with_reducible apply next_core | with_reducible apply refused_core
    | with_reducible apply applyWord_core | with_reducible apply modLink_core | simp only [kept_mk, kept_fold] | (intro _)
    | with_reducible rfl | split | with_reducible apply ite_answer_core | with_reducible apply ite_done_core
    | with_reducible apply ite_core | refine of_pair (by with_reducible assumption) ?_
    | refine of_triple (by with_reducible assumption) ?_ | refine of_some (by with_reducible assumption) ?_
    | refine of_somep (by with_reducible assumption) ?_ | refine of_next (by with_reducible assumption) ?_
    | refine of_inl (by with_reducible assumption) ?_

theorem execReplayTimeout_core {o₀ : State} (port : Nat) (s : State) (hk : Kept o₀ s) :
    KeptAnswer o₀ (execReplayTimeout port s) := by
  unfold execReplayTimeout
  try dsimp only
  repeat' first
    | with_reducible assumption | with_reducible apply next_core | with_reducible apply refused_core | with_reducible apply guard_core
    | with_reducible apply startReplay_core | with_reducible apply countPort_core | with_reducible rfl | split
    | with_reducible apply ite_answer_core | with_reducible apply ite_core

theorem retireBank_core {o₀ : State} (h : Nat) (bank : Nat) (why : Nat) (s : State) (hk : Kept o₀ s) :
    Kept o₀ (retireBank h bank why s) := by
  unfold retireBank
  try dsimp only
  repeat' first
    | with_reducible assumption | with_reducible exact trivial | with_reducible apply advertise_core
    | with_reducible apply recordFault_core | with_reducible apply updateSpilling_core | with_reducible apply modHall_core
    | with_reducible apply raise_core | simp only [kept_mk, kept_fold] | (intro _) | with_reducible rfl | split
    | with_reducible apply ite_answer_core | with_reducible apply ite_done_core | with_reducible apply ite_core
    | refine of_pair (by with_reducible assumption) ?_ | refine of_triple (by with_reducible assumption) ?_
    | refine of_some (by with_reducible assumption) ?_ | refine of_somep (by with_reducible assumption) ?_
    | refine of_next (by with_reducible assumption) ?_ | refine of_inl (by with_reducible assumption) ?_

theorem correctedIn_core {o₀ : State} (h : Nat) (bank : Nat) (s : State) (hk : Kept o₀ s) :
    Kept o₀ (correctedIn h bank s) := by
  unfold correctedIn
  try dsimp only
  repeat' first
    | with_reducible assumption | with_reducible exact trivial | with_reducible apply retireBank_core
    | with_reducible apply modHall_core | simp only [kept_mk, kept_fold] | (intro _) | with_reducible rfl | split
    | with_reducible apply ite_answer_core | with_reducible apply ite_done_core | with_reducible apply ite_core
    | refine of_pair (by with_reducible assumption) ?_ | refine of_triple (by with_reducible assumption) ?_
    | refine of_some (by with_reducible assumption) ?_ | refine of_somep (by with_reducible assumption) ?_
    | refine of_next (by with_reducible assumption) ?_ | refine of_inl (by with_reducible assumption) ?_

theorem noteReadError_core {o₀ : State} (h : Nat) (e : ReadError) (s : State) (hk : Kept o₀ s) :
    Kept o₀ (noteReadError h e s) := by
  unfold noteReadError
  try dsimp only
  repeat' first
    | with_reducible assumption | with_reducible exact trivial | with_reducible apply correctedIn_core
    | with_reducible apply retireBank_core | with_reducible apply raise_core | with_reducible apply countHall_core
    | simp only [kept_mk, kept_fold] | (intro _) | with_reducible rfl | split | with_reducible apply ite_answer_core
    | with_reducible apply ite_done_core | with_reducible apply ite_core | refine of_pair (by with_reducible assumption) ?_
    | refine of_triple (by with_reducible assumption) ?_ | refine of_some (by with_reducible assumption) ?_
    | refine of_somep (by with_reducible assumption) ?_ | refine of_next (by with_reducible assumption) ?_
    | refine of_inl (by with_reducible assumption) ?_

theorem lostFrame_core {o₀ : State} (h cause port : Nat) (header : Bool) (x : Held) (s : State) (hk : Kept o₀ s) :
    Kept o₀ (lostFrame h cause port header x s) := by
  unfold lostFrame
  try dsimp only
  repeat' first
    | with_reducible assumption | with_reducible apply trimFrame_core | with_reducible apply collLost_core
    | with_reducible apply freeFrame_core | with_reducible rfl | split | with_reducible apply ite_core

theorem stampFrame_core {o₀ : State} (port : Nat) (f : Frame) (s : State) (hk : Kept o₀ s) :
    Kept o₀ (stampFrame port f s).2 := by
  unfold stampFrame
  try dsimp only
  repeat' first
    | with_reducible assumption | simp only [kept_mk, kept_fold] | with_reducible rfl | split | with_reducible apply ite_core

theorem startFrame_core {o₀ : State} (port : Nat) (v : Nat) (lseq : Nat) (rtx : Bool) (f : Frame) (s : State) (hk : Kept o₀ s) :
    Kept o₀ (startFrame port v lseq rtx f s) := by
  unfold startFrame
  try dsimp only
  repeat' first
    | with_reducible assumption | with_reducible exact trivial | with_reducible apply some_core | with_reducible apply none_core
    | with_reducible apply somep_core | with_reducible apply nonep_core | with_reducible apply modLink_core
    | with_reducible apply emit_core | simp only [kept_mk, kept_fold] | (intro _) | with_reducible rfl | split
    | with_reducible apply ite_answer_core | with_reducible apply ite_done_core | with_reducible apply ite_core
    | refine of_pair (by with_reducible assumption) ?_ | refine of_triple (by with_reducible assumption) ?_
    | refine of_some (by with_reducible assumption) ?_ | refine of_somep (by with_reducible assumption) ?_
    | refine of_next (by with_reducible assumption) ?_ | refine of_inl (by with_reducible assumption) ?_

theorem sendReplay_core {o₀ : State} (port : Nat) (n : Nat) (s : State) (hk : Kept o₀ s) :
    Kept o₀ (sendReplay port n s) := by
  unfold sendReplay
  try dsimp only
  repeat' first
    | with_reducible assumption | with_reducible exact trivial | with_reducible apply some_core | with_reducible apply none_core
    | with_reducible apply somep_core | with_reducible apply nonep_core | with_reducible apply startFrame_core
    | with_reducible apply idleFill_core | with_reducible apply modLink_core | with_reducible apply countPort_core
    | with_reducible apply getD_core | simp only [kept_mk, kept_fold] | (intro _) | with_reducible rfl | split
    | with_reducible apply ite_answer_core | with_reducible apply ite_done_core | with_reducible apply ite_core
    | refine of_pair (by with_reducible assumption) ?_ | refine of_triple (by with_reducible assumption) ?_
    | refine of_some (by with_reducible assumption) ?_ | refine of_somep (by with_reducible assumption) ?_
    | refine of_next (by with_reducible assumption) ?_ | refine of_inl (by with_reducible assumption) ?_

theorem markWaits_core {o₀ : State} (port : Nat) (s : State) (hk : Kept o₀ s) :
    Kept o₀ (markWaits port s) := by
  unfold markWaits
  try dsimp only
  repeat' first
    | with_reducible assumption | with_reducible apply countQueue_core | with_reducible apply setQueue_core
    | with_reducible apply foldl_core | with_reducible apply foldl_kept2 | with_reducible apply foldl_kept3 | simp only [kept_mk, kept_fold]
    | (intro _) | with_reducible rfl | split | with_reducible apply ite_core | refine of_pair (by with_reducible assumption) ?_
    | refine of_some (by with_reducible assumption) ?_ | refine of_next (by with_reducible assumption) ?_
    | refine of_inl (by with_reducible assumption) ?_

theorem popHead_core {o₀ : State} (port v : Nat) (s : State) (hk : Kept o₀ s) :
    Kept o₀ (popHead port v s) := by
  unfold popHead
  try dsimp only
  repeat' first
    | with_reducible assumption | with_reducible apply setQueue_core | simp only [kept_mk, kept_fold] | with_reducible rfl

theorem noteOversize_core {o₀ : State} (port v : Nat) (f : Frame) (s : State) (hk : Kept o₀ s) :
    Kept o₀ (noteOversize port v f s) := by
  unfold noteOversize
  try dsimp only
  repeat' first
    | with_reducible assumption | with_reducible apply raiseLimited_core | with_reducible apply raise_core
    | with_reducible apply countQueue_core | (intro _) | with_reducible rfl | split | with_reducible apply ite_core

theorem sendNew_core {o₀ : State} (port : Nat) (v : Nat) (x : Held) (round : Round) (s : State) (hk : Kept o₀ s) :
    Kept o₀ (sendNew port v x round s) := by
  unfold sendNew
  try dsimp only
  repeat' first
    | with_reducible assumption | with_reducible exact trivial | with_reducible apply noteOversize_core
    | with_reducible apply startFrame_core | with_reducible apply stampFrame_core | with_reducible apply spendShaper_core
    | with_reducible apply freeFrame_core | with_reducible apply modLink_core | with_reducible apply countQueue_core
    | with_reducible apply countPort_core | simp only [kept_mk, kept_fold] | (intro _) | with_reducible rfl | split
    | with_reducible apply ite_answer_core | with_reducible apply ite_done_core | with_reducible apply ite_core
    | refine of_pair (by with_reducible assumption) ?_ | refine of_triple (by with_reducible assumption) ?_
    | refine of_some (by with_reducible assumption) ?_ | refine of_somep (by with_reducible assumption) ?_
    | refine of_next (by with_reducible assumption) ?_ | refine of_inl (by with_reducible assumption) ?_

theorem execFrameTransmit_core {o₀ : State} (port : Nat) (err : ReadError) (s : State) (hk : Kept o₀ s) :
    KeptAnswer o₀ (execFrameTransmit port err s) := by
  unfold execFrameTransmit
  split
  · trivial
  · split
    · exact hk
    · dsimp only
      have hk := markWaits_core port _ (fillCaps_core port _ (endFrame_core port _ hk))
      split
      · exact touchHeads_core _ _ (sendReplay_core _ _ _ hk)
      · split
        · exact touchHeads_core _ _ (idleFill_core _ _ (modLink_core _ _ _ hk))
        · split
          · apply next_core; apply idleFill_core; split
            · exact hk
            · exact countPort_core _ _ _ _ (modLink_core _ _ _ hk)
          · rename_i v x _ _
            have hk := noteReadError_core (hallOf port) err _ (popHead_core port v _ hk)
            split
            · exact touchHeads_core _ _ (sendNew_core _ _ _ _ _ hk)
            · refine touchHeads_core _ _ (lostFrame_core _ _ _ _ _ _ ?_)
              split
              · exact abandonFrame_core _ _ _ hk
              · exact hk

theorem countRelay_core {o₀ : State} (src : Nat) (dst : Nat) (route : Nat) (cells : Nat) (s : State) (hk : Kept o₀ s) :
    Kept o₀ (countRelay src dst route cells s) := by
  unfold countRelay
  try dsimp only
  repeat' first
    | with_reducible assumption | with_reducible exact trivial | with_reducible apply modHall_core | simp only [kept_mk, kept_fold]
    | (intro _) | with_reducible rfl | split | with_reducible apply ite_answer_core | with_reducible apply ite_done_core
    | with_reducible apply ite_core | refine of_pair (by with_reducible assumption) ?_
    | refine of_triple (by with_reducible assumption) ?_ | refine of_some (by with_reducible assumption) ?_
    | refine of_somep (by with_reducible assumption) ?_ | refine of_next (by with_reducible assumption) ?_
    | refine of_inl (by with_reducible assumption) ?_

theorem execCrossHallArrival_core {o₀ : State} (src : Nat) (dst : Nat) (s : State) (hk : Kept o₀ s) :
    KeptAnswer o₀ (execCrossHallArrival src dst s) := by
  unfold execCrossHallArrival
  try dsimp only
  repeat' first
    | with_reducible assumption | with_reducible exact trivial | with_reducible apply next_core | with_reducible apply refused_core
    | with_reducible apply some_core | with_reducible apply none_core | with_reducible apply somep_core
    | with_reducible apply nonep_core | with_reducible apply countRelay_core | with_reducible apply arrive_core
    | with_reducible apply freeFrame_core | with_reducible apply modHall_core | with_reducible apply countHall_core
    | simp only [kept_mk, kept_fold] | (intro _) | with_reducible rfl | split | with_reducible apply ite_answer_core
    | with_reducible apply ite_done_core | with_reducible apply ite_core | refine of_pair (by with_reducible assumption) ?_
    | refine of_triple (by with_reducible assumption) ?_ | refine of_some (by with_reducible assumption) ?_
    | refine of_somep (by with_reducible assumption) ?_ | refine of_next (by with_reducible assumption) ?_
    | refine of_inl (by with_reducible assumption) ?_

theorem moveFrame_core {o₀ : State} (h : Nat) (y : Held) (s : State) (hk : Kept o₀ s) :
    Kept o₀ (moveFrame h y s) := by
  unfold moveFrame
  try dsimp only
  repeat' first
    | with_reducible assumption | with_reducible apply freeFrame_core | with_reducible apply latchkeyDrop_core
    | with_reducible apply linkTail_core | with_reducible apply sendAcross_core | simp only [kept_mk, kept_fold] | with_reducible rfl
    | split | with_reducible apply ite_core

theorem expireHead_core {o₀ : State} (port : Nat) (v : Nat) (x : Held) (s : State) (hk : Kept o₀ s) :
    Kept o₀ (expireHead port v x s) := by
  unfold expireHead
  try dsimp only
  repeat' first
    | with_reducible assumption | with_reducible exact trivial | with_reducible apply some_core | with_reducible apply none_core
    | with_reducible apply somep_core | with_reducible apply nonep_core | with_reducible apply moveFrame_core
    | with_reducible apply popHead_core | with_reducible apply stairChoice_core | with_reducible apply dispose_core
    | with_reducible apply toChute_core | with_reducible apply countHall_core | simp only [kept_mk, kept_fold] | (intro _)
    | with_reducible rfl | split | with_reducible apply ite_answer_core | with_reducible apply ite_done_core
    | with_reducible apply ite_core | refine of_pair (by with_reducible assumption) ?_
    | refine of_triple (by with_reducible assumption) ?_ | refine of_some (by with_reducible assumption) ?_
    | refine of_somep (by with_reducible assumption) ?_ | refine of_next (by with_reducible assumption) ?_
    | refine of_inl (by with_reducible assumption) ?_

theorem checkHeads_core {o₀ : State} (port : Nat) (s : State) (hk : Kept o₀ s) :
    Kept o₀ (checkHeads port s) := by
  unfold checkHeads
  try dsimp only
  repeat' first
    | with_reducible assumption | with_reducible apply touchHeads_core | with_reducible apply expireHead_core
    | with_reducible apply foldl_core | with_reducible apply foldl_kept2 | with_reducible apply foldl_kept3 | (intro _) | with_reducible rfl
    | split | with_reducible apply ite_core | refine of_pair (by with_reducible assumption) ?_
    | refine of_some (by with_reducible assumption) ?_ | refine of_next (by with_reducible assumption) ?_
    | refine of_inl (by with_reducible assumption) ?_

theorem execHeadTimerCheck_core {o₀ : State} (s : State) (hk : Kept o₀ s) :
    KeptAnswer o₀ (execHeadTimerCheck s) := by
  unfold execHeadTimerCheck
  try dsimp only
  repeat' first
    | with_reducible assumption | with_reducible apply next_core | with_reducible apply refused_core | with_reducible apply checkHeads_core
    | with_reducible apply foldl_core | with_reducible apply foldl_kept2 | with_reducible apply foldl_kept3 | (intro _) | with_reducible rfl

theorem execLinkWeightsSet_core {o₀ : State} (q : Request) (s : State) (hk : Kept o₀ s) :
    KeptAnswer o₀ (execLinkWeightsSet q s) := by
  unfold execLinkWeightsSet
  try dsimp only
  repeat' first
    | with_reducible assumption | with_reducible apply next_core | with_reducible apply refused_core | with_reducible apply runCommand_core
    | with_reducible apply withChecks_core | with_reducible apply stageDone_core | (intro _) | with_reducible rfl

theorem execLinkStatusRead_core {o₀ : State} (q : Request) (s : State) (hk : Kept o₀ s) :
    KeptAnswer o₀ (execLinkStatusRead q s) := by
  unfold execLinkStatusRead
  try dsimp only
  repeat' first
    | with_reducible assumption | with_reducible apply next_core | with_reducible apply refused_core | with_reducible apply ok_core
    | with_reducible apply runCommand_core | with_reducible apply withChecks_core | (intro _) | with_reducible rfl

theorem execLinkRetrain_core {o₀ : State} (q : Request) (s : State) (hk : Kept o₀ s) :
    KeptAnswer o₀ (execLinkRetrain q s) := by
  unfold execLinkRetrain
  try dsimp only
  repeat' first
    | with_reducible assumption | with_reducible apply next_core | with_reducible apply refused_core | with_reducible apply wait_core
    | with_reducible apply runCommand_core | with_reducible apply withChecks_core | with_reducible apply retrain_core
    | simp only [kept_mk, kept_fold] | (intro _) | with_reducible rfl

/-! ## Machine/Scheduling.lean -/

theorem execGateEntryChange_core {o₀ : State} (port : Nat) (s : State) (hk : Kept o₀ s) :
    KeptAnswer o₀ (execGateEntryChange port s) := by
  unfold execGateEntryChange
  try dsimp only
  repeat' first
    | with_reducible assumption | with_reducible apply next_core | with_reducible apply refused_core | with_reducible apply guard_core
    | with_reducible apply touchHeads_core | with_reducible apply markWaits_core | with_reducible rfl

theorem layActions_core {o₀ : State} (k : ItemKey) (p : Bytes) (s : State) (hk : Kept o₀ s) :
    Kept o₀ (layActions k p s) := by
  unfold layActions
  try dsimp only
  repeat' first
    | with_reducible assumption | with_reducible exact trivial | simp only [kept_mk, kept_fold] | (intro _) | with_reducible rfl
    | split | with_reducible apply ite_answer_core | with_reducible apply ite_done_core | with_reducible apply ite_core
    | refine of_pair (by with_reducible assumption) ?_ | refine of_triple (by with_reducible assumption) ?_
    | refine of_some (by with_reducible assumption) ?_ | refine of_somep (by with_reducible assumption) ?_
    | refine of_next (by with_reducible assumption) ?_ | refine of_inl (by with_reducible assumption) ?_

theorem execMeterSet_core {o₀ : State} (q : Request) (s : State) (hk : Kept o₀ s) :
    KeptAnswer o₀ (execMeterSet q s) := by
  unfold execMeterSet
  try dsimp only
  repeat' first
    | with_reducible assumption | with_reducible exact trivial | with_reducible apply ok_core | with_reducible apply refuse_core
    | with_reducible apply reply_core | with_reducible apply wait_core | with_reducible apply layActions_core
    | with_reducible apply stageDone_core | with_reducible apply runCommand_core | with_reducible apply withChecks_core
    | with_reducible apply raiseLead_core | with_reducible apply foldl_core | with_reducible apply foldl_kept2
    | with_reducible apply foldl_kept3 | simp only [kept_mk, kept_fold] | (intro _) | with_reducible rfl | split
    | with_reducible apply ite_answer_core | with_reducible apply ite_done_core | with_reducible apply ite_core
    | refine of_pair (by with_reducible assumption) ?_ | refine of_triple (by with_reducible assumption) ?_
    | refine of_some (by with_reducible assumption) ?_ | refine of_somep (by with_reducible assumption) ?_
    | refine of_next (by with_reducible assumption) ?_ | refine of_inl (by with_reducible assumption) ?_

theorem execMeterRead_core {o₀ : State} (q : Request) (s : State) (hk : Kept o₀ s) :
    KeptAnswer o₀ (execMeterRead q s) := by
  unfold execMeterRead
  try dsimp only
  repeat' first
    | with_reducible assumption | with_reducible exact trivial | with_reducible apply ok_core | with_reducible apply refuse_core
    | with_reducible apply reply_core | with_reducible apply wait_core | with_reducible apply runCommand_core
    | with_reducible apply withChecks_core | simp only [kept_mk, kept_fold] | (intro _) | with_reducible rfl | split
    | with_reducible apply ite_answer_core | with_reducible apply ite_done_core | with_reducible apply ite_core
    | refine of_pair (by with_reducible assumption) ?_ | refine of_triple (by with_reducible assumption) ?_
    | refine of_some (by with_reducible assumption) ?_ | refine of_somep (by with_reducible assumption) ?_
    | refine of_next (by with_reducible assumption) ?_ | refine of_inl (by with_reducible assumption) ?_

theorem execShaperSet_core {o₀ : State} (q : Request) (s : State) (hk : Kept o₀ s) :
    KeptAnswer o₀ (execShaperSet q s) := by
  unfold execShaperSet
  try dsimp only
  repeat' first
    | with_reducible assumption | with_reducible apply next_core | with_reducible apply refused_core | with_reducible apply runCommand_core
    | with_reducible apply withChecks_core | with_reducible apply stageDone_core | (intro _) | with_reducible rfl | split
    | with_reducible apply ite_answer_core | with_reducible apply ite_core

theorem execShaperRead_core {o₀ : State} (q : Request) (s : State) (hk : Kept o₀ s) :
    KeptAnswer o₀ (execShaperRead q s) := by
  unfold execShaperRead
  try dsimp only
  repeat' first
    | with_reducible assumption | with_reducible apply next_core | with_reducible apply refused_core | with_reducible apply ok_core
    | with_reducible apply runCommand_core | with_reducible apply withChecks_core | (intro _) | with_reducible rfl

theorem execGateListWrite_core {o₀ : State} (q : Request) (s : State) (hk : Kept o₀ s) :
    KeptAnswer o₀ (execGateListWrite q s) := by
  unfold execGateListWrite
  try dsimp only
  repeat' first
    | with_reducible assumption | with_reducible exact trivial | with_reducible apply ok_core | with_reducible apply refuse_core
    | with_reducible apply reply_core | with_reducible apply wait_core | with_reducible apply stageDone_core
    | with_reducible apply runCommand_core | with_reducible apply withChecks_core | with_reducible apply getD_core
    | simp only [kept_mk, kept_fold] | (intro _) | with_reducible rfl | split | with_reducible apply ite_answer_core
    | with_reducible apply ite_done_core | with_reducible apply ite_core | refine of_pair (by with_reducible assumption) ?_
    | refine of_triple (by with_reducible assumption) ?_ | refine of_some (by with_reducible assumption) ?_
    | refine of_somep (by with_reducible assumption) ?_ | refine of_next (by with_reducible assumption) ?_
    | refine of_inl (by with_reducible assumption) ?_

theorem execGateListRead_core {o₀ : State} (q : Request) (s : State) (hk : Kept o₀ s) :
    KeptAnswer o₀ (execGateListRead q s) := by
  unfold execGateListRead
  try dsimp only
  repeat' first
    | with_reducible assumption | with_reducible apply next_core | with_reducible apply refused_core | with_reducible apply ok_core
    | with_reducible apply runCommand_core | with_reducible apply withChecks_core | (intro _) | with_reducible rfl | split
    | with_reducible apply ite_answer_core | with_reducible apply ite_done_core | with_reducible apply ite_core
    | refine of_pair (by with_reducible assumption) ?_ | refine of_some (by with_reducible assumption) ?_
    | refine of_next (by with_reducible assumption) ?_ | refine of_inl (by with_reducible assumption) ?_

theorem execMarkSet_core {o₀ : State} (q : Request) (s : State) (hk : Kept o₀ s) :
    KeptAnswer o₀ (execMarkSet q s) := by
  unfold execMarkSet
  try dsimp only
  repeat' first
    | with_reducible assumption | with_reducible apply next_core | with_reducible apply refused_core | with_reducible apply runCommand_core
    | with_reducible apply withChecks_core | with_reducible apply stageDone_core | (intro _) | with_reducible rfl

theorem execSchedWeightsSet_core {o₀ : State} (q : Request) (s : State) (hk : Kept o₀ s) :
    KeptAnswer o₀ (execSchedWeightsSet q s) := by
  unfold execSchedWeightsSet
  try dsimp only
  repeat' first
    | with_reducible assumption | with_reducible apply next_core | with_reducible apply refused_core | with_reducible apply runCommand_core
    | with_reducible apply withChecks_core | with_reducible apply stageDone_core | simp only [kept_mk, kept_fold] | (intro _)
    | with_reducible rfl

/-! ## Machine/Buffers.lean -/

theorem holdStall_core {o₀ : State} (h : Nat) (s : State) (hk : Kept o₀ s) :
    Kept o₀ (holdStall h s) := by
  unfold holdStall
  try dsimp only
  repeat' first
    | with_reducible assumption | with_reducible exact trivial | with_reducible apply some_core | with_reducible apply none_core
    | with_reducible apply somep_core | with_reducible apply nonep_core | with_reducible apply modHall_core
    | with_reducible apply raiseLimited_core | with_reducible apply raise_core | simp only [kept_mk, kept_fold] | (intro _)
    | with_reducible rfl | split | with_reducible apply ite_answer_core | with_reducible apply ite_done_core
    | with_reducible apply ite_core | refine of_pair (by with_reducible assumption) ?_
    | refine of_triple (by with_reducible assumption) ?_ | refine of_some (by with_reducible assumption) ?_
    | refine of_somep (by with_reducible assumption) ?_ | refine of_next (by with_reducible assumption) ?_
    | refine of_inl (by with_reducible assumption) ?_

theorem execHeldFrameRetry_core {o₀ : State} (hall : Nat) (s : State) (hk : Kept o₀ s) :
    KeptAnswer o₀ (execHeldFrameRetry hall s) := by
  unfold execHeldFrameRetry
  try dsimp only
  repeat' first
    | with_reducible assumption | with_reducible exact trivial | with_reducible apply holdStall_core
    | with_reducible apply withShares_core | with_reducible apply offer_core | with_reducible apply modHall_core
    | with_reducible apply guard_core | with_reducible apply foldl_core | with_reducible apply foldl_kept2
    | with_reducible apply foldl_kept3 | simp only [kept_mk, kept_fold] | (intro _) | with_reducible rfl | split
    | with_reducible apply ite_answer_core | with_reducible apply ite_done_core | with_reducible apply ite_core
    | refine of_pair (by with_reducible assumption) ?_ | refine of_triple (by with_reducible assumption) ?_
    | refine of_some (by with_reducible assumption) ?_ | refine of_somep (by with_reducible assumption) ?_
    | refine of_next (by with_reducible assumption) ?_ | refine of_inl (by with_reducible assumption) ?_

theorem execBufferLoop_core {o₀ : State} (hall : Nat) (s : State) (hk : Kept o₀ s) :
    KeptAnswer o₀ (execBufferLoop hall s) := by
  unfold execBufferLoop
  try dsimp only
  repeat' first
    | with_reducible assumption | with_reducible apply next_core | with_reducible apply refused_core | with_reducible apply refuse_core
    | with_reducible apply modHall_core | with_reducible apply guard_core | with_reducible apply countHall_core
    | with_reducible apply getD_core | simp only [kept_mk, kept_fold] | (intro _) | with_reducible rfl | split
    | with_reducible apply ite_answer_core | with_reducible apply ite_done_core | with_reducible apply ite_core
    | refine of_pair (by with_reducible assumption) ?_ | refine of_some (by with_reducible assumption) ?_
    | refine of_next (by with_reducible assumption) ?_ | refine of_inl (by with_reducible assumption) ?_

theorem execSpillWriteAck_core {o₀ : State} (hall : Nat) (s : State) (hk : Kept o₀ s) :
    KeptAnswer o₀ (execSpillWriteAck hall s) := by
  unfold execSpillWriteAck
  try dsimp only
  repeat' first
    | with_reducible assumption | with_reducible apply next_core | with_reducible apply refused_core | with_reducible apply guard_core
    | with_reducible apply freeFrame_core | simp only [kept_mk, kept_fold] | with_reducible rfl | split
    | refine of_pair (by with_reducible assumption) ?_ | refine of_some (by with_reducible assumption) ?_
    | refine of_next (by with_reducible assumption) ?_ | refine of_inl (by with_reducible assumption) ?_

theorem execBufferConfig_core {o₀ : State} (q : Request) (s : State) (hk : Kept o₀ s) :
    KeptAnswer o₀ (execBufferConfig q s) := by
  unfold execBufferConfig
  try dsimp only
  repeat' first
    | with_reducible assumption | with_reducible apply next_core | with_reducible apply refused_core | with_reducible apply refuse_core
    | with_reducible apply runCommand_core | with_reducible apply withChecks_core | with_reducible apply stageDone_core
    | simp only [kept_mk, kept_fold] | (intro _) | with_reducible rfl | split | refine of_pair (by with_reducible assumption) ?_
    | refine of_some (by with_reducible assumption) ?_ | refine of_next (by with_reducible assumption) ?_
    | refine of_inl (by with_reducible assumption) ?_

theorem execBufferRead_core {o₀ : State} (q : Request) (s : State) (hk : Kept o₀ s) :
    KeptAnswer o₀ (execBufferRead q s) := by
  unfold execBufferRead
  try dsimp only
  repeat' first
    | with_reducible assumption | with_reducible exact trivial | with_reducible apply ok_core | with_reducible apply refuse_core
    | with_reducible apply reply_core | with_reducible apply wait_core | with_reducible apply runCommand_core
    | with_reducible apply withChecks_core | simp only [kept_mk, kept_fold] | (intro _) | with_reducible rfl | split
    | with_reducible apply ite_answer_core | with_reducible apply ite_done_core | with_reducible apply ite_core
    | refine of_pair (by with_reducible assumption) ?_ | refine of_triple (by with_reducible assumption) ?_
    | refine of_some (by with_reducible assumption) ?_ | refine of_somep (by with_reducible assumption) ?_
    | refine of_next (by with_reducible assumption) ?_ | refine of_inl (by with_reducible assumption) ?_

/-! ## Machine/CellarMem.lean -/

theorem countPart_core {o₀ : State} (h part idx n : Nat) (s : State) (hk : Kept o₀ s) :
    Kept o₀ (countPart h part idx n s) := by
  unfold countPart
  try dsimp only
  repeat' first
    | with_reducible assumption | with_reducible apply count_core | with_reducible rfl

theorem modCellar_core {o₀ : State} (d : Nat) (g : CellarDie → CellarDie) (s : State) (hk : Kept o₀ s) :
    Kept o₀ (modCellar d g s) := by
  unfold modCellar
  try dsimp only
  repeat' first
    | with_reducible assumption | simp only [kept_mk, kept_fold] | with_reducible rfl

theorem modChannel_core {o₀ : State} (d c : Nat) (g : Channel → Channel) (s : State) (hk : Kept o₀ s) :
    Kept o₀ (modChannel d c g s) := by
  unfold modChannel
  try dsimp only
  repeat' first
    | with_reducible assumption | with_reducible apply modCellar_core | simp only [kept_mk, kept_fold] | (intro _) | with_reducible rfl

theorem modScrub_core {o₀ : State} (h : Nat) (g : Scrub → Scrub) (s : State) (hk : Kept o₀ s) :
    Kept o₀ (modScrub h g s) := by
  unfold modScrub
  try dsimp only
  repeat' first
    | with_reducible assumption | simp only [kept_mk, kept_fold] | with_reducible rfl

theorem cellarUncorr_core {o₀ : State} (h line source : Nat) (s : State) (hk : Kept o₀ s) :
    Kept o₀ (cellarUncorr h line source s) := by
  unfold cellarUncorr
  try dsimp only
  repeat' first
    | with_reducible assumption | with_reducible apply modScrub_core | with_reducible apply raise_core | simp only [kept_mk, kept_fold]
    | (intro _) | with_reducible rfl | split | with_reducible apply ite_core

theorem spareRow_core {o₀ : State} (h d : Nat) (k : RowKey) (s : State) (hk : Kept o₀ s) :
    Kept o₀ (spareRow h d k s) := by
  unfold spareRow
  try dsimp only
  repeat' first
    | with_reducible assumption | with_reducible apply recordFault_core | with_reducible apply raise_core
    | with_reducible apply modCellar_core | simp only [kept_mk, kept_fold] | (intro _) | with_reducible rfl | split
    | with_reducible apply ite_core

theorem failChannel_core {o₀ : State} (h : Nat) (d : Nat) (c : Nat) (why : Nat) (s : State) (hk : Kept o₀ s) :
    Kept o₀ (failChannel h d c why s) := by
  unfold failChannel
  try dsimp only
  repeat' first
    | with_reducible assumption | with_reducible exact trivial | with_reducible apply modChannel_core
    | with_reducible apply recordFault_core | with_reducible apply raise_core | simp only [kept_mk, kept_fold] | (intro _)
    | with_reducible rfl | split | with_reducible apply ite_answer_core | with_reducible apply ite_done_core
    | with_reducible apply ite_core | refine of_pair (by with_reducible assumption) ?_
    | refine of_triple (by with_reducible assumption) ?_ | refine of_some (by with_reducible assumption) ?_
    | refine of_somep (by with_reducible assumption) ?_ | refine of_next (by with_reducible assumption) ?_
    | refine of_inl (by with_reducible assumption) ?_

theorem markChunk_core {o₀ : State} (h : Nat) (d : Nat) (c : Nat) (chunk : Nat) (rows : Nat) (s : State) (hk : Kept o₀ s) :
    Kept o₀ (markChunk h d c chunk rows s) := by
  unfold markChunk
  try dsimp only
  repeat' first
    | with_reducible assumption | with_reducible exact trivial | with_reducible apply some_core | with_reducible apply none_core
    | with_reducible apply somep_core | with_reducible apply nonep_core | with_reducible apply failChannel_core
    | with_reducible apply modChannel_core | with_reducible apply recordFault_core | with_reducible apply raise_core
    | with_reducible apply count_core | simp only [kept_mk, kept_fold] | (intro _) | with_reducible rfl | split
    | with_reducible apply ite_answer_core | with_reducible apply ite_done_core | with_reducible apply ite_core
    | refine of_pair (by with_reducible assumption) ?_ | refine of_triple (by with_reducible assumption) ?_
    | refine of_some (by with_reducible assumption) ?_ | refine of_somep (by with_reducible assumption) ?_
    | refine of_next (by with_reducible assumption) ?_ | refine of_inl (by with_reducible assumption) ?_

theorem feedTriggers_core {o₀ : State} (h : Nat) (line : Nat) (chunk : Nat) (s : State) (hk : Kept o₀ s) :
    Kept o₀ (feedTriggers h line chunk s) := by
  unfold feedTriggers
  try dsimp only
  repeat' first
    | with_reducible assumption | with_reducible exact trivial | with_reducible apply some_core | with_reducible apply none_core
    | with_reducible apply somep_core | with_reducible apply nonep_core | with_reducible apply markChunk_core
    | with_reducible apply spareRow_core | with_reducible apply modChannel_core | with_reducible apply modCellar_core
    | simp only [kept_mk, kept_fold] | (intro _) | with_reducible rfl | split | with_reducible apply ite_answer_core
    | with_reducible apply ite_done_core | with_reducible apply ite_core | refine of_pair (by with_reducible assumption) ?_
    | refine of_triple (by with_reducible assumption) ?_ | refine of_some (by with_reducible assumption) ?_
    | refine of_somep (by with_reducible assumption) ?_ | refine of_next (by with_reducible assumption) ?_
    | refine of_inl (by with_reducible assumption) ?_

theorem noteLine_core {o₀ : State} (h : Nat) (line : Nat) (obs : LineObs) (s : State) (hk : Kept o₀ s) :
    Kept o₀ (noteLine h line obs s) := by
  unfold noteLine
  try dsimp only
  repeat' first
    | with_reducible assumption | with_reducible exact trivial | with_reducible apply failChannel_core
    | simp only [kept_mk, kept_fold] | (intro _) | with_reducible rfl | split | with_reducible apply ite_answer_core
    | with_reducible apply ite_done_core | with_reducible apply ite_core | refine of_pair (by with_reducible assumption) ?_
    | refine of_triple (by with_reducible assumption) ?_ | refine of_some (by with_reducible assumption) ?_
    | refine of_somep (by with_reducible assumption) ?_ | refine of_next (by with_reducible assumption) ?_
    | refine of_inl (by with_reducible assumption) ?_

theorem scrubLine_core {o₀ : State} (h : Nat) (line : Nat) (obs : LineObs) (s : State) (hk : Kept o₀ s) :
    Kept o₀ (scrubLine h line obs s) := by
  unfold scrubLine
  try dsimp only
  repeat' first
    | with_reducible assumption | with_reducible exact trivial | with_reducible apply noteLine_core
    | with_reducible apply feedTriggers_core | with_reducible apply spareRow_core | with_reducible apply cellarUncorr_core
    | with_reducible apply countPart_core | simp only [kept_mk, kept_fold] | (intro _) | with_reducible rfl | split
    | with_reducible apply ite_answer_core | with_reducible apply ite_done_core | with_reducible apply ite_core
    | refine of_pair (by with_reducible assumption) ?_ | refine of_triple (by with_reducible assumption) ?_
    | refine of_some (by with_reducible assumption) ?_ | refine of_somep (by with_reducible assumption) ?_
    | refine of_next (by with_reducible assumption) ?_ | refine of_inl (by with_reducible assumption) ?_

theorem demandLine_core {o₀ : State} (h : Nat) (part : Nat) (line : Nat) (find : LineFind) (s : State) (hk : Kept o₀ s) :
    Kept o₀ (demandLine h part line find s) := by
  unfold demandLine
  try dsimp only
  repeat' first
    | with_reducible assumption | with_reducible exact trivial | with_reducible apply feedTriggers_core
    | with_reducible apply spareRow_core | with_reducible apply cellarUncorr_core | with_reducible apply countPart_core
    | simp only [kept_mk, kept_fold] | (intro _) | with_reducible rfl | split | with_reducible apply ite_answer_core
    | with_reducible apply ite_done_core | with_reducible apply ite_core | refine of_pair (by with_reducible assumption) ?_
    | refine of_triple (by with_reducible assumption) ?_ | refine of_some (by with_reducible assumption) ?_
    | refine of_somep (by with_reducible assumption) ?_ | refine of_next (by with_reducible assumption) ?_
    | refine of_inl (by with_reducible assumption) ?_

theorem serveAccess_core {o₀ : State} (h : Nat) (a : Access) (s : State) (hk : Kept o₀ s) :
    Kept o₀ (serveAccess h a s) := by
  unfold serveAccess
  try dsimp only
  repeat' first
    | with_reducible assumption | with_reducible exact trivial | with_reducible apply demandLine_core
    | with_reducible apply scrubLine_core | with_reducible apply noteLine_core | simp only [kept_mk, kept_fold] | (intro _)
    | with_reducible rfl | split | with_reducible apply ite_answer_core | with_reducible apply ite_done_core
    | with_reducible apply ite_core | refine of_pair (by with_reducible assumption) ?_
    | refine of_triple (by with_reducible assumption) ?_ | refine of_some (by with_reducible assumption) ?_
    | refine of_somep (by with_reducible assumption) ?_ | refine of_next (by with_reducible assumption) ?_
    | refine of_inl (by with_reducible assumption) ?_

theorem countServed_core {o₀ : State} (d : Nat) (c : Nat) (s : State) (hk : Kept o₀ s) :
    Kept o₀ (countServed d c s) := by
  unfold countServed
  try dsimp only
  repeat' first
    | with_reducible assumption | with_reducible exact trivial | with_reducible apply modChannel_core
    | simp only [kept_mk, kept_fold] | (intro _) | with_reducible rfl | split | with_reducible apply ite_answer_core
    | with_reducible apply ite_done_core | with_reducible apply ite_core | refine of_pair (by with_reducible assumption) ?_
    | refine of_triple (by with_reducible assumption) ?_ | refine of_some (by with_reducible assumption) ?_
    | refine of_somep (by with_reducible assumption) ?_ | refine of_next (by with_reducible assumption) ?_
    | refine of_inl (by with_reducible assumption) ?_

theorem askAccess_core {o₀ : State} (h : Nat) (a : Access) (s : State) (hk : Kept o₀ s) :
    Kept o₀ (askAccess h a s) := by
  unfold askAccess
  try dsimp only
  repeat' first
    | with_reducible assumption | with_reducible exact trivial | with_reducible apply countServed_core
    | with_reducible apply serveAccess_core | with_reducible apply modChannel_core | simp only [kept_mk, kept_fold] | (intro _)
    | with_reducible rfl | split | with_reducible apply ite_answer_core | with_reducible apply ite_done_core
    | with_reducible apply ite_core | refine of_pair (by with_reducible assumption) ?_
    | refine of_triple (by with_reducible assumption) ?_ | refine of_some (by with_reducible assumption) ?_
    | refine of_somep (by with_reducible assumption) ?_ | refine of_next (by with_reducible assumption) ?_
    | refine of_inl (by with_reducible assumption) ?_

theorem serveChannel_core {o₀ : State} (d : Nat) (c : Nat) (s : State) (hk : Kept o₀ s) :
    Kept o₀ (serveChannel d c s) := by
  unfold serveChannel
  try dsimp only
  repeat' first
    | with_reducible assumption | with_reducible exact trivial | with_reducible apply some_core | with_reducible apply none_core
    | with_reducible apply somep_core | with_reducible apply nonep_core | with_reducible apply countServed_core
    | with_reducible apply serveAccess_core | with_reducible apply modChannel_core | simp only [kept_mk, kept_fold] | (intro _)
    | with_reducible rfl | split | with_reducible apply ite_answer_core | with_reducible apply ite_done_core
    | with_reducible apply ite_core | refine of_pair (by with_reducible assumption) ?_
    | refine of_triple (by with_reducible assumption) ?_ | refine of_some (by with_reducible assumption) ?_
    | refine of_somep (by with_reducible assumption) ?_ | refine of_next (by with_reducible assumption) ?_
    | refine of_inl (by with_reducible assumption) ?_

theorem serveCellars_core {o₀ : State} (s : State) (hk : Kept o₀ s) :
    Kept o₀ (serveCellars s) := by
  unfold serveCellars
  try dsimp only
  repeat' first
    | with_reducible assumption | with_reducible exact trivial | with_reducible apply serveChannel_core
    | with_reducible apply foldl_core | with_reducible apply foldl_kept2 | with_reducible apply foldl_kept3
    | simp only [kept_mk, kept_fold] | (intro _) | with_reducible rfl | split | with_reducible apply ite_answer_core
    | with_reducible apply ite_done_core | with_reducible apply ite_core | refine of_pair (by with_reducible assumption) ?_
    | refine of_triple (by with_reducible assumption) ?_ | refine of_some (by with_reducible assumption) ?_
    | refine of_somep (by with_reducible assumption) ?_ | refine of_next (by with_reducible assumption) ?_
    | refine of_inl (by with_reducible assumption) ?_

theorem execCellarScrub_core {o₀ : State} (hall : Nat) (obs : LineObs) (s : State) (hk : Kept o₀ s) :
    KeptAnswer o₀ (execCellarScrub hall obs s) := by
  unfold execCellarScrub
  try dsimp only
  repeat' first
    | with_reducible assumption | with_reducible exact trivial | with_reducible apply some_core | with_reducible apply none_core
    | with_reducible apply somep_core | with_reducible apply nonep_core | with_reducible apply askAccess_core
    | with_reducible apply modScrub_core | with_reducible apply modChannel_core | with_reducible apply countPart_core
    | with_reducible apply guard_core | with_reducible apply raise_core | simp only [kept_mk, kept_fold] | (intro _)
    | with_reducible rfl | split | with_reducible apply ite_answer_core | with_reducible apply ite_done_core
    | with_reducible apply ite_core | refine of_pair (by with_reducible assumption) ?_
    | refine of_triple (by with_reducible assumption) ?_ | refine of_some (by with_reducible assumption) ?_
    | refine of_somep (by with_reducible assumption) ?_ | refine of_next (by with_reducible assumption) ?_
    | refine of_inl (by with_reducible assumption) ?_

theorem poisonLine_core {o₀ : State} (h : Nat) (s : State) (line : Nat) (hk : Kept o₀ s) :
    Kept o₀ (poisonLine h s line) := by
  unfold poisonLine
  try dsimp only
  repeat' first
    | with_reducible assumption | with_reducible apply cellarUncorr_core | simp only [kept_mk, kept_fold] | with_reducible rfl

theorem execCellarRowSpared_core {o₀ : State} (die : Nat) (lost : List Nat) (s : State) (hk : Kept o₀ s) :
    KeptAnswer o₀ (execCellarRowSpared die lost s) := by
  unfold execCellarRowSpared
  try dsimp only
  repeat' first
    | with_reducible assumption | with_reducible apply next_core | with_reducible apply refused_core | with_reducible apply guard_core
    | with_reducible apply poisonLine_core | with_reducible apply modCellar_core | with_reducible apply count_core
    | with_reducible apply recordFault_core | with_reducible apply raise_core | with_reducible apply foldl_core
    | with_reducible apply foldl_kept2 | with_reducible apply foldl_kept3 | simp only [kept_mk, kept_fold] | (intro _) | with_reducible rfl
    | split | refine of_pair (by with_reducible assumption) ?_ | refine of_some (by with_reducible assumption) ?_
    | refine of_next (by with_reducible assumption) ?_ | refine of_inl (by with_reducible assumption) ?_

theorem execChunkRewriteStart_core {o₀ : State} (die channel : Nat) (s : State) (hk : Kept o₀ s) :
    KeptAnswer o₀ (execChunkRewriteStart die channel s) := by
  unfold execChunkRewriteStart
  try dsimp only
  repeat' first
    | with_reducible assumption | with_reducible apply next_core | with_reducible apply refused_core | with_reducible apply guard_core
    | with_reducible apply modChannel_core | simp only [kept_mk, kept_fold] | (intro _) | with_reducible rfl | split
    | with_reducible apply ite_answer_core | with_reducible apply ite_core

theorem execCellarChunkSpared_core {o₀ : State} (die channel : Nat) (lost : List Nat) (s : State) (hk : Kept o₀ s) :
    KeptAnswer o₀ (execCellarChunkSpared die channel lost s) := by
  unfold execCellarChunkSpared
  try dsimp only
  repeat' first
    | with_reducible assumption | with_reducible apply next_core | with_reducible apply refused_core | with_reducible apply refuse_core
    | with_reducible apply poisonLine_core | with_reducible apply modChannel_core | with_reducible apply count_core
    | with_reducible apply raise_core | with_reducible apply foldl_core | with_reducible apply foldl_kept2
    | with_reducible apply foldl_kept3 | simp only [kept_mk, kept_fold] | (intro _) | with_reducible rfl | split
    | with_reducible apply ite_answer_core | with_reducible apply ite_done_core | with_reducible apply ite_core
    | refine of_pair (by with_reducible assumption) ?_ | refine of_some (by with_reducible assumption) ?_
    | refine of_next (by with_reducible assumption) ?_ | refine of_inl (by with_reducible assumption) ?_

theorem execCellarRefresh_core {o₀ : State} (die : Nat) (s : State) (hk : Kept o₀ s) :
    KeptAnswer o₀ (execCellarRefresh die s) := by
  unfold execCellarRefresh
  try dsimp only
  repeat' first
    | with_reducible assumption | with_reducible apply next_core | with_reducible apply refused_core | with_reducible apply guard_core
    | with_reducible apply modCellar_core | simp only [kept_mk, kept_fold] | (intro _) | with_reducible rfl

theorem execCellarRefreshMode_core {o₀ : State} (die : Nat) (hottest : Int) (s : State) (hk : Kept o₀ s) :
    KeptAnswer o₀ (execCellarRefreshMode die hottest s) := by
  unfold execCellarRefreshMode
  try dsimp only
  repeat' first
    | with_reducible assumption | with_reducible apply next_core | with_reducible apply refused_core | with_reducible apply modCellar_core
    | with_reducible apply raise_core | with_reducible apply guard_core | with_reducible apply getD_core | simp only [kept_mk, kept_fold]
    | (intro _) | with_reducible rfl | split | with_reducible apply ite_answer_core | with_reducible apply ite_core

theorem execSpillReturn_core {o₀ : State} (port : Nat) (vc : Nat) (err : ReadError) (lines : List (Nat × LineObs)) (s : State)
    (hk : Kept o₀ s) :
    KeptAnswer o₀ (execSpillReturn port vc err lines s) := by
  unfold execSpillReturn
  try dsimp only
  repeat' first
    | with_reducible assumption | with_reducible exact trivial | with_reducible apply next_core | with_reducible apply refused_core
    | with_reducible apply some_core | with_reducible apply none_core | with_reducible apply somep_core
    | with_reducible apply nonep_core | with_reducible apply askAccess_core | with_reducible apply lostFrame_core
    | with_reducible apply linkTail_core | with_reducible apply useTokens_core | with_reducible apply countLines_core
    | with_reducible apply freeFrame_core | with_reducible apply chargePool_core | with_reducible apply setQueue_core
    | with_reducible apply raise_core | with_reducible apply countHall_core | with_reducible apply foldl_core
    | with_reducible apply foldl_kept2 | with_reducible apply foldl_kept3 | simp only [kept_mk, kept_fold] | (intro _)
    | with_reducible rfl | split | with_reducible apply ite_answer_core | with_reducible apply ite_done_core
    | with_reducible apply ite_core | refine of_pair (by with_reducible assumption) ?_
    | refine of_triple (by with_reducible assumption) ?_ | refine of_some (by with_reducible assumption) ?_
    | refine of_somep (by with_reducible assumption) ?_ | refine of_next (by with_reducible assumption) ?_
    | refine of_inl (by with_reducible assumption) ?_

theorem execCellarStatus_core {o₀ : State} (q : Request) (s : State) (hk : Kept o₀ s) :
    KeptAnswer o₀ (execCellarStatus q s) := by
  unfold execCellarStatus
  try dsimp only
  repeat' first
    | with_reducible assumption | with_reducible apply next_core | with_reducible apply refused_core | with_reducible apply ok_core
    | with_reducible apply runCommand_core | with_reducible apply withChecks_core | simp only [kept_mk, kept_fold] | (intro _)
    | with_reducible rfl | split | refine of_pair (by with_reducible assumption) ?_ | refine of_some (by with_reducible assumption) ?_
    | refine of_next (by with_reducible assumption) ?_ | refine of_inl (by with_reducible assumption) ?_

theorem execCellarRegulatorSet_core {o₀ : State} (q : Request) (s : State) (hk : Kept o₀ s) :
    KeptAnswer o₀ (execCellarRegulatorSet q s) := by
  unfold execCellarRegulatorSet
  try dsimp only
  repeat' first
    | with_reducible assumption | with_reducible apply next_core | with_reducible apply refused_core | with_reducible apply runCommand_core
    | with_reducible apply withChecks_core | with_reducible apply stageDone_core | simp only [kept_mk, kept_fold] | (intro _)
    | with_reducible rfl

theorem execCellarMemtest_core {o₀ : State} (q : Request) (s : State) (hk : Kept o₀ s) :
    KeptAnswer o₀ (execCellarMemtest q s) := by
  unfold execCellarMemtest
  try dsimp only
  repeat' first
    | with_reducible assumption | with_reducible apply next_core | with_reducible apply refused_core | with_reducible apply wait_core
    | with_reducible apply runCommand_core | with_reducible apply withChecks_core | simp only [kept_mk, kept_fold] | (intro _)
    | with_reducible rfl | split | with_reducible apply ite_answer_core | with_reducible apply ite_core

theorem execCellarMemtestDone_core {o₀ : State} (hall : Nat) (found : List (Nat × LineObs)) (s : State) (hk : Kept o₀ s) :
    KeptAnswer o₀ (execCellarMemtestDone hall found s) := by
  unfold execCellarMemtestDone
  try dsimp only
  repeat' first
    | with_reducible assumption | with_reducible exact trivial | with_reducible apply next_core | with_reducible apply refused_core
    | with_reducible apply some_core | with_reducible apply none_core | with_reducible apply somep_core
    | with_reducible apply nonep_core | with_reducible apply scrubLine_core | with_reducible apply complete_core
    | with_reducible apply guard_core | with_reducible apply getD_core | with_reducible apply foldl_core
    | with_reducible apply foldl_kept2 | with_reducible apply foldl_kept3 | simp only [kept_mk, kept_fold] | (intro _)
    | with_reducible rfl | split | with_reducible apply ite_answer_core | with_reducible apply ite_done_core
    | with_reducible apply ite_core | refine of_pair (by with_reducible assumption) ?_
    | refine of_triple (by with_reducible assumption) ?_ | refine of_some (by with_reducible assumption) ?_
    | refine of_somep (by with_reducible assumption) ?_ | refine of_next (by with_reducible assumption) ?_
    | refine of_inl (by with_reducible assumption) ?_

end Sys2Proof.Machine
end

