-- ==== Sys2Proof/Laws/KeptLight.lean ====
section
/-!
SUPPORT. What the commands of Windows, light and the Transom leave alone.
-/
namespace Sys2Proof.Machine

/-! ## Machine/Windows.lean -/

theorem modModule_core {o₀ : State} (m : Nat) (g : LaserModule → LaserModule) (s : State) (hk : Kept o₀ s) :
    Kept o₀ (modModule m g s) := by
  unfold modModule
  try dsimp only
  repeat' first
    | with_reducible assumption | simp only [kept_mk, kept_fold] | with_reducible rfl

theorem modLight_core {o₀ : State} (w : Nat) (g : Light → Light) (s : State) (hk : Kept o₀ s) :
    Kept o₀ (modLight w g s) := by
  unfold modLight
  try dsimp only
  repeat' first
    | with_reducible assumption | simp only [kept_mk, kept_fold] | with_reducible rfl | split | with_reducible apply ite_core

theorem noteRingLost_core {o₀ : State} (w l : Nat) (s : State) (hk : Kept o₀ s) :
    Kept o₀ (noteRingLost w l s) := by
  unfold noteRingLost
  try dsimp only
  repeat' first
    | with_reducible assumption | with_reducible apply modLight_core | simp only [kept_mk, kept_fold] | (intro _) | with_reducible rfl

theorem modPoint_core {o₀ : State} (w : Nat) (k : Nat × Nat × Nat) (g : MonitorPoint → MonitorPoint) (s : State) (hk : Kept o₀ s) :
    Kept o₀ (modPoint w k g s) := by
  unfold modPoint
  try dsimp only
  repeat' first
    | with_reducible assumption | with_reducible apply modLight_core | simp only [kept_mk, kept_fold] | (intro _) | with_reducible rfl

theorem setLos_core {o₀ : State} (w : Nat) (k : Nat × Nat × Nat) (los : Bool) (s : State) (hk : Kept o₀ s) :
    Kept o₀ (setLos w k los s) := by
  unfold setLos
  try dsimp only
  repeat' first
    | with_reducible assumption | with_reducible apply modPoint_core | simp only [kept_mk, kept_fold] | (intro _) | with_reducible rfl

theorem lightFound_core {o₀ : State} (w : Nat) (l : Nat) (side : Nat) (s : State) (hk : Kept o₀ s) :
    Kept o₀ (lightFound w l side s) := by
  unfold lightFound
  try dsimp only
  repeat' first
    | with_reducible assumption | with_reducible exact trivial | with_reducible apply modLight_core
    | with_reducible apply clearFault_core | with_reducible apply raise_core | simp only [kept_mk, kept_fold] | (intro _)
    | with_reducible rfl | split | with_reducible apply ite_answer_core | with_reducible apply ite_done_core
    | with_reducible apply ite_core | refine of_pair (by with_reducible assumption) ?_
    | refine of_triple (by with_reducible assumption) ?_ | refine of_some (by with_reducible assumption) ?_
    | refine of_somep (by with_reducible assumption) ?_ | refine of_next (by with_reducible assumption) ?_
    | refine of_inl (by with_reducible assumption) ?_

theorem takeLight_core {o₀ : State} (w : Nat) (l : Nat) (side : Nat) (s : State) (hk : Kept o₀ s) :
    Kept o₀ (takeLight w l side s) := by
  unfold takeLight
  try dsimp only
  repeat' first
    | with_reducible assumption | with_reducible exact trivial | with_reducible apply lightFound_core
    | with_reducible apply modLight_core | simp only [kept_mk, kept_fold] | (intro _) | with_reducible rfl | split
    | with_reducible apply ite_answer_core | with_reducible apply ite_done_core | with_reducible apply ite_core
    | refine of_pair (by with_reducible assumption) ?_ | refine of_triple (by with_reducible assumption) ?_
    | refine of_some (by with_reducible assumption) ?_ | refine of_somep (by with_reducible assumption) ?_
    | refine of_next (by with_reducible assumption) ?_ | refine of_inl (by with_reducible assumption) ?_

theorem selectLight_core {o₀ : State} (w : Nat) (s : State) (hk : Kept o₀ s) :
    Kept o₀ (selectLight w s) := by
  unfold selectLight
  try dsimp only
  repeat' first
    | with_reducible assumption | with_reducible exact trivial | with_reducible apply takeLight_core
    | with_reducible apply modLight_core | with_reducible apply foldl_core | with_reducible apply foldl_kept2
    | with_reducible apply foldl_kept3 | simp only [kept_mk, kept_fold] | (intro _) | with_reducible rfl | split
    | with_reducible apply ite_answer_core | with_reducible apply ite_done_core | with_reducible apply ite_core
    | refine of_pair (by with_reducible assumption) ?_ | refine of_triple (by with_reducible assumption) ?_
    | refine of_some (by with_reducible assumption) ?_ | refine of_somep (by with_reducible assumption) ?_
    | refine of_next (by with_reducible assumption) ?_ | refine of_inl (by with_reducible assumption) ?_

theorem downPorts_core {o₀ : State} (w : Nat) (s : State) (hk : Kept o₀ s) :
    Kept o₀ (downPorts w s) := by
  unfold downPorts
  try dsimp only
  repeat' first
    | with_reducible assumption | with_reducible apply setPortState_core | with_reducible apply linkDown_core
    | with_reducible apply foldl_core | with_reducible apply foldl_kept2 | with_reducible apply foldl_kept3 | (intro _) | with_reducible rfl

theorem answerWindow_core {o₀ : State} (w : Nat) (s : State) (hk : Kept o₀ s) :
    Kept o₀ (answerWindow w s) := by
  unfold answerWindow
  try dsimp only
  repeat' first
    | with_reducible assumption | with_reducible apply complete_core | (intro _) | with_reducible rfl | split
    | with_reducible apply ite_core

theorem startBringUp_core {o₀ : State} (w : Nat) (keepLight : Bool) (s : State) (hk : Kept o₀ s) :
    Kept o₀ (startBringUp w keepLight s) := by
  unfold startBringUp
  try dsimp only
  repeat' first
    | with_reducible assumption | with_reducible apply downPorts_core | with_reducible apply selectLight_core
    | with_reducible apply modWindow_core | simp only [kept_mk, kept_fold] | (intro _) | with_reducible rfl | split
    | with_reducible apply ite_core

theorem windowOutOfService_core {o₀ : State} (w cause : Nat) (s : State) (hk : Kept o₀ s) :
    Kept o₀ (windowOutOfService w cause s) := by
  unfold windowOutOfService
  try dsimp only
  repeat' first
    | with_reducible assumption | with_reducible apply modWindow_core | with_reducible apply raise_core
    | with_reducible apply downPorts_core | with_reducible apply answerWindow_core | with_reducible apply advertise_core
    | with_reducible apply recordFault_core | simp only [kept_mk, kept_fold] | (intro _) | with_reducible rfl

theorem execWindowLightTimeout_core {o₀ : State} (window : Nat) (rings : Bool) (s : State) (hk : Kept o₀ s) :
    KeptAnswer o₀ (execWindowLightTimeout window rings s) := by
  unfold execWindowLightTimeout
  try dsimp only
  repeat' first
    | with_reducible assumption | with_reducible exact trivial | with_reducible apply windowOutOfService_core
    | with_reducible apply guard_core | simp only [kept_mk, kept_fold] | (intro _) | with_reducible rfl | split
    | with_reducible apply ite_answer_core | with_reducible apply ite_done_core | with_reducible apply ite_core
    | refine of_pair (by with_reducible assumption) ?_ | refine of_triple (by with_reducible assumption) ?_
    | refine of_some (by with_reducible assumption) ?_ | refine of_somep (by with_reducible assumption) ?_
    | refine of_next (by with_reducible assumption) ?_ | refine of_inl (by with_reducible assumption) ?_

theorem drawEqualiser_core {o₀ : State} (s : State) (hk : Kept o₀ s) :
    Kept o₀ (drawEqualiser s).2 := by
  unfold drawEqualiser
  try dsimp only
  repeat' first
    | with_reducible assumption | with_reducible exact trivial | with_reducible apply drawInt_core | with_reducible apply draw_core
    | with_reducible apply foldl_core | with_reducible apply foldl_kept2 | with_reducible apply foldl_kept3
    | simp only [kept_mk, kept_fold] | (intro _) | with_reducible rfl | split | with_reducible apply ite_answer_core
    | with_reducible apply ite_done_core | with_reducible apply ite_core | refine of_pair (by with_reducible assumption) ?_
    | refine of_triple (by with_reducible assumption) ?_ | refine of_some (by with_reducible assumption) ?_
    | refine of_somep (by with_reducible assumption) ?_ | refine of_next (by with_reducible assumption) ?_
    | refine of_inl (by with_reducible assumption) ?_

theorem convergePort_core {o₀ : State} (p : Nat) (s : State) (hk : Kept o₀ s) :
    Kept o₀ (convergePort p s) := by
  unfold convergePort
  try dsimp only
  repeat' first
    | with_reducible assumption | with_reducible exact trivial | with_reducible apply drawEqualiser_core
    | with_reducible apply modPort_core | with_reducible apply foldl_core | with_reducible apply foldl_kept2
    | with_reducible apply foldl_kept3 | simp only [kept_mk, kept_fold] | (intro _) | with_reducible rfl | split
    | with_reducible apply ite_answer_core | with_reducible apply ite_done_core | with_reducible apply ite_core
    | refine of_pair (by with_reducible assumption) ?_ | refine of_triple (by with_reducible assumption) ?_
    | refine of_some (by with_reducible assumption) ?_ | refine of_somep (by with_reducible assumption) ?_
    | refine of_next (by with_reducible assumption) ?_ | refine of_inl (by with_reducible assumption) ?_

theorem tunePort_core {o₀ : State} (p : Nat) (s : State) (hk : Kept o₀ s) :
    Kept o₀ (tunePort p s) := by
  unfold tunePort
  try dsimp only
  repeat' first
    | with_reducible assumption | with_reducible exact trivial | with_reducible apply setPortState_core
    | with_reducible apply modPort_core | simp only [kept_mk, kept_fold] | (intro _) | with_reducible rfl | split
    | with_reducible apply ite_answer_core | with_reducible apply ite_done_core | with_reducible apply ite_core
    | refine of_pair (by with_reducible assumption) ?_ | refine of_triple (by with_reducible assumption) ?_
    | refine of_some (by with_reducible assumption) ?_ | refine of_somep (by with_reducible assumption) ?_
    | refine of_next (by with_reducible assumption) ?_ | refine of_inl (by with_reducible assumption) ?_

theorem stepInt_core {o₀ : State} (v : Int) (s : State) (hk : Kept o₀ s) :
    Kept o₀ (stepInt v s).2 := by
  unfold stepInt
  try dsimp only
  repeat' first
    | with_reducible assumption | with_reducible exact trivial | with_reducible apply draw_core | simp only [kept_mk, kept_fold]
    | (intro _) | with_reducible rfl | split | with_reducible apply ite_answer_core | with_reducible apply ite_done_core
    | with_reducible apply ite_core | refine of_pair (by with_reducible assumption) ?_
    | refine of_triple (by with_reducible assumption) ?_ | refine of_some (by with_reducible assumption) ?_
    | refine of_somep (by with_reducible assumption) ?_ | refine of_next (by with_reducible assumption) ?_
    | refine of_inl (by with_reducible assumption) ?_

theorem stepEqualiser_core {o₀ : State} (e : Equaliser) (s : State) (hk : Kept o₀ s) :
    Kept o₀ (stepEqualiser e s).2 := by
  unfold stepEqualiser
  try dsimp only
  repeat' first
    | with_reducible assumption | with_reducible exact trivial | with_reducible apply some_core | with_reducible apply none_core
    | with_reducible apply somep_core | with_reducible apply nonep_core | with_reducible apply stepInt_core
    | with_reducible apply foldl_core | with_reducible apply foldl_kept2 | with_reducible apply foldl_kept3
    | simp only [kept_mk, kept_fold] | (intro _) | with_reducible rfl | split | with_reducible apply ite_answer_core
    | with_reducible apply ite_done_core | with_reducible apply ite_core | refine of_pair (by with_reducible assumption) ?_
    | refine of_triple (by with_reducible assumption) ?_ | refine of_some (by with_reducible assumption) ?_
    | refine of_somep (by with_reducible assumption) ?_ | refine of_next (by with_reducible assumption) ?_
    | refine of_inl (by with_reducible assumption) ?_

theorem settlePort_core {o₀ : State} (p : Nat) (s : State) (hk : Kept o₀ s) :
    Kept o₀ (settlePort p s) := by
  unfold settlePort
  try dsimp only
  repeat' first
    | with_reducible assumption | with_reducible exact trivial | with_reducible apply tunePort_core
    | with_reducible apply setPortState_core | simp only [kept_mk, kept_fold] | (intro _) | with_reducible rfl | split
    | with_reducible apply ite_answer_core | with_reducible apply ite_done_core | with_reducible apply ite_core
    | refine of_pair (by with_reducible assumption) ?_ | refine of_triple (by with_reducible assumption) ?_
    | refine of_some (by with_reducible assumption) ?_ | refine of_somep (by with_reducible assumption) ?_
    | refine of_next (by with_reducible assumption) ?_ | refine of_inl (by with_reducible assumption) ?_

theorem execPortPhyReady_core {o₀ : State} (port : Nat) (s : State) (hk : Kept o₀ s) :
    KeptAnswer o₀ (execPortPhyReady port s) := by
  unfold execPortPhyReady
  try dsimp only
  repeat' first
    | with_reducible assumption | with_reducible exact trivial | with_reducible apply next_core | with_reducible apply refused_core
    | with_reducible apply convergePort_core | with_reducible apply answerWindow_core | with_reducible apply startTraining_core
    | with_reducible apply setPortState_core | simp only [kept_mk, kept_fold] | (intro _) | with_reducible rfl | split
    | with_reducible apply ite_answer_core | with_reducible apply ite_done_core | with_reducible apply ite_core
    | refine of_pair (by with_reducible assumption) ?_ | refine of_triple (by with_reducible assumption) ?_
    | refine of_some (by with_reducible assumption) ?_ | refine of_somep (by with_reducible assumption) ?_
    | refine of_next (by with_reducible assumption) ?_ | refine of_inl (by with_reducible assumption) ?_

theorem modLambda_core {o₀ : State} (pair l : Nat) (g : Lambda → Lambda) (s : State) (hk : Kept o₀ s) :
    Kept o₀ (modLambda pair l g s) := by
  unfold modLambda
  try dsimp only
  repeat' first
    | with_reducible assumption | with_reducible apply modFibre_core | with_reducible apply getD_core | simp only [kept_mk, kept_fold]
    | (intro _) | with_reducible rfl

theorem sendIdle_core {o₀ : State} (pair : Nat) (l : Nat) (s : State) (hk : Kept o₀ s) :
    Kept o₀ (sendIdle pair l s) := by
  unfold sendIdle
  try dsimp only
  repeat' first
    | with_reducible assumption | with_reducible exact trivial | with_reducible apply emit_core | simp only [kept_mk, kept_fold]
    | (intro _) | with_reducible rfl | split | with_reducible apply ite_answer_core | with_reducible apply ite_done_core
    | with_reducible apply ite_core | refine of_pair (by with_reducible assumption) ?_
    | refine of_triple (by with_reducible assumption) ?_ | refine of_some (by with_reducible assumption) ?_
    | refine of_somep (by with_reducible assumption) ?_ | refine of_next (by with_reducible assumption) ?_
    | refine of_inl (by with_reducible assumption) ?_

theorem idlePort_core {o₀ : State} (p : Nat) (s : State) (hk : Kept o₀ s) :
    Kept o₀ (idlePort p s) := by
  unfold idlePort
  try dsimp only
  repeat' first
    | with_reducible assumption | with_reducible exact trivial | with_reducible apply sendIdle_core
    | with_reducible apply foldl_core | with_reducible apply foldl_kept2 | with_reducible apply foldl_kept3
    | simp only [kept_mk, kept_fold] | (intro _) | with_reducible rfl | split | with_reducible apply ite_answer_core
    | with_reducible apply ite_done_core | with_reducible apply ite_core | refine of_pair (by with_reducible assumption) ?_
    | refine of_triple (by with_reducible assumption) ?_ | refine of_some (by with_reducible assumption) ?_
    | refine of_somep (by with_reducible assumption) ?_ | refine of_next (by with_reducible assumption) ?_
    | refine of_inl (by with_reducible assumption) ?_

theorem park_core {o₀ : State} (pair : Nat) (l : Nat) (k : Nat) (s : State) (hk : Kept o₀ s) :
    Kept o₀ (park pair l k s) := by
  unfold park
  try dsimp only
  repeat' first
    | with_reducible assumption | with_reducible exact trivial | with_reducible apply modLambda_core
    | with_reducible apply emit_core | simp only [kept_mk, kept_fold] | (intro _) | with_reducible rfl | split
    | with_reducible apply ite_answer_core | with_reducible apply ite_done_core | with_reducible apply ite_core
    | refine of_pair (by with_reducible assumption) ?_ | refine of_triple (by with_reducible assumption) ?_
    | refine of_some (by with_reducible assumption) ?_ | refine of_somep (by with_reducible assumption) ?_
    | refine of_next (by with_reducible assumption) ?_ | refine of_inl (by with_reducible assumption) ?_

theorem lastLane_core {o₀ : State} (p : Nat) (k : Nat) (cls : Nat) (temp : Bool) (s : State) (hk : Kept o₀ s) :
    Kept o₀ (lastLane p k cls temp s) := by
  unfold lastLane
  try dsimp only
  repeat' first
    | with_reducible assumption | with_reducible exact trivial | with_reducible apply linkDown_core
    | with_reducible apply setPortState_core | with_reducible apply recordFault_core | with_reducible apply raise_core
    | simp only [kept_mk, kept_fold] | (intro _) | with_reducible rfl | split | with_reducible apply ite_answer_core
    | with_reducible apply ite_done_core | with_reducible apply ite_core | refine of_pair (by with_reducible assumption) ?_
    | refine of_triple (by with_reducible assumption) ?_ | refine of_some (by with_reducible assumption) ?_
    | refine of_somep (by with_reducible assumption) ?_ | refine of_next (by with_reducible assumption) ?_
    | refine of_inl (by with_reducible assumption) ?_

theorem dropLane_core {o₀ : State} (pair : Nat) (k : Nat) (cls : Nat) (temp : Bool) (s : State) (hk : Kept o₀ s) :
    Kept o₀ (dropLane pair k cls temp s) := by
  unfold dropLane
  try dsimp only
  repeat' first
    | with_reducible assumption | with_reducible exact trivial | with_reducible apply lastLane_core | with_reducible apply park_core
    | with_reducible apply retrain_core | with_reducible apply fillCaps_core | with_reducible apply recordFault_core
    | with_reducible apply modFibre_core | with_reducible apply raise_core | simp only [kept_mk, kept_fold] | (intro _)
    | with_reducible rfl | split | with_reducible apply ite_answer_core | with_reducible apply ite_done_core
    | with_reducible apply ite_core | refine of_pair (by with_reducible assumption) ?_
    | refine of_triple (by with_reducible assumption) ?_ | refine of_some (by with_reducible assumption) ?_
    | refine of_somep (by with_reducible assumption) ?_ | refine of_next (by with_reducible assumption) ?_
    | refine of_inl (by with_reducible assumption) ?_

theorem failSpare_core {o₀ : State} (pair : Nat) (tx : Bool) (s : State) (hk : Kept o₀ s) :
    Kept o₀ (failSpare pair tx s) := by
  unfold failSpare
  try dsimp only
  repeat' first
    | with_reducible assumption | with_reducible apply recordFault_core | with_reducible apply raise_core
    | with_reducible apply modFibre_core | simp only [kept_mk, kept_fold] | (intro _) | with_reducible rfl

theorem bridge_core {o₀ : State} (pair k cls : Nat) (s : State) (hk : Kept o₀ s) :
    Kept o₀ (bridge pair k cls s) := by
  unfold bridge
  try dsimp only
  repeat' first
    | with_reducible assumption | with_reducible apply emit_core | with_reducible apply modFibre_core | simp only [kept_mk, kept_fold]
    | (intro _) | with_reducible rfl

theorem withdrawBridge_core {o₀ : State} (pair : Nat) (k : Nat) (s : State) (hk : Kept o₀ s) :
    Kept o₀ (withdrawBridge pair k s) := by
  unfold withdrawBridge
  try dsimp only
  repeat' first
    | with_reducible assumption | with_reducible exact trivial | with_reducible apply sendIdle_core
    | with_reducible apply modFibre_core | with_reducible apply emit_core | simp only [kept_mk, kept_fold] | (intro _)
    | with_reducible rfl | split | with_reducible apply ite_answer_core | with_reducible apply ite_done_core
    | with_reducible apply ite_core | refine of_pair (by with_reducible assumption) ?_
    | refine of_triple (by with_reducible assumption) ?_ | refine of_some (by with_reducible assumption) ?_
    | refine of_somep (by with_reducible assumption) ?_ | refine of_next (by with_reducible assumption) ?_
    | refine of_inl (by with_reducible assumption) ?_

theorem laneFaulty_core {o₀ : State} (pair : Nat) (k : Nat) (cls : Nat) (s : State) (hk : Kept o₀ s) :
    Kept o₀ (laneFaulty pair k cls s) := by
  unfold laneFaulty
  try dsimp only
  repeat' first
    | with_reducible assumption | with_reducible exact trivial | with_reducible apply withdrawBridge_core
    | with_reducible apply bridge_core | with_reducible apply dropLane_core | with_reducible apply modFibre_core
    | simp only [kept_mk, kept_fold] | (intro _) | with_reducible rfl | split | with_reducible apply ite_answer_core
    | with_reducible apply ite_done_core | with_reducible apply ite_core | refine of_pair (by with_reducible assumption) ?_
    | refine of_triple (by with_reducible assumption) ?_ | refine of_some (by with_reducible assumption) ?_
    | refine of_somep (by with_reducible assumption) ?_ | refine of_next (by with_reducible assumption) ?_
    | refine of_inl (by with_reducible assumption) ?_

theorem settleWaiting_core {o₀ : State} (pair : Nat) (s : State) (hk : Kept o₀ s) :
    Kept o₀ (settleWaiting pair s) := by
  unfold settleWaiting
  try dsimp only
  repeat' first
    | with_reducible assumption | with_reducible apply dropLane_core | with_reducible apply modFibre_core | with_reducible apply foldl_core
    | with_reducible apply foldl_kept2 | with_reducible apply foldl_kept3 | simp only [kept_mk, kept_fold] | (intro _) | with_reducible rfl

theorem faultLanes_core {o₀ : State} (pair : Nat) (lambda : Nat) (fclass : Nat) (tx : Bool) (missing : Bool) (s : State)
    (hk : Kept o₀ s) :
    Kept o₀ (faultLanes pair lambda fclass tx missing s) := by
  unfold faultLanes
  try dsimp only
  repeat' first
    | with_reducible assumption | with_reducible exact trivial | with_reducible apply some_core | with_reducible apply none_core
    | with_reducible apply somep_core | with_reducible apply nonep_core | with_reducible apply settleWaiting_core
    | with_reducible apply laneFaulty_core | with_reducible apply failSpare_core | with_reducible apply dropLane_core
    | with_reducible apply modFibre_core | simp only [kept_mk, kept_fold] | (intro _) | with_reducible rfl | split
    | with_reducible apply ite_answer_core | with_reducible apply ite_done_core | with_reducible apply ite_core
    | refine of_pair (by with_reducible assumption) ?_ | refine of_triple (by with_reducible assumption) ?_
    | refine of_some (by with_reducible assumption) ?_ | refine of_somep (by with_reducible assumption) ?_
    | refine of_next (by with_reducible assumption) ?_ | refine of_inl (by with_reducible assumption) ?_

theorem laneFault_core {o₀ : State} (pair : Nat) (lambda : Nat) (fclass : Nat) (tx : Bool) (missing : Bool) (s : State)
    (hk : Kept o₀ s) :
    Kept o₀ (laneFault pair lambda fclass tx missing s) := by
  unfold laneFault
  try dsimp only
  repeat' first
    | with_reducible assumption | with_reducible exact trivial | with_reducible apply faultLanes_core
    | with_reducible apply modLambda_core | with_reducible apply setLos_core | with_reducible apply noteRingLost_core
    | with_reducible apply raise_core | simp only [kept_mk, kept_fold] | (intro _) | with_reducible rfl | split
    | with_reducible apply ite_answer_core | with_reducible apply ite_done_core | with_reducible apply ite_core
    | refine of_pair (by with_reducible assumption) ?_ | refine of_triple (by with_reducible assumption) ?_
    | refine of_some (by with_reducible assumption) ?_ | refine of_somep (by with_reducible assumption) ?_
    | refine of_next (by with_reducible assumption) ?_ | refine of_inl (by with_reducible assumption) ?_

theorem execLaneFault_core {o₀ : State} (pair : Nat) (lambda : Nat) (fclass : Nat) (tx : Bool) (level : Int) (s : State)
    (hk : Kept o₀ s) :
    KeptAnswer o₀ (execLaneFault pair lambda fclass tx level s) := by
  unfold execLaneFault
  try dsimp only
  repeat' first
    | with_reducible assumption | with_reducible exact trivial | with_reducible apply next_core | with_reducible apply refused_core
    | with_reducible apply laneFault_core | simp only [kept_mk, kept_fold] | (intro _) | with_reducible rfl | split
    | with_reducible apply ite_answer_core | with_reducible apply ite_done_core | with_reducible apply ite_core
    | refine of_pair (by with_reducible assumption) ?_ | refine of_triple (by with_reducible assumption) ?_
    | refine of_some (by with_reducible assumption) ?_ | refine of_somep (by with_reducible assumption) ?_
    | refine of_next (by with_reducible assumption) ?_ | refine of_inl (by with_reducible assumption) ?_

theorem execLambdaBridgeIdentified_core {o₀ : State} (pair : Nat) (k : Option Nat) (s : State) (hk : Kept o₀ s) :
    KeptAnswer o₀ (execLambdaBridgeIdentified pair k s) := by
  unfold execLambdaBridgeIdentified
  try dsimp only
  repeat' first
    | with_reducible assumption | with_reducible exact trivial | with_reducible apply next_core | with_reducible apply refused_core
    | with_reducible apply some_core | with_reducible apply none_core | with_reducible apply somep_core
    | with_reducible apply nonep_core | with_reducible apply withdrawBridge_core | with_reducible apply dropLane_core
    | with_reducible apply modFibre_core | with_reducible apply raise_core | with_reducible apply emit_core
    | with_reducible apply getD_core | simp only [kept_mk, kept_fold] | (intro _) | with_reducible rfl | split
    | with_reducible apply ite_answer_core | with_reducible apply ite_done_core | with_reducible apply ite_core
    | refine of_pair (by with_reducible assumption) ?_ | refine of_triple (by with_reducible assumption) ?_
    | refine of_some (by with_reducible assumption) ?_ | refine of_somep (by with_reducible assumption) ?_
    | refine of_next (by with_reducible assumption) ?_ | refine of_inl (by with_reducible assumption) ?_

theorem execLambdaSpareSelect_core {o₀ : State} (pair : Nat) (s : State) (hk : Kept o₀ s) :
    KeptAnswer o₀ (execLambdaSpareSelect pair s) := by
  unfold execLambdaSpareSelect
  try dsimp only
  repeat' first
    | with_reducible assumption | with_reducible apply next_core | with_reducible apply refused_core | with_reducible apply recordFault_core
    | with_reducible apply raise_core | with_reducible apply emit_core | with_reducible apply modFibre_core
    | with_reducible apply guard_core | simp only [kept_mk, kept_fold] | (intro _) | with_reducible rfl | split
    | with_reducible apply ite_answer_core | with_reducible apply ite_core | refine of_pair (by with_reducible assumption) ?_
    | refine of_some (by with_reducible assumption) ?_ | refine of_next (by with_reducible assumption) ?_
    | refine of_inl (by with_reducible assumption) ?_

theorem execLambdaPark_core {o₀ : State} (pair : Nat) (s : State) (hk : Kept o₀ s) :
    KeptAnswer o₀ (execLambdaPark pair s) := by
  unfold execLambdaPark
  try dsimp only
  repeat' first
    | with_reducible assumption | with_reducible exact trivial | with_reducible apply settleWaiting_core
    | with_reducible apply park_core | with_reducible apply modFibre_core | with_reducible apply guard_core
    | simp only [kept_mk, kept_fold] | (intro _) | with_reducible rfl | split | with_reducible apply ite_answer_core
    | with_reducible apply ite_done_core | with_reducible apply ite_core | refine of_pair (by with_reducible assumption) ?_
    | refine of_triple (by with_reducible assumption) ?_ | refine of_some (by with_reducible assumption) ?_
    | refine of_somep (by with_reducible assumption) ?_ | refine of_next (by with_reducible assumption) ?_
    | refine of_inl (by with_reducible assumption) ?_

theorem execSpareBridgeTimeout_core {o₀ : State} (pair : Nat) (s : State) (hk : Kept o₀ s) :
    KeptAnswer o₀ (execSpareBridgeTimeout pair s) := by
  unfold execSpareBridgeTimeout
  try dsimp only
  repeat' first
    | with_reducible assumption | with_reducible exact trivial | with_reducible apply settleWaiting_core
    | with_reducible apply withdrawBridge_core | with_reducible apply dropLane_core | with_reducible apply modFibre_core
    | with_reducible apply guard_core | simp only [kept_mk, kept_fold] | (intro _) | with_reducible rfl | split
    | with_reducible apply ite_answer_core | with_reducible apply ite_done_core | with_reducible apply ite_core
    | refine of_pair (by with_reducible assumption) ?_ | refine of_triple (by with_reducible assumption) ?_
    | refine of_some (by with_reducible assumption) ?_ | refine of_somep (by with_reducible assumption) ?_
    | refine of_next (by with_reducible assumption) ?_ | refine of_inl (by with_reducible assumption) ?_

theorem resumeIdle_core {o₀ : State} (pair : Nat) (l : Nat) (s : State) (hk : Kept o₀ s) :
    Kept o₀ (resumeIdle pair l s) := by
  unfold resumeIdle
  try dsimp only
  repeat' first
    | with_reducible assumption | with_reducible exact trivial | with_reducible apply sendIdle_core
    | with_reducible apply modLambda_core | with_reducible apply emit_core | with_reducible apply getD_core
    | simp only [kept_mk, kept_fold] | (intro _) | with_reducible rfl | split | with_reducible apply ite_answer_core
    | with_reducible apply ite_done_core | with_reducible apply ite_core | refine of_pair (by with_reducible assumption) ?_
    | refine of_triple (by with_reducible assumption) ?_ | refine of_some (by with_reducible assumption) ?_
    | refine of_somep (by with_reducible assumption) ?_ | refine of_next (by with_reducible assumption) ?_
    | refine of_inl (by with_reducible assumption) ?_

theorem execPortLaneRestored_core {o₀ : State} (pair : Nat) (lambda : Nat) (s : State) (hk : Kept o₀ s) :
    KeptAnswer o₀ (execPortLaneRestored pair lambda s) := by
  unfold execPortLaneRestored
  try dsimp only
  repeat' first
    | with_reducible assumption | with_reducible exact trivial | with_reducible apply next_core | with_reducible apply refused_core
    | with_reducible apply modLambda_core | with_reducible apply startTraining_core | with_reducible apply retrain_core
    | with_reducible apply fillCaps_core | with_reducible apply setPortState_core | with_reducible apply clearFault_core
    | with_reducible apply modFibre_core | with_reducible apply raise_core | with_reducible apply emit_core
    | with_reducible apply draw_core | with_reducible apply getD_core | simp only [kept_mk, kept_fold] | (intro _)
    | with_reducible rfl | split | with_reducible apply ite_answer_core | with_reducible apply ite_done_core
    | with_reducible apply ite_core | refine of_pair (by with_reducible assumption) ?_
    | refine of_triple (by with_reducible assumption) ?_ | refine of_some (by with_reducible assumption) ?_
    | refine of_somep (by with_reducible assumption) ?_ | refine of_next (by with_reducible assumption) ?_
    | refine of_inl (by with_reducible assumption) ?_

theorem execRingHeadroom_core {o₀ : State} (pair : Nat) (lambda : Nat) (tx : Bool) (pct : Nat) (s : State) (hk : Kept o₀ s) :
    KeptAnswer o₀ (execRingHeadroom pair lambda tx pct s) := by
  unfold execRingHeadroom
  try dsimp only
  repeat' first
    | with_reducible assumption | with_reducible exact trivial | with_reducible apply laneFault_core
    | with_reducible apply modLambda_core | with_reducible apply guard_core | with_reducible apply raiseLimited_core
    | with_reducible apply raise_core | with_reducible apply getD_core | simp only [kept_mk, kept_fold] | (intro _)
    | with_reducible rfl | split | with_reducible apply ite_answer_core | with_reducible apply ite_done_core
    | with_reducible apply ite_core | refine of_pair (by with_reducible assumption) ?_
    | refine of_triple (by with_reducible assumption) ?_ | refine of_some (by with_reducible assumption) ?_
    | refine of_somep (by with_reducible assumption) ?_ | refine of_next (by with_reducible assumption) ?_
    | refine of_inl (by with_reducible assumption) ?_

theorem execEqAdaptStep_core {o₀ : State} (port : Nat) (lane : Nat) (margin : Nat) (s : State) (hk : Kept o₀ s) :
    KeptAnswer o₀ (execEqAdaptStep port lane margin s) := by
  unfold execEqAdaptStep
  try dsimp only
  repeat' first
    | with_reducible assumption | with_reducible exact trivial | with_reducible apply stepEqualiser_core
    | with_reducible apply modPort_core | with_reducible apply guard_core | with_reducible apply getD_core
    | simp only [kept_mk, kept_fold] | (intro _) | with_reducible rfl | split | with_reducible apply ite_answer_core
    | with_reducible apply ite_done_core | with_reducible apply ite_core | refine of_pair (by with_reducible assumption) ?_
    | refine of_triple (by with_reducible assumption) ?_ | refine of_some (by with_reducible assumption) ?_
    | refine of_somep (by with_reducible assumption) ?_ | refine of_next (by with_reducible assumption) ?_
    | refine of_inl (by with_reducible assumption) ?_

theorem execEqMarginLow_core {o₀ : State} (port lane margin : Nat) (s : State) (hk : Kept o₀ s) :
    KeptAnswer o₀ (execEqMarginLow port lane margin s) := by
  unfold execEqMarginLow
  try dsimp only
  repeat' first
    | with_reducible assumption | with_reducible apply next_core | with_reducible apply refused_core | with_reducible apply guard_core
    | with_reducible apply raise_core | with_reducible apply modPort_core | simp only [kept_mk, kept_fold] | (intro _) | with_reducible rfl

theorem execPortConfig_core {o₀ : State} (q : Request) (s : State) (hk : Kept o₀ s) :
    KeptAnswer o₀ (execPortConfig q s) := by
  unfold execPortConfig
  try dsimp only
  repeat' first
    | with_reducible assumption | with_reducible apply next_core | with_reducible apply refused_core | with_reducible apply ok_core
    | with_reducible apply runCommand_core | with_reducible apply withChecks_core | with_reducible apply modPort_core
    | with_reducible apply foldl_core | with_reducible apply foldl_kept2 | with_reducible apply foldl_kept3 | simp only [kept_mk, kept_fold]
    | (intro _) | with_reducible rfl

theorem execPortStateRead_core {o₀ : State} (q : Request) (s : State) (hk : Kept o₀ s) :
    KeptAnswer o₀ (execPortStateRead q s) := by
  unfold execPortStateRead
  try dsimp only
  repeat' first
    | with_reducible assumption | with_reducible exact trivial | with_reducible apply ok_core | with_reducible apply refuse_core
    | with_reducible apply reply_core | with_reducible apply wait_core | with_reducible apply runCommand_core
    | with_reducible apply withChecks_core | with_reducible apply draw_core | with_reducible apply getD_core
    | with_reducible apply foldl_core | with_reducible apply foldl_kept2 | with_reducible apply foldl_kept3
    | simp only [kept_mk, kept_fold] | (intro _) | with_reducible rfl | split | with_reducible apply ite_answer_core
    | with_reducible apply ite_done_core | with_reducible apply ite_core | refine of_pair (by with_reducible assumption) ?_
    | refine of_triple (by with_reducible assumption) ?_ | refine of_some (by with_reducible assumption) ?_
    | refine of_somep (by with_reducible assumption) ?_ | refine of_next (by with_reducible assumption) ?_
    | refine of_inl (by with_reducible assumption) ?_

theorem enablePort_core {o₀ : State} (on : Bool) (s : State) (p : Nat) (hk : Kept o₀ s) :
    Kept o₀ (enablePort on s p) := by
  unfold enablePort
  try dsimp only
  repeat' first
    | with_reducible assumption | with_reducible exact trivial | with_reducible apply idlePort_core
    | with_reducible apply settlePort_core | with_reducible apply linkDown_core | with_reducible apply setPortState_core
    | with_reducible apply modPort_core | simp only [kept_mk, kept_fold] | (intro _) | with_reducible rfl | split
    | with_reducible apply ite_answer_core | with_reducible apply ite_done_core | with_reducible apply ite_core
    | refine of_pair (by with_reducible assumption) ?_ | refine of_triple (by with_reducible assumption) ?_
    | refine of_some (by with_reducible assumption) ?_ | refine of_somep (by with_reducible assumption) ?_
    | refine of_next (by with_reducible assumption) ?_ | refine of_inl (by with_reducible assumption) ?_

theorem execPortEnable_core {o₀ : State} (q : Request) (s : State) (hk : Kept o₀ s) :
    KeptAnswer o₀ (execPortEnable q s) := by
  unfold execPortEnable
  try dsimp only
  repeat' first
    | with_reducible assumption | with_reducible apply next_core | with_reducible apply refused_core | with_reducible apply ok_core
    | with_reducible apply runCommand_core | with_reducible apply withChecks_core | with_reducible apply enablePort_core
    | with_reducible apply foldl_core | with_reducible apply foldl_kept2 | with_reducible apply foldl_kept3 | simp only [kept_mk, kept_fold]
    | (intro _) | with_reducible rfl

theorem execGangSet_core {o₀ : State} (q : Request) (s : State) (hk : Kept o₀ s) :
    KeptAnswer o₀ (execGangSet q s) := by
  unfold execGangSet
  try dsimp only
  repeat' first
    | with_reducible assumption | with_reducible apply next_core | with_reducible apply refused_core | with_reducible apply runCommand_core
    | with_reducible apply withChecks_core | with_reducible apply stageDone_core | simp only [kept_mk, kept_fold] | (intro _)
    | with_reducible rfl

theorem execWindowReset_core {o₀ : State} (q : Request) (s : State) (hk : Kept o₀ s) :
    KeptAnswer o₀ (execWindowReset q s) := by
  unfold execWindowReset
  try dsimp only
  repeat' first
    | with_reducible assumption | with_reducible apply next_core | with_reducible apply refused_core | with_reducible apply wait_core
    | with_reducible apply runCommand_core | with_reducible apply withChecks_core | with_reducible apply raise_core
    | with_reducible apply modWindow_core | with_reducible apply advertise_core | with_reducible apply startBringUp_core
    | simp only [kept_mk, kept_fold] | (intro _) | with_reducible rfl

theorem execLambdaMapRead_core {o₀ : State} (q : Request) (s : State) (hk : Kept o₀ s) :
    KeptAnswer o₀ (execLambdaMapRead q s) := by
  unfold execLambdaMapRead
  try dsimp only
  repeat' first
    | with_reducible assumption | with_reducible apply next_core | with_reducible apply refused_core | with_reducible apply ok_core
    | with_reducible apply runCommand_core | with_reducible apply withChecks_core | (intro _) | with_reducible rfl

theorem execPortLoopback_core {o₀ : State} (q : Request) (s : State) (hk : Kept o₀ s) :
    KeptAnswer o₀ (execPortLoopback q s) := by
  unfold execPortLoopback
  try dsimp only
  repeat' first
    | with_reducible assumption | with_reducible exact trivial | with_reducible apply ok_core | with_reducible apply refuse_core
    | with_reducible apply reply_core | with_reducible apply wait_core | with_reducible apply idlePort_core
    | with_reducible apply startTraining_core | with_reducible apply linkDown_core | with_reducible apply runCommand_core
    | with_reducible apply withChecks_core | with_reducible apply setPortState_core | with_reducible apply modPort_core
    | simp only [kept_mk, kept_fold] | (intro _) | with_reducible rfl | split | with_reducible apply ite_answer_core
    | with_reducible apply ite_done_core | with_reducible apply ite_core | refine of_pair (by with_reducible assumption) ?_
    | refine of_triple (by with_reducible assumption) ?_ | refine of_some (by with_reducible assumption) ?_
    | refine of_somep (by with_reducible assumption) ?_ | refine of_next (by with_reducible assumption) ?_
    | refine of_inl (by with_reducible assumption) ?_

theorem execPrbsRun_core {o₀ : State} (q : Request) (s : State) (hk : Kept o₀ s) :
    KeptAnswer o₀ (execPrbsRun q s) := by
  unfold execPrbsRun
  try dsimp only
  repeat' first
    | with_reducible assumption | with_reducible exact trivial | with_reducible apply ok_core | with_reducible apply refuse_core
    | with_reducible apply reply_core | with_reducible apply wait_core | with_reducible apply some_core
    | with_reducible apply none_core | with_reducible apply somep_core | with_reducible apply nonep_core
    | with_reducible apply runCommand_core | with_reducible apply withChecks_core | with_reducible apply setPortState_core
    | with_reducible apply modPort_core | simp only [kept_mk, kept_fold] | (intro _) | with_reducible rfl | split
    | with_reducible apply ite_answer_core | with_reducible apply ite_done_core | with_reducible apply ite_core
    | refine of_pair (by with_reducible assumption) ?_ | refine of_triple (by with_reducible assumption) ?_
    | refine of_some (by with_reducible assumption) ?_ | refine of_somep (by with_reducible assumption) ?_
    | refine of_next (by with_reducible assumption) ?_ | refine of_inl (by with_reducible assumption) ?_

theorem execPrbsRunEnd_core {o₀ : State} (port : Nat) (counts : List (Nat × Nat)) (s : State) (hk : Kept o₀ s) :
    KeptAnswer o₀ (execPrbsRunEnd port counts s) := by
  unfold execPrbsRunEnd
  try dsimp only
  repeat' first
    | with_reducible assumption | with_reducible apply next_core | with_reducible apply refused_core | with_reducible apply guard_core
    | with_reducible apply setPortState_core | with_reducible apply modPort_core | with_reducible apply complete_core
    | simp only [kept_mk, kept_fold] | (intro _) | with_reducible rfl | split | refine of_pair (by with_reducible assumption) ?_
    | refine of_some (by with_reducible assumption) ?_ | refine of_next (by with_reducible assumption) ?_
    | refine of_inl (by with_reducible assumption) ?_

/-! ## Machine/Light.lean -/

theorem modLaser_core {o₀ : State} (m l : Nat) (g : Laser → Laser) (s : State) (hk : Kept o₀ s) :
    Kept o₀ (modLaser m l g s) := by
  unfold modLaser
  try dsimp only
  repeat' first
    | with_reducible assumption | with_reducible apply modModule_core | with_reducible apply getD_core | simp only [kept_mk, kept_fold]
    | (intro _) | with_reducible rfl

theorem darkenRing_core {o₀ : State} (pair : Nat) (l : Nat) (s : State) (hk : Kept o₀ s) :
    Kept o₀ (darkenRing pair l s) := by
  unfold darkenRing
  try dsimp only
  repeat' first
    | with_reducible assumption | with_reducible exact trivial | with_reducible apply modLambda_core
    | with_reducible apply raise_core | with_reducible apply getD_core | simp only [kept_mk, kept_fold] | (intro _)
    | with_reducible rfl | split | with_reducible apply ite_answer_core | with_reducible apply ite_done_core
    | with_reducible apply ite_core | refine of_pair (by with_reducible assumption) ?_
    | refine of_triple (by with_reducible assumption) ?_ | refine of_some (by with_reducible assumption) ?_
    | refine of_somep (by with_reducible assumption) ?_ | refine of_next (by with_reducible assumption) ?_
    | refine of_inl (by with_reducible assumption) ?_

theorem darken_core {o₀ : State} (w : Nat) (l : Nat) (s : State) (hk : Kept o₀ s) :
    Kept o₀ (darken w l s) := by
  unfold darken
  try dsimp only
  repeat' first
    | with_reducible assumption | with_reducible exact trivial | with_reducible apply darkenRing_core
    | with_reducible apply faultLanes_core | with_reducible apply noteRingLost_core | with_reducible apply foldl_core
    | with_reducible apply foldl_kept2 | with_reducible apply foldl_kept3 | simp only [kept_mk, kept_fold] | (intro _)
    | with_reducible rfl | split | with_reducible apply ite_answer_core | with_reducible apply ite_done_core
    | with_reducible apply ite_core | refine of_pair (by with_reducible assumption) ?_
    | refine of_triple (by with_reducible assumption) ?_ | refine of_some (by with_reducible assumption) ?_
    | refine of_somep (by with_reducible assumption) ?_ | refine of_next (by with_reducible assumption) ?_
    | refine of_inl (by with_reducible assumption) ?_

theorem lightGone_core {o₀ : State} (m : Nat) (l : Nat) (s : State) (hk : Kept o₀ s) :
    Kept o₀ (lightGone m l s) := by
  unfold lightGone
  try dsimp only
  repeat' first
    | with_reducible assumption | with_reducible exact trivial | with_reducible apply darken_core
    | with_reducible apply modLaser_core | with_reducible apply takeLight_core | with_reducible apply modLight_core
    | with_reducible apply recordFault_core | with_reducible apply raise_core | with_reducible apply getD_core
    | simp only [kept_mk, kept_fold] | (intro _) | with_reducible rfl | split | with_reducible apply ite_answer_core
    | with_reducible apply ite_done_core | with_reducible apply ite_core | refine of_pair (by with_reducible assumption) ?_
    | refine of_triple (by with_reducible assumption) ?_ | refine of_some (by with_reducible assumption) ?_
    | refine of_somep (by with_reducible assumption) ?_ | refine of_next (by with_reducible assumption) ?_
    | refine of_inl (by with_reducible assumption) ?_

theorem execFeedLos_core {o₀ : State} (m lambda : Nat) (s : State) (hk : Kept o₀ s) :
    KeptAnswer o₀ (execFeedLos m lambda s) := by
  unfold execFeedLos
  try dsimp only
  repeat' first
    | with_reducible assumption | with_reducible apply next_core | with_reducible apply refused_core | with_reducible apply guard_core
    | with_reducible apply lightGone_core | with_reducible apply setLos_core | with_reducible rfl

theorem execLaserInterrupt_core {o₀ : State} (m : Nat) (faulty : List Nat) (s : State) (hk : Kept o₀ s) :
    KeptAnswer o₀ (execLaserInterrupt m faulty s) := by
  unfold execLaserInterrupt
  try dsimp only
  repeat' first
    | with_reducible assumption | with_reducible apply next_core | with_reducible apply refused_core | with_reducible apply guard_core
    | with_reducible apply lightGone_core | with_reducible apply foldl_core | with_reducible apply foldl_kept2
    | with_reducible apply foldl_kept3 | (intro _) | with_reducible rfl | split | with_reducible apply ite_answer_core
    | with_reducible apply ite_core

theorem execLightRestored_core {o₀ : State} (m : Nat) (lambda : Nat) (s : State) (hk : Kept o₀ s) :
    KeptAnswer o₀ (execLightRestored m lambda s) := by
  unfold execLightRestored
  try dsimp only
  repeat' first
    | with_reducible assumption | with_reducible exact trivial | with_reducible apply takeLight_core
    | with_reducible apply setLos_core | with_reducible apply guard_core | with_reducible apply getD_core
    | simp only [kept_mk, kept_fold] | (intro _) | with_reducible rfl | split | with_reducible apply ite_answer_core
    | with_reducible apply ite_done_core | with_reducible apply ite_core | refine of_pair (by with_reducible assumption) ?_
    | refine of_triple (by with_reducible assumption) ?_ | refine of_some (by with_reducible assumption) ?_
    | refine of_somep (by with_reducible assumption) ?_ | refine of_next (by with_reducible assumption) ?_
    | refine of_inl (by with_reducible assumption) ?_

theorem selectMissing_core {o₀ : State} (w : Nat) (s : State) (hk : Kept o₀ s) :
    Kept o₀ (selectMissing w s) := by
  unfold selectMissing
  try dsimp only
  repeat' first
    | with_reducible assumption | with_reducible exact trivial | with_reducible apply takeLight_core
    | with_reducible apply getD_core | with_reducible apply foldl_core | with_reducible apply foldl_kept2
    | with_reducible apply foldl_kept3 | simp only [kept_mk, kept_fold] | (intro _) | with_reducible rfl | split
    | with_reducible apply ite_answer_core | with_reducible apply ite_done_core | with_reducible apply ite_core
    | refine of_pair (by with_reducible assumption) ?_ | refine of_triple (by with_reducible assumption) ?_
    | refine of_some (by with_reducible assumption) ?_ | refine of_somep (by with_reducible assumption) ?_
    | refine of_next (by with_reducible assumption) ?_ | refine of_inl (by with_reducible assumption) ?_

theorem execLaserModuleReady_core {o₀ : State} (m : Nat) (obs : ModuleObs) (s : State) (hk : Kept o₀ s) :
    KeptAnswer o₀ (execLaserModuleReady m obs s) := by
  unfold execLaserModuleReady
  try dsimp only
  repeat' first
    | with_reducible assumption | with_reducible exact trivial | with_reducible apply next_core | with_reducible apply refused_core
    | with_reducible apply selectMissing_core | with_reducible apply selectLight_core | with_reducible apply modModule_core
    | with_reducible apply raise_core | with_reducible apply draw_core | simp only [kept_mk, kept_fold] | (intro _)
    | with_reducible rfl | split | with_reducible apply ite_answer_core | with_reducible apply ite_done_core
    | with_reducible apply ite_core | refine of_pair (by with_reducible assumption) ?_
    | refine of_triple (by with_reducible assumption) ?_ | refine of_some (by with_reducible assumption) ?_
    | refine of_somep (by with_reducible assumption) ?_ | refine of_next (by with_reducible assumption) ?_
    | refine of_inl (by with_reducible assumption) ?_

theorem execLaserModuleInserted_core {o₀ : State} (m : Nat) (s : State) (hk : Kept o₀ s) :
    KeptAnswer o₀ (execLaserModuleInserted m s) := by
  unfold execLaserModuleInserted
  try dsimp only
  repeat' first
    | with_reducible assumption | with_reducible apply next_core | with_reducible apply refused_core | with_reducible apply guard_core
    | with_reducible apply modModule_core | simp only [kept_mk, kept_fold] | (intro _) | with_reducible rfl

theorem execLaserModuleRemoved_core {o₀ : State} (m : Nat) (s : State) (hk : Kept o₀ s) :
    KeptAnswer o₀ (execLaserModuleRemoved m s) := by
  unfold execLaserModuleRemoved
  try dsimp only
  repeat' first
    | with_reducible assumption | with_reducible apply next_core | with_reducible apply refused_core | with_reducible apply refuse_core
    | with_reducible apply raise_core | with_reducible apply modModule_core | with_reducible apply lightGone_core
    | with_reducible apply foldl_core | with_reducible apply foldl_kept2 | with_reducible apply foldl_kept3 | simp only [kept_mk, kept_fold]
    | (intro _) | with_reducible rfl | split | with_reducible apply ite_answer_core | with_reducible apply ite_done_core
    | with_reducible apply ite_core

theorem moveGroup_core {o₀ : State} (w : Nat) (side : Nat) (ls : List Nat) (s : State) (hk : Kept o₀ s) :
    Kept o₀ (moveGroup w side ls s) := by
  unfold moveGroup
  try dsimp only
  repeat' first
    | with_reducible assumption | with_reducible exact trivial | with_reducible apply darken_core
    | with_reducible apply takeLight_core | with_reducible apply modLight_core | with_reducible apply getD_core
    | with_reducible apply foldl_core | with_reducible apply foldl_kept2 | with_reducible apply foldl_kept3
    | simp only [kept_mk, kept_fold] | (intro _) | with_reducible rfl | split | with_reducible apply ite_answer_core
    | with_reducible apply ite_done_core | with_reducible apply ite_core | refine of_pair (by with_reducible assumption) ?_
    | refine of_triple (by with_reducible assumption) ?_ | refine of_some (by with_reducible assumption) ?_
    | refine of_somep (by with_reducible assumption) ?_ | refine of_next (by with_reducible assumption) ?_
    | refine of_inl (by with_reducible assumption) ?_

theorem settleRelight_core {o₀ : State} (w : Nat) (s : State) (hk : Kept o₀ s) :
    Kept o₀ (settleRelight w s) := by
  unfold settleRelight
  try dsimp only
  repeat' first
    | with_reducible assumption | with_reducible exact trivial | with_reducible apply sendIdle_core
    | with_reducible apply modLight_core | with_reducible apply getD_core | with_reducible apply foldl_core
    | with_reducible apply foldl_kept2 | with_reducible apply foldl_kept3 | simp only [kept_mk, kept_fold] | (intro _)
    | with_reducible rfl | split | with_reducible apply ite_answer_core | with_reducible apply ite_done_core
    | with_reducible apply ite_core | refine of_pair (by with_reducible assumption) ?_
    | refine of_triple (by with_reducible assumption) ?_ | refine of_some (by with_reducible assumption) ?_
    | refine of_somep (by with_reducible assumption) ?_ | refine of_next (by with_reducible assumption) ?_
    | refine of_inl (by with_reducible assumption) ?_

theorem settleSwitch_core {o₀ : State} (w : Nat) (s : State) (hk : Kept o₀ s) :
    Kept o₀ (settleSwitch w s) := by
  unfold settleSwitch
  try dsimp only
  repeat' first
    | with_reducible assumption | with_reducible apply modLight_core | with_reducible apply raise_core | with_reducible apply complete_core
    | simp only [kept_mk, kept_fold] | (intro _) | with_reducible rfl | split | with_reducible apply ite_core
    | refine of_pair (by with_reducible assumption) ?_ | refine of_some (by with_reducible assumption) ?_
    | refine of_next (by with_reducible assumption) ?_ | refine of_inl (by with_reducible assumption) ?_

theorem startSwitch_core {o₀ : State} (w side cause : Nat) (stagger : Bool) (ls : List Nat) (s : State) (hk : Kept o₀ s) :
    KeptOption o₀ (startSwitch w side cause stagger ls s) := by
  unfold startSwitch
  try dsimp only
  repeat' first
    | with_reducible assumption | with_reducible apply some_core | with_reducible apply none_core | with_reducible apply moveGroup_core
    | with_reducible apply modLight_core | with_reducible apply getD_core | simp only [kept_mk, kept_fold] | (intro _) | with_reducible rfl
    | split | with_reducible apply ite_core

theorem undoSwitch_core {o₀ : State} (w : Nat) (s : State) (hk : Kept o₀ s) :
    Kept o₀ (undoSwitch w s) := by
  unfold undoSwitch
  try dsimp only
  repeat' first
    | with_reducible assumption | with_reducible exact trivial | with_reducible apply some_core | with_reducible apply none_core
    | with_reducible apply somep_core | with_reducible apply nonep_core | with_reducible apply darken_core
    | with_reducible apply takeLight_core | with_reducible apply modLight_core | with_reducible apply foldl_core
    | with_reducible apply foldl_kept2 | with_reducible apply foldl_kept3 | simp only [kept_mk, kept_fold] | (intro _)
    | with_reducible rfl | split | with_reducible apply ite_answer_core | with_reducible apply ite_done_core
    | with_reducible apply ite_core | refine of_pair (by with_reducible assumption) ?_
    | refine of_triple (by with_reducible assumption) ?_ | refine of_some (by with_reducible assumption) ?_
    | refine of_somep (by with_reducible assumption) ?_ | refine of_next (by with_reducible assumption) ?_
    | refine of_inl (by with_reducible assumption) ?_

theorem settleTakeovers_core {o₀ : State} (w : Nat) (s : State) (hk : Kept o₀ s) :
    Kept o₀ (settleTakeovers w s) := by
  unfold settleTakeovers
  try dsimp only
  repeat' first
    | with_reducible assumption | with_reducible exact trivial | with_reducible apply modLight_core
    | with_reducible apply raise_core | with_reducible apply foldl_core | with_reducible apply foldl_kept2
    | with_reducible apply foldl_kept3 | simp only [kept_mk, kept_fold] | (intro _) | with_reducible rfl | split
    | with_reducible apply ite_answer_core | with_reducible apply ite_done_core | with_reducible apply ite_core
    | refine of_pair (by with_reducible assumption) ?_ | refine of_triple (by with_reducible assumption) ?_
    | refine of_some (by with_reducible assumption) ?_ | refine of_somep (by with_reducible assumption) ?_
    | refine of_next (by with_reducible assumption) ?_ | refine of_inl (by with_reducible assumption) ?_

theorem settleQueued_core {o₀ : State} (w : Nat) (s : State) (hk : Kept o₀ s) :
    Kept o₀ (settleQueued w s) := by
  unfold settleQueued
  try dsimp only
  repeat' first
    | with_reducible assumption | with_reducible exact trivial | with_reducible apply startSwitch_core
    | with_reducible apply modLight_core | with_reducible apply getD_core | with_reducible apply foldl_core
    | with_reducible apply foldl_kept2 | with_reducible apply foldl_kept3 | simp only [kept_mk, kept_fold] | (intro _)
    | with_reducible rfl | split | with_reducible apply ite_answer_core | with_reducible apply ite_done_core
    | with_reducible apply ite_core | refine of_pair (by with_reducible assumption) ?_
    | refine of_triple (by with_reducible assumption) ?_ | refine of_some (by with_reducible assumption) ?_
    | refine of_somep (by with_reducible assumption) ?_ | refine of_next (by with_reducible assumption) ?_
    | refine of_inl (by with_reducible assumption) ?_

theorem settleLight_core {o₀ : State} (w : Nat) (s : State) (hk : Kept o₀ s) :
    Kept o₀ (settleLight w s) := by
  unfold settleLight
  try dsimp only
  repeat' first
    | with_reducible assumption | with_reducible exact trivial | with_reducible apply settleQueued_core
    | with_reducible apply settleTakeovers_core | with_reducible apply settleSwitch_core | with_reducible apply settleRelight_core
    | simp only [kept_mk, kept_fold] | (intro _) | with_reducible rfl | split | with_reducible apply ite_answer_core
    | with_reducible apply ite_done_core | with_reducible apply ite_core | refine of_pair (by with_reducible assumption) ?_
    | refine of_triple (by with_reducible assumption) ?_ | refine of_some (by with_reducible assumption) ?_
    | refine of_somep (by with_reducible assumption) ?_ | refine of_next (by with_reducible assumption) ?_
    | refine of_inl (by with_reducible assumption) ?_

theorem execStaggerOddGroup_core {o₀ : State} (window : Nat) (s : State) (hk : Kept o₀ s) :
    KeptAnswer o₀ (execStaggerOddGroup window s) := by
  unfold execStaggerOddGroup
  try dsimp only
  repeat' first
    | with_reducible assumption | with_reducible exact trivial | with_reducible apply some_core | with_reducible apply none_core
    | with_reducible apply somep_core | with_reducible apply nonep_core | with_reducible apply settleLight_core
    | with_reducible apply moveGroup_core | with_reducible apply modLight_core | with_reducible apply guard_core
    | simp only [kept_mk, kept_fold] | (intro _) | with_reducible rfl | split | with_reducible apply ite_answer_core
    | with_reducible apply ite_done_core | with_reducible apply ite_core | refine of_pair (by with_reducible assumption) ?_
    | refine of_triple (by with_reducible assumption) ?_ | refine of_some (by with_reducible assumption) ?_
    | refine of_somep (by with_reducible assumption) ?_ | refine of_next (by with_reducible assumption) ?_
    | refine of_inl (by with_reducible assumption) ?_

theorem modRoute_core {o₀ : State} (i : Nat) (g : Route → Route) (s : State) (hk : Kept o₀ s) :
    Kept o₀ (modRoute i g s) := by
  unfold modRoute
  try dsimp only
  repeat' first
    | with_reducible assumption | with_reducible exact trivial | with_reducible apply some_core | with_reducible apply none_core
    | with_reducible apply somep_core | with_reducible apply nonep_core | simp only [kept_mk, kept_fold] | (intro _)
    | with_reducible rfl | split | with_reducible apply ite_answer_core | with_reducible apply ite_done_core
    | with_reducible apply ite_core | refine of_pair (by with_reducible assumption) ?_
    | refine of_triple (by with_reducible assumption) ?_ | refine of_some (by with_reducible assumption) ?_
    | refine of_somep (by with_reducible assumption) ?_ | refine of_next (by with_reducible assumption) ?_
    | refine of_inl (by with_reducible assumption) ?_

theorem setRoute_core {o₀ : State} (i : Nat) (r : Route) (s : State) (hk : Kept o₀ s) :
    Kept o₀ (setRoute i r s) := by
  unfold setRoute
  try dsimp only
  repeat' first
    | with_reducible assumption | with_reducible exact trivial | simp only [kept_mk, kept_fold] | (intro _) | with_reducible rfl
    | split | with_reducible apply ite_answer_core | with_reducible apply ite_done_core | with_reducible apply ite_core
    | refine of_pair (by with_reducible assumption) ?_ | refine of_triple (by with_reducible assumption) ?_
    | refine of_some (by with_reducible assumption) ?_ | refine of_somep (by with_reducible assumption) ?_
    | refine of_next (by with_reducible assumption) ?_ | refine of_inl (by with_reducible assumption) ?_

theorem lockRoute_core {o₀ : State} (i : Nat) (s : State) (hk : Kept o₀ s) :
    Kept o₀ (lockRoute i s) := by
  unfold lockRoute
  try dsimp only
  repeat' first
    | with_reducible assumption | with_reducible exact trivial | with_reducible apply modRoute_core | simp only [kept_mk, kept_fold]
    | (intro _) | with_reducible rfl | split | with_reducible apply ite_answer_core | with_reducible apply ite_done_core
    | with_reducible apply ite_core | refine of_pair (by with_reducible assumption) ?_
    | refine of_triple (by with_reducible assumption) ?_ | refine of_some (by with_reducible assumption) ?_
    | refine of_somep (by with_reducible assumption) ?_ | refine of_next (by with_reducible assumption) ?_
    | refine of_inl (by with_reducible assumption) ?_

theorem execRingLockAcquired_core {o₀ : State} (pair : Nat) (lambda : Nat) (tx : Bool) (s : State) (hk : Kept o₀ s) :
    KeptAnswer o₀ (execRingLockAcquired pair lambda tx s) := by
  unfold execRingLockAcquired
  try dsimp only
  repeat' first
    | with_reducible assumption | with_reducible exact trivial | with_reducible apply lockRoute_core
    | with_reducible apply settleLight_core | with_reducible apply resumeIdle_core | with_reducible apply modLambda_core
    | with_reducible apply guard_core | with_reducible apply getD_core | simp only [kept_mk, kept_fold] | (intro _)
    | with_reducible rfl | split | with_reducible apply ite_answer_core | with_reducible apply ite_done_core
    | with_reducible apply ite_core | refine of_pair (by with_reducible assumption) ?_
    | refine of_triple (by with_reducible assumption) ?_ | refine of_some (by with_reducible assumption) ?_
    | refine of_somep (by with_reducible assumption) ?_ | refine of_next (by with_reducible assumption) ?_
    | refine of_inl (by with_reducible assumption) ?_

theorem execLaserSwitch_core {o₀ : State} (q : Request) (s : State) (hk : Kept o₀ s) :
    KeptAnswer o₀ (execLaserSwitch q s) := by
  unfold execLaserSwitch
  try dsimp only
  repeat' first
    | with_reducible assumption | with_reducible apply next_core | with_reducible apply refused_core | with_reducible apply refuse_core
    | with_reducible apply wait_core | with_reducible apply runCommand_core | with_reducible apply withChecks_core
    | with_reducible apply modModule_core | with_reducible apply startSwitch_core | simp only [kept_mk, kept_fold] | (intro _)
    | with_reducible rfl | split | with_reducible apply ite_answer_core | with_reducible apply ite_done_core | with_reducible apply ite_core
    | refine of_pair (by with_reducible assumption) ?_ | refine of_some (by with_reducible assumption) ?_
    | refine of_next (by with_reducible assumption) ?_ | refine of_inl (by with_reducible assumption) ?_

theorem judgeBias_core {o₀ : State} (m : Nat) (l : Nat) (s : State) (hk : Kept o₀ s) :
    Kept o₀ (judgeBias m l s) := by
  unfold judgeBias
  try dsimp only
  repeat' first
    | with_reducible assumption | with_reducible exact trivial | with_reducible apply modLaser_core
    | with_reducible apply modLight_core | with_reducible apply raiseLimited_core | with_reducible apply raise_core
    | with_reducible apply getD_core | simp only [kept_mk, kept_fold] | (intro _) | with_reducible rfl | split
    | with_reducible apply ite_answer_core | with_reducible apply ite_done_core | with_reducible apply ite_core
    | refine of_pair (by with_reducible assumption) ?_ | refine of_triple (by with_reducible assumption) ?_
    | refine of_some (by with_reducible assumption) ?_ | refine of_somep (by with_reducible assumption) ?_
    | refine of_next (by with_reducible assumption) ?_ | refine of_inl (by with_reducible assumption) ?_

theorem execModuleMonitorRead_core {o₀ : State} (m : Nat) (temp : Int) (power : Nat) (lasers : List (Nat × Int)) (s : State)
    (hk : Kept o₀ s) :
    KeptAnswer o₀ (execModuleMonitorRead m temp power lasers s) := by
  unfold execModuleMonitorRead
  try dsimp only
  repeat' first
    | with_reducible assumption | with_reducible exact trivial | with_reducible apply next_core | with_reducible apply refused_core
    | with_reducible apply judgeBias_core | with_reducible apply settleQueued_core | with_reducible apply modLaser_core
    | with_reducible apply modModule_core | with_reducible apply getD_core | with_reducible apply foldl_core
    | with_reducible apply foldl_kept2 | with_reducible apply foldl_kept3 | simp only [kept_mk, kept_fold] | (intro _)
    | with_reducible rfl | split | with_reducible apply ite_answer_core | with_reducible apply ite_done_core
    | with_reducible apply ite_core | refine of_pair (by with_reducible assumption) ?_
    | refine of_triple (by with_reducible assumption) ?_ | refine of_some (by with_reducible assumption) ?_
    | refine of_somep (by with_reducible assumption) ?_ | refine of_next (by with_reducible assumption) ?_
    | refine of_inl (by with_reducible assumption) ?_

theorem execFrequencyMatch_core {o₀ : State} (m : Nat) (s : State) (hk : Kept o₀ s) :
    KeptAnswer o₀ (execFrequencyMatch m s) := by
  unfold execFrequencyMatch
  try dsimp only
  repeat' first
    | with_reducible assumption | with_reducible apply next_core | with_reducible apply refused_core | with_reducible apply guard_core
    | with_reducible apply draw_core | with_reducible apply modLaser_core | with_reducible apply getD_core | with_reducible apply foldl_core
    | with_reducible apply foldl_kept2 | with_reducible apply foldl_kept3 | simp only [kept_mk, kept_fold] | (intro _) | with_reducible rfl
    | split | with_reducible apply ite_answer_core | with_reducible apply ite_core

theorem averageOf_core {o₀ : State} (vs : List (Option Int)) (s : State) (hk : Kept o₀ s) :
    Kept o₀ (averageOf vs s).2 := by
  unfold averageOf
  try dsimp only
  repeat' first
    | with_reducible assumption | with_reducible apply draw_core | with_reducible apply foldl_core | with_reducible apply foldl_kept2
    | with_reducible apply foldl_kept3 | with_reducible rfl | split | with_reducible apply ite_core
    | refine of_pair (by with_reducible assumption) ?_ | refine of_some (by with_reducible assumption) ?_
    | refine of_next (by with_reducible assumption) ?_ | refine of_inl (by with_reducible assumption) ?_

theorem reportLow_core {o₀ : State} (w : Nat) (source : Nat) (index : Nat) (lambda : Nat) (old : MonitorPoint)
    (new : MonitorPoint) (s : State) (hk : Kept o₀ s) :
    Kept o₀ (reportLow w source index lambda old new s) := by
  unfold reportLow
  try dsimp only
  repeat' first
    | with_reducible assumption | with_reducible exact trivial | with_reducible apply raiseLimited_core
    | with_reducible apply raise_core | simp only [kept_mk, kept_fold] | (intro _) | with_reducible rfl | split
    | with_reducible apply ite_answer_core | with_reducible apply ite_done_core | with_reducible apply ite_core
    | refine of_pair (by with_reducible assumption) ?_ | refine of_triple (by with_reducible assumption) ?_
    | refine of_some (by with_reducible assumption) ?_ | refine of_somep (by with_reducible assumption) ?_
    | refine of_next (by with_reducible assumption) ?_ | refine of_inl (by with_reducible assumption) ?_

theorem execMonitorWindowEnd_core {o₀ : State} (window : Nat) (source : Nat) (index : Nat) (lambda : Nat) (obs : MonitorObs)
    (s : State) (hk : Kept o₀ s) :
    KeptAnswer o₀ (execMonitorWindowEnd window source index lambda obs s) := by
  unfold execMonitorWindowEnd
  try dsimp only
  repeat' first
    | with_reducible assumption | with_reducible exact trivial | with_reducible apply reportLow_core
    | with_reducible apply modPoint_core | with_reducible apply guard_core | simp only [kept_mk, kept_fold] | (intro _)
    | with_reducible rfl | split | with_reducible apply ite_answer_core | with_reducible apply ite_done_core
    | with_reducible apply ite_core | refine of_pair (by with_reducible assumption) ?_
    | refine of_triple (by with_reducible assumption) ?_ | refine of_some (by with_reducible assumption) ?_
    | refine of_somep (by with_reducible assumption) ?_ | refine of_next (by with_reducible assumption) ?_
    | refine of_inl (by with_reducible assumption) ?_

theorem loopLaser_core {o₀ : State} (w : Nat) (side : Nat) (l : Nat) (s : State) (hk : Kept o₀ s) :
    Kept o₀ (loopLaser w side l s) := by
  unfold loopLaser
  try dsimp only
  repeat' first
    | with_reducible assumption | with_reducible exact trivial | with_reducible apply some_core | with_reducible apply none_core
    | with_reducible apply somep_core | with_reducible apply nonep_core | with_reducible apply averageOf_core
    | with_reducible apply modLaser_core | with_reducible apply getD_core | simp only [kept_mk, kept_fold] | (intro _)
    | with_reducible rfl | split | with_reducible apply ite_answer_core | with_reducible apply ite_done_core
    | with_reducible apply ite_core | refine of_pair (by with_reducible assumption) ?_
    | refine of_triple (by with_reducible assumption) ?_ | refine of_some (by with_reducible assumption) ?_
    | refine of_somep (by with_reducible assumption) ?_ | refine of_next (by with_reducible assumption) ?_
    | refine of_inl (by with_reducible assumption) ?_

theorem takeLimits_core {o₀ : State} (m : Nat) (s : State) (hk : Kept o₀ s) :
    Kept o₀ (takeLimits m s) := by
  unfold takeLimits
  try dsimp only
  repeat' first
    | with_reducible assumption | with_reducible exact trivial | with_reducible apply some_core | with_reducible apply none_core
    | with_reducible apply somep_core | with_reducible apply nonep_core | with_reducible apply modModule_core
    | simp only [kept_mk, kept_fold] | (intro _) | with_reducible rfl | split | with_reducible apply ite_answer_core
    | with_reducible apply ite_done_core | with_reducible apply ite_core | refine of_pair (by with_reducible assumption) ?_
    | refine of_triple (by with_reducible assumption) ?_ | refine of_some (by with_reducible assumption) ?_
    | refine of_somep (by with_reducible assumption) ?_ | refine of_next (by with_reducible assumption) ?_
    | refine of_inl (by with_reducible assumption) ?_

theorem execLightLoopPass_core {o₀ : State} (window : Nat) (s : State) (hk : Kept o₀ s) :
    KeptAnswer o₀ (execLightLoopPass window s) := by
  unfold execLightLoopPass
  try dsimp only
  repeat' first
    | with_reducible assumption | with_reducible exact trivial | with_reducible apply takeLimits_core
    | with_reducible apply loopLaser_core | with_reducible apply guard_core | with_reducible apply foldl_core
    | with_reducible apply foldl_kept2 | with_reducible apply foldl_kept3 | simp only [kept_mk, kept_fold] | (intro _)
    | with_reducible rfl | split | with_reducible apply ite_answer_core | with_reducible apply ite_done_core
    | with_reducible apply ite_core | refine of_pair (by with_reducible assumption) ?_
    | refine of_triple (by with_reducible assumption) ?_ | refine of_some (by with_reducible assumption) ?_
    | refine of_somep (by with_reducible assumption) ?_ | refine of_next (by with_reducible assumption) ?_
    | refine of_inl (by with_reducible assumption) ?_

theorem execLaserStateRead_core {o₀ : State} (q : Request) (s : State) (hk : Kept o₀ s) :
    KeptAnswer o₀ (execLaserStateRead q s) := by
  unfold execLaserStateRead
  try dsimp only
  repeat' first
    | with_reducible assumption | with_reducible exact trivial | with_reducible apply ok_core | with_reducible apply refuse_core
    | with_reducible apply reply_core | with_reducible apply wait_core | with_reducible apply runCommand_core
    | with_reducible apply withChecks_core | simp only [kept_mk, kept_fold] | (intro _) | with_reducible rfl | split
    | with_reducible apply ite_answer_core | with_reducible apply ite_done_core | with_reducible apply ite_core
    | refine of_pair (by with_reducible assumption) ?_ | refine of_triple (by with_reducible assumption) ?_
    | refine of_some (by with_reducible assumption) ?_ | refine of_somep (by with_reducible assumption) ?_
    | refine of_next (by with_reducible assumption) ?_ | refine of_inl (by with_reducible assumption) ?_

theorem execLaserCmisAccess_core {o₀ : State} (q : Request) (ack : Bool) (data : Bytes) (s : State) (hk : Kept o₀ s) :
    KeptAnswer o₀ (execLaserCmisAccess q ack data s) := by
  unfold execLaserCmisAccess
  try dsimp only
  repeat' first
    | with_reducible assumption | with_reducible apply next_core | with_reducible apply refused_core | with_reducible apply ok_core
    | with_reducible apply refuse_core | with_reducible apply runCommand_core | with_reducible apply withChecks_core
    | with_reducible apply emit_core | with_reducible apply modModule_core | simp only [kept_mk, kept_fold] | (intro _) | with_reducible rfl
    | split | with_reducible apply ite_answer_core | with_reducible apply ite_done_core | with_reducible apply ite_core

theorem powerRecord_core {o₀ : State} (w : Nat) (source : Nat) (index : Nat) (l : Nat) (s : State) (hk : Kept o₀ s) :
    Kept o₀ (powerRecord w source index l s).2 := by
  unfold powerRecord
  try dsimp only
  repeat' first
    | with_reducible assumption | with_reducible exact trivial | with_reducible apply averageOf_core
    | simp only [kept_mk, kept_fold] | (intro _) | with_reducible rfl | split | with_reducible apply ite_answer_core
    | with_reducible apply ite_done_core | with_reducible apply ite_core | refine of_pair (by with_reducible assumption) ?_
    | refine of_triple (by with_reducible assumption) ?_ | refine of_some (by with_reducible assumption) ?_
    | refine of_somep (by with_reducible assumption) ?_ | refine of_next (by with_reducible assumption) ?_
    | refine of_inl (by with_reducible assumption) ?_

theorem execRxPowerRead_core {o₀ : State} (q : Request) (s : State) (hk : Kept o₀ s) :
    KeptAnswer o₀ (execRxPowerRead q s) := by
  unfold execRxPowerRead
  try dsimp only
  repeat' first
    | with_reducible assumption | with_reducible exact trivial | with_reducible apply ok_core | with_reducible apply refuse_core
    | with_reducible apply reply_core | with_reducible apply wait_core | with_reducible apply powerRecord_core
    | with_reducible apply runCommand_core | with_reducible apply withChecks_core | with_reducible apply foldl_core
    | with_reducible apply foldl_kept2 | with_reducible apply foldl_kept3 | simp only [kept_mk, kept_fold] | (intro _)
    | with_reducible rfl | split | with_reducible apply ite_answer_core | with_reducible apply ite_done_core
    | with_reducible apply ite_core | refine of_pair (by with_reducible assumption) ?_
    | refine of_triple (by with_reducible assumption) ?_ | refine of_some (by with_reducible assumption) ?_
    | refine of_somep (by with_reducible assumption) ?_ | refine of_next (by with_reducible assumption) ?_
    | refine of_inl (by with_reducible assumption) ?_

theorem execMonitorConfig_core {o₀ : State} (q : Request) (s : State) (hk : Kept o₀ s) :
    KeptAnswer o₀ (execMonitorConfig q s) := by
  unfold execMonitorConfig
  try dsimp only
  repeat' first
    | with_reducible assumption | with_reducible exact trivial | with_reducible apply ok_core | with_reducible apply refuse_core
    | with_reducible apply reply_core | with_reducible apply wait_core | with_reducible apply modLight_core
    | with_reducible apply runCommand_core | with_reducible apply withChecks_core | with_reducible apply foldl_core
    | with_reducible apply foldl_kept2 | with_reducible apply foldl_kept3 | simp only [kept_mk, kept_fold] | (intro _)
    | with_reducible rfl | split | with_reducible apply ite_answer_core | with_reducible apply ite_done_core
    | with_reducible apply ite_core | refine of_pair (by with_reducible assumption) ?_
    | refine of_triple (by with_reducible assumption) ?_ | refine of_some (by with_reducible assumption) ?_
    | refine of_somep (by with_reducible assumption) ?_ | refine of_next (by with_reducible assumption) ?_
    | refine of_inl (by with_reducible assumption) ?_

theorem execBiasLimitsSet_core {o₀ : State} (q : Request) (s : State) (hk : Kept o₀ s) :
    KeptAnswer o₀ (execBiasLimitsSet q s) := by
  unfold execBiasLimitsSet
  try dsimp only
  repeat' first
    | with_reducible assumption | with_reducible exact trivial | with_reducible apply ok_core | with_reducible apply refuse_core
    | with_reducible apply reply_core | with_reducible apply wait_core | with_reducible apply some_core
    | with_reducible apply none_core | with_reducible apply somep_core | with_reducible apply nonep_core
    | with_reducible apply modModule_core | with_reducible apply runCommand_core | with_reducible apply withChecks_core
    | with_reducible apply foldl_core | with_reducible apply foldl_kept2 | with_reducible apply foldl_kept3
    | simp only [kept_mk, kept_fold] | (intro _) | with_reducible rfl | split | with_reducible apply ite_answer_core
    | with_reducible apply ite_done_core | with_reducible apply ite_core | refine of_pair (by with_reducible assumption) ?_
    | refine of_triple (by with_reducible assumption) ?_ | refine of_some (by with_reducible assumption) ?_
    | refine of_somep (by with_reducible assumption) ?_ | refine of_next (by with_reducible assumption) ?_
    | refine of_inl (by with_reducible assumption) ?_

/-! ## Machine/Transom.lean -/

theorem calibrate_core {o₀ : State} (w : Nat) (s : State) (hk : Kept o₀ s) :
    Kept o₀ (calibrate w s) := by
  unfold calibrate
  try dsimp only
  repeat' first
    | with_reducible assumption | with_reducible exact trivial | with_reducible apply drawInt_core | with_reducible apply getD_core
    | with_reducible apply foldl_core | with_reducible apply foldl_kept2 | with_reducible apply foldl_kept3
    | simp only [kept_mk, kept_fold] | (intro _) | with_reducible rfl | split | with_reducible apply ite_answer_core
    | with_reducible apply ite_done_core | with_reducible apply ite_core | refine of_pair (by with_reducible assumption) ?_
    | refine of_triple (by with_reducible assumption) ?_ | refine of_some (by with_reducible assumption) ?_
    | refine of_somep (by with_reducible assumption) ?_ | refine of_next (by with_reducible assumption) ?_
    | refine of_inl (by with_reducible assumption) ?_

theorem setRoutes_core {o₀ : State} (is : List Nat) (s : State) (hk : Kept o₀ s) :
    Kept o₀ (setRoutes is s) := by
  unfold setRoutes
  try dsimp only
  repeat' first
    | with_reducible assumption | with_reducible exact trivial | with_reducible apply lockRoute_core
    | with_reducible apply setRoute_core | with_reducible apply foldl_core | with_reducible apply foldl_kept2
    | with_reducible apply foldl_kept3 | simp only [kept_mk, kept_fold] | (intro _) | with_reducible rfl | split
    | with_reducible apply ite_answer_core | with_reducible apply ite_done_core | with_reducible apply ite_core
    | refine of_pair (by with_reducible assumption) ?_ | refine of_triple (by with_reducible assumption) ?_
    | refine of_some (by with_reducible assumption) ?_ | refine of_somep (by with_reducible assumption) ?_
    | refine of_next (by with_reducible assumption) ?_ | refine of_inl (by with_reducible assumption) ?_

theorem dropRoutes_core {o₀ : State} (is : List Nat) (s : State) (hk : Kept o₀ s) :
    Kept o₀ (dropRoutes is s) := by
  unfold dropRoutes
  try dsimp only
  repeat' first
    | with_reducible assumption | with_reducible exact trivial | with_reducible apply some_core | with_reducible apply none_core
    | with_reducible apply somep_core | with_reducible apply nonep_core | with_reducible apply foldl_core
    | with_reducible apply foldl_kept2 | with_reducible apply foldl_kept3 | simp only [kept_mk, kept_fold] | (intro _)
    | with_reducible rfl | split | with_reducible apply ite_answer_core | with_reducible apply ite_done_core
    | with_reducible apply ite_core | refine of_pair (by with_reducible assumption) ?_
    | refine of_triple (by with_reducible assumption) ?_ | refine of_some (by with_reducible assumption) ?_
    | refine of_somep (by with_reducible assumption) ?_ | refine of_next (by with_reducible assumption) ?_
    | refine of_inl (by with_reducible assumption) ?_

theorem parkOutputs_core {o₀ : State} (is : List Nat) (s : State) (hk : Kept o₀ s) :
    Kept o₀ (parkOutputs is s) := by
  unfold parkOutputs
  try dsimp only
  repeat' first
    | with_reducible assumption | with_reducible exact trivial | with_reducible apply park_core
    | with_reducible apply modLambda_core | with_reducible apply getD_core | with_reducible apply foldl_core
    | with_reducible apply foldl_kept2 | with_reducible apply foldl_kept3 | simp only [kept_mk, kept_fold] | (intro _)
    | with_reducible rfl | split | with_reducible apply ite_answer_core | with_reducible apply ite_done_core
    | with_reducible apply ite_core | refine of_pair (by with_reducible assumption) ?_
    | refine of_triple (by with_reducible assumption) ?_ | refine of_some (by with_reducible assumption) ?_
    | refine of_somep (by with_reducible assumption) ?_ | refine of_next (by with_reducible assumption) ?_
    | refine of_inl (by with_reducible assumption) ?_

theorem changeTransom_core {o₀ : State} (was : List (Nat × Nat)) (s : State) (hk : Kept o₀ s) :
    Kept o₀ (changeTransom was s) := by
  unfold changeTransom
  try dsimp only
  repeat' first
    | with_reducible assumption | with_reducible exact trivial | with_reducible apply parkOutputs_core
    | with_reducible apply dropRoutes_core | with_reducible apply linkDown_core | with_reducible apply judgePort_core
    | with_reducible apply resetRounds_core | with_reducible apply advertise_core | with_reducible apply modPort_core
    | with_reducible apply foldl_core | with_reducible apply foldl_kept2 | with_reducible apply foldl_kept3
    | simp only [kept_mk, kept_fold] | (intro _) | with_reducible rfl | split | with_reducible apply ite_answer_core
    | with_reducible apply ite_done_core | with_reducible apply ite_core | refine of_pair (by with_reducible assumption) ?_
    | refine of_triple (by with_reducible assumption) ?_ | refine of_some (by with_reducible assumption) ?_
    | refine of_somep (by with_reducible assumption) ?_ | refine of_next (by with_reducible assumption) ?_
    | refine of_inl (by with_reducible assumption) ?_

theorem execTransomMapApplied_core {o₀ : State} (window : Nat) (s : State) (hk : Kept o₀ s) :
    KeptAnswer o₀ (execTransomMapApplied window s) := by
  unfold execTransomMapApplied
  try dsimp only
  repeat' first
    | with_reducible assumption | with_reducible exact trivial | with_reducible apply next_core | with_reducible apply refused_core
    | with_reducible apply parkOutputs_core | with_reducible apply setRoutes_core | with_reducible apply settlePort_core
    | with_reducible apply guard_core | with_reducible apply raise_core | with_reducible apply foldl_core
    | with_reducible apply foldl_kept2 | with_reducible apply foldl_kept3 | simp only [kept_mk, kept_fold] | (intro _)
    | with_reducible rfl | split | with_reducible apply ite_answer_core | with_reducible apply ite_done_core
    | with_reducible apply ite_core | refine of_pair (by with_reducible assumption) ?_
    | refine of_triple (by with_reducible assumption) ?_ | refine of_some (by with_reducible assumption) ?_
    | refine of_somep (by with_reducible assumption) ?_ | refine of_next (by with_reducible assumption) ?_
    | refine of_inl (by with_reducible assumption) ?_

theorem execWindowUp_core {o₀ : State} (window : Nat) (ms : Nat) (s : State) (hk : Kept o₀ s) :
    KeptAnswer o₀ (execWindowUp window ms s) := by
  unfold execWindowUp
  try dsimp only
  repeat' first
    | with_reducible assumption | with_reducible exact trivial | with_reducible apply next_core | with_reducible apply refused_core
    | with_reducible apply parkOutputs_core | with_reducible apply dropRoutes_core | with_reducible apply setRoutes_core
    | with_reducible apply calibrate_core | with_reducible apply faultLanes_core | with_reducible apply idlePort_core
    | with_reducible apply sendIdle_core | with_reducible apply settlePort_core | with_reducible apply modLight_core
    | with_reducible apply setPortState_core | with_reducible apply advertise_core | with_reducible apply clearFault_core
    | with_reducible apply trainSill_core | with_reducible apply modWindow_core | with_reducible apply modFibre_core
    | with_reducible apply raise_core | with_reducible apply getD_core | with_reducible apply foldl_core
    | with_reducible apply foldl_kept2 | with_reducible apply foldl_kept3 | simp only [kept_mk, kept_fold] | (intro _)
    | with_reducible rfl | split | with_reducible apply ite_answer_core | with_reducible apply ite_done_core
    | with_reducible apply ite_core | refine of_pair (by with_reducible assumption) ?_
    | refine of_triple (by with_reducible assumption) ?_ | refine of_some (by with_reducible assumption) ?_
    | refine of_somep (by with_reducible assumption) ?_ | refine of_next (by with_reducible assumption) ?_
    | refine of_inl (by with_reducible assumption) ?_

theorem correctHeaters_core {o₀ : State} (w : Nat) (s : State) (hk : Kept o₀ s) :
    Kept o₀ (correctHeaters w s) := by
  unfold correctHeaters
  try dsimp only
  repeat' first
    | with_reducible assumption | with_reducible exact trivial | simp only [kept_mk, kept_fold] | (intro _) | with_reducible rfl
    | split | with_reducible apply ite_answer_core | with_reducible apply ite_done_core | with_reducible apply ite_core
    | refine of_pair (by with_reducible assumption) ?_ | refine of_triple (by with_reducible assumption) ?_
    | refine of_some (by with_reducible assumption) ?_ | refine of_somep (by with_reducible assumption) ?_
    | refine of_next (by with_reducible assumption) ?_ | refine of_inl (by with_reducible assumption) ?_

theorem execTransomPassLos_core {o₀ : State} (window : Nat) (entry : Nat) (s : State) (hk : Kept o₀ s) :
    KeptAnswer o₀ (execTransomPassLos window entry s) := by
  unfold execTransomPassLos
  try dsimp only
  repeat' first
    | with_reducible assumption | with_reducible exact trivial | with_reducible apply modRoute_core
    | with_reducible apply setLos_core | with_reducible apply guard_core | with_reducible apply raise_core
    | simp only [kept_mk, kept_fold] | (intro _) | with_reducible rfl | split | with_reducible apply ite_answer_core
    | with_reducible apply ite_done_core | with_reducible apply ite_core | refine of_pair (by with_reducible assumption) ?_
    | refine of_triple (by with_reducible assumption) ?_ | refine of_some (by with_reducible assumption) ?_
    | refine of_somep (by with_reducible assumption) ?_ | refine of_next (by with_reducible assumption) ?_
    | refine of_inl (by with_reducible assumption) ?_

theorem execTransomPassRestored_core {o₀ : State} (window entry : Nat) (s : State) (hk : Kept o₀ s) :
    KeptAnswer o₀ (execTransomPassRestored window entry s) := by
  unfold execTransomPassRestored
  try dsimp only
  repeat' first
    | with_reducible assumption | with_reducible apply next_core | with_reducible apply refused_core | with_reducible apply setLos_core
    | with_reducible apply guard_core | with_reducible apply raise_core | with_reducible apply lockRoute_core | with_reducible rfl | split
    | with_reducible apply ite_answer_core | with_reducible apply ite_core

theorem execTransomRingUnlock_core {o₀ : State} (window entry ring : Nat) (s : State) (hk : Kept o₀ s) :
    KeptAnswer o₀ (execTransomRingUnlock window entry ring s) := by
  unfold execTransomRingUnlock
  try dsimp only
  repeat' first
    | with_reducible assumption | with_reducible apply next_core | with_reducible apply refused_core | with_reducible apply guard_core
    | with_reducible apply raiseLimited_core | with_reducible apply raise_core | with_reducible apply modRoute_core
    | simp only [kept_mk, kept_fold] | (intro _) | with_reducible rfl | split | with_reducible apply ite_answer_core
    | with_reducible apply ite_core

theorem execTransomMapWrite_core {o₀ : State} (q : Request) (s : State) (hk : Kept o₀ s) :
    KeptAnswer o₀ (execTransomMapWrite q s) := by
  unfold execTransomMapWrite
  try dsimp only
  repeat' first
    | with_reducible assumption | with_reducible apply next_core | with_reducible apply refused_core | with_reducible apply refuse_core
    | with_reducible apply runCommand_core | with_reducible apply withChecks_core | with_reducible apply stageDone_core
    | simp only [kept_mk, kept_fold] | (intro _) | with_reducible rfl | split | with_reducible apply ite_answer_core
    | with_reducible apply ite_done_core | with_reducible apply ite_core | refine of_pair (by with_reducible assumption) ?_
    | refine of_some (by with_reducible assumption) ?_ | refine of_next (by with_reducible assumption) ?_
    | refine of_inl (by with_reducible assumption) ?_

theorem inputAverage_core {o₀ : State} (w : Nat) (e : Nat) (s : State) (hk : Kept o₀ s) :
    Kept o₀ (inputAverage w e s).2 := by
  unfold inputAverage
  try dsimp only
  repeat' first
    | with_reducible assumption | with_reducible exact trivial | with_reducible apply averageOf_core
    | simp only [kept_mk, kept_fold] | (intro _) | with_reducible rfl | split | with_reducible apply ite_answer_core
    | with_reducible apply ite_done_core | with_reducible apply ite_core | refine of_pair (by with_reducible assumption) ?_
    | refine of_triple (by with_reducible assumption) ?_ | refine of_some (by with_reducible assumption) ?_
    | refine of_somep (by with_reducible assumption) ?_ | refine of_next (by with_reducible assumption) ?_
    | refine of_inl (by with_reducible assumption) ?_

theorem execTransomMapRead_core {o₀ : State} (q : Request) (s : State) (hk : Kept o₀ s) :
    KeptAnswer o₀ (execTransomMapRead q s) := by
  unfold execTransomMapRead
  try dsimp only
  repeat' first
    | with_reducible assumption | with_reducible exact trivial | with_reducible apply ok_core | with_reducible apply refuse_core
    | with_reducible apply reply_core | with_reducible apply wait_core | with_reducible apply inputAverage_core
    | with_reducible apply runCommand_core | with_reducible apply withChecks_core | with_reducible apply foldl_core
    | with_reducible apply foldl_kept2 | with_reducible apply foldl_kept3 | simp only [kept_mk, kept_fold] | (intro _)
    | with_reducible rfl | split | with_reducible apply ite_answer_core | with_reducible apply ite_done_core
    | with_reducible apply ite_core | refine of_pair (by with_reducible assumption) ?_
    | refine of_triple (by with_reducible assumption) ?_ | refine of_some (by with_reducible assumption) ?_
    | refine of_somep (by with_reducible assumption) ?_ | refine of_next (by with_reducible assumption) ?_
    | refine of_inl (by with_reducible assumption) ?_

theorem loss16_core {o₀ : State} (v : Int) (s : State) (hk : Kept o₀ s) :
    Kept o₀ (loss16 v s).2 := by
  unfold loss16
  try dsimp only
  repeat' first
    | with_reducible assumption | with_reducible apply draw_core | with_reducible rfl | split | with_reducible apply ite_core

theorem execTransomPathCheck_core {o₀ : State} (q : Request) (s : State) (hk : Kept o₀ s) :
    KeptAnswer o₀ (execTransomPathCheck q s) := by
  unfold execTransomPathCheck
  try dsimp only
  repeat' first
    | with_reducible assumption | with_reducible exact trivial | with_reducible apply ok_core | with_reducible apply refuse_core
    | with_reducible apply reply_core | with_reducible apply wait_core | with_reducible apply loss16_core
    | with_reducible apply inputAverage_core | with_reducible apply runCommand_core | with_reducible apply withChecks_core
    | simp only [kept_mk, kept_fold] | (intro _) | with_reducible rfl | split | with_reducible apply ite_answer_core
    | with_reducible apply ite_done_core | with_reducible apply ite_core | refine of_pair (by with_reducible assumption) ?_
    | refine of_triple (by with_reducible assumption) ?_ | refine of_some (by with_reducible assumption) ?_
    | refine of_somep (by with_reducible assumption) ?_ | refine of_next (by with_reducible assumption) ?_
    | refine of_inl (by with_reducible assumption) ?_

end Sys2Proof.Machine
end

