-- ==== Sys2Proof/Laws/KeptColl.lean ====
section
/-!
SUPPORT. What the collective engine and the receive path leave alone.
-/
namespace Sys2Proof.Machine

/-! ## Machine/Package.lean -/

theorem modDie_core {o₀ : State} (d : Nat) (g : DieRec → DieRec) (s : State) (hk : Kept o₀ s) :
    Kept o₀ (modDie d g s) := by
  unfold modDie
  try dsimp only
  repeat' first
    | with_reducible assumption | simp only [kept_mk, kept_fold] | with_reducible rfl

theorem degradeDie_core {o₀ : State} (s : State) (d : Nat) (hk : Kept o₀ s) :
    Kept o₀ (degradeDie s d) := by
  unfold degradeDie
  try dsimp only
  repeat' first
    | with_reducible assumption | with_reducible apply modDie_core | simp only [kept_mk, kept_fold] | (intro _) | with_reducible rfl | split
    | with_reducible apply ite_core

theorem execSeamFlitReceived_core {o₀ : State} (link : Nat) (high : Bool) (ready : Nat) (returns : List Nat) (crcOk : Bool)
    (s : State) (hk : Kept o₀ s) :
    KeptAnswer o₀ (execSeamFlitReceived link high ready returns crcOk s) := by
  unfold execSeamFlitReceived
  try dsimp only
  repeat' first
    | with_reducible assumption | with_reducible exact trivial | with_reducible apply some_core | with_reducible apply none_core
    | with_reducible apply somep_core | with_reducible apply nonep_core | with_reducible apply modSeam_core
    | with_reducible apply guard_core | with_reducible apply count_core | simp only [kept_mk, kept_fold] | (intro _)
    | with_reducible rfl | split | with_reducible apply ite_answer_core | with_reducible apply ite_done_core
    | with_reducible apply ite_core | refine of_pair (by with_reducible assumption) ?_
    | refine of_triple (by with_reducible assumption) ?_ | refine of_some (by with_reducible assumption) ?_
    | refine of_somep (by with_reducible assumption) ?_ | refine of_next (by with_reducible assumption) ?_
    | refine of_inl (by with_reducible assumption) ?_

theorem beginHandover_core {o₀ : State} (cause : Nat) (s : State) (hk : Kept o₀ s) :
    Kept o₀ (beginHandover cause s) := by
  unfold beginHandover
  try dsimp only
  repeat' first
    | with_reducible assumption | simp only [kept_mk, kept_fold] | with_reducible rfl | split | with_reducible apply ite_core

theorem narrowLink_core {o₀ : State} (k : Nat) (was : Bool) (s : State) (hk : Kept o₀ s) :
    Kept o₀ (narrowLink k was s) := by
  unfold narrowLink
  try dsimp only
  repeat' first
    | with_reducible assumption | with_reducible apply recordFault_core | with_reducible apply raise_core
    | with_reducible apply modSeam_core | with_reducible apply windowOutOfService_core | with_reducible apply beginHandover_core
    | simp only [kept_mk, kept_fold] | (intro _) | with_reducible rfl | split | with_reducible apply ite_core

theorem failLane_core {o₀ : State} (link : Nat) (high : Bool) (group : Nat) (lane : Nat) (s : State) (hk : Kept o₀ s) :
    Kept o₀ (failLane link high group lane s) := by
  unfold failLane
  try dsimp only
  repeat' first
    | with_reducible assumption | with_reducible exact trivial | with_reducible apply narrowLink_core
    | with_reducible apply degradeDie_core | with_reducible apply advertise_core | with_reducible apply recordFault_core
    | with_reducible apply modSeam_core | with_reducible apply raise_core | with_reducible apply getD_core
    | simp only [kept_mk, kept_fold] | (intro _) | with_reducible rfl | split | with_reducible apply ite_answer_core
    | with_reducible apply ite_done_core | with_reducible apply ite_core | refine of_pair (by with_reducible assumption) ?_
    | refine of_triple (by with_reducible assumption) ?_ | refine of_some (by with_reducible assumption) ?_
    | refine of_somep (by with_reducible assumption) ?_ | refine of_next (by with_reducible assumption) ?_
    | refine of_inl (by with_reducible assumption) ?_

theorem execSeamLaneFailed_core {o₀ : State} (link : Nat) (high : Bool) (group : Nat) (lane : Nat) (s : State) (hk : Kept o₀ s) :
    KeptAnswer o₀ (execSeamLaneFailed link high group lane s) := by
  unfold execSeamLaneFailed
  try dsimp only
  repeat' first
    | with_reducible assumption | with_reducible exact trivial | with_reducible apply next_core | with_reducible apply refused_core
    | with_reducible apply failLane_core | simp only [kept_mk, kept_fold] | (intro _) | with_reducible rfl | split
    | with_reducible apply ite_answer_core | with_reducible apply ite_done_core | with_reducible apply ite_core
    | refine of_pair (by with_reducible assumption) ?_ | refine of_triple (by with_reducible assumption) ?_
    | refine of_some (by with_reducible assumption) ?_ | refine of_somep (by with_reducible assumption) ?_
    | refine of_next (by with_reducible assumption) ?_ | refine of_inl (by with_reducible assumption) ?_

theorem execSeamReplay_core {o₀ : State} (link : Nat) (high : Bool) (ok : Bool) (failing : List (Nat × Nat)) (s : State)
    (hk : Kept o₀ s) :
    KeptAnswer o₀ (execSeamReplay link high ok failing s) := by
  unfold execSeamReplay
  try dsimp only
  repeat' first
    | with_reducible assumption | with_reducible exact trivial | with_reducible apply next_core | with_reducible apply refused_core
    | with_reducible apply ok_core | with_reducible apply refuse_core | with_reducible apply reply_core
    | with_reducible apply wait_core | with_reducible apply failLane_core | with_reducible apply replay_core
    | with_reducible apply modSeam_core | with_reducible apply count_core | with_reducible apply foldl_core
    | with_reducible apply foldl_kept2 | with_reducible apply foldl_kept3 | simp only [kept_mk, kept_fold] | (intro _)
    | with_reducible rfl | split | with_reducible apply ite_answer_core | with_reducible apply ite_done_core
    | with_reducible apply ite_core | refine of_pair (by with_reducible assumption) ?_
    | refine of_triple (by with_reducible assumption) ?_ | refine of_some (by with_reducible assumption) ?_
    | refine of_somep (by with_reducible assumption) ?_ | refine of_next (by with_reducible assumption) ?_
    | refine of_inl (by with_reducible assumption) ?_

theorem execSillCellReceived_core {o₀ : State} (window : Nat) (toHall : Bool) (crcOk : Bool) (wire : Option Nat) (s : State)
    (hk : Kept o₀ s) :
    KeptAnswer o₀ (execSillCellReceived window toHall crcOk wire s) := by
  unfold execSillCellReceived
  try dsimp only
  repeat' first
    | with_reducible assumption | with_reducible exact trivial | with_reducible apply advertise_core
    | with_reducible apply recordFault_core | with_reducible apply guard_core | with_reducible apply raise_core
    | simp only [kept_mk, kept_fold] | (intro _) | with_reducible rfl | split | with_reducible apply ite_answer_core
    | with_reducible apply ite_done_core | with_reducible apply ite_core | refine of_pair (by with_reducible assumption) ?_
    | refine of_triple (by with_reducible assumption) ?_ | refine of_some (by with_reducible assumption) ?_
    | refine of_somep (by with_reducible assumption) ?_ | refine of_next (by with_reducible assumption) ?_
    | refine of_inl (by with_reducible assumption) ?_

theorem execDieMapRead_core {o₀ : State} (q : Request) (s : State) (hk : Kept o₀ s) :
    KeptAnswer o₀ (execDieMapRead q s) := by
  unfold execDieMapRead
  try dsimp only
  repeat' first
    | with_reducible assumption | with_reducible apply next_core | with_reducible apply refused_core | with_reducible apply ok_core
    | with_reducible apply runCommand_core | with_reducible apply withChecks_core | (intro _) | with_reducible rfl

theorem execSeamLinkRead_core {o₀ : State} (q : Request) (s : State) (hk : Kept o₀ s) :
    KeptAnswer o₀ (execSeamLinkRead q s) := by
  unfold execSeamLinkRead
  try dsimp only
  repeat' first
    | with_reducible assumption | with_reducible apply next_core | with_reducible apply refused_core | with_reducible apply ok_core
    | with_reducible apply runCommand_core | with_reducible apply withChecks_core | with_reducible apply getD_core
    | simp only [kept_mk, kept_fold] | (intro _) | with_reducible rfl

/-! ## Machine/CollMangle.lean -/

theorem modEngine_core {o₀ : State} (m e : Nat) (g : Engine → Engine) (s : State) (hk : Kept o₀ s) :
    Kept o₀ (modEngine m e g s) := by
  unfold modEngine
  try dsimp only
  repeat' first
    | with_reducible assumption | with_reducible apply modMangle_core | with_reducible apply getD_core | simp only [kept_mk, kept_fold]
    | (intro _) | with_reducible rfl

theorem rehome_core {o₀ : State} (c home : Nat) (s : State) (hk : Kept o₀ s) :
    Kept o₀ (rehome c home s) := by
  unfold rehome
  try dsimp only
  repeat' first
    | with_reducible assumption | simp only [kept_mk, kept_fold] | with_reducible rfl

theorem migrate_core {o₀ : State} (m c : Nat) (s : State) (hk : Kept o₀ s) :
    Kept o₀ (migrate m c s) := by
  unfold migrate
  try dsimp only
  repeat' first
    | with_reducible assumption | with_reducible apply resetChunk_core | with_reducible apply rehome_core | with_reducible apply modCtx_core
    | with_reducible apply raiseLead_core | with_reducible apply foldl_core | with_reducible apply foldl_kept2
    | with_reducible apply foldl_kept3 | simp only [kept_mk, kept_fold] | (intro _) | with_reducible rfl | split
    | with_reducible apply ite_core | refine of_pair (by with_reducible assumption) ?_ | refine of_some (by with_reducible assumption) ?_
    | refine of_next (by with_reducible assumption) ?_ | refine of_inl (by with_reducible assumption) ?_

theorem failMangle_core {o₀ : State} (m : Nat) (cond : Nat) (s : State) (hk : Kept o₀ s) :
    Kept o₀ (failMangle m cond s) := by
  unfold failMangle
  try dsimp only
  repeat' first
    | with_reducible assumption | with_reducible exact trivial | with_reducible apply migrate_core
    | with_reducible apply modDie_core | with_reducible apply advertise_core | with_reducible apply recordFault_core
    | with_reducible apply modMangle_core | with_reducible apply raiseLead_core | with_reducible apply foldl_core
    | with_reducible apply foldl_kept2 | with_reducible apply foldl_kept3 | simp only [kept_mk, kept_fold] | (intro _)
    | with_reducible rfl | split | with_reducible apply ite_answer_core | with_reducible apply ite_done_core
    | with_reducible apply ite_core | refine of_pair (by with_reducible assumption) ?_
    | refine of_triple (by with_reducible assumption) ?_ | refine of_some (by with_reducible assumption) ?_
    | refine of_somep (by with_reducible assumption) ?_ | refine of_next (by with_reducible assumption) ?_
    | refine of_inl (by with_reducible assumption) ?_

theorem withdrawEngine_core {o₀ : State} (m : Nat) (e : Nat) (cause : Nat) (pattern : Nat) (cls : Nat) (s : State)
    (hk : Kept o₀ s) :
    Kept o₀ (withdrawEngine m e cause pattern cls s) := by
  unfold withdrawEngine
  try dsimp only
  repeat' first
    | with_reducible assumption | with_reducible exact trivial | with_reducible apply some_core | with_reducible apply none_core
    | with_reducible apply somep_core | with_reducible apply nonep_core | with_reducible apply failMangle_core
    | with_reducible apply modEngine_core | with_reducible apply recordFault_core | with_reducible apply resetChunk_core
    | with_reducible apply modChunk_core | with_reducible apply modMangle_core | with_reducible apply raise_core
    | with_reducible apply countMangle_core | with_reducible apply getD_core | with_reducible apply foldl_core
    | with_reducible apply foldl_kept2 | with_reducible apply foldl_kept3 | simp only [kept_mk, kept_fold] | (intro _)
    | with_reducible rfl | split | with_reducible apply ite_answer_core | with_reducible apply ite_done_core
    | with_reducible apply ite_core | refine of_pair (by with_reducible assumption) ?_
    | refine of_triple (by with_reducible assumption) ?_ | refine of_some (by with_reducible assumption) ?_
    | refine of_somep (by with_reducible assumption) ?_ | refine of_next (by with_reducible assumption) ?_
    | refine of_inl (by with_reducible assumption) ?_

theorem retireEngine_core {o₀ : State} (m e check c pattern : Nat) (s : State) (hk : Kept o₀ s) :
    Kept o₀ (retireEngine m e check c pattern s) := by
  unfold retireEngine
  try dsimp only
  repeat' first
    | with_reducible assumption | with_reducible apply withdrawEngine_core | with_reducible apply raise_core | with_reducible rfl

theorem buildFrames_core {o₀ : State} (c i : Nat) (s : State) (hk : Kept o₀ s) :
    Kept o₀ (buildFrames c i s) := by
  unfold buildFrames
  try dsimp only
  repeat' first
    | with_reducible assumption | with_reducible apply count_core | with_reducible apply modEngine_core
    | with_reducible apply countMangle_core | with_reducible apply modChunk_core | with_reducible apply getD_core
    | simp only [kept_mk, kept_fold] | (intro _) | with_reducible rfl | split | with_reducible apply ite_core
    | refine of_pair (by with_reducible assumption) ?_ | refine of_some (by with_reducible assumption) ?_
    | refine of_next (by with_reducible assumption) ?_ | refine of_inl (by with_reducible assumption) ?_

theorem finalChunk_core {o₀ : State} (c : Nat) (i : Nat) (check : Nat) (s : State) (hk : Kept o₀ s) :
    Kept o₀ (finalChunk c i check s) := by
  unfold finalChunk
  try dsimp only
  repeat' first
    | with_reducible assumption | with_reducible exact trivial | with_reducible apply some_core | with_reducible apply none_core
    | with_reducible apply somep_core | with_reducible apply nonep_core | with_reducible apply buildFrames_core
    | with_reducible apply retireEngine_core | with_reducible apply modChunk_core | with_reducible apply countMangle_core
    | simp only [kept_mk, kept_fold] | (intro _) | with_reducible rfl | split | with_reducible apply ite_answer_core
    | with_reducible apply ite_done_core | with_reducible apply ite_core | refine of_pair (by with_reducible assumption) ?_
    | refine of_triple (by with_reducible assumption) ?_ | refine of_some (by with_reducible assumption) ?_
    | refine of_somep (by with_reducible assumption) ?_ | refine of_next (by with_reducible assumption) ?_
    | refine of_inl (by with_reducible assumption) ?_

theorem execEngineSelftestDone_core {o₀ : State} (mangle : Nat) (activeFails : Bool) (shadowFails : Bool) (s : State)
    (hk : Kept o₀ s) :
    KeptAnswer o₀ (execEngineSelftestDone mangle activeFails shadowFails s) := by
  unfold execEngineSelftestDone
  try dsimp only
  repeat' first
    | with_reducible assumption | with_reducible exact trivial | with_reducible apply next_core | with_reducible apply refused_core
    | with_reducible apply some_core | with_reducible apply none_core | with_reducible apply somep_core
    | with_reducible apply nonep_core | with_reducible apply buildFrames_core | with_reducible apply retireEngine_core
    | with_reducible apply modChunk_core | with_reducible apply guard_core | simp only [kept_mk, kept_fold] | (intro _)
    | with_reducible rfl | split | with_reducible apply ite_answer_core | with_reducible apply ite_done_core
    | with_reducible apply ite_core | refine of_pair (by with_reducible assumption) ?_
    | refine of_triple (by with_reducible assumption) ?_ | refine of_some (by with_reducible assumption) ?_
    | refine of_somep (by with_reducible assumption) ?_ | refine of_next (by with_reducible assumption) ?_
    | refine of_inl (by with_reducible assumption) ?_

theorem openChunk_core {o₀ : State} (c : Nat) (i : Nat) (s : State) (hk : Kept o₀ s) :
    Kept o₀ (openChunk c i s) := by
  unfold openChunk
  try dsimp only
  repeat' first
    | with_reducible assumption | with_reducible exact trivial | with_reducible apply next_core | with_reducible apply refused_core
    | with_reducible apply some_core | with_reducible apply none_core | with_reducible apply somep_core
    | with_reducible apply nonep_core | with_reducible apply modMangle_core | with_reducible apply modCtx_core
    | with_reducible apply replicate_core | with_reducible apply countMangle_core | with_reducible apply draw_core
    | with_reducible apply getD_core | simp only [kept_mk, kept_fold] | (intro _) | with_reducible rfl | split
    | with_reducible apply ite_answer_core | with_reducible apply ite_done_core | with_reducible apply ite_core
    | refine of_pair (by with_reducible assumption) ?_ | refine of_triple (by with_reducible assumption) ?_
    | refine of_some (by with_reducible assumption) ?_ | refine of_somep (by with_reducible assumption) ?_
    | refine of_next (by with_reducible assumption) ?_ | refine of_inl (by with_reducible assumption) ?_

theorem noteStep_core {o₀ : State} (ch : Chunk) (promotions : Nat) (fullAdds : Nat) (nv : Bool) (s : State) (hk : Kept o₀ s) :
    Kept o₀ (noteStep ch promotions fullAdds nv s) := by
  unfold noteStep
  try dsimp only
  repeat' first
    | with_reducible assumption | with_reducible exact trivial | with_reducible apply modEngine_core
    | with_reducible apply countMangle_core | with_reducible apply foldl_core | with_reducible apply foldl_kept2
    | with_reducible apply foldl_kept3 | simp only [kept_mk, kept_fold] | (intro _) | with_reducible rfl | split
    | with_reducible apply ite_answer_core | with_reducible apply ite_done_core | with_reducible apply ite_core
    | refine of_pair (by with_reducible assumption) ?_ | refine of_triple (by with_reducible assumption) ?_
    | refine of_some (by with_reducible assumption) ?_ | refine of_somep (by with_reducible assumption) ?_
    | refine of_next (by with_reducible assumption) ?_ | refine of_inl (by with_reducible assumption) ?_

theorem addValues_core {o₀ : State} (c : Nat) (i : Nat) (first : Nat) (vs : List (Option Value)) (s : State) (hk : Kept o₀ s) :
    Kept o₀ (addValues c i first vs s) := by
  unfold addValues
  try dsimp only
  repeat' first
    | with_reducible assumption | with_reducible exact trivial | with_reducible apply some_core | with_reducible apply none_core
    | with_reducible apply somep_core | with_reducible apply nonep_core | with_reducible apply noteStep_core
    | with_reducible apply modChunk_core | with_reducible apply getD_core | with_reducible apply foldl_core
    | with_reducible apply foldl_kept2 | with_reducible apply foldl_kept3 | simp only [kept_mk, kept_fold] | (intro _)
    | with_reducible rfl | split | with_reducible apply ite_answer_core | with_reducible apply ite_done_core
    | with_reducible apply ite_core | refine of_pair (by with_reducible assumption) ?_
    | refine of_triple (by with_reducible assumption) ?_ | refine of_some (by with_reducible assumption) ?_
    | refine of_somep (by with_reducible assumption) ?_ | refine of_next (by with_reducible assumption) ?_
    | refine of_inl (by with_reducible assumption) ?_

theorem addRecord_core {o₀ : State} (c : Nat) (i : Nat) (fam : Nat) (rec' : Bytes) (s : State) (hk : Kept o₀ s) :
    Kept o₀ (addRecord c i fam rec' s) := by
  unfold addRecord
  try dsimp only
  repeat' first
    | with_reducible assumption | with_reducible exact trivial | with_reducible apply some_core | with_reducible apply none_core
    | with_reducible apply somep_core | with_reducible apply nonep_core | with_reducible apply noteStep_core
    | with_reducible apply modChunk_core | with_reducible apply getD_core | simp only [kept_mk, kept_fold] | (intro _)
    | with_reducible rfl | split | with_reducible apply ite_answer_core | with_reducible apply ite_done_core
    | with_reducible apply ite_core | refine of_pair (by with_reducible assumption) ?_
    | refine of_triple (by with_reducible assumption) ?_ | refine of_some (by with_reducible assumption) ?_
    | refine of_somep (by with_reducible assumption) ?_ | refine of_next (by with_reducible assumption) ?_
    | refine of_inl (by with_reducible assumption) ?_

theorem completeMember_core {o₀ : State} (c i member check : Nat) (s : State) (hk : Kept o₀ s) :
    Kept o₀ (completeMember c i member check s) := by
  unfold completeMember
  try dsimp only
  repeat' first
    | with_reducible assumption | with_reducible apply modChunk_core | with_reducible apply finalChunk_core | simp only [kept_mk, kept_fold]
    | (intro _) | with_reducible rfl | split | with_reducible apply ite_core | refine of_pair (by with_reducible assumption) ?_
    | refine of_some (by with_reducible assumption) ?_ | refine of_next (by with_reducible assumption) ?_
    | refine of_inl (by with_reducible assumption) ?_

theorem dropContrib_core {o₀ : State} (m c idx cause : Nat) (f : Frame) (s : State) (hk : Kept o₀ s) :
    Kept o₀ (dropContrib m c idx cause f s) := by
  unfold dropContrib
  try dsimp only
  repeat' first
    | with_reducible assumption | with_reducible apply raiseLimited_core | with_reducible apply raise_core
    | with_reducible apply modCtx_core | with_reducible apply countMangle_core | simp only [kept_mk, kept_fold] | (intro _)
    | with_reducible rfl

theorem dupContrib_core {o₀ : State} (m c : Nat) (s : State) (hk : Kept o₀ s) :
    Kept o₀ (dupContrib m c s) := by
  unfold dupContrib
  try dsimp only
  repeat' first
    | with_reducible assumption | with_reducible apply modCtx_core | with_reducible apply countMangle_core | simp only [kept_mk, kept_fold]
    | (intro _) | with_reducible rfl

theorem countGen_core {o₀ : State} (scope inst idx c d : Nat) (s : State) (hk : Kept o₀ s) :
    Kept o₀ (countGen scope inst idx c d s) := by
  unfold countGen
  try dsimp only
  repeat' first
    | with_reducible assumption | with_reducible apply count_core | with_reducible rfl

theorem regainRelease_core {o₀ : State} (m : Nat) (c : Nat) (member : Nat) (port : Nat) (s : State) (hk : Kept o₀ s) :
    Kept o₀ (regainRelease m c member port s) := by
  unfold regainRelease
  try dsimp only
  repeat' first
    | with_reducible assumption | with_reducible exact trivial | with_reducible apply some_core | with_reducible apply none_core
    | with_reducible apply somep_core | with_reducible apply nonep_core | with_reducible apply pushOut_core
    | with_reducible apply modMangle_core | with_reducible apply modCtx_core | simp only [kept_mk, kept_fold] | (intro _)
    | with_reducible rfl | split | with_reducible apply ite_answer_core | with_reducible apply ite_done_core
    | with_reducible apply ite_core | refine of_pair (by with_reducible assumption) ?_
    | refine of_triple (by with_reducible assumption) ?_ | refine of_some (by with_reducible assumption) ?_
    | refine of_somep (by with_reducible assumption) ?_ | refine of_next (by with_reducible assumption) ?_
    | refine of_inl (by with_reducible assumption) ?_

theorem takeMember_core {o₀ : State} (m c i n check : Nat) (f : Frame) (s : State) (hk : Kept o₀ s) :
    Kept o₀ (takeMember m c i n check f s) := by
  unfold takeMember
  try dsimp only
  repeat' first
    | with_reducible assumption | with_reducible apply dropContrib_core | with_reducible apply dupContrib_core
    | with_reducible apply countMangle_core | with_reducible apply openChunk_core | with_reducible apply completeMember_core
    | with_reducible apply addValues_core | with_reducible rfl | split | with_reducible apply ite_core

theorem modPart_core {o₀ : State} (c i member : Nat) (g : Part → Part) (s : State) (hk : Kept o₀ s) :
    Kept o₀ (modPart c i member g s) := by
  unfold modPart
  try dsimp only
  repeat' first
    | with_reducible assumption | with_reducible apply modChunk_core | simp only [kept_mk, kept_fold] | (intro _) | with_reducible rfl

theorem settlePart_core {o₀ : State} (c i member check : Nat) (s : State) (hk : Kept o₀ s) :
    Kept o₀ (settlePart c i member check s) := by
  unfold settlePart
  try dsimp only
  repeat' first
    | with_reducible assumption | with_reducible apply addValues_core | with_reducible apply completeMember_core
    | simp only [kept_mk, kept_fold] | (intro _) | with_reducible rfl | split | with_reducible apply ite_core
    | refine of_pair (by with_reducible assumption) ?_ | refine of_some (by with_reducible assumption) ?_
    | refine of_next (by with_reducible assumption) ?_ | refine of_inl (by with_reducible assumption) ?_

theorem takeSegment_core {o₀ : State} (m : Nat) (c : Nat) (i : Nat) (n : Nat) (check : Nat) (f : Frame) (s : State)
    (hk : Kept o₀ s) :
    Kept o₀ (takeSegment m c i n check f s) := by
  unfold takeSegment
  try dsimp only
  repeat' first
    | with_reducible assumption | with_reducible exact trivial | with_reducible apply some_core | with_reducible apply none_core
    | with_reducible apply somep_core | with_reducible apply nonep_core | with_reducible apply settlePart_core
    | with_reducible apply modPart_core | with_reducible apply dupContrib_core | with_reducible apply dropContrib_core
    | with_reducible apply addRecord_core | with_reducible apply addValues_core | with_reducible apply openChunk_core
    | with_reducible apply resetChunk_core | with_reducible apply countMangle_core | with_reducible apply getD_core
    | with_reducible apply foldl_core | with_reducible apply foldl_kept2 | with_reducible apply foldl_kept3
    | simp only [kept_mk, kept_fold] | (intro _) | with_reducible rfl | split | with_reducible apply ite_answer_core
    | with_reducible apply ite_done_core | with_reducible apply ite_core | refine of_pair (by with_reducible assumption) ?_
    | refine of_triple (by with_reducible assumption) ?_ | refine of_some (by with_reducible assumption) ?_
    | refine of_somep (by with_reducible assumption) ?_ | refine of_next (by with_reducible assumption) ?_
    | refine of_inl (by with_reducible assumption) ?_

theorem takeContrib_core {o₀ : State} (m : Nat) (check : Nat) (y : MangleIn) (s : State) (hk : Kept o₀ s) :
    Kept o₀ (takeContrib m check y s) := by
  unfold takeContrib
  try dsimp only
  repeat' first
    | with_reducible assumption | with_reducible exact trivial | with_reducible apply some_core | with_reducible apply none_core
    | with_reducible apply somep_core | with_reducible apply nonep_core | with_reducible apply takeSegment_core
    | with_reducible apply takeMember_core | with_reducible apply regainRelease_core | with_reducible apply countGen_core
    | with_reducible apply dupContrib_core | with_reducible apply dropContrib_core | with_reducible apply modCtx_core
    | with_reducible apply countMangle_core | with_reducible apply countHall_core | with_reducible apply countPool_core
    | with_reducible apply getD_core | simp only [kept_mk, kept_fold] | (intro _) | with_reducible rfl | split
    | with_reducible apply ite_answer_core | with_reducible apply ite_done_core | with_reducible apply ite_core
    | refine of_pair (by with_reducible assumption) ?_ | refine of_triple (by with_reducible assumption) ?_
    | refine of_some (by with_reducible assumption) ?_ | refine of_somep (by with_reducible assumption) ?_
    | refine of_next (by with_reducible assumption) ?_ | refine of_inl (by with_reducible assumption) ?_

theorem admitInput_core {o₀ : State} (m : Nat) (s : State) (hk : Kept o₀ s) :
    Kept o₀ (admitInput m s) := by
  unfold admitInput
  try dsimp only
  repeat' first
    | with_reducible assumption | with_reducible exact trivial | with_reducible apply some_core | with_reducible apply none_core
    | with_reducible apply somep_core | with_reducible apply nonep_core | with_reducible apply modMangle_core
    | with_reducible apply freeFrame_core | with_reducible apply getD_core | with_reducible apply foldl_core
    | with_reducible apply foldl_kept2 | with_reducible apply foldl_kept3 | simp only [kept_mk, kept_fold] | (intro _)
    | with_reducible rfl | split | with_reducible apply ite_answer_core | with_reducible apply ite_done_core
    | with_reducible apply ite_core | refine of_pair (by with_reducible assumption) ?_
    | refine of_triple (by with_reducible assumption) ?_ | refine of_some (by with_reducible assumption) ?_
    | refine of_somep (by with_reducible assumption) ?_ | refine of_next (by with_reducible assumption) ?_
    | refine of_inl (by with_reducible assumption) ?_

theorem collUp_core {o₀ : State} (h : Nat) (x : Held) (s : State) (hk : Kept o₀ s) :
    Kept o₀ (collUp h x s) := by
  unfold collUp
  try dsimp only
  repeat' first
    | with_reducible assumption | with_reducible exact trivial | with_reducible apply admitInput_core
    | with_reducible apply modMangle_core | with_reducible apply freeFrame_core | with_reducible apply raiseLimited_core
    | with_reducible apply raise_core | with_reducible apply countMangle_core | with_reducible apply countHall_core
    | simp only [kept_mk, kept_fold] | (intro _) | with_reducible rfl | split | with_reducible apply ite_answer_core
    | with_reducible apply ite_done_core | with_reducible apply ite_core | refine of_pair (by with_reducible assumption) ?_
    | refine of_triple (by with_reducible assumption) ?_ | refine of_some (by with_reducible assumption) ?_
    | refine of_somep (by with_reducible assumption) ?_ | refine of_next (by with_reducible assumption) ?_
    | refine of_inl (by with_reducible assumption) ?_

theorem execMangleContribReceived_core {o₀ : State} (mangle : Nat) (check : Nat) (s : State) (hk : Kept o₀ s) :
    KeptAnswer o₀ (execMangleContribReceived mangle check s) := by
  unfold execMangleContribReceived
  try dsimp only
  repeat' first
    | with_reducible assumption | with_reducible exact trivial | with_reducible apply next_core | with_reducible apply refused_core
    | with_reducible apply some_core | with_reducible apply none_core | with_reducible apply somep_core
    | with_reducible apply nonep_core | with_reducible apply admitInput_core | with_reducible apply takeContrib_core
    | with_reducible apply pushOut_core | with_reducible apply modMangle_core | with_reducible apply guard_core
    | simp only [kept_mk, kept_fold] | (intro _) | with_reducible rfl | split | with_reducible apply ite_answer_core
    | with_reducible apply ite_done_core | with_reducible apply ite_core | refine of_pair (by with_reducible assumption) ?_
    | refine of_triple (by with_reducible assumption) ?_ | refine of_some (by with_reducible assumption) ?_
    | refine of_somep (by with_reducible assumption) ?_ | refine of_next (by with_reducible assumption) ?_
    | refine of_inl (by with_reducible assumption) ?_

theorem releaseRuns_core {o₀ : State} (c n : Nat) (s : State) (hk : Kept o₀ s) : Kept o₀ (releaseRuns c n s) := by
  induction n generalizing s with
  | zero => exact hk
  | succ n ih =>
    unfold releaseRuns
    split
    · exact hk
    · dsimp only
      split
      · exact ih _ (modCtx_core _ _ _ hk)
      · exact hk

theorem logChunk_core {o₀ : State} (c : Nat) (i : Nat) (ch : Chunk) (s : State) (hk : Kept o₀ s) :
    Kept o₀ (logChunk c i ch s) := by
  unfold logChunk
  try dsimp only
  repeat' first
    | with_reducible assumption | with_reducible exact trivial | with_reducible apply ok_core | with_reducible apply refuse_core
    | with_reducible apply reply_core | with_reducible apply wait_core | with_reducible apply modCtx_core
    | with_reducible apply countMangle_core | simp only [kept_mk, kept_fold] | (intro _) | with_reducible rfl | split
    | with_reducible apply ite_answer_core | with_reducible apply ite_done_core | with_reducible apply ite_core
    | refine of_pair (by with_reducible assumption) ?_ | refine of_triple (by with_reducible assumption) ?_
    | refine of_some (by with_reducible assumption) ?_ | refine of_somep (by with_reducible assumption) ?_
    | refine of_next (by with_reducible assumption) ?_ | refine of_inl (by with_reducible assumption) ?_

theorem handChunk_core {o₀ : State} (c : Nat) (ch : Chunk) (s : State) (hk : Kept o₀ s) :
    Kept o₀ (handChunk c ch s) := by
  unfold handChunk
  try dsimp only
  repeat' first
    | with_reducible assumption | with_reducible apply handOne_core | with_reducible apply handGroup_core | with_reducible apply getD_core
    | with_reducible apply foldl_core | with_reducible apply foldl_kept2 | with_reducible apply foldl_kept3 | (intro _) | with_reducible rfl
    | split | with_reducible apply ite_core

theorem execChunkDone_core {o₀ : State} (mangle : Nat) (s : State) (hk : Kept o₀ s) :
    KeptAnswer o₀ (execChunkDone mangle s) := by
  unfold execChunkDone
  try dsimp only
  repeat' first
    | with_reducible assumption | with_reducible apply next_core | with_reducible apply refused_core | with_reducible apply pushOut_core
    | with_reducible apply guard_core | with_reducible apply logChunk_core | with_reducible apply modCtx_core
    | with_reducible apply handChunk_core | with_reducible apply releaseRuns_core | with_reducible apply getD_core
    | simp only [kept_mk, kept_fold] | (intro _) | with_reducible rfl | split | with_reducible apply ite_answer_core
    | with_reducible apply ite_core | refine of_pair (by with_reducible assumption) ?_ | refine of_some (by with_reducible assumption) ?_
    | refine of_next (by with_reducible assumption) ?_ | refine of_inl (by with_reducible assumption) ?_

theorem execReleaseSend_core {o₀ : State} (ctx : Nat) (s : State) (hk : Kept o₀ s) :
    KeptAnswer o₀ (execReleaseSend ctx s) := by
  unfold execReleaseSend
  try dsimp only
  repeat' first
    | with_reducible assumption | with_reducible apply next_core | with_reducible apply refused_core | with_reducible apply guard_core
    | with_reducible apply handGroup_core | with_reducible apply modCtx_core | simp only [kept_mk, kept_fold] | (intro _)
    | with_reducible rfl | split | with_reducible apply ite_answer_core | with_reducible apply ite_core
    | refine of_pair (by with_reducible assumption) ?_ | refine of_some (by with_reducible assumption) ?_
    | refine of_next (by with_reducible assumption) ?_ | refine of_inl (by with_reducible assumption) ?_

theorem execHamperEntryWrite_core {o₀ : State} (mangle : Nat) (s : State) (hk : Kept o₀ s) :
    KeptAnswer o₀ (execHamperEntryWrite mangle s) := by
  unfold execHamperEntryWrite
  try dsimp only
  repeat' first
    | with_reducible assumption | with_reducible apply next_core | with_reducible apply refused_core | with_reducible apply guard_core
    | with_reducible apply takeTokens_core | with_reducible apply count_core | with_reducible apply countLines_core
    | with_reducible apply countMangle_core | with_reducible apply modCtx_core | with_reducible apply foldl_core
    | with_reducible apply foldl_kept2 | with_reducible apply foldl_kept3 | simp only [kept_mk, kept_fold] | (intro _) | with_reducible rfl
    | split | with_reducible apply ite_answer_core | with_reducible apply ite_core | refine of_pair (by with_reducible assumption) ?_
    | refine of_some (by with_reducible assumption) ?_ | refine of_next (by with_reducible assumption) ?_
    | refine of_inl (by with_reducible assumption) ?_

theorem dropDown_core {o₀ : State} (h idx cause : Nat) (x : Held) (s : State) (hk : Kept o₀ s) :
    Kept o₀ (dropDown h idx cause x s) := by
  unfold dropDown
  try dsimp only
  repeat' first
    | with_reducible assumption | with_reducible apply raiseLimited_core | with_reducible apply raise_core
    | with_reducible apply freeFrame_core | with_reducible apply countHall_core | (intro _) | with_reducible rfl

theorem acceptRelease_core {o₀ : State} (c : Nat) (rel : Nat) (s : State) (hk : Kept o₀ s) :
    Kept o₀ (acceptRelease c rel s) := by
  unfold acceptRelease
  try dsimp only
  repeat' first
    | with_reducible assumption | with_reducible exact trivial | with_reducible apply some_core | with_reducible apply none_core
    | with_reducible apply somep_core | with_reducible apply nonep_core | with_reducible apply modCtx_core
    | with_reducible apply countMangle_core | with_reducible apply foldl_core | with_reducible apply foldl_kept2
    | with_reducible apply foldl_kept3 | simp only [kept_mk, kept_fold] | (intro _) | with_reducible rfl | split
    | with_reducible apply ite_answer_core | with_reducible apply ite_done_core | with_reducible apply ite_core
    | refine of_pair (by with_reducible assumption) ?_ | refine of_triple (by with_reducible assumption) ?_
    | refine of_some (by with_reducible assumption) ?_ | refine of_somep (by with_reducible assumption) ?_
    | refine of_next (by with_reducible assumption) ?_ | refine of_inl (by with_reducible assumption) ?_

theorem forwardDown_core {o₀ : State} (h : Nat) (x : Held) (s : State) (hk : Kept o₀ s) :
    Kept o₀ (forwardDown h x s) := by
  unfold forwardDown
  try dsimp only
  repeat' first
    | with_reducible assumption | with_reducible apply freeFrame_core | with_reducible apply toChute_core
    | with_reducible apply countHall_core | with_reducible apply replicate_core | simp only [kept_mk, kept_fold] | with_reducible rfl
    | split | with_reducible apply ite_core

theorem collDown_core {o₀ : State} (h : Nat) (x : Held) (s : State) (hk : Kept o₀ s) :
    Kept o₀ (collDown h x s) := by
  unfold collDown
  try dsimp only
  repeat' first
    | with_reducible assumption | with_reducible apply dropDown_core | with_reducible apply countGen_core
    | with_reducible apply freeFrame_core | with_reducible apply forwardDown_core | with_reducible apply countHall_core
    | with_reducible apply acceptRelease_core | with_reducible rfl | split | with_reducible apply ite_core
    | refine of_pair (by with_reducible assumption) ?_ | refine of_some (by with_reducible assumption) ?_
    | refine of_next (by with_reducible assumption) ?_ | refine of_inl (by with_reducible assumption) ?_

theorem execCollStraggler_core {o₀ : State} (ctx : Nat) (chunk : Nat) (s : State) (hk : Kept o₀ s) :
    KeptAnswer o₀ (execCollStraggler ctx chunk s) := by
  unfold execCollStraggler
  try dsimp only
  repeat' first
    | with_reducible assumption | with_reducible exact trivial | with_reducible apply next_core | with_reducible apply refused_core
    | with_reducible apply some_core | with_reducible apply none_core | with_reducible apply somep_core
    | with_reducible apply nonep_core | with_reducible apply modChunk_core | with_reducible apply guard_core
    | with_reducible apply raiseLimited_core | with_reducible apply raise_core | with_reducible apply countMangle_core
    | simp only [kept_mk, kept_fold] | (intro _) | with_reducible rfl | split | with_reducible apply ite_answer_core
    | with_reducible apply ite_done_core | with_reducible apply ite_core | refine of_pair (by with_reducible assumption) ?_
    | refine of_triple (by with_reducible assumption) ?_ | refine of_some (by with_reducible assumption) ?_
    | refine of_somep (by with_reducible assumption) ?_ | refine of_next (by with_reducible assumption) ?_
    | refine of_inl (by with_reducible assumption) ?_

theorem execCollRunStalled_core {o₀ : State} (ctx : Nat) (run : Nat) (s : State) (hk : Kept o₀ s) :
    KeptAnswer o₀ (execCollRunStalled ctx run s) := by
  unfold execCollRunStalled
  try dsimp only
  repeat' first
    | with_reducible assumption | with_reducible exact trivial | with_reducible apply next_core | with_reducible apply refused_core
    | with_reducible apply some_core | with_reducible apply none_core | with_reducible apply somep_core
    | with_reducible apply nonep_core | with_reducible apply modCtx_core | with_reducible apply guard_core
    | with_reducible apply raise_core | simp only [kept_mk, kept_fold] | (intro _) | with_reducible rfl | split
    | with_reducible apply ite_answer_core | with_reducible apply ite_done_core | with_reducible apply ite_core
    | refine of_pair (by with_reducible assumption) ?_ | refine of_triple (by with_reducible assumption) ?_
    | refine of_some (by with_reducible assumption) ?_ | refine of_somep (by with_reducible assumption) ?_
    | refine of_next (by with_reducible assumption) ?_ | refine of_inl (by with_reducible assumption) ?_

theorem execReplayWaitExpired_core {o₀ : State} (ctx : Nat) (lost : List (Nat × Nat × Bool)) (s : State) (hk : Kept o₀ s) :
    KeptAnswer o₀ (execReplayWaitExpired ctx lost s) := by
  unfold execReplayWaitExpired
  try dsimp only
  repeat' first
    | with_reducible assumption | with_reducible exact trivial | with_reducible apply next_core | with_reducible apply refused_core
    | with_reducible apply some_core | with_reducible apply none_core | with_reducible apply somep_core
    | with_reducible apply nonep_core | with_reducible apply demandLine_core | with_reducible apply replay_core
    | with_reducible apply guard_core | with_reducible apply foldl_core | with_reducible apply foldl_kept2
    | with_reducible apply foldl_kept3 | simp only [kept_mk, kept_fold] | (intro _) | with_reducible rfl | split
    | with_reducible apply ite_answer_core | with_reducible apply ite_done_core | with_reducible apply ite_core
    | refine of_pair (by with_reducible assumption) ?_ | refine of_triple (by with_reducible assumption) ?_
    | refine of_some (by with_reducible assumption) ?_ | refine of_somep (by with_reducible assumption) ?_
    | refine of_next (by with_reducible assumption) ?_ | refine of_inl (by with_reducible assumption) ?_

theorem quiesceColl_core {o₀ : State} (key : Nat) (s : State) (hk : Kept o₀ s) :
    Kept o₀ (quiesceColl key s) := by
  unfold quiesceColl
  try dsimp only
  repeat' first
    | with_reducible assumption | with_reducible apply resetChunk_core | with_reducible apply foldl_core | with_reducible apply foldl_kept2
    | with_reducible apply foldl_kept3 | (intro _) | with_reducible rfl | split | refine of_pair (by with_reducible assumption) ?_
    | refine of_some (by with_reducible assumption) ?_ | refine of_next (by with_reducible assumption) ?_
    | refine of_inl (by with_reducible assumption) ?_

/-! ## Machine/Collect.lean -/

theorem applyCtx_core {o₀ : State} (c oldGen : Nat) (s : State) (hk : Kept o₀ s) :
    Kept o₀ (applyCtx c oldGen s) := by
  unfold applyCtx
  try dsimp only
  repeat' first
    | with_reducible assumption | with_reducible apply raiseLead_core | with_reducible apply getD_core | simp only [kept_mk, kept_fold]
    | (intro _) | with_reducible rfl | split | with_reducible apply ite_core

theorem execCtxCreate_core {o₀ : State} (q : Request) (s : State) (hk : Kept o₀ s) :
    KeptAnswer o₀ (execCtxCreate q s) := by
  unfold execCtxCreate
  try dsimp only
  repeat' first
    | with_reducible assumption | with_reducible apply next_core | with_reducible apply refused_core | with_reducible apply runCommand_core
    | with_reducible apply withChecks_core | with_reducible apply stageDone_core | simp only [kept_mk, kept_fold] | (intro _)
    | with_reducible rfl

theorem execCtxModify_core {o₀ : State} (q : Request) (s : State) (hk : Kept o₀ s) :
    KeptAnswer o₀ (execCtxModify q s) := by
  unfold execCtxModify
  try dsimp only
  repeat' first
    | with_reducible assumption | with_reducible apply next_core | with_reducible apply refused_core | with_reducible apply runCommand_core
    | with_reducible apply withChecks_core | with_reducible apply stageDone_core | simp only [kept_mk, kept_fold] | (intro _)
    | with_reducible rfl | split | with_reducible apply ite_answer_core | with_reducible apply ite_core

theorem execCtxDestroy_core {o₀ : State} (q : Request) (s : State) (hk : Kept o₀ s) :
    KeptAnswer o₀ (execCtxDestroy q s) := by
  unfold execCtxDestroy
  try dsimp only
  repeat' first
    | with_reducible assumption | with_reducible apply next_core | with_reducible apply refused_core | with_reducible apply runCommand_core
    | with_reducible apply withChecks_core | with_reducible apply stageDone_core | simp only [kept_mk, kept_fold] | (intro _)
    | with_reducible rfl

theorem execTreeSet_core {o₀ : State} (q : Request) (s : State) (hk : Kept o₀ s) :
    KeptAnswer o₀ (execTreeSet q s) := by
  unfold execTreeSet
  try dsimp only
  repeat' first
    | with_reducible assumption | with_reducible apply next_core | with_reducible apply refused_core | with_reducible apply runCommand_core
    | with_reducible apply withChecks_core | with_reducible apply stageDone_core | with_reducible apply getD_core
    | simp only [kept_mk, kept_fold] | (intro _) | with_reducible rfl | split | with_reducible apply ite_answer_core
    | with_reducible apply ite_core

theorem execCtxRead_core {o₀ : State} (q : Request) (s : State) (hk : Kept o₀ s) :
    KeptAnswer o₀ (execCtxRead q s) := by
  unfold execCtxRead
  try dsimp only
  repeat' first
    | with_reducible assumption | with_reducible apply next_core | with_reducible apply refused_core | with_reducible apply ok_core
    | with_reducible apply refuse_core | with_reducible apply runCommand_core | with_reducible apply getD_core | (intro _)
    | with_reducible rfl | split | refine of_pair (by with_reducible assumption) ?_ | refine of_some (by with_reducible assumption) ?_
    | refine of_next (by with_reducible assumption) ?_ | refine of_inl (by with_reducible assumption) ?_

theorem execEngineFlagsRead_core {o₀ : State} (q : Request) (s : State) (hk : Kept o₀ s) :
    KeptAnswer o₀ (execEngineFlagsRead q s) := by
  unfold execEngineFlagsRead
  try dsimp only
  repeat' first
    | with_reducible assumption | with_reducible apply next_core | with_reducible apply refused_core | with_reducible apply ok_core
    | with_reducible apply runCommand_core | with_reducible apply withChecks_core | with_reducible apply getD_core
    | simp only [kept_mk, kept_fold] | (intro _) | with_reducible rfl

theorem execEngineFlagsClear_core {o₀ : State} (q : Request) (s : State) (hk : Kept o₀ s) :
    KeptAnswer o₀ (execEngineFlagsClear q s) := by
  unfold execEngineFlagsClear
  try dsimp only
  repeat' first
    | with_reducible assumption | with_reducible apply next_core | with_reducible apply refused_core | with_reducible apply ok_core
    | with_reducible apply runCommand_core | with_reducible apply withChecks_core | with_reducible apply modEngine_core
    | with_reducible apply foldl_core | with_reducible apply foldl_kept2 | with_reducible apply foldl_kept3 | (intro _) | with_reducible rfl
    | split | with_reducible apply ite_answer_core | with_reducible apply ite_done_core | with_reducible apply ite_core

theorem execEngineStateRead_core {o₀ : State} (q : Request) (s : State) (hk : Kept o₀ s) :
    KeptAnswer o₀ (execEngineStateRead q s) := by
  unfold execEngineStateRead
  try dsimp only
  repeat' first
    | with_reducible assumption | with_reducible apply next_core | with_reducible apply refused_core | with_reducible apply ok_core
    | with_reducible apply runCommand_core | with_reducible apply withChecks_core | with_reducible apply getD_core
    | simp only [kept_mk, kept_fold] | (intro _) | with_reducible rfl | split | with_reducible apply ite_answer_core
    | with_reducible apply ite_done_core | with_reducible apply ite_core

theorem execEpochStatus_core {o₀ : State} (q : Request) (s : State) (hk : Kept o₀ s) :
    KeptAnswer o₀ (execEpochStatus q s) := by
  unfold execEpochStatus
  try dsimp only
  repeat' first
    | with_reducible assumption | with_reducible exact trivial | with_reducible apply ok_core | with_reducible apply refuse_core
    | with_reducible apply reply_core | with_reducible apply wait_core | with_reducible apply some_core
    | with_reducible apply none_core | with_reducible apply somep_core | with_reducible apply nonep_core
    | with_reducible apply runCommand_core | with_reducible apply withChecks_core | with_reducible apply getD_core
    | simp only [kept_mk, kept_fold] | (intro _) | with_reducible rfl | split | with_reducible apply ite_answer_core
    | with_reducible apply ite_done_core | with_reducible apply ite_core | refine of_pair (by with_reducible assumption) ?_
    | refine of_triple (by with_reducible assumption) ?_ | refine of_some (by with_reducible assumption) ?_
    | refine of_somep (by with_reducible assumption) ?_ | refine of_next (by with_reducible assumption) ?_
    | refine of_inl (by with_reducible assumption) ?_

theorem execEpochAbort_core {o₀ : State} (q : Request) (s : State) (hk : Kept o₀ s) :
    KeptAnswer o₀ (execEpochAbort q s) := by
  unfold execEpochAbort
  try dsimp only
  repeat' first
    | with_reducible assumption | with_reducible apply next_core | with_reducible apply refused_core | with_reducible apply ok_core
    | with_reducible apply refuse_core | with_reducible apply runCommand_core | with_reducible apply withChecks_core
    | with_reducible apply resetChunk_core | with_reducible apply raiseLead_core | with_reducible apply foldl_core
    | with_reducible apply foldl_kept2 | with_reducible apply foldl_kept3 | simp only [kept_mk, kept_fold] | (intro _) | with_reducible rfl
    | split | refine of_pair (by with_reducible assumption) ?_ | refine of_some (by with_reducible assumption) ?_
    | refine of_next (by with_reducible assumption) ?_ | refine of_inl (by with_reducible assumption) ?_

theorem execHamperConfig_core {o₀ : State} (q : Request) (s : State) (hk : Kept o₀ s) :
    KeptAnswer o₀ (execHamperConfig q s) := by
  unfold execHamperConfig
  try dsimp only
  repeat' first
    | with_reducible assumption | with_reducible apply next_core | with_reducible apply refused_core | with_reducible apply ok_core
    | with_reducible apply runCommand_core | with_reducible apply withChecks_core | simp only [kept_mk, kept_fold] | (intro _)
    | with_reducible rfl

/-! ## Machine/Receive.lean -/

theorem setNak_core {o₀ : State} (port : Nat) (s : State) (hk : Kept o₀ s) :
    Kept o₀ (setNak port s) := by
  unfold setNak
  try dsimp only
  repeat' first
    | with_reducible assumption | with_reducible apply countPort_core | with_reducible apply modLink_core | simp only [kept_mk, kept_fold]
    | (intro _) | with_reducible rfl | split | with_reducible apply ite_core

theorem returnCredit_core {o₀ : State} (port : Nat) (f : Frame) (s : State) (hk : Kept o₀ s) :
    Kept o₀ (returnCredit port f s) := by
  unfold returnCredit
  try dsimp only
  repeat' first
    | with_reducible assumption | with_reducible apply modLink_core | with_reducible apply getD_core | simp only [kept_mk, kept_fold]
    | (intro _) | with_reducible rfl | split | with_reducible apply ite_core

theorem latchkeyCheck_core (port : Nat) (f : Frame) (s : State) : KeptMap (latchkeyCheck port f s) := by
  unfold latchkeyCheck
  intro f e o s hk
  dsimp only at e
  split at e
  · cases e
  · split at e
    · cases e; exact latchkeyDrop_core _ _ _ _ _ _ hk
    · split at e
      · cases e; exact latchkeyDrop_core _ _ _ _ _ _ hk
      · split at e
        · cases e; exact countPool_core _ _ _ _ _ (modBlock_core _ _ _ hk)
        · split at e
          · cases e; exact latchkeyDrop_core _ _ _ _ _ _ hk
          · cases e

theorem noteParity_core {o₀ : State} (h pipe : Nat) (f : Frame) (o : ParityObs) (s : State) (hk : Kept o₀ s) :
    Kept o₀ (noteParity h pipe f o s) := by
  unfold noteParity
  try dsimp only
  repeat' first
    | with_reducible assumption | simp only [kept_mk, kept_fold] | with_reducible rfl | split | with_reducible apply ite_core

theorem broadcast_core {o₀ : State} (h : Nat) (x : Held) (s : State) (hk : Kept o₀ s) :
    Kept o₀ (broadcast h x s) := by
  unfold broadcast
  try dsimp only
  repeat' first
    | with_reducible assumption | with_reducible apply metered_core | with_reducible apply freeFrame_core
    | with_reducible apply toChute_core | with_reducible apply countHall_core | with_reducible apply replicate_core
    | simp only [kept_mk, kept_fold] | (intro _) | with_reducible rfl | split | with_reducible apply ite_core
    | refine of_pair (by with_reducible assumption) ?_ | refine of_some (by with_reducible assumption) ?_
    | refine of_next (by with_reducible assumption) ?_ | refine of_inl (by with_reducible assumption) ?_

theorem takeRequest_core {o₀ : State} (x : Held) (h : Nat) (s : State) (hk : Kept o₀ s) :
    Kept o₀ (takeRequest x h s) := by
  unfold takeRequest
  try dsimp only
  repeat' first
    | with_reducible assumption | with_reducible exact trivial | with_reducible apply arrivePacket_core
    | with_reducible apply freeFrame_core | simp only [kept_mk, kept_fold] | (intro _) | with_reducible rfl | split
    | with_reducible apply ite_answer_core | with_reducible apply ite_done_core | with_reducible apply ite_core
    | refine of_pair (by with_reducible assumption) ?_ | refine of_triple (by with_reducible assumption) ?_
    | refine of_some (by with_reducible assumption) ?_ | refine of_somep (by with_reducible assumption) ?_
    | refine of_next (by with_reducible assumption) ?_ | refine of_inl (by with_reducible assumption) ?_

theorem forward_core {o₀ : State} (port : Nat) (rtx : Bool) (x : Held) (s : State) (hk : Kept o₀ s) :
    Kept o₀ (forward port rtx x s) := by
  unfold forward
  try dsimp only
  repeat' first
    | with_reducible assumption | with_reducible exact trivial | with_reducible apply some_core | with_reducible apply none_core
    | with_reducible apply somep_core | with_reducible apply nonep_core | with_reducible apply takeRequest_core
    | with_reducible apply broadcast_core | with_reducible apply collDown_core
    | with_reducible apply collUp_core | with_reducible apply modDarn_core | with_reducible apply metered_core
    | with_reducible apply enqueue_core | with_reducible apply routeStep_core | with_reducible apply toChute_core
    | with_reducible apply freeFrame_core | with_reducible apply countHall_core | with_reducible apply count_core
    | simp only [kept_mk, kept_fold] | refine of_map (latchkeyCheck_core _ _ _) (by with_reducible assumption) ?_ | (intro _) | with_reducible rfl | split | with_reducible apply ite_answer_core
    | with_reducible apply ite_done_core | with_reducible apply ite_core | refine of_pair (by with_reducible assumption) ?_
    | refine of_triple (by with_reducible assumption) ?_ | refine of_some (by with_reducible assumption) ?_
    | refine of_somep (by with_reducible assumption) ?_ | refine of_next (by with_reducible assumption) ?_
    | refine of_inl (by with_reducible assumption) ?_

theorem acceptFrame_core {o₀ : State} (port : Nat) (rtx : Bool) (f : Frame) (parity : ParityObs) (s : State) (hk : Kept o₀ s) :
    Kept o₀ (acceptFrame port rtx f parity s) := by
  unfold acceptFrame
  try dsimp only
  repeat' first
    | with_reducible assumption | with_reducible exact trivial | with_reducible apply forward_core
    | with_reducible apply noteParity_core | with_reducible apply returnCredit_core | with_reducible apply linkProtocol_core
    | with_reducible apply discardRequest_core | with_reducible apply modLink_core | with_reducible apply countPort_core
    | with_reducible apply getD_core | simp only [kept_mk, kept_fold] | (intro _) | with_reducible rfl | split
    | with_reducible apply ite_answer_core | with_reducible apply ite_done_core | with_reducible apply ite_core
    | refine of_pair (by with_reducible assumption) ?_ | refine of_triple (by with_reducible assumption) ?_
    | refine of_some (by with_reducible assumption) ?_ | refine of_somep (by with_reducible assumption) ?_
    | refine of_next (by with_reducible assumption) ?_ | refine of_inl (by with_reducible assumption) ?_

theorem judgeSeq_core {o₀ : State} (port : Nat) (lseq : Nat) (rtx : Bool) (f : Frame) (parity : ParityObs) (s : State)
    (hk : Kept o₀ s) :
    Kept o₀ (judgeSeq port lseq rtx f parity s) := by
  unfold judgeSeq
  try dsimp only
  repeat' first
    | with_reducible assumption | with_reducible exact trivial | with_reducible apply acceptFrame_core
    | with_reducible apply setNak_core | with_reducible apply countPort_core | simp only [kept_mk, kept_fold] | (intro _)
    | with_reducible rfl | split | with_reducible apply ite_answer_core | with_reducible apply ite_done_core
    | with_reducible apply ite_core | refine of_pair (by with_reducible assumption) ?_
    | refine of_triple (by with_reducible assumption) ?_ | refine of_some (by with_reducible assumption) ?_
    | refine of_somep (by with_reducible assumption) ?_ | refine of_next (by with_reducible assumption) ?_
    | refine of_inl (by with_reducible assumption) ?_

theorem judgeFound_core {o₀ : State} (port : Nat) (found : Found) (parity : ParityObs) (s : State) (hk : Kept o₀ s) :
    Kept o₀ (judgeFound port found parity s) := by
  unfold judgeFound
  try dsimp only
  repeat' first
    | with_reducible assumption | with_reducible exact trivial | with_reducible apply judgeSeq_core
    | with_reducible apply setNak_core | with_reducible apply retrain_core | with_reducible apply linkProtocol_core
    | with_reducible apply countPort_core | simp only [kept_mk, kept_fold] | (intro _) | with_reducible rfl | split
    | with_reducible apply ite_answer_core | with_reducible apply ite_done_core | with_reducible apply ite_core
    | refine of_pair (by with_reducible assumption) ?_ | refine of_triple (by with_reducible assumption) ?_
    | refine of_some (by with_reducible assumption) ?_ | refine of_somep (by with_reducible assumption) ?_
    | refine of_next (by with_reducible assumption) ?_ | refine of_inl (by with_reducible assumption) ?_

theorem execFrameReceived_core {o₀ : State} (port : Nat) (parity : ParityObs) (s : State) (hk : Kept o₀ s) :
    KeptAnswer o₀ (execFrameReceived port parity s) := by
  unfold execFrameReceived
  try dsimp only
  repeat' first
    | with_reducible assumption | with_reducible exact trivial | with_reducible apply next_core | with_reducible apply refused_core
    | with_reducible apply judgeFound_core | with_reducible apply modLink_core | simp only [kept_mk, kept_fold] | (intro _)
    | with_reducible rfl | split | with_reducible apply ite_answer_core | with_reducible apply ite_done_core
    | with_reducible apply ite_core | refine of_pair (by with_reducible assumption) ?_
    | refine of_triple (by with_reducible assumption) ?_ | refine of_some (by with_reducible assumption) ?_
    | refine of_somep (by with_reducible assumption) ?_ | refine of_next (by with_reducible assumption) ?_
    | refine of_inl (by with_reducible assumption) ?_

end Sys2Proof.Machine
end

