-- ==== Sys2Proof/Laws/KeptCommit.lean ====
section
/-!
SUPPORT. What commits, the interpreter's commands, counters and clocks leave alone.
-/
namespace Sys2Proof.Machine

/-! ## Machine/Commit.lean -/

theorem layItem_core {o₀ : State} (s : State) (i : Item) (hk : Kept o₀ s) :
    Kept o₀ (layItem s i) := by
  unfold layItem
  try dsimp only
  repeat' first
    | with_reducible assumption | with_reducible apply getD_core | simp only [kept_mk, kept_fold] | with_reducible rfl | split
    | with_reducible apply ite_core | refine of_pair (by with_reducible assumption) ?_ | refine of_some (by with_reducible assumption) ?_
    | refine of_next (by with_reducible assumption) ?_ | refine of_inl (by with_reducible assumption) ?_

theorem layPool_core {o₀ : State} (s : State) (i : Item) (hk : Kept o₀ s) :
    Kept o₀ (layPool s i) := by
  unfold layPool
  try dsimp only
  repeat' first
    | with_reducible assumption | with_reducible apply modBlock_core | simp only [kept_mk, kept_fold] | (intro _) | with_reducible rfl
    | split | with_reducible apply ite_core | refine of_pair (by with_reducible assumption) ?_
    | refine of_some (by with_reducible assumption) ?_ | refine of_next (by with_reducible assumption) ?_
    | refine of_inl (by with_reducible assumption) ?_

theorem laid_core {o₀ : State} (t : Txn) (s : State) (hk : Kept o₀ s) :
    Kept o₀ (laid t s) := by
  unfold laid
  try dsimp only
  repeat' first
    | with_reducible assumption | with_reducible apply layPool_core | with_reducible apply layItem_core | with_reducible apply foldl_core
    | with_reducible apply foldl_kept2 | with_reducible apply foldl_kept3 | with_reducible rfl

theorem leaveFailed_core {o₀ : State} (c : Nat) (s : State) (hk : Kept o₀ s) :
    Kept o₀ (leaveFailed c s) := by
  unfold leaveFailed
  try dsimp only
  repeat' first
    | with_reducible assumption | with_reducible exact trivial | with_reducible apply migrate_core | simp only [kept_mk, kept_fold]
    | (intro _) | with_reducible rfl | split | with_reducible apply ite_answer_core | with_reducible apply ite_done_core
    | with_reducible apply ite_core | refine of_pair (by with_reducible assumption) ?_
    | refine of_triple (by with_reducible assumption) ?_ | refine of_some (by with_reducible assumption) ?_
    | refine of_somep (by with_reducible assumption) ?_ | refine of_next (by with_reducible assumption) ?_
    | refine of_inl (by with_reducible assumption) ?_

theorem layContexts_core {o₀ : State} (t : Txn) (old : State) (s : State) (hk : Kept o₀ s) :
    Kept o₀ (layContexts t old s) := by
  unfold layContexts
  try dsimp only
  repeat' first
    | with_reducible assumption | with_reducible exact trivial | with_reducible apply leaveFailed_core
    | with_reducible apply applyCtx_core | with_reducible apply foldl_core | with_reducible apply foldl_kept2
    | with_reducible apply foldl_kept3 | simp only [kept_mk, kept_fold] | (intro _) | with_reducible rfl | split
    | with_reducible apply ite_answer_core | with_reducible apply ite_done_core | with_reducible apply ite_core
    | refine of_pair (by with_reducible assumption) ?_ | refine of_triple (by with_reducible assumption) ?_
    | refine of_some (by with_reducible assumption) ?_ | refine of_somep (by with_reducible assumption) ?_
    | refine of_next (by with_reducible assumption) ?_ | refine of_inl (by with_reducible assumption) ?_

theorem shadowsGood_core {o₀ : State} (h : Nat) (bad : List (Nat × Nat)) (s : State) (hk : Kept o₀ s) :
    Kept o₀ (shadowsGood h bad s).2 := by
  unfold shadowsGood
  try dsimp only
  repeat' first
    | with_reducible assumption | with_reducible apply readShadow_core | with_reducible apply foldl_core | with_reducible apply foldl_kept2
    | with_reducible apply foldl_kept3 | (intro _) | with_reducible rfl

theorem othersLaid_core {o₀ : State} (h : Nat) (s : State) (hk : Kept o₀ s) :
    Kept o₀ (othersLaid h s) := by
  unfold othersLaid
  try dsimp only
  repeat' first
    | with_reducible assumption | with_reducible exact trivial | with_reducible apply layContexts_core
    | with_reducible apply laid_core | with_reducible apply foldl_core | with_reducible apply foldl_kept2
    | with_reducible apply foldl_kept3 | simp only [kept_mk, kept_fold] | (intro _) | with_reducible rfl | split
    | with_reducible apply ite_answer_core | with_reducible apply ite_done_core | with_reducible apply ite_core
    | refine of_pair (by with_reducible assumption) ?_ | refine of_triple (by with_reducible assumption) ?_
    | refine of_some (by with_reducible assumption) ?_ | refine of_somep (by with_reducible assumption) ?_
    | refine of_next (by with_reducible assumption) ?_ | refine of_inl (by with_reducible assumption) ?_

theorem execTxnCommit_core {o₀ : State} (q : Request) (bad : List (Nat × Nat)) (nacks : Nat) (s : State) (hk : Kept o₀ s) :
    KeptAnswer o₀ (execTxnCommit q bad nacks s) := by
  unfold execTxnCommit
  try dsimp only
  repeat' first
    | with_reducible assumption | with_reducible exact trivial | with_reducible apply next_core | with_reducible apply refused_core
    | with_reducible apply ok_core | with_reducible apply refuse_core | with_reducible apply reply_core
    | with_reducible apply wait_core | with_reducible apply some_core | with_reducible apply none_core
    | with_reducible apply somep_core | with_reducible apply nonep_core | with_reducible apply shadowsGood_core
    | with_reducible apply runCommand_core | with_reducible apply setTxn_core | with_reducible apply raiseLead_core
    | with_reducible apply draw_core | simp only [kept_mk, kept_fold] | (intro _) | with_reducible rfl | split
    | with_reducible apply ite_answer_core | with_reducible apply ite_done_core | with_reducible apply ite_core
    | refine of_pair (by with_reducible assumption) ?_ | refine of_triple (by with_reducible assumption) ?_
    | refine of_some (by with_reducible assumption) ?_ | refine of_somep (by with_reducible assumption) ?_
    | refine of_next (by with_reducible assumption) ?_ | refine of_inl (by with_reducible assumption) ?_

theorem changeGangs_core {o₀ : State} (pair : Nat) (old : State) (s : State) (hk : Kept o₀ s) :
    Kept o₀ (changeGangs pair old s) := by
  unfold changeGangs
  try dsimp only
  repeat' first
    | with_reducible assumption | with_reducible exact trivial | with_reducible apply startTraining_core
    | with_reducible apply linkDown_core | with_reducible apply retrain_core | with_reducible apply judgePort_core
    | with_reducible apply roundsAfter_core | with_reducible apply advertise_core | with_reducible apply modPort_core
    | with_reducible apply modLink_core | with_reducible apply foldl_core | with_reducible apply foldl_kept2
    | with_reducible apply foldl_kept3 | simp only [kept_mk, kept_fold] | (intro _) | with_reducible rfl | split
    | with_reducible apply ite_answer_core | with_reducible apply ite_done_core | with_reducible apply ite_core
    | refine of_pair (by with_reducible assumption) ?_ | refine of_triple (by with_reducible assumption) ?_
    | refine of_some (by with_reducible assumption) ?_ | refine of_somep (by with_reducible assumption) ?_
    | refine of_next (by with_reducible assumption) ?_ | refine of_inl (by with_reducible assumption) ?_

theorem settleBlock_core {o₀ : State} (key : Nat) (v : Bytes) (old s : State) (hk : Kept o₀ s) :
    Kept o₀ (settleBlock key v old s) := by
  unfold settleBlock
  try dsimp only
  repeat' first
    | with_reducible assumption | with_reducible apply rollBack_core | with_reducible apply raiseLead_core | with_reducible apply getD_core
    | with_reducible apply foldl_core | with_reducible apply foldl_kept2 | with_reducible apply foldl_kept3 | (intro _) | with_reducible rfl
    | split | with_reducible apply ite_core

theorem settleRegulator_core {o₀ : State} (h part : Nat) (old s : State) (hk : Kept o₀ s) :
    Kept o₀ (settleRegulator h part old s) := by
  unfold settleRegulator
  try dsimp only
  repeat' first
    | with_reducible assumption | simp only [kept_mk, kept_fold] | with_reducible rfl

theorem settleItem_core {o₀ : State} (old : State) (s : State) (i : Item) (hk : Kept o₀ s) :
    Kept o₀ (settleItem old s i) := by
  unfold settleItem
  try dsimp only
  repeat' first
    | with_reducible assumption | with_reducible exact trivial | with_reducible apply settleRegulator_core
    | with_reducible apply settleBlock_core | with_reducible apply changeGangs_core | with_reducible apply dropFlowlets_core
    | with_reducible apply judgePort_core | with_reducible apply advertise_core | with_reducible apply touchHeads_core
    | with_reducible apply modHall_core | with_reducible apply raiseLead_core | with_reducible apply getD_core
    | simp only [kept_mk, kept_fold] | (intro _) | with_reducible rfl | split | with_reducible apply ite_answer_core
    | with_reducible apply ite_done_core | with_reducible apply ite_core | refine of_pair (by with_reducible assumption) ?_
    | refine of_triple (by with_reducible assumption) ?_ | refine of_some (by with_reducible assumption) ?_
    | refine of_somep (by with_reducible assumption) ?_ | refine of_next (by with_reducible assumption) ?_
    | refine of_inl (by with_reducible assumption) ?_

theorem dropHeld_core {o₀ : State} (sel : Nat → Frame → Bool) (s : State) (hk : Kept o₀ s) :
    Kept o₀ (dropHeld sel s) := by
  unfold dropHeld
  try dsimp only
  repeat' first
    | with_reducible assumption | simp only [kept_mk, kept_fold] | (intro _) | with_reducible rfl

theorem purge_core {o₀ : State} (sel : Nat → Frame → Bool) (note : Nat → Nat → State → State) (s : State)
    (hf_note : ∀ x0 x1 x2, Kept o₀ x2 → Kept o₀ (note x0 x1 x2))
    (hk : Kept o₀ s) :
    Kept o₀ (purge sel note s) := by
  unfold purge
  try dsimp only
  repeat' first
    | with_reducible assumption | with_reducible apply hf_note | with_reducible apply dropHeld_core | with_reducible apply freeFrame_core
    | with_reducible apply foldl_core | with_reducible apply foldl_kept2 | with_reducible apply foldl_kept3 | (intro _) | with_reducible rfl
    | split | with_reducible apply ite_core | refine of_pair (by with_reducible assumption) ?_
    | refine of_some (by with_reducible assumption) ?_ | refine of_next (by with_reducible assumption) ?_
    | refine of_inl (by with_reducible assumption) ?_

theorem enterQuiesced_core {o₀ : State} (key flushed : Nat) (s : State) (hk : Kept o₀ s) :
    Kept o₀ (enterQuiesced key flushed s) := by
  unfold enterQuiesced
  try dsimp only
  repeat' first
    | with_reducible assumption | with_reducible apply modBlock_core | with_reducible apply raiseLead_core
    | with_reducible apply complete_core | simp only [kept_mk, kept_fold] | (intro _) | with_reducible rfl | split
    | with_reducible apply ite_core | refine of_pair (by with_reducible assumption) ?_ | refine of_some (by with_reducible assumption) ?_
    | refine of_next (by with_reducible assumption) ?_ | refine of_inl (by with_reducible assumption) ?_

theorem execQuiesceDrainCheck_core {o₀ : State} (latchkey : Nat) (s : State) (hk : Kept o₀ s) :
    KeptAnswer o₀ (execQuiesceDrainCheck latchkey s) := by
  unfold execQuiesceDrainCheck
  try dsimp only
  repeat' first
    | with_reducible assumption | with_reducible apply next_core | with_reducible apply refused_core
    | with_reducible apply enterQuiesced_core | (intro _) | with_reducible rfl | split | with_reducible apply ite_answer_core
    | with_reducible apply ite_core

theorem execDrainLimitExpired_core {o₀ : State} (latchkey : Nat) (s : State) (hk : Kept o₀ s) :
    KeptAnswer o₀ (execDrainLimitExpired latchkey s) := by
  unfold execDrainLimitExpired
  try dsimp only
  repeat' first
    | with_reducible assumption | with_reducible exact trivial | with_reducible apply next_core | with_reducible apply refused_core
    | with_reducible apply some_core | with_reducible apply none_core | with_reducible apply somep_core
    | with_reducible apply nonep_core | with_reducible apply enterQuiesced_core | with_reducible apply purge_core
    | with_reducible apply complete_core | with_reducible apply resetChunk_core | with_reducible apply modBlock_core
    | with_reducible apply countPool_core | with_reducible apply foldl_core | with_reducible apply foldl_kept2
    | with_reducible apply foldl_kept3 | simp only [kept_mk, kept_fold] | (intro _) | with_reducible rfl | split
    | with_reducible apply ite_answer_core | with_reducible apply ite_done_core | with_reducible apply ite_core
    | refine of_pair (by with_reducible assumption) ?_ | refine of_triple (by with_reducible assumption) ?_
    | refine of_some (by with_reducible assumption) ?_ | refine of_somep (by with_reducible assumption) ?_
    | refine of_next (by with_reducible assumption) ?_ | refine of_inl (by with_reducible assumption) ?_

theorem execBlockQuiesce_core {o₀ : State} (q : Request) (s : State) (hk : Kept o₀ s) :
    KeptAnswer o₀ (execBlockQuiesce q s) := by
  unfold execBlockQuiesce
  try dsimp only
  repeat' first
    | with_reducible assumption | with_reducible exact trivial | with_reducible apply ok_core | with_reducible apply refuse_core
    | with_reducible apply reply_core | with_reducible apply wait_core | with_reducible apply some_core
    | with_reducible apply none_core | with_reducible apply somep_core | with_reducible apply nonep_core
    | with_reducible apply quiesceColl_core | with_reducible apply runCommand_core | with_reducible apply modBlock_core
    | simp only [kept_mk, kept_fold] | (intro _) | with_reducible rfl | split | with_reducible apply ite_answer_core
    | with_reducible apply ite_done_core | with_reducible apply ite_core | refine of_pair (by with_reducible assumption) ?_
    | refine of_triple (by with_reducible assumption) ?_ | refine of_some (by with_reducible assumption) ?_
    | refine of_somep (by with_reducible assumption) ?_ | refine of_next (by with_reducible assumption) ?_
    | refine of_inl (by with_reducible assumption) ?_

theorem execBlockResume_core {o₀ : State} (q : Request) (s : State) (hk : Kept o₀ s) :
    KeptAnswer o₀ (execBlockResume q s) := by
  unfold execBlockResume
  try dsimp only
  repeat' first
    | with_reducible assumption | with_reducible exact trivial | with_reducible apply ok_core | with_reducible apply refuse_core
    | with_reducible apply reply_core | with_reducible apply wait_core | with_reducible apply resumeBlock_core
    | with_reducible apply runCommand_core | simp only [kept_mk, kept_fold] | (intro _) | with_reducible rfl | split
    | with_reducible apply ite_answer_core | with_reducible apply ite_done_core | with_reducible apply ite_core
    | refine of_pair (by with_reducible assumption) ?_ | refine of_triple (by with_reducible assumption) ?_
    | refine of_some (by with_reducible assumption) ?_ | refine of_somep (by with_reducible assumption) ?_
    | refine of_next (by with_reducible assumption) ?_ | refine of_inl (by with_reducible assumption) ?_

theorem layItems_core {o₀ : State} (t : Txn) (s : State) (hk : Kept o₀ s) :
    Kept o₀ (layItems t s) := by
  unfold layItems
  try dsimp only
  repeat' first
    | with_reducible assumption | with_reducible exact trivial | with_reducible apply settleItem_core
    | with_reducible apply layContexts_core | with_reducible apply laid_core | with_reducible apply changeTransom_core
    | with_reducible apply fillCaps_core | with_reducible apply closeTxn_core | with_reducible apply touchHeads_core
    | with_reducible apply judgeSpilling_core | with_reducible apply foldl_core | with_reducible apply foldl_kept2
    | with_reducible apply foldl_kept3 | simp only [kept_mk, kept_fold] | (intro _) | with_reducible rfl | split
    | with_reducible apply ite_answer_core | with_reducible apply ite_done_core | with_reducible apply ite_core
    | refine of_pair (by with_reducible assumption) ?_ | refine of_triple (by with_reducible assumption) ?_
    | refine of_some (by with_reducible assumption) ?_ | refine of_somep (by with_reducible assumption) ?_
    | refine of_next (by with_reducible assumption) ?_ | refine of_inl (by with_reducible assumption) ?_

theorem commitNow_core {o₀ : State} (t : Txn) (s : State) (hk : Kept o₀ s) :
    Kept o₀ (commitNow t s) := by
  unfold commitNow
  try dsimp only
  repeat' first
    | with_reducible assumption | with_reducible apply layItems_core | with_reducible apply raiseLead_core
    | with_reducible apply nvQueue_core | with_reducible apply releaseResumes_core | with_reducible apply complete_core
    | simp only [kept_mk, kept_fold] | (intro _) | with_reducible rfl | split | with_reducible apply ite_core
    | refine of_pair (by with_reducible assumption) ?_ | refine of_some (by with_reducible assumption) ?_
    | refine of_next (by with_reducible assumption) ?_ | refine of_inl (by with_reducible assumption) ?_

theorem execCommitInstant_core {o₀ : State} (handle : Nat) (s : State) (hk : Kept o₀ s) :
    KeptAnswer o₀ (execCommitInstant handle s) := by
  unfold execCommitInstant
  try dsimp only
  repeat' first
    | with_reducible assumption | with_reducible exact trivial | with_reducible apply next_core | with_reducible apply refused_core
    | with_reducible apply some_core | with_reducible apply none_core | with_reducible apply somep_core
    | with_reducible apply nonep_core | with_reducible apply commitNow_core | simp only [kept_mk, kept_fold] | (intro _)
    | with_reducible rfl | split | with_reducible apply ite_answer_core | with_reducible apply ite_done_core
    | with_reducible apply ite_core | refine of_pair (by with_reducible assumption) ?_
    | refine of_triple (by with_reducible assumption) ?_ | refine of_some (by with_reducible assumption) ?_
    | refine of_somep (by with_reducible assumption) ?_ | refine of_next (by with_reducible assumption) ?_
    | refine of_inl (by with_reducible assumption) ?_

theorem execSnapshotSave_core {o₀ : State} (q : Request) (s : State) (hk : Kept o₀ s) :
    KeptAnswer o₀ (execSnapshotSave q s) := by
  unfold execSnapshotSave
  try dsimp only
  repeat' first
    | with_reducible assumption | with_reducible apply next_core | with_reducible apply refused_core | with_reducible apply ok_core
    | with_reducible apply runCommand_core | with_reducible apply withChecks_core | with_reducible apply storeThen_core
    | simp only [kept_mk, kept_fold] | (intro _) | with_reducible rfl | split | with_reducible apply ite_answer_core
    | with_reducible apply ite_done_core | with_reducible apply ite_core

theorem execSnapshotApply_core {o₀ : State} (q : Request) (obs : NvReadObs) (digestBad : Bool) (s : State) (hk : Kept o₀ s) :
    KeptAnswer o₀ (execSnapshotApply q obs digestBad s) := by
  unfold execSnapshotApply
  try dsimp only
  repeat' first
    | with_reducible assumption | with_reducible exact trivial | with_reducible apply ok_core | with_reducible apply refuse_core
    | with_reducible apply reply_core | with_reducible apply wait_core | with_reducible apply some_core
    | with_reducible apply none_core | with_reducible apply somep_core | with_reducible apply nonep_core
    | with_reducible apply inl_core | with_reducible apply inr_core | with_reducible apply nvReadEffects_core
    | with_reducible apply dropCached_core | with_reducible apply cacheSnapshot_core | with_reducible apply stage_core
    | with_reducible apply runCommand_core | with_reducible apply raiseLead_core | simp only [kept_mk, kept_fold] | (intro _)
    | with_reducible rfl | split | with_reducible apply ite_answer_core | with_reducible apply ite_done_core
    | with_reducible apply ite_core | refine of_pair (by with_reducible assumption) ?_
    | refine of_triple (by with_reducible assumption) ?_ | refine of_some (by with_reducible assumption) ?_
    | refine of_somep (by with_reducible assumption) ?_ | refine of_next (by with_reducible assumption) ?_
    | refine of_inl (by with_reducible assumption) ?_

theorem execSnapshotList_core {o₀ : State} (q : Request) (s : State) (hk : Kept o₀ s) :
    KeptAnswer o₀ (execSnapshotList q s) := by
  unfold execSnapshotList
  try dsimp only
  repeat' first
    | with_reducible assumption | with_reducible apply next_core | with_reducible apply refused_core | with_reducible apply ok_core
    | with_reducible apply runCommand_core | (intro _) | with_reducible rfl

theorem execSnapshotDelete_core {o₀ : State} (q : Request) (s : State) (hk : Kept o₀ s) :
    KeptAnswer o₀ (execSnapshotDelete q s) := by
  unfold execSnapshotDelete
  try dsimp only
  repeat' first
    | with_reducible assumption | with_reducible apply next_core | with_reducible apply refused_core | with_reducible apply runCommand_core
    | with_reducible apply withChecks_core | with_reducible apply storeThen_core | simp only [kept_mk, kept_fold] | (intro _)
    | with_reducible rfl

theorem execSnapshotSetBoot_core {o₀ : State} (q : Request) (s : State) (hk : Kept o₀ s) :
    KeptAnswer o₀ (execSnapshotSetBoot q s) := by
  unfold execSnapshotSetBoot
  try dsimp only
  repeat' first
    | with_reducible assumption | with_reducible apply next_core | with_reducible apply refused_core | with_reducible apply runCommand_core
    | with_reducible apply withChecks_core | with_reducible apply storeThen_core | simp only [kept_mk, kept_fold] | (intro _)
    | with_reducible rfl

/-! ## Machine/Interp.lean -/

theorem setIrq_core {o₀ : State} (irq en : Bool) (level : Nat) (s : State) (hk : Kept o₀ s) :
    Kept o₀ (setIrq irq en level s) := by
  unfold setIrq
  try dsimp only
  repeat' first
    | with_reducible assumption | with_reducible apply emit_core | simp only [kept_mk, kept_fold] | with_reducible rfl | split
    | with_reducible apply ite_core

theorem logEvent_core {o₀ : State} (m : EventMsg) (s : State) (hk : Kept o₀ s) :
    Kept o₀ (logEvent m s) := by
  unfold logEvent
  try dsimp only
  repeat' first
    | with_reducible assumption | with_reducible apply setIrq_core | with_reducible apply queueLog_core | simp only [kept_mk, kept_fold]
    | with_reducible rfl | split | with_reducible apply ite_core
    | exact ⟨hk.1, fun he => (hk.2 he).push _⟩

theorem execEventRaised_core {o₀ : State} (die : Nat) (s : State) (hk : Kept o₀ s) :
    KeptAnswer o₀ (execEventRaised die s) := by
  unfold execEventRaised
  try dsimp only
  repeat' first
    | with_reducible assumption | with_reducible exact trivial | with_reducible apply next_core | with_reducible apply refused_core
    | with_reducible apply some_core | with_reducible apply none_core | with_reducible apply somep_core
    | with_reducible apply nonep_core | with_reducible apply logEvent_core | simp only [kept_mk, kept_fold] | (intro _)
    | with_reducible rfl | split | with_reducible apply ite_answer_core | with_reducible apply ite_done_core
    | with_reducible apply ite_core | refine of_pair (by with_reducible assumption) ?_
    | refine of_triple (by with_reducible assumption) ?_ | refine of_some (by with_reducible assumption) ?_
    | refine of_somep (by with_reducible assumption) ?_ | refine of_next (by with_reducible assumption) ?_
    | refine of_inl (by with_reducible assumption) ?_
    | (rename_i hq _; exact ⟨hk.1, fun he => (hk.2 he).tail hq⟩)

theorem execEventLoss_core {o₀ : State} (die : Nat) (s : State) (hk : Kept o₀ s) :
    KeptAnswer o₀ (execEventLoss die s) := by
  unfold execEventLoss
  try dsimp only
  repeat' first
    | with_reducible assumption | with_reducible apply next_core | with_reducible apply refused_core | with_reducible apply raise_core
    | simp only [kept_mk, kept_fold] | with_reducible rfl | split | with_reducible apply ite_answer_core | with_reducible apply ite_core

theorem execEvCtrlWrite_core {o₀ : State} (value : Nat) (s : State) (hk : Kept o₀ s) :
    KeptAnswer o₀ (execEvCtrlWrite value s) := by
  unfold execEvCtrlWrite
  try dsimp only
  repeat' first
    | with_reducible assumption | with_reducible apply next_core | with_reducible apply refused_core | with_reducible apply bar0Write_core
    | with_reducible apply setIrq_core | (intro _) | with_reducible rfl

theorem execEvNewestLoRead_core {o₀ : State} (s : State) (hk : Kept o₀ s) :
    KeptAnswer o₀ (execEvNewestLoRead s) := by
  unfold execEvNewestLoRead
  try dsimp only
  repeat' first
    | with_reducible assumption | with_reducible apply next_core | with_reducible apply refused_core | with_reducible apply bar0Read_core
    | with_reducible apply emit_core | simp only [kept_mk, kept_fold] | (intro _) | with_reducible rfl

theorem execEventRead_core {o₀ : State} (q : Request) (s : State) (hk : Kept o₀ s) :
    KeptAnswer o₀ (execEventRead q s) := by
  unfold execEventRead
  try dsimp only
  repeat' first
    | with_reducible assumption | with_reducible apply next_core | with_reducible apply refused_core | with_reducible apply ok_core
    | with_reducible apply runCommand_core | with_reducible apply withChecks_core | (intro _) | with_reducible rfl

theorem mailboxError_core {o₀ : State} (code : Nat) (s : State) (hk : Kept o₀ s) :
    Kept o₀ (mailboxError code s) := by
  unfold mailboxError
  try dsimp only
  repeat' first
    | with_reducible assumption | with_reducible apply raiseLead_core | simp only [kept_mk, kept_fold] | with_reducible rfl

theorem testIndices_core {o₀ : State} (tail head : Bool) (s : State) (hk : Kept o₀ s) :
    Kept o₀ (testIndices tail head s) := by
  unfold testIndices
  try dsimp only
  repeat' first
    | with_reducible assumption | with_reducible apply mailboxError_core | with_reducible rfl | split | with_reducible apply ite_core

theorem execDoorbell_core {o₀ : State} (tail : Nat) (s : State) (hk : Kept o₀ s) :
    KeptAnswer o₀ (execDoorbell tail s) := by
  unfold execDoorbell
  try dsimp only
  repeat' first
    | with_reducible assumption | with_reducible apply next_core | with_reducible apply refused_core | with_reducible apply bar0Write_core
    | with_reducible apply testIndices_core | simp only [kept_mk, kept_fold] | (intro _) | with_reducible rfl

theorem execRplIdxHeadWrite_core {o₀ : State} (head : Nat) (s : State) (hk : Kept o₀ s) :
    KeptAnswer o₀ (execRplIdxHeadWrite head s) := by
  unfold execRplIdxHeadWrite
  try dsimp only
  repeat' first
    | with_reducible assumption | with_reducible apply next_core | with_reducible apply refused_core | with_reducible apply bar0Write_core
    | with_reducible apply testIndices_core | simp only [kept_mk, kept_fold] | (intro _) | with_reducible rfl

theorem resetRings_core {o₀ : State} (s : State) (hk : Kept o₀ s) :
    Kept o₀ (resetRings s) := by
  unfold resetRings
  try dsimp only
  repeat' first
    | with_reducible assumption | simp only [kept_mk, kept_fold] | (intro _) | with_reducible rfl

theorem execResetRings_core {o₀ : State} (s : State) (hk : Kept o₀ s) :
    KeptAnswer o₀ (execResetRings s) := by
  unfold execResetRings
  try dsimp only
  repeat' first
    | with_reducible assumption | with_reducible apply next_core | with_reducible apply refused_core | with_reducible apply bar0Write_core
    | with_reducible apply resetRings_core | (intro _) | with_reducible rfl

theorem writeMbxCtrl_core {o₀ : State} (value : Nat) (s : State) (hk : Kept o₀ s) :
    Kept o₀ (writeMbxCtrl value s) := by
  unfold writeMbxCtrl
  try dsimp only
  repeat' first
    | with_reducible assumption | with_reducible apply resetRings_core | with_reducible apply testIndices_core
    | simp only [kept_mk, kept_fold] | with_reducible rfl | split | with_reducible apply ite_core

theorem execMailboxEnable_core {o₀ : State} (value : Nat) (s : State) (hk : Kept o₀ s) :
    KeptAnswer o₀ (execMailboxEnable value s) := by
  unfold execMailboxEnable
  try dsimp only
  repeat' first
    | with_reducible assumption | with_reducible apply next_core | with_reducible apply refused_core | with_reducible apply bar0Write_core
    | with_reducible apply writeMbxCtrl_core | (intro _) | with_reducible rfl

theorem execRequestFetch_core {o₀ : State} (slot : Bytes) (dmaOk : Bool) (s : State) (hk : Kept o₀ s) :
    KeptAnswer o₀ (execRequestFetch slot dmaOk s) := by
  unfold execRequestFetch
  try dsimp only
  repeat' first
    | with_reducible assumption | with_reducible exact trivial | with_reducible apply next_core | with_reducible apply refused_core
    | with_reducible apply mailboxError_core | with_reducible apply arrivePacket_core | with_reducible apply emit_core
    | simp only [kept_mk, kept_fold] | (intro _) | with_reducible rfl | split | with_reducible apply ite_answer_core
    | with_reducible apply ite_done_core | with_reducible apply ite_core | refine of_pair (by with_reducible assumption) ?_
    | refine of_triple (by with_reducible assumption) ?_ | refine of_some (by with_reducible assumption) ?_
    | refine of_somep (by with_reducible assumption) ?_ | refine of_next (by with_reducible assumption) ?_
    | refine of_inl (by with_reducible assumption) ?_

theorem execReplySegmentWrite_core {o₀ : State} (dmaOk : Bool) (s : State) (hk : Kept o₀ s) :
    KeptAnswer o₀ (execReplySegmentWrite dmaOk s) := by
  unfold execReplySegmentWrite
  try dsimp only
  repeat' first
    | with_reducible assumption | with_reducible exact trivial | with_reducible apply next_core | with_reducible apply refused_core
    | with_reducible apply mailboxError_core | with_reducible apply dropRingWait_core | with_reducible apply writeSlot_core
    | simp only [kept_mk, kept_fold] | (intro _) | with_reducible rfl | split | with_reducible apply ite_answer_core
    | with_reducible apply ite_done_core | with_reducible apply ite_core | refine of_pair (by with_reducible assumption) ?_
    | refine of_triple (by with_reducible assumption) ?_ | refine of_some (by with_reducible assumption) ?_
    | refine of_somep (by with_reducible assumption) ?_ | refine of_next (by with_reducible assumption) ?_
    | refine of_inl (by with_reducible assumption) ?_

theorem execMaloaRequestRefused_core {o₀ : State} (src : Source) (ingress : Nat) (udp : UdpObs) (packet : Bytes) (s : State)
    (hk : Kept o₀ s) :
    KeptAnswer o₀ (execMaloaRequestRefused src ingress udp packet s) := by
  unfold execMaloaRequestRefused
  try dsimp only
  repeat' first
    | with_reducible assumption | with_reducible exact trivial | with_reducible apply next_core | with_reducible apply refused_core
    | with_reducible apply some_core | with_reducible apply none_core | with_reducible apply somep_core
    | with_reducible apply nonep_core | with_reducible apply trackSource_core | with_reducible apply refuseRequest_core
    | with_reducible apply refuseEarly_core | with_reducible apply sendAgain_core | with_reducible apply discardRequest_core
    | with_reducible apply takeArrival_core | with_reducible apply getD_core | simp only [kept_mk, kept_fold] | (intro _)
    | with_reducible rfl | split | with_reducible apply ite_answer_core | with_reducible apply ite_done_core
    | with_reducible apply ite_core | refine of_pair (by with_reducible assumption) ?_
    | refine of_triple (by with_reducible assumption) ?_ | refine of_some (by with_reducible assumption) ?_
    | refine of_somep (by with_reducible assumption) ?_ | refine of_next (by with_reducible assumption) ?_
    | refine of_inl (by with_reducible assumption) ?_

theorem reopen_core {o₀ : State} (h : Nat) (s : State) (hk : Kept o₀ s) :
    Kept o₀ (reopen h s) := by
  unfold reopen
  try dsimp only
  repeat' first
    | with_reducible assumption | with_reducible exact trivial | with_reducible apply some_core | with_reducible apply none_core
    | with_reducible apply somep_core | with_reducible apply nonep_core | with_reducible apply releaseResumes_core
    | with_reducible apply setTxn_core | simp only [kept_mk, kept_fold] | (intro _) | with_reducible rfl | split
    | with_reducible apply ite_answer_core | with_reducible apply ite_done_core | with_reducible apply ite_core
    | refine of_pair (by with_reducible assumption) ?_ | refine of_triple (by with_reducible assumption) ?_
    | refine of_some (by with_reducible assumption) ?_ | refine of_somep (by with_reducible assumption) ?_
    | refine of_next (by with_reducible assumption) ?_ | refine of_inl (by with_reducible assumption) ?_

theorem abandon_core {o₀ : State} (w : Wait) (s : State) (hk : Kept o₀ s) :
    Kept o₀ (abandon w s) := by
  unfold abandon
  try dsimp only
  repeat' first
    | with_reducible assumption | with_reducible exact trivial | with_reducible apply ok_core | with_reducible apply refuse_core
    | with_reducible apply reply_core | with_reducible apply wait_core | with_reducible apply some_core
    | with_reducible apply none_core | with_reducible apply somep_core | with_reducible apply nonep_core
    | with_reducible apply reopen_core | with_reducible apply undoSwitch_core | with_reducible apply modNv_core
    | with_reducible apply setPortState_core | with_reducible apply modBlock_core | with_reducible apply modPort_core
    | simp only [kept_mk, kept_fold] | (intro _) | with_reducible rfl | split | with_reducible apply ite_answer_core
    | with_reducible apply ite_done_core | with_reducible apply ite_core | refine of_pair (by with_reducible assumption) ?_
    | refine of_triple (by with_reducible assumption) ?_ | refine of_some (by with_reducible assumption) ?_
    | refine of_somep (by with_reducible assumption) ?_ | refine of_next (by with_reducible assumption) ?_
    | refine of_inl (by with_reducible assumption) ?_

theorem execCommandTimeout_core {o₀ : State} (src : Source) (tag : Nat) (s : State) (hk : Kept o₀ s) :
    KeptAnswer o₀ (execCommandTimeout src tag s) := by
  unfold execCommandTimeout
  try dsimp only
  repeat' first
    | with_reducible assumption | with_reducible exact trivial | with_reducible apply next_core | with_reducible apply refused_core
    | with_reducible apply ok_core | with_reducible apply refuse_core | with_reducible apply reply_core
    | with_reducible apply wait_core | with_reducible apply some_core | with_reducible apply none_core
    | with_reducible apply somep_core | with_reducible apply nonep_core | with_reducible apply abandon_core
    | with_reducible apply answerWindow_core | with_reducible apply answerLater_core | with_reducible apply refuseRequest_core
    | simp only [kept_mk, kept_fold] | (intro _) | with_reducible rfl | split | with_reducible apply ite_answer_core
    | with_reducible apply ite_done_core | with_reducible apply ite_core | refine of_pair (by with_reducible assumption) ?_
    | refine of_triple (by with_reducible assumption) ?_ | refine of_some (by with_reducible assumption) ?_
    | refine of_somep (by with_reducible assumption) ?_ | refine of_next (by with_reducible assumption) ?_
    | refine of_inl (by with_reducible assumption) ?_

theorem execSourceForgotten_core {o₀ : State} (src : Source) (s : State) (hk : Kept o₀ s) :
    KeptAnswer o₀ (execSourceForgotten src s) := by
  unfold execSourceForgotten
  try dsimp only
  repeat' first
    | with_reducible assumption | with_reducible apply next_core | with_reducible apply refused_core | simp only [kept_mk, kept_fold]
    | (intro _) | with_reducible rfl | split | with_reducible apply ite_answer_core | with_reducible apply ite_core

theorem execReplyCacheExpiry_core {o₀ : State} (src : Source) (tag : Nat) (s : State) (hk : Kept o₀ s) :
    KeptAnswer o₀ (execReplyCacheExpiry src tag s) := by
  unfold execReplyCacheExpiry
  try dsimp only
  repeat' first
    | with_reducible assumption | with_reducible apply next_core | with_reducible apply refused_core | simp only [kept_mk, kept_fold]
    | (intro _) | with_reducible rfl | split | with_reducible apply ite_answer_core | with_reducible apply ite_core

theorem execEcho_core {o₀ : State} (q : Request) (s : State) (hk : Kept o₀ s) :
    KeptAnswer o₀ (execEcho q s) := by
  unfold execEcho
  try dsimp only
  repeat' first
    | with_reducible assumption | with_reducible apply next_core | with_reducible apply refused_core | with_reducible apply ok_core
    | with_reducible apply runCommand_core | (intro _) | with_reducible rfl

theorem execTokenSet_core {o₀ : State} (q : Request) (s : State) (hk : Kept o₀ s) :
    KeptAnswer o₀ (execTokenSet q s) := by
  unfold execTokenSet
  try dsimp only
  repeat' first
    | with_reducible assumption | with_reducible apply next_core | with_reducible apply refused_core | with_reducible apply runCommand_core
    | with_reducible apply withChecks_core | with_reducible apply storeOrApply_core | (intro _) | with_reducible rfl

theorem execTokenClear_core {o₀ : State} (q : Request) (s : State) (hk : Kept o₀ s) :
    KeptAnswer o₀ (execTokenClear q s) := by
  unfold execTokenClear
  try dsimp only
  repeat' first
    | with_reducible assumption | with_reducible apply next_core | with_reducible apply refused_core | with_reducible apply runCommand_core
    | with_reducible apply withChecks_core | with_reducible apply storeOrApply_core | (intro _) | with_reducible rfl

theorem execTokenRead_core {o₀ : State} (q : Request) (s : State) (hk : Kept o₀ s) :
    KeptAnswer o₀ (execTokenRead q s) := by
  unfold execTokenRead
  try dsimp only
  repeat' first
    | with_reducible assumption | with_reducible apply next_core | with_reducible apply refused_core | with_reducible apply ok_core
    | with_reducible apply runCommand_core | with_reducible apply withChecks_core | (intro _) | with_reducible rfl

theorem execSelfGidSet_core {o₀ : State} (q : Request) (s : State) (hk : Kept o₀ s) :
    KeptAnswer o₀ (execSelfGidSet q s) := by
  unfold execSelfGidSet
  try dsimp only
  repeat' first
    | with_reducible assumption | with_reducible apply next_core | with_reducible apply refused_core | with_reducible apply runCommand_core
    | with_reducible apply storeOrApply_core | (intro _) | with_reducible rfl

/-! ## Machine/Counters.lean -/

theorem clearCounters_core {o₀ : State} (sel : CtrKey → Bool) (value ovf : Bool) (s : State) (hk : Kept o₀ s) :
    Kept o₀ (clearCounters sel value ovf s) := by
  unfold clearCounters
  try dsimp only
  repeat' first
    | with_reducible assumption | simp only [kept_mk, kept_fold] | (intro _) | with_reducible rfl | split | with_reducible apply ite_core

theorem countersCleared_core {o₀ : State} (scope first count inst route : Nat) (s : State) (hk : Kept o₀ s) :
    Kept o₀ (countersCleared scope first count inst route s) := by
  unfold countersCleared
  try dsimp only
  repeat' first
    | with_reducible assumption | with_reducible apply raiseLead_core | with_reducible apply count_core | with_reducible rfl

theorem copyCounters_core {o₀ : State} (s : State) (hk : Kept o₀ s) :
    Kept o₀ (copyCounters s) := by
  unfold copyCounters
  try dsimp only
  repeat' first
    | with_reducible assumption | simp only [kept_mk, kept_fold] | (intro _) | with_reducible rfl

theorem restoreCounters_core {o₀ : State} (s : State) (hk : Kept o₀ s) :
    Kept o₀ (restoreCounters s) := by
  unfold restoreCounters
  try dsimp only
  repeat' first
    | with_reducible assumption | simp only [kept_mk, kept_fold] | (intro _) | with_reducible rfl

theorem execCounterRead_core {o₀ : State} (q : Request) (s : State) (hk : Kept o₀ s) :
    KeptAnswer o₀ (execCounterRead q s) := by
  unfold execCounterRead
  try dsimp only
  repeat' first
    | with_reducible assumption | with_reducible exact trivial | with_reducible apply ok_core | with_reducible apply refuse_core
    | with_reducible apply reply_core | with_reducible apply wait_core | with_reducible apply runCommand_core
    | with_reducible apply withChecks_core | simp only [kept_mk, kept_fold] | (intro _) | with_reducible rfl | split
    | with_reducible apply ite_answer_core | with_reducible apply ite_done_core | with_reducible apply ite_core
    | refine of_pair (by with_reducible assumption) ?_ | refine of_triple (by with_reducible assumption) ?_
    | refine of_some (by with_reducible assumption) ?_ | refine of_somep (by with_reducible assumption) ?_
    | refine of_next (by with_reducible assumption) ?_ | refine of_inl (by with_reducible assumption) ?_

theorem execCounterClear_core {o₀ : State} (q : Request) (s : State) (hk : Kept o₀ s) :
    KeptAnswer o₀ (execCounterClear q s) := by
  unfold execCounterClear
  try dsimp only
  repeat' first
    | with_reducible assumption | with_reducible exact trivial | with_reducible apply ok_core | with_reducible apply refuse_core
    | with_reducible apply reply_core | with_reducible apply wait_core | with_reducible apply countersCleared_core
    | with_reducible apply clearCounters_core | with_reducible apply runCommand_core | with_reducible apply withChecks_core
    | simp only [kept_mk, kept_fold] | (intro _) | with_reducible rfl | split | with_reducible apply ite_answer_core
    | with_reducible apply ite_done_core | with_reducible apply ite_core | refine of_pair (by with_reducible assumption) ?_
    | refine of_triple (by with_reducible assumption) ?_ | refine of_some (by with_reducible assumption) ?_
    | refine of_somep (by with_reducible assumption) ?_ | refine of_next (by with_reducible assumption) ?_
    | refine of_inl (by with_reducible assumption) ?_

theorem execCounterFilterSet_core {o₀ : State} (q : Request) (s : State) (hk : Kept o₀ s) :
    KeptAnswer o₀ (execCounterFilterSet q s) := by
  unfold execCounterFilterSet
  try dsimp only
  repeat' first
    | with_reducible assumption | with_reducible apply next_core | with_reducible apply refused_core | with_reducible apply ok_core
    | with_reducible apply runCommand_core | with_reducible apply withChecks_core | with_reducible apply clearCounters_core
    | simp only [kept_mk, kept_fold] | (intro _) | with_reducible rfl

theorem execOccThresholdSet_core {o₀ : State} (q : Request) (s : State) (hk : Kept o₀ s) :
    KeptAnswer o₀ (execOccThresholdSet q s) := by
  unfold execOccThresholdSet
  try dsimp only
  repeat' first
    | with_reducible assumption | with_reducible apply next_core | with_reducible apply refused_core | with_reducible apply ok_core
    | with_reducible apply runCommand_core | with_reducible apply withChecks_core | with_reducible apply foldl_core
    | with_reducible apply foldl_kept2 | with_reducible apply foldl_kept3 | simp only [kept_mk, kept_fold] | (intro _) | with_reducible rfl
    | split | with_reducible apply ite_answer_core | with_reducible apply ite_done_core | with_reducible apply ite_core

theorem countOccupancy_core {o₀ : State} (s : State) (hk : Kept o₀ s) :
    Kept o₀ (countOccupancy s) := by
  unfold countOccupancy
  try dsimp only
  repeat' first
    | with_reducible assumption | with_reducible apply countQueue_core | with_reducible apply foldl_core | with_reducible apply foldl_kept2
    | with_reducible apply foldl_kept3 | (intro _) | with_reducible rfl | split | with_reducible apply ite_core

theorem modCtr_core {o₀ : State} (g : CtrWindow → CtrWindow) (s : State) (hk : Kept o₀ s) :
    Kept o₀ (modCtr g s) := by
  unfold modCtr
  try dsimp only
  repeat' first
    | with_reducible assumption | simp only [kept_mk, kept_fold] | with_reducible rfl

theorem endCapture_core {o₀ : State} (s : State) (hk : Kept o₀ s) :
    Kept o₀ (endCapture s) := by
  unfold endCapture
  try dsimp only
  repeat' first
    | with_reducible assumption | with_reducible apply modCtr_core | simp only [kept_mk, kept_fold] | (intro _) | with_reducible rfl

theorem startCapture_core {o₀ : State} (clear : Bool) (s : State) (hk : Kept o₀ s) :
    Kept o₀ (startCapture clear s) := by
  unfold startCapture
  try dsimp only
  repeat' first
    | with_reducible assumption | with_reducible exact trivial | with_reducible apply some_core | with_reducible apply none_core
    | with_reducible apply somep_core | with_reducible apply nonep_core | with_reducible apply endCapture_core
    | with_reducible apply modCtr_core | with_reducible apply countersCleared_core | with_reducible apply clearCounters_core
    | with_reducible apply count_core | with_reducible apply draw_core | simp only [kept_mk, kept_fold] | (intro _)
    | with_reducible rfl | split | with_reducible apply ite_answer_core | with_reducible apply ite_done_core
    | with_reducible apply ite_core | refine of_pair (by with_reducible assumption) ?_
    | refine of_triple (by with_reducible assumption) ?_ | refine of_some (by with_reducible assumption) ?_
    | refine of_somep (by with_reducible assumption) ?_ | refine of_next (by with_reducible assumption) ?_
    | refine of_inl (by with_reducible assumption) ?_

theorem execCtrCapture_core {o₀ : State} (s : State) (hk : Kept o₀ s) :
    KeptAnswer o₀ (execCtrCapture s) := by
  unfold execCtrCapture
  try dsimp only
  repeat' first
    | with_reducible assumption | with_reducible apply next_core | with_reducible apply refused_core | with_reducible apply bar0Write_core
    | with_reducible apply startCapture_core | (intro _) | with_reducible rfl

theorem execCtrReadClear_core {o₀ : State} (s : State) (hk : Kept o₀ s) :
    KeptAnswer o₀ (execCtrReadClear s) := by
  unfold execCtrReadClear
  try dsimp only
  repeat' first
    | with_reducible assumption | with_reducible apply next_core | with_reducible apply refused_core | with_reducible apply bar0Write_core
    | with_reducible apply startCapture_core | (intro _) | with_reducible rfl

theorem modTel_core {o₀ : State} (g : Telemetry → Telemetry) (s : State) (hk : Kept o₀ s) :
    Kept o₀ (modTel g s) := by
  unfold modTel
  try dsimp only
  repeat' first
    | with_reducible assumption | simp only [kept_mk, kept_fold] | with_reducible rfl

theorem modSet_core {o₀ : State} (n : Nat) (g : ExportSet → ExportSet) (s : State) (hk : Kept o₀ s) :
    Kept o₀ (modSet n g s) := by
  unfold modSet
  try dsimp only
  repeat' first
    | with_reducible assumption | with_reducible apply modTel_core | with_reducible apply getD_core | simp only [kept_mk, kept_fold]
    | (intro _) | with_reducible rfl

theorem dropRecords_core {o₀ : State} (n : Nat) (s : State) (hk : Kept o₀ s) :
    Kept o₀ (dropRecords n s) := by
  unfold dropRecords
  try dsimp only
  repeat' first
    | with_reducible assumption | with_reducible apply count_core | with_reducible apply modTel_core | simp only [kept_mk, kept_fold]
    | (intro _) | with_reducible rfl

theorem storeRecord_core {o₀ : State} (r : TelRecord) (s : State) (hk : Kept o₀ s) :
    Kept o₀ (storeRecord r s) := by
  unfold storeRecord
  try dsimp only
  repeat' first
    | with_reducible assumption | with_reducible apply raiseLimited_core | with_reducible apply raiseLead_core
    | with_reducible apply dropRecords_core | with_reducible apply modTel_core | with_reducible apply countLines_core
    | with_reducible apply useTokens_core | simp only [kept_mk, kept_fold] | (intro _) | with_reducible rfl | split
    | with_reducible apply ite_core

theorem captureInstance_core {o₀ : State} (n : Nat) (x : ExportSet) (d : Nat) (s : State) (i : Nat) (hk : Kept o₀ s) :
    Kept o₀ (captureInstance n x d s i) := by
  unfold captureInstance
  try dsimp only
  repeat' first
    | with_reducible assumption | with_reducible apply draw_core | with_reducible apply storeRecord_core | simp only [kept_mk, kept_fold]
    | with_reducible rfl

theorem triggerSet_core {o₀ : State} (n : Nat) (s : State) (hk : Kept o₀ s) :
    Kept o₀ (triggerSet n s) := by
  unfold triggerSet
  try dsimp only
  repeat' first
    | with_reducible assumption | with_reducible apply dropRecords_core | with_reducible apply draw_core | with_reducible apply modSet_core
    | with_reducible apply captureInstance_core | with_reducible apply getD_core | with_reducible apply foldl_core
    | with_reducible apply foldl_kept2 | with_reducible apply foldl_kept3 | simp only [kept_mk, kept_fold] | (intro _) | with_reducible rfl
    | split | with_reducible apply ite_core

theorem captureStep_core {o₀ : State} (g : Nat) (s : State) (hk : Kept o₀ s) :
    Kept o₀ (captureStep g s) := by
  unfold captureStep
  try dsimp only
  repeat' first
    | with_reducible assumption | with_reducible apply triggerSet_core | with_reducible apply getD_core | with_reducible apply foldl_core
    | with_reducible apply foldl_kept2 | with_reducible apply foldl_kept3 | simp only [kept_mk, kept_fold] | (intro _) | with_reducible rfl
    | split | with_reducible apply ite_core

theorem execTelemetryTrigger_core {o₀ : State} (set : Nat) (s : State) (hk : Kept o₀ s) :
    KeptAnswer o₀ (execTelemetryTrigger set s) := by
  unfold execTelemetryTrigger
  try dsimp only
  repeat' first
    | with_reducible assumption | with_reducible exact trivial | with_reducible apply triggerSet_core
    | with_reducible apply guard_core | with_reducible apply getD_core | simp only [kept_mk, kept_fold] | (intro _)
    | with_reducible rfl | split | with_reducible apply ite_answer_core | with_reducible apply ite_done_core
    | with_reducible apply ite_core | refine of_pair (by with_reducible assumption) ?_
    | refine of_triple (by with_reducible assumption) ?_ | refine of_some (by with_reducible assumption) ?_
    | refine of_somep (by with_reducible assumption) ?_ | refine of_next (by with_reducible assumption) ?_
    | refine of_inl (by with_reducible assumption) ?_

theorem readRecord_core {o₀ : State} (r : TelRecord) (lost : Option (Nat × Bool)) (s : State) (hk : Kept o₀ s) :
    Kept o₀ (readRecord r lost s) := by
  unfold readRecord
  try dsimp only
  repeat' first
    | with_reducible assumption | with_reducible exact trivial | with_reducible apply some_core | with_reducible apply none_core
    | with_reducible apply somep_core | with_reducible apply nonep_core | with_reducible apply demandLine_core
    | with_reducible apply countPart_core | with_reducible apply useTokens_core | with_reducible apply countLines_core
    | simp only [kept_mk, kept_fold] | (intro _) | with_reducible rfl | split | with_reducible apply ite_answer_core
    | with_reducible apply ite_done_core | with_reducible apply ite_core | refine of_pair (by with_reducible assumption) ?_
    | refine of_triple (by with_reducible assumption) ?_ | refine of_some (by with_reducible assumption) ?_
    | refine of_somep (by with_reducible assumption) ?_ | refine of_next (by with_reducible assumption) ?_
    | refine of_inl (by with_reducible assumption) ?_

theorem execTelemetryDatagramSend_core {o₀ : State} (lost : List (Nat × Nat × Bool)) (s : State) (hk : Kept o₀ s) :
    KeptAnswer o₀ (execTelemetryDatagramSend lost s) := by
  unfold execTelemetryDatagramSend
  try dsimp only
  repeat' first
    | with_reducible assumption | with_reducible exact trivial | with_reducible apply next_core | with_reducible apply refused_core
    | with_reducible apply readRecord_core | with_reducible apply modTel_core | with_reducible apply emit_core
    | with_reducible apply count_core | with_reducible apply getD_core | with_reducible apply foldl_core
    | with_reducible apply foldl_kept2 | with_reducible apply foldl_kept3 | simp only [kept_mk, kept_fold] | (intro _)
    | with_reducible rfl | split | with_reducible apply ite_answer_core | with_reducible apply ite_done_core
    | with_reducible apply ite_core | refine of_pair (by with_reducible assumption) ?_
    | refine of_triple (by with_reducible assumption) ?_ | refine of_some (by with_reducible assumption) ?_
    | refine of_somep (by with_reducible assumption) ?_ | refine of_next (by with_reducible assumption) ?_
    | refine of_inl (by with_reducible assumption) ?_

theorem execTelemetryExportSet_core {o₀ : State} (q : Request) (s : State) (hk : Kept o₀ s) :
    KeptAnswer o₀ (execTelemetryExportSet q s) := by
  unfold execTelemetryExportSet
  try dsimp only
  repeat' first
    | with_reducible assumption | with_reducible apply next_core | with_reducible apply refused_core | with_reducible apply ok_core
    | with_reducible apply runCommand_core | with_reducible apply withChecks_core | with_reducible apply modTel_core
    | with_reducible apply modSet_core | with_reducible apply count_core | simp only [kept_mk, kept_fold] | (intro _) | with_reducible rfl
    | split | with_reducible apply ite_answer_core | with_reducible apply ite_done_core | with_reducible apply ite_core

/-! ## Machine/Clocks.lean -/

theorem modTime_core {o₀ : State} (g : Time → Time) (s : State) (hk : Kept o₀ s) :
    Kept o₀ (modTime g s) := by
  unfold modTime
  try dsimp only
  repeat' first
    | with_reducible assumption | simp only [kept_mk, kept_fold] | with_reducible rfl

theorem modCal_core {o₀ : State} (g : Calendar → Calendar) (s : State) (hk : Kept o₀ s) :
    Kept o₀ (modCal g s) := by
  unfold modCal
  try dsimp only
  repeat' first
    | with_reducible assumption | with_reducible apply modTime_core | simp only [kept_mk, kept_fold] | (intro _) | with_reducible rfl

theorem modMantelPort_core {o₀ : State} (p : Nat) (g : MantelPort → MantelPort) (s : State) (hk : Kept o₀ s) :
    Kept o₀ (modMantelPort p g s) := by
  unfold modMantelPort
  try dsimp only
  repeat' first
    | with_reducible assumption | with_reducible apply modTime_core | simp only [kept_mk, kept_fold] | (intro _) | with_reducible rfl

theorem drawRate_core {o₀ : State} (limit : Nat) (s : State) (hk : Kept o₀ s) :
    Kept o₀ (drawRate limit s).2 := by
  unfold drawRate
  try dsimp only
  repeat' first
    | with_reducible assumption | with_reducible apply draw_core | with_reducible rfl

theorem calStepped_core {o₀ : State} (step : Int) (s : State) (hk : Kept o₀ s) :
    Kept o₀ (calStepped step s) := by
  unfold calStepped
  try dsimp only
  repeat' first
    | with_reducible assumption | with_reducible apply raiseLimited_core | with_reducible apply raiseLead_core | (intro _)
    | with_reducible rfl

theorem moveCalendar_core {o₀ : State} (by' : Int) (s : State) (hk : Kept o₀ s) :
    Kept o₀ (moveCalendar by' s) := by
  unfold moveCalendar
  try dsimp only
  repeat' first
    | with_reducible assumption | with_reducible exact trivial | with_reducible apply modTime_core | simp only [kept_mk, kept_fold]
    | (intro _) | with_reducible rfl | split | with_reducible apply ite_answer_core | with_reducible apply ite_done_core
    | with_reducible apply ite_core | refine of_pair (by with_reducible assumption) ?_
    | refine of_triple (by with_reducible assumption) ?_ | refine of_some (by with_reducible assumption) ?_
    | refine of_somep (by with_reducible assumption) ?_ | refine of_next (by with_reducible assumption) ?_
    | refine of_inl (by with_reducible assumption) ?_

theorem calHoldover_core {o₀ : State} (s : State) (hk : Kept o₀ s) :
    Kept o₀ (calHoldover s) := by
  unfold calHoldover
  try dsimp only
  repeat' first
    | with_reducible assumption | with_reducible apply drawRate_core | with_reducible apply raiseLead_core
    | with_reducible apply modCal_core | simp only [kept_mk, kept_fold] | (intro _) | with_reducible rfl | split
    | with_reducible apply ite_core

theorem calMeasure_core {o₀ : State} (off : Int) (s : State) (hk : Kept o₀ s) :
    Kept o₀ (calMeasure off s) := by
  unfold calMeasure
  try dsimp only
  repeat' first
    | with_reducible assumption | with_reducible apply modCal_core | with_reducible apply raiseLead_core
    | with_reducible apply calStepped_core | with_reducible apply moveCalendar_core | with_reducible apply drawRate_core
    | with_reducible apply getD_core | simp only [kept_mk, kept_fold] | (intro _) | with_reducible rfl | split
    | with_reducible apply ite_core

theorem stepAct_core {o₀ : State} (g : Nat) (k : Nat) (skipped : Nat) (s : State) (hk : Kept o₀ s) :
    Kept o₀ (stepAct g k skipped s) := by
  unfold stepAct
  try dsimp only
  repeat' first
    | with_reducible assumption | with_reducible exact trivial | with_reducible apply some_core | with_reducible apply none_core
    | with_reducible apply somep_core | with_reducible apply nonep_core | with_reducible apply modTime_core
    | with_reducible apply captureStep_core | with_reducible apply raiseLead_core | with_reducible apply emit_core
    | with_reducible apply getD_core | simp only [kept_mk, kept_fold] | (intro _) | with_reducible rfl | split
    | with_reducible apply ite_answer_core | with_reducible apply ite_done_core | with_reducible apply ite_core
    | refine of_pair (by with_reducible assumption) ?_ | refine of_triple (by with_reducible assumption) ?_
    | refine of_some (by with_reducible assumption) ?_ | refine of_somep (by with_reducible assumption) ?_
    | refine of_next (by with_reducible assumption) ?_ | refine of_inl (by with_reducible assumption) ?_

theorem modGen_core {o₀ : State} (g : Nat) (f : StepGen → StepGen) (s : State) (hk : Kept o₀ s) :
    Kept o₀ (modGen g f s) := by
  unfold modGen
  try dsimp only
  repeat' first
    | with_reducible assumption | with_reducible apply modTime_core | with_reducible apply getD_core | simp only [kept_mk, kept_fold]
    | (intro _) | with_reducible rfl

theorem execStepInstant_core {o₀ : State} (g : Nat) (s : State) (hk : Kept o₀ s) :
    KeptAnswer o₀ (execStepInstant g s) := by
  unfold execStepInstant
  try dsimp only
  repeat' first
    | with_reducible assumption | with_reducible exact trivial | with_reducible apply modGen_core
    | with_reducible apply stepAct_core | with_reducible apply guard_core | with_reducible apply getD_core
    | simp only [kept_mk, kept_fold] | (intro _) | with_reducible rfl | split | with_reducible apply ite_answer_core
    | with_reducible apply ite_done_core | with_reducible apply ite_core | refine of_pair (by with_reducible assumption) ?_
    | refine of_triple (by with_reducible assumption) ?_ | refine of_some (by with_reducible assumption) ?_
    | refine of_somep (by with_reducible assumption) ?_ | refine of_next (by with_reducible assumption) ?_
    | refine of_inl (by with_reducible assumption) ?_

theorem realignGates_core {o₀ : State} (stepNs : Int) (s : State) (hk : Kept o₀ s) :
    Kept o₀ (realignGates stepNs s) := by
  unfold realignGates
  try dsimp only
  repeat' first
    | with_reducible assumption | with_reducible apply countQueue_core | with_reducible apply raise_core | with_reducible apply foldl_core
    | with_reducible apply foldl_kept2 | with_reducible apply foldl_kept3 | simp only [kept_mk, kept_fold] | (intro _) | with_reducible rfl
    | split | with_reducible apply ite_core | refine of_pair (by with_reducible assumption) ?_
    | refine of_some (by with_reducible assumption) ?_ | refine of_next (by with_reducible assumption) ?_
    | refine of_inl (by with_reducible assumption) ?_

theorem passInstants_core {o₀ : State} (old : Nat) (g : Nat) (s : State) (hk : Kept o₀ s) :
    Kept o₀ (passInstants old g s) := by
  unfold passInstants
  try dsimp only
  repeat' first
    | with_reducible assumption | with_reducible exact trivial | with_reducible apply modGen_core
    | with_reducible apply stepAct_core | with_reducible apply getD_core | simp only [kept_mk, kept_fold] | (intro _)
    | with_reducible rfl | split | with_reducible apply ite_answer_core | with_reducible apply ite_done_core
    | with_reducible apply ite_core | refine of_pair (by with_reducible assumption) ?_
    | refine of_triple (by with_reducible assumption) ?_ | refine of_some (by with_reducible assumption) ?_
    | refine of_somep (by with_reducible assumption) ?_ | refine of_next (by with_reducible assumption) ?_
    | refine of_inl (by with_reducible assumption) ?_

theorem stepMantel_core {o₀ : State} (by' : Int) (s : State) (hk : Kept o₀ s) :
    Kept o₀ (stepMantel by' s) := by
  unfold stepMantel
  try dsimp only
  repeat' first
    | with_reducible assumption | with_reducible exact trivial | with_reducible apply passInstants_core
    | with_reducible apply realignGates_core | with_reducible apply modTime_core | with_reducible apply commitNow_core
    | with_reducible apply dropFlowlets_core | with_reducible apply raiseLead_core | with_reducible apply count_core
    | with_reducible apply getD_core | with_reducible apply foldl_core | with_reducible apply foldl_kept2
    | with_reducible apply foldl_kept3 | simp only [kept_mk, kept_fold] | (intro _) | with_reducible rfl | split
    | with_reducible apply ite_answer_core | with_reducible apply ite_done_core | with_reducible apply ite_core
    | refine of_pair (by with_reducible assumption) ?_ | refine of_triple (by with_reducible assumption) ?_
    | refine of_some (by with_reducible assumption) ?_ | refine of_somep (by with_reducible assumption) ?_
    | refine of_next (by with_reducible assumption) ?_ | refine of_inl (by with_reducible assumption) ?_

theorem becomeMaster_core {o₀ : State} (s : State) (hk : Kept o₀ s) :
    Kept o₀ (becomeMaster s) := by
  unfold becomeMaster
  try dsimp only
  repeat' first
    | with_reducible assumption | with_reducible apply modTime_core | with_reducible apply raiseLead_core
    | with_reducible apply calHoldover_core | with_reducible apply getD_core | simp only [kept_mk, kept_fold] | (intro _)
    | with_reducible rfl | split | with_reducible apply ite_core

theorem loseSource_core {o₀ : State} (s : State) (hk : Kept o₀ s) :
    Kept o₀ (loseSource s) := by
  unfold loseSource
  try dsimp only
  repeat' first
    | with_reducible assumption | with_reducible exact trivial | with_reducible apply some_core | with_reducible apply none_core
    | with_reducible apply somep_core | with_reducible apply nonep_core | with_reducible apply calHoldover_core
    | with_reducible apply drawRate_core | with_reducible apply modTime_core | with_reducible apply raiseLead_core
    | with_reducible apply getD_core | simp only [kept_mk, kept_fold] | (intro _) | with_reducible rfl | split
    | with_reducible apply ite_answer_core | with_reducible apply ite_done_core | with_reducible apply ite_core
    | refine of_pair (by with_reducible assumption) ?_ | refine of_triple (by with_reducible assumption) ?_
    | refine of_some (by with_reducible assumption) ?_ | refine of_somep (by with_reducible assumption) ?_
    | refine of_next (by with_reducible assumption) ?_ | refine of_inl (by with_reducible assumption) ?_

theorem followPort_core {o₀ : State} (p : Nat) (s : State) (hk : Kept o₀ s) :
    Kept o₀ (followPort p s) := by
  unfold followPort
  try dsimp only
  repeat' first
    | with_reducible assumption | with_reducible apply modTime_core | with_reducible apply raiseLead_core | with_reducible apply getD_core
    | simp only [kept_mk, kept_fold] | (intro _) | with_reducible rfl | split | with_reducible apply ite_core
    | refine of_pair (by with_reducible assumption) ?_ | refine of_some (by with_reducible assumption) ?_
    | refine of_next (by with_reducible assumption) ?_ | refine of_inl (by with_reducible assumption) ?_

theorem rankSources_core {o₀ : State} (s : State) (hk : Kept o₀ s) :
    Kept o₀ (rankSources s) := by
  unfold rankSources
  try dsimp only
  repeat' first
    | with_reducible assumption | with_reducible apply becomeMaster_core | with_reducible apply loseSource_core
    | with_reducible apply followPort_core | with_reducible rfl | split | with_reducible apply ite_core
    | refine of_pair (by with_reducible assumption) ?_ | refine of_some (by with_reducible assumption) ?_
    | refine of_next (by with_reducible assumption) ?_ | refine of_inl (by with_reducible assumption) ?_

theorem sendMantel_core {o₀ : State} (s : State) (p : Nat) (hk : Kept o₀ s) :
    Kept o₀ (sendMantel s p) := by
  unfold sendMantel
  try dsimp only
  repeat' first
    | with_reducible assumption | with_reducible apply modMantelPort_core | with_reducible apply countPort_core
    | with_reducible apply sendOwn_core | with_reducible apply getD_core | simp only [kept_mk, kept_fold] | (intro _) | with_reducible rfl
    | split | with_reducible apply ite_core

theorem execMantelFrameSend_core {o₀ : State} (s : State) (hk : Kept o₀ s) :
    KeptAnswer o₀ (execMantelFrameSend s) := by
  unfold execMantelFrameSend
  try dsimp only
  repeat' first
    | with_reducible assumption | with_reducible exact trivial | with_reducible apply next_core | with_reducible apply refused_core
    | with_reducible apply some_core | with_reducible apply none_core | with_reducible apply somep_core
    | with_reducible apply nonep_core | with_reducible apply sendMantel_core | with_reducible apply modTime_core
    | with_reducible apply foldl_core | with_reducible apply foldl_kept2 | with_reducible apply foldl_kept3
    | simp only [kept_mk, kept_fold] | (intro _) | with_reducible rfl | split | with_reducible apply ite_answer_core
    | with_reducible apply ite_done_core | with_reducible apply ite_core | refine of_pair (by with_reducible assumption) ?_
    | refine of_triple (by with_reducible assumption) ?_ | refine of_some (by with_reducible assumption) ?_
    | refine of_somep (by with_reducible assumption) ?_ | refine of_next (by with_reducible assumption) ?_
    | refine of_inl (by with_reducible assumption) ?_

theorem steer_core {o₀ : State} (theta : Int) (delay : Int) (s : State) (hk : Kept o₀ s) :
    Kept o₀ (steer theta delay s) := by
  unfold steer
  try dsimp only
  repeat' first
    | with_reducible assumption | with_reducible exact trivial | with_reducible apply stepMantel_core
    | with_reducible apply drawRate_core | with_reducible apply modTime_core | with_reducible apply raiseLimited_core
    | with_reducible apply raiseLead_core | with_reducible apply getD_core | simp only [kept_mk, kept_fold] | (intro _)
    | with_reducible rfl | split | with_reducible apply ite_answer_core | with_reducible apply ite_done_core
    | with_reducible apply ite_core | refine of_pair (by with_reducible assumption) ?_
    | refine of_triple (by with_reducible assumption) ?_ | refine of_some (by with_reducible assumption) ?_
    | refine of_somep (by with_reducible assumption) ?_ | refine of_next (by with_reducible assumption) ?_
    | refine of_inl (by with_reducible assumption) ?_

theorem calFromFrame_core {o₀ : State} (p : Nat) (delay : Int) (own : Int) (b : Bytes) (s : State) (hk : Kept o₀ s) :
    Kept o₀ (calFromFrame p delay own b s) := by
  unfold calFromFrame
  try dsimp only
  repeat' first
    | with_reducible assumption | with_reducible exact trivial | with_reducible apply calMeasure_core
    | simp only [kept_mk, kept_fold] | (intro _) | with_reducible rfl | split | with_reducible apply ite_answer_core
    | with_reducible apply ite_done_core | with_reducible apply ite_core | refine of_pair (by with_reducible assumption) ?_
    | refine of_triple (by with_reducible assumption) ?_ | refine of_some (by with_reducible assumption) ?_
    | refine of_somep (by with_reducible assumption) ?_ | refine of_next (by with_reducible assumption) ?_
    | refine of_inl (by with_reducible assumption) ?_

theorem takeMantel_core {o₀ : State} (x : MantelRx) (s : State) (hk : Kept o₀ s) :
    Kept o₀ (takeMantel x s) := by
  unfold takeMantel
  try dsimp only
  repeat' first
    | with_reducible assumption | with_reducible exact trivial | with_reducible apply some_core | with_reducible apply none_core
    | with_reducible apply somep_core | with_reducible apply nonep_core | with_reducible apply calFromFrame_core
    | with_reducible apply steer_core | with_reducible apply rankSources_core | with_reducible apply modMantelPort_core
    | with_reducible apply count_core | with_reducible apply getD_core | simp only [kept_mk, kept_fold] | (intro _)
    | with_reducible rfl | split | with_reducible apply ite_answer_core | with_reducible apply ite_done_core
    | with_reducible apply ite_core | refine of_pair (by with_reducible assumption) ?_
    | refine of_triple (by with_reducible assumption) ?_ | refine of_some (by with_reducible assumption) ?_
    | refine of_somep (by with_reducible assumption) ?_ | refine of_next (by with_reducible assumption) ?_
    | refine of_inl (by with_reducible assumption) ?_

theorem execMantelFrameReceived_core {o₀ : State} (port : Nat) (s : State) (hk : Kept o₀ s) :
    KeptAnswer o₀ (execMantelFrameReceived port s) := by
  unfold execMantelFrameReceived
  try dsimp only
  repeat' first
    | with_reducible assumption | with_reducible exact trivial | with_reducible apply next_core | with_reducible apply refused_core
    | with_reducible apply some_core | with_reducible apply none_core | with_reducible apply somep_core
    | with_reducible apply nonep_core | with_reducible apply takeMantel_core | with_reducible apply modTime_core
    | with_reducible apply guard_core | with_reducible apply countPort_core | simp only [kept_mk, kept_fold] | (intro _)
    | with_reducible rfl | split | with_reducible apply ite_answer_core | with_reducible apply ite_done_core
    | with_reducible apply ite_core | refine of_pair (by with_reducible assumption) ?_
    | refine of_triple (by with_reducible assumption) ?_ | refine of_some (by with_reducible assumption) ?_
    | refine of_somep (by with_reducible assumption) ?_ | refine of_next (by with_reducible assumption) ?_
    | refine of_inl (by with_reducible assumption) ?_

theorem execMantelSourceLost_core {o₀ : State} (port : Nat) (s : State) (hk : Kept o₀ s) :
    KeptAnswer o₀ (execMantelSourceLost port s) := by
  unfold execMantelSourceLost
  try dsimp only
  repeat' first
    | with_reducible assumption | with_reducible apply next_core | with_reducible apply refused_core
    | with_reducible apply modMantelPort_core | with_reducible apply guard_core | with_reducible apply rankSources_core
    | simp only [kept_mk, kept_fold] | (intro _) | with_reducible rfl | split | with_reducible apply ite_answer_core
    | with_reducible apply ite_core

theorem execMsyncInEdge_core {o₀ : State} (s : State) (hk : Kept o₀ s) :
    KeptAnswer o₀ (execMsyncInEdge s) := by
  unfold execMsyncInEdge
  try dsimp only
  repeat' first
    | with_reducible assumption | with_reducible apply next_core | with_reducible apply refused_core | with_reducible apply modTime_core
    | simp only [kept_mk, kept_fold] | (intro _) | with_reducible rfl | split | with_reducible apply ite_answer_core
    | with_reducible apply ite_core

theorem setCalendar_core {o₀ : State} (sec : Nat) (ns : Nat) (s : State) (hk : Kept o₀ s) :
    Kept o₀ (setCalendar sec ns s) := by
  unfold setCalendar
  try dsimp only
  repeat' first
    | with_reducible assumption | with_reducible exact trivial | with_reducible apply moveCalendar_core
    | with_reducible apply calStepped_core | with_reducible apply modCal_core | simp only [kept_mk, kept_fold] | (intro _)
    | with_reducible rfl | split | with_reducible apply ite_answer_core | with_reducible apply ite_done_core
    | with_reducible apply ite_core | refine of_pair (by with_reducible assumption) ?_
    | refine of_triple (by with_reducible assumption) ?_ | refine of_some (by with_reducible assumption) ?_
    | refine of_somep (by with_reducible assumption) ?_ | refine of_next (by with_reducible assumption) ?_
    | refine of_inl (by with_reducible assumption) ?_

theorem execCalendarSetTimeAt_core {o₀ : State} (s : State) (hk : Kept o₀ s) :
    KeptAnswer o₀ (execCalendarSetTimeAt s) := by
  unfold execCalendarSetTimeAt
  try dsimp only
  repeat' first
    | with_reducible assumption | with_reducible exact trivial | with_reducible apply next_core | with_reducible apply refused_core
    | with_reducible apply some_core | with_reducible apply none_core | with_reducible apply somep_core
    | with_reducible apply nonep_core | with_reducible apply setCalendar_core | simp only [kept_mk, kept_fold] | (intro _)
    | with_reducible rfl | split | with_reducible apply ite_answer_core | with_reducible apply ite_done_core
    | with_reducible apply ite_core | refine of_pair (by with_reducible assumption) ?_
    | refine of_triple (by with_reducible assumption) ?_ | refine of_some (by with_reducible assumption) ?_
    | refine of_somep (by with_reducible assumption) ?_ | refine of_next (by with_reducible assumption) ?_
    | refine of_inl (by with_reducible assumption) ?_

theorem modPtp_core {o₀ : State} (p : Nat) (g : PtpPort → PtpPort) (s : State) (hk : Kept o₀ s) :
    Kept o₀ (modPtp p g s) := by
  unfold modPtp
  try dsimp only
  repeat' first
    | with_reducible assumption | with_reducible apply modTime_core | simp only [kept_mk, kept_fold] | (intro _) | with_reducible rfl

theorem ptpLost_core {o₀ : State} (s : State) (hk : Kept o₀ s) :
    Kept o₀ (ptpLost s) := by
  unfold ptpLost
  try dsimp only
  repeat' first
    | with_reducible assumption | with_reducible exact trivial | with_reducible apply calHoldover_core
    | simp only [kept_mk, kept_fold] | (intro _) | with_reducible rfl | split | with_reducible apply ite_answer_core
    | with_reducible apply ite_done_core | with_reducible apply ite_core | refine of_pair (by with_reducible assumption) ?_
    | refine of_triple (by with_reducible assumption) ?_ | refine of_some (by with_reducible assumption) ?_
    | refine of_somep (by with_reducible assumption) ?_ | refine of_next (by with_reducible assumption) ?_
    | refine of_inl (by with_reducible assumption) ?_

theorem execPtpMessageReceived_core {o₀ : State} (port : Nat) (obs : PtpObs) (s : State) (hk : Kept o₀ s) :
    KeptAnswer o₀ (execPtpMessageReceived port obs s) := by
  unfold execPtpMessageReceived
  have hc := count_core 15 port 1 1 _ hk
  refine ite_answer_core trivial (ite_answer_core hk (ite_answer_core (count_core _ _ _ _ _ hk) ?_))
  have h1 := modPtp_core port (fun x => { x with
      portState := obs.portState, parent := obs.parent, gm := obs.gm, stepsRemoved := obs.stepsRemoved
      syncs := if obs.kind = 2 then (x.syncs + 1) % 2 ^ 32 else x.syncs
      offset := obs.offset.getD x.offset, delay := if obs.offset.isSome then obs.delay else x.delay }) _ hc
  extract_lets x1 s2 s3 s4 s5
  have h3 : Kept o₀ s3 := ite_core h1 (raiseLead_core _ _ _ _ _ _ h1)
  have h4 : Kept o₀ s4 := ite_core (modCal_core _ _ (calHoldover_core _ h3)) h3
  have h5 : Kept o₀ s5 := ite_core (ptpLost_core _ h4) h4
  apply next_core
  split
  · exact ite_core (calMeasure_core _ _ h5) h5
  · exact h5

theorem execPtpAnnounceTimeout_core {o₀ : State} (port : Nat) (s : State) (hk : Kept o₀ s) :
    KeptAnswer o₀ (execPtpAnnounceTimeout port s) := by
  unfold execPtpAnnounceTimeout
  try dsimp only
  repeat' first
    | with_reducible assumption | with_reducible exact trivial | with_reducible apply ptpLost_core
    | with_reducible apply modPtp_core | with_reducible apply guard_core | simp only [kept_mk, kept_fold] | (intro _)
    | with_reducible rfl | split | with_reducible apply ite_answer_core | with_reducible apply ite_done_core
    | with_reducible apply ite_core | refine of_pair (by with_reducible assumption) ?_
    | refine of_triple (by with_reducible assumption) ?_ | refine of_some (by with_reducible assumption) ?_
    | refine of_somep (by with_reducible assumption) ?_ | refine of_next (by with_reducible assumption) ?_
    | refine of_inl (by with_reducible assumption) ?_

theorem execPtpEventMessageSend_core {o₀ : State} (port : Nat) (msgType : Nat) (id : Nat) (s : State) (hk : Kept o₀ s) :
    KeptAnswer o₀ (execPtpEventMessageSend port msgType id s) := by
  unfold execPtpEventMessageSend
  try dsimp only
  repeat' first
    | with_reducible assumption | with_reducible exact trivial | with_reducible apply next_core | with_reducible apply refused_core
    | with_reducible apply modTime_core | with_reducible apply raiseLimited_core | with_reducible apply raiseLead_core
    | with_reducible apply emit_core | with_reducible apply count_core | simp only [kept_mk, kept_fold] | (intro _)
    | with_reducible rfl | split | with_reducible apply ite_answer_core | with_reducible apply ite_done_core
    | with_reducible apply ite_core | refine of_pair (by with_reducible assumption) ?_
    | refine of_triple (by with_reducible assumption) ?_ | refine of_some (by with_reducible assumption) ?_
    | refine of_somep (by with_reducible assumption) ?_ | refine of_next (by with_reducible assumption) ?_
    | refine of_inl (by with_reducible assumption) ?_

theorem execTsPop_core {o₀ : State} (s : State) (hk : Kept o₀ s) :
    KeptAnswer o₀ (execTsPop s) := by
  unfold execTsPop
  try dsimp only
  repeat' first
    | with_reducible assumption | with_reducible apply next_core | with_reducible apply refused_core | with_reducible apply bar0Write_core
    | with_reducible apply modTime_core | simp only [kept_mk, kept_fold] | (intro _) | with_reducible rfl

theorem execTsClearOvf_core {o₀ : State} (s : State) (hk : Kept o₀ s) :
    KeptAnswer o₀ (execTsClearOvf s) := by
  unfold execTsClearOvf
  try dsimp only
  repeat' first
    | with_reducible assumption | with_reducible apply next_core | with_reducible apply refused_core | with_reducible apply bar0Write_core
    | with_reducible apply modTime_core | simp only [kept_mk, kept_fold] | (intro _) | with_reducible rfl

theorem execMantelLoRead_core {o₀ : State} (s : State) (hk : Kept o₀ s) :
    KeptAnswer o₀ (execMantelLoRead s) := by
  unfold execMantelLoRead
  try dsimp only
  repeat' first
    | with_reducible assumption | with_reducible apply next_core | with_reducible apply refused_core | with_reducible apply bar0Read_core
    | with_reducible apply emit_core | with_reducible apply modTime_core | simp only [kept_mk, kept_fold] | (intro _) | with_reducible rfl

theorem execCalNsRead_core {o₀ : State} (s : State) (hk : Kept o₀ s) :
    KeptAnswer o₀ (execCalNsRead s) := by
  unfold execCalNsRead
  try dsimp only
  repeat' first
    | with_reducible assumption | with_reducible apply next_core | with_reducible apply refused_core | with_reducible apply bar0Read_core
    | with_reducible apply emit_core | with_reducible apply modTime_core | simp only [kept_mk, kept_fold] | (intro _) | with_reducible rfl

theorem execLegLoRead_core {o₀ : State} (s : State) (hk : Kept o₀ s) :
    KeptAnswer o₀ (execLegLoRead s) := by
  unfold execLegLoRead
  try dsimp only
  repeat' first
    | with_reducible assumption | with_reducible apply next_core | with_reducible apply refused_core | with_reducible apply bar0Read_core
    | with_reducible apply emit_core | with_reducible apply modTime_core | simp only [kept_mk, kept_fold] | (intro _) | with_reducible rfl

theorem execLegRateWrite_core {o₀ : State} (value : Nat) (s : State) (hk : Kept o₀ s) :
    KeptAnswer o₀ (execLegRateWrite value s) := by
  unfold execLegRateWrite
  try dsimp only
  repeat' first
    | with_reducible assumption | with_reducible apply next_core | with_reducible apply refused_core | with_reducible apply bar0Write_core
    | with_reducible apply modTime_core | simp only [kept_mk, kept_fold] | (intro _) | with_reducible rfl

theorem execLegOffsetLoWrite_core {o₀ : State} (value : Nat) (s : State) (hk : Kept o₀ s) :
    KeptAnswer o₀ (execLegOffsetLoWrite value s) := by
  unfold execLegOffsetLoWrite
  try dsimp only
  repeat' first
    | with_reducible assumption | with_reducible exact trivial | with_reducible apply next_core | with_reducible apply refused_core
    | with_reducible apply modTime_core | with_reducible apply bar0Write_core | simp only [kept_mk, kept_fold] | (intro _)
    | with_reducible rfl | split | with_reducible apply ite_answer_core | with_reducible apply ite_done_core
    | with_reducible apply ite_core | refine of_pair (by with_reducible assumption) ?_
    | refine of_triple (by with_reducible assumption) ?_ | refine of_some (by with_reducible assumption) ?_
    | refine of_somep (by with_reducible assumption) ?_ | refine of_next (by with_reducible assumption) ?_
    | refine of_inl (by with_reducible assumption) ?_

theorem keepSettings_core {o₀ : State} (e : NvEffect) (s : State) (hk : Kept o₀ s) :
    Kept o₀ (keepSettings e s) := by
  unfold keepSettings
  try dsimp only
  repeat' first
    | with_reducible assumption | with_reducible apply nvQueue_core | simp only [kept_mk, kept_fold] | with_reducible rfl | split
    | with_reducible apply ite_core

theorem execMantelConfig_core {o₀ : State} (q : Request) (s : State) (hk : Kept o₀ s) :
    KeptAnswer o₀ (execMantelConfig q s) := by
  unfold execMantelConfig
  try dsimp only
  repeat' first
    | with_reducible assumption | with_reducible exact trivial | with_reducible apply ok_core | with_reducible apply refuse_core
    | with_reducible apply reply_core | with_reducible apply wait_core | with_reducible apply keepSettings_core
    | with_reducible apply rankSources_core | with_reducible apply modMantelPort_core | with_reducible apply modTime_core
    | with_reducible apply runCommand_core | with_reducible apply withChecks_core | with_reducible apply replicate_core
    | with_reducible apply foldl_core | with_reducible apply foldl_kept2 | with_reducible apply foldl_kept3
    | simp only [kept_mk, kept_fold] | (intro _) | with_reducible rfl | split | with_reducible apply ite_answer_core
    | with_reducible apply ite_done_core | with_reducible apply ite_core | refine of_pair (by with_reducible assumption) ?_
    | refine of_triple (by with_reducible assumption) ?_ | refine of_some (by with_reducible assumption) ?_
    | refine of_somep (by with_reducible assumption) ?_ | refine of_next (by with_reducible assumption) ?_
    | refine of_inl (by with_reducible assumption) ?_

theorem fitSigned_core {o₀ : State} (k : Nat) (v : Int) (s : State) (hk : Kept o₀ s) :
    Kept o₀ (fitSigned k v s).2 := by
  unfold fitSigned
  try dsimp only
  repeat' first
    | with_reducible assumption | with_reducible apply draw_core | with_reducible rfl | split | with_reducible apply ite_core

theorem execMantelStatus_core {o₀ : State} (q : Request) (s : State) (hk : Kept o₀ s) :
    KeptAnswer o₀ (execMantelStatus q s) := by
  unfold execMantelStatus
  try dsimp only
  repeat' first
    | with_reducible assumption | with_reducible apply next_core | with_reducible apply refused_core | with_reducible apply ok_core
    | with_reducible apply runCommand_core | with_reducible apply withChecks_core | with_reducible apply fitSigned_core
    | with_reducible apply getD_core | (intro _) | with_reducible rfl | split | with_reducible apply ite_answer_core
    | with_reducible apply ite_done_core | with_reducible apply ite_core

theorem execStepConfig_core {o₀ : State} (q : Request) (s : State) (hk : Kept o₀ s) :
    KeptAnswer o₀ (execStepConfig q s) := by
  unfold execStepConfig
  try dsimp only
  repeat' first
    | with_reducible assumption | with_reducible apply next_core | with_reducible apply refused_core | with_reducible apply ok_core
    | with_reducible apply runCommand_core | with_reducible apply withChecks_core | with_reducible apply modGen_core
    | simp only [kept_mk, kept_fold] | (intro _) | with_reducible rfl

theorem execCalendarSet_core {o₀ : State} (q : Request) (s : State) (hk : Kept o₀ s) :
    KeptAnswer o₀ (execCalendarSet q s) := by
  unfold execCalendarSet
  try dsimp only
  repeat' first
    | with_reducible assumption | with_reducible exact trivial | with_reducible apply ok_core | with_reducible apply refuse_core
    | with_reducible apply reply_core | with_reducible apply wait_core | with_reducible apply some_core
    | with_reducible apply none_core | with_reducible apply somep_core | with_reducible apply nonep_core
    | with_reducible apply setCalendar_core | with_reducible apply modCal_core | with_reducible apply runCommand_core
    | with_reducible apply withChecks_core | simp only [kept_mk, kept_fold] | (intro _) | with_reducible rfl | split
    | with_reducible apply ite_answer_core | with_reducible apply ite_done_core | with_reducible apply ite_core
    | refine of_pair (by with_reducible assumption) ?_ | refine of_triple (by with_reducible assumption) ?_
    | refine of_some (by with_reducible assumption) ?_ | refine of_somep (by with_reducible assumption) ?_
    | refine of_next (by with_reducible assumption) ?_ | refine of_inl (by with_reducible assumption) ?_

theorem execCalendarRead_core {o₀ : State} (q : Request) (s : State) (hk : Kept o₀ s) :
    KeptAnswer o₀ (execCalendarRead q s) := by
  unfold execCalendarRead
  try dsimp only
  repeat' first
    | with_reducible assumption | with_reducible apply next_core | with_reducible apply refused_core | with_reducible apply ok_core
    | with_reducible apply runCommand_core | (intro _) | with_reducible rfl

theorem execPtpConfig_core {o₀ : State} (q : Request) (s : State) (hk : Kept o₀ s) :
    KeptAnswer o₀ (execPtpConfig q s) := by
  unfold execPtpConfig
  try dsimp only
  repeat' first
    | with_reducible assumption | with_reducible exact trivial | with_reducible apply ok_core | with_reducible apply refuse_core
    | with_reducible apply reply_core | with_reducible apply wait_core | with_reducible apply ptpLost_core
    | with_reducible apply modPtp_core | with_reducible apply runCommand_core | with_reducible apply withChecks_core
    | simp only [kept_mk, kept_fold] | (intro _) | with_reducible rfl | split | with_reducible apply ite_answer_core
    | with_reducible apply ite_done_core | with_reducible apply ite_core | refine of_pair (by with_reducible assumption) ?_
    | refine of_triple (by with_reducible assumption) ?_ | refine of_some (by with_reducible assumption) ?_
    | refine of_somep (by with_reducible assumption) ?_ | refine of_next (by with_reducible assumption) ?_
    | refine of_inl (by with_reducible assumption) ?_

theorem execPtpStatus_core {o₀ : State} (q : Request) (s : State) (hk : Kept o₀ s) :
    KeptAnswer o₀ (execPtpStatus q s) := by
  unfold execPtpStatus
  try dsimp only
  repeat' first
    | with_reducible assumption | with_reducible apply next_core | with_reducible apply refused_core | with_reducible apply ok_core
    | with_reducible apply runCommand_core | with_reducible apply withChecks_core | simp only [kept_mk, kept_fold] | (intro _)
    | with_reducible rfl

theorem execTsQueueRead_core {o₀ : State} (q : Request) (s : State) (hk : Kept o₀ s) :
    KeptAnswer o₀ (execTsQueueRead q s) := by
  unfold execTsQueueRead
  try dsimp only
  repeat' first
    | with_reducible assumption | with_reducible apply next_core | with_reducible apply refused_core | with_reducible apply ok_core
    | with_reducible apply runCommand_core | with_reducible apply withChecks_core | with_reducible apply modTime_core
    | simp only [kept_mk, kept_fold] | (intro _) | with_reducible rfl

end Sys2Proof.Machine
end

