-- ==== Sys2Proof/Laws/KeptFabric.lean ====
section
/-!
SUPPORT. What Darning, failover, firmware, resets and the thermal loop leave alone.
-/
namespace Sys2Proof.Machine

/-! ## Machine/Darning.lean -/

theorem execDarningFrameSend_core {o₀ : State} (s : State) (hk : Kept o₀ s) :
    KeptAnswer o₀ (execDarningFrameSend s) := by
  unfold execDarningFrameSend
  try dsimp only
  repeat' first
    | with_reducible assumption | with_reducible exact trivial | with_reducible apply next_core | with_reducible apply refused_core
    | with_reducible apply sendDarning_core | with_reducible apply modDarn_core | with_reducible apply foldl_core
    | with_reducible apply foldl_kept2 | with_reducible apply foldl_kept3 | simp only [kept_mk, kept_fold] | (intro _)
    | with_reducible rfl | split | with_reducible apply ite_answer_core | with_reducible apply ite_done_core
    | with_reducible apply ite_core | refine of_pair (by with_reducible assumption) ?_
    | refine of_triple (by with_reducible assumption) ?_ | refine of_some (by with_reducible assumption) ?_
    | refine of_somep (by with_reducible assumption) ?_ | refine of_next (by with_reducible assumption) ?_
    | refine of_inl (by with_reducible assumption) ?_

theorem execDarningFrameReceived_core {o₀ : State} (port : Nat) (s : State) (hk : Kept o₀ s) :
    KeptAnswer o₀ (execDarningFrameReceived port s) := by
  unfold execDarningFrameReceived
  try dsimp only
  repeat' first
    | with_reducible assumption | with_reducible exact trivial | with_reducible apply next_core | with_reducible apply refused_core
    | with_reducible apply some_core | with_reducible apply none_core | with_reducible apply somep_core
    | with_reducible apply nonep_core | with_reducible apply judgePort_core | with_reducible apply advertise_core
    | with_reducible apply modDarnPort_core | with_reducible apply modDarn_core | with_reducible apply guard_core
    | with_reducible apply countPort_core | simp only [kept_mk, kept_fold] | (intro _) | with_reducible rfl | split
    | with_reducible apply ite_answer_core | with_reducible apply ite_done_core | with_reducible apply ite_core
    | refine of_pair (by with_reducible assumption) ?_ | refine of_triple (by with_reducible assumption) ?_
    | refine of_some (by with_reducible assumption) ?_ | refine of_somep (by with_reducible assumption) ?_
    | refine of_next (by with_reducible assumption) ?_ | refine of_inl (by with_reducible assumption) ?_

theorem execDarningSilent_core {o₀ : State} (port : Nat) (s : State) (hk : Kept o₀ s) :
    KeptAnswer o₀ (execDarningSilent port s) := by
  unfold execDarningSilent
  try dsimp only
  repeat' first
    | with_reducible assumption | with_reducible exact trivial | with_reducible apply judgePort_core
    | with_reducible apply advertise_core | with_reducible apply modDarnPort_core | with_reducible apply guard_core
    | with_reducible apply countPort_core | simp only [kept_mk, kept_fold] | (intro _) | with_reducible rfl | split
    | with_reducible apply ite_answer_core | with_reducible apply ite_done_core | with_reducible apply ite_core
    | refine of_pair (by with_reducible assumption) ?_ | refine of_triple (by with_reducible assumption) ?_
    | refine of_some (by with_reducible assumption) ?_ | refine of_somep (by with_reducible assumption) ?_
    | refine of_next (by with_reducible assumption) ?_ | refine of_inl (by with_reducible assumption) ?_

theorem execMaskHoldExpired_core {o₀ : State} (port : Nat) (s : State) (hk : Kept o₀ s) :
    KeptAnswer o₀ (execMaskHoldExpired port s) := by
  unfold execMaskHoldExpired
  try dsimp only
  repeat' first
    | with_reducible assumption | with_reducible exact trivial | with_reducible apply clearMask_core
    | with_reducible apply advertise_core | with_reducible apply guard_core | simp only [kept_mk, kept_fold] | (intro _)
    | with_reducible rfl | split | with_reducible apply ite_answer_core | with_reducible apply ite_done_core
    | with_reducible apply ite_core | refine of_pair (by with_reducible assumption) ?_
    | refine of_triple (by with_reducible assumption) ?_ | refine of_some (by with_reducible assumption) ?_
    | refine of_somep (by with_reducible assumption) ?_ | refine of_next (by with_reducible assumption) ?_
    | refine of_inl (by with_reducible assumption) ?_

theorem execRestoreHoldExpired_core {o₀ : State} (port : Nat) (s : State) (hk : Kept o₀ s) :
    KeptAnswer o₀ (execRestoreHoldExpired port s) := by
  unfold execRestoreHoldExpired
  try dsimp only
  repeat' first
    | with_reducible assumption | with_reducible exact trivial | with_reducible apply setMask_core
    | with_reducible apply advertise_core | with_reducible apply modDarnPort_core | with_reducible apply guard_core
    | simp only [kept_mk, kept_fold] | (intro _) | with_reducible rfl | split | with_reducible apply ite_answer_core
    | with_reducible apply ite_done_core | with_reducible apply ite_core | refine of_pair (by with_reducible assumption) ?_
    | refine of_triple (by with_reducible assumption) ?_ | refine of_some (by with_reducible assumption) ?_
    | refine of_somep (by with_reducible assumption) ?_ | refine of_next (by with_reducible assumption) ?_
    | refine of_inl (by with_reducible assumption) ?_

theorem execFlapHoldExpired_core {o₀ : State} (port : Nat) (s : State) (hk : Kept o₀ s) :
    KeptAnswer o₀ (execFlapHoldExpired port s) := by
  unfold execFlapHoldExpired
  try dsimp only
  repeat' first
    | with_reducible assumption | with_reducible exact trivial | with_reducible apply judgePort_core
    | with_reducible apply advertise_core | with_reducible apply modDarnPort_core | with_reducible apply guard_core
    | simp only [kept_mk, kept_fold] | (intro _) | with_reducible rfl | split | with_reducible apply ite_answer_core
    | with_reducible apply ite_done_core | with_reducible apply ite_core | refine of_pair (by with_reducible assumption) ?_
    | refine of_triple (by with_reducible assumption) ?_ | refine of_some (by with_reducible assumption) ?_
    | refine of_somep (by with_reducible assumption) ?_ | refine of_next (by with_reducible assumption) ?_
    | refine of_inl (by with_reducible assumption) ?_

theorem execDarningMaskRead_core {o₀ : State} (q : Request) (s : State) (hk : Kept o₀ s) :
    KeptAnswer o₀ (execDarningMaskRead q s) := by
  unfold execDarningMaskRead
  try dsimp only
  repeat' first
    | with_reducible assumption | with_reducible apply next_core | with_reducible apply refused_core | with_reducible apply ok_core
    | with_reducible apply runCommand_core | (intro _) | with_reducible rfl

theorem controlPorts_core {o₀ : State} (bits first n : Nat) (s : State) (hk : Kept o₀ s) :
    Kept o₀ (controlPorts bits first n s) := by
  unfold controlPorts
  try dsimp only
  repeat' first
    | with_reducible assumption | with_reducible apply advertise_core | with_reducible apply judgePort_core
    | with_reducible apply modDarnPort_core | with_reducible apply foldl_core | with_reducible apply foldl_kept2
    | with_reducible apply foldl_kept3 | simp only [kept_mk, kept_fold] | (intro _) | with_reducible rfl

theorem execDarningConfig_core {o₀ : State} (q : Request) (s : State) (hk : Kept o₀ s) :
    KeptAnswer o₀ (execDarningConfig q s) := by
  unfold execDarningConfig
  try dsimp only
  repeat' first
    | with_reducible assumption | with_reducible exact trivial | with_reducible apply ok_core | with_reducible apply refuse_core
    | with_reducible apply reply_core | with_reducible apply wait_core | with_reducible apply some_core
    | with_reducible apply none_core | with_reducible apply somep_core | with_reducible apply nonep_core
    | with_reducible apply controlPorts_core | with_reducible apply keepSettings_core | with_reducible apply stageDone_core
    | with_reducible apply runCommand_core | with_reducible apply withChecks_core | with_reducible apply setPartState_core
    | with_reducible apply modDarn_core | simp only [kept_mk, kept_fold] | (intro _) | with_reducible rfl | split
    | with_reducible apply ite_answer_core | with_reducible apply ite_done_core | with_reducible apply ite_core
    | refine of_pair (by with_reducible assumption) ?_ | refine of_triple (by with_reducible assumption) ?_
    | refine of_some (by with_reducible assumption) ?_ | refine of_somep (by with_reducible assumption) ?_
    | refine of_next (by with_reducible assumption) ?_ | refine of_inl (by with_reducible assumption) ?_

theorem execFaultRead_core {o₀ : State} (q : Request) (s : State) (hk : Kept o₀ s) :
    KeptAnswer o₀ (execFaultRead q s) := by
  unfold execFaultRead
  try dsimp only
  repeat' first
    | with_reducible assumption | with_reducible apply next_core | with_reducible apply refused_core | with_reducible apply ok_core
    | with_reducible apply runCommand_core | with_reducible apply withChecks_core | (intro _) | with_reducible rfl

/-! ## Machine/Failover.lean -/

theorem modFw_core {o₀ : State} (g : Firmware → Firmware) (s : State) (hk : Kept o₀ s) :
    Kept o₀ (modFw g s) := by
  unfold modFw
  try dsimp only
  repeat' first
    | with_reducible assumption | simp only [kept_mk, kept_fold] | with_reducible rfl

theorem modBoot_core {o₀ : State} (g : Boot → Boot) (s : State) (hk : Kept o₀ s) :
    Kept o₀ (modBoot g s) := by
  unfold modBoot
  try dsimp only
  repeat' first
    | with_reducible assumption | simp only [kept_mk, kept_fold] | with_reducible rfl

theorem modSec_core {o₀ : State} (g : Security → Security) (s : State) (hg : ∀ c, ((g c).lifecycle, (g c).revoked, (g c).svnA, (g c).svnB) = (c.lifecycle, c.revoked, c.svnA, c.svnB))
    (hk : Kept o₀ s) : Kept o₀ (modSec g s) := by
  have := hg s.sec
  simp only [Prod.mk.injEq] at this
  rw [kept_iff] at hk ⊢
  simp only [modSec]
  simp only [this]
  exact hk

theorem takeCurrent_core {o₀ : State} (mode : Nat) (img : Image) (s : State) (hk : Kept o₀ s) :
    Kept o₀ (takeCurrent mode img s) := by
  unfold takeCurrent
  try dsimp only
  repeat' first
    | with_reducible assumption | with_reducible apply raiseLead_core | with_reducible apply anchorWrite_core
    | with_reducible apply modFw_core | simp only [kept_mk, kept_fold] | (intro _) | with_reducible rfl

theorem setStandby_core {o₀ : State} (ready : Bool) (code : Nat) (s : State) (hk : Kept o₀ s) :
    Kept o₀ (setStandby ready code s) := by
  unfold setStandby
  try dsimp only
  repeat' first
    | with_reducible assumption | with_reducible exact trivial | with_reducible apply modBoot_core | simp only [kept_mk, kept_fold]
    | (intro _) | with_reducible rfl | split | with_reducible apply ite_answer_core | with_reducible apply ite_done_core
    | with_reducible apply ite_core | refine of_pair (by with_reducible assumption) ?_
    | refine of_triple (by with_reducible assumption) ?_ | refine of_some (by with_reducible assumption) ?_
    | refine of_somep (by with_reducible assumption) ?_ | refine of_next (by with_reducible assumption) ?_
    | refine of_inl (by with_reducible assumption) ?_

theorem finishActivation_core {o₀ : State} (s : State) (hk : Kept o₀ s) :
    Kept o₀ (finishActivation s) := by
  unfold finishActivation
  try dsimp only
  repeat' first
    | with_reducible assumption | with_reducible apply takeCurrent_core | with_reducible apply modFw_core
    | with_reducible apply beginHandover_core | simp only [kept_mk, kept_fold] | (intro _) | with_reducible rfl | split
    | with_reducible apply ite_core

theorem raiseDieFault_core {o₀ : State} (die cls cond : Nat) (s : State) (hk : Kept o₀ s) :
    Kept o₀ (raiseDieFault die cls cond s) := by
  unfold raiseDieFault
  try dsimp only
  repeat' first
    | with_reducible assumption | with_reducible apply raiseLead_core | with_reducible rfl

theorem discardHalls_core {o₀ : State} (sel : Nat → Bool) (s : State) (hk : Kept o₀ s) :
    Kept o₀ (discardHalls sel s) := by
  unfold discardHalls
  try dsimp only
  repeat' first
    | with_reducible assumption | with_reducible apply purge_core | with_reducible apply countHall_core | (intro _) | with_reducible rfl

theorem failPart_core {o₀ : State} (cause : Nat) (s : State) (hk : Kept o₀ s) :
    Kept o₀ (failPart cause s) := by
  unfold failPart
  try dsimp only
  repeat' first
    | with_reducible assumption | with_reducible apply discardHalls_core | with_reducible apply setPartState_core
    | simp only [kept_mk, kept_fold] | (intro _) | with_reducible rfl | split | with_reducible apply ite_core

theorem loseStandby_core {o₀ : State} (why : Nat) (s : State) (hk : Kept o₀ s) :
    Kept o₀ (loseStandby why s) := by
  unfold loseStandby
  try dsimp only
  repeat' first
    | with_reducible assumption | with_reducible exact trivial | with_reducible apply finishActivation_core
    | with_reducible apply setStandby_core | with_reducible apply modBoot_core | with_reducible apply modFw_core
    | with_reducible apply ptpLost_core | with_reducible apply modDie_core | with_reducible apply complete_core
    | with_reducible apply advertise_core | with_reducible apply raiseLead_core | simp only [kept_mk, kept_fold] | (intro _)
    | with_reducible rfl | split | with_reducible apply ite_answer_core | with_reducible apply ite_done_core
    | with_reducible apply ite_core | refine of_pair (by with_reducible assumption) ?_
    | refine of_triple (by with_reducible assumption) ?_ | refine of_some (by with_reducible assumption) ?_
    | refine of_somep (by with_reducible assumption) ?_ | refine of_next (by with_reducible assumption) ?_
    | refine of_inl (by with_reducible assumption) ?_

theorem failHearth_core {o₀ : State} (d cond : Nat) (s : State) (hk : Kept o₀ s) :
    Kept o₀ (failHearth d cond s) := by
  unfold failHearth
  try dsimp only
  repeat' first
    | with_reducible assumption | with_reducible apply recordFault_core | with_reducible apply loseStandby_core
    | with_reducible apply raiseDieFault_core | with_reducible apply modBoot_core | with_reducible apply modDie_core
    | with_reducible apply raise_core | with_reducible apply beginHandover_core | with_reducible apply advertise_core
    | simp only [kept_mk, kept_fold] | (intro _) | with_reducible rfl | split | with_reducible apply ite_core

theorem failHall_core {o₀ : State} (h cond : Nat) (s : State) (hk : Kept o₀ s) :
    Kept o₀ (failHall h cond s) := by
  unfold failHall
  try dsimp only
  repeat' first
    | with_reducible assumption | with_reducible apply modDie_core | with_reducible apply recordFault_core
    | with_reducible apply failPart_core | with_reducible apply raiseDieFault_core | simp only [kept_mk, kept_fold] | (intro _)
    | with_reducible rfl | split | with_reducible apply ite_core

theorem declareFault_core {o₀ : State} (die : Nat) (cond : Nat) (s : State) (hk : Kept o₀ s) :
    Kept o₀ (declareFault die cond s) := by
  unfold declareFault
  try dsimp only
  repeat' first
    | with_reducible assumption | with_reducible exact trivial | with_reducible apply failHall_core
    | with_reducible apply failHearth_core | with_reducible apply raiseDieFault_core | with_reducible apply failMangle_core
    | with_reducible apply windowOutOfService_core | simp only [kept_mk, kept_fold] | (intro _) | with_reducible rfl | split
    | with_reducible apply ite_answer_core | with_reducible apply ite_done_core | with_reducible apply ite_core
    | refine of_pair (by with_reducible assumption) ?_ | refine of_triple (by with_reducible assumption) ?_
    | refine of_some (by with_reducible assumption) ?_ | refine of_somep (by with_reducible assumption) ?_
    | refine of_next (by with_reducible assumption) ?_ | refine of_inl (by with_reducible assumption) ?_

theorem fatalError_core {o₀ : State} (s : State) (hk : Kept o₀ s) :
    Kept o₀ (fatalError s) := by
  unfold fatalError
  try dsimp only
  repeat' first
    | with_reducible assumption | with_reducible exact trivial | with_reducible apply modBoot_core
    | with_reducible apply beginHandover_core | with_reducible apply modDie_core | with_reducible apply advertise_core
    | with_reducible apply recordFault_core | simp only [kept_mk, kept_fold] | (intro _) | with_reducible rfl | split
    | with_reducible apply ite_answer_core | with_reducible apply ite_done_core | with_reducible apply ite_core
    | refine of_pair (by with_reducible assumption) ?_ | refine of_triple (by with_reducible assumption) ?_
    | refine of_some (by with_reducible assumption) ?_ | refine of_somep (by with_reducible assumption) ?_
    | refine of_next (by with_reducible assumption) ?_ | refine of_inl (by with_reducible assumption) ?_

theorem execDieFault_core {o₀ : State} (die : Nat) (condition : Nat) (s : State) (hk : Kept o₀ s) :
    KeptAnswer o₀ (execDieFault die condition s) := by
  unfold execDieFault
  try dsimp only
  repeat' first
    | with_reducible assumption | with_reducible exact trivial | with_reducible apply next_core | with_reducible apply refused_core
    | with_reducible apply fatalError_core | with_reducible apply declareFault_core | with_reducible apply guard_core
    | simp only [kept_mk, kept_fold] | (intro _) | with_reducible rfl | split | with_reducible apply ite_answer_core
    | with_reducible apply ite_done_core | with_reducible apply ite_core | refine of_pair (by with_reducible assumption) ?_
    | refine of_triple (by with_reducible assumption) ?_ | refine of_some (by with_reducible assumption) ?_
    | refine of_somep (by with_reducible assumption) ?_ | refine of_next (by with_reducible assumption) ?_
    | refine of_inl (by with_reducible assumption) ?_

theorem execLeaderHeartbeatLoss_core {o₀ : State} (s : State) (hk : Kept o₀ s) :
    KeptAnswer o₀ (execLeaderHeartbeatLoss s) := by
  unfold execLeaderHeartbeatLoss
  try dsimp only
  repeat' first
    | with_reducible assumption | with_reducible apply next_core | with_reducible apply refused_core | with_reducible apply failHearth_core
    | with_reducible rfl | split | with_reducible apply ite_answer_core | with_reducible apply ite_core

theorem execStandbyKeepaliveLoss_core {o₀ : State} (s : State) (hk : Kept o₀ s) :
    KeptAnswer o₀ (execStandbyKeepaliveLoss s) := by
  unfold execStandbyKeepaliveLoss
  try dsimp only
  repeat' first
    | with_reducible assumption | with_reducible apply next_core | with_reducible apply refused_core | with_reducible apply failHearth_core
    | with_reducible rfl | split | with_reducible apply ite_answer_core | with_reducible apply ite_core

theorem execHallKeepaliveTimeout_core {o₀ : State} (hall : Nat) (s : State) (hk : Kept o₀ s) :
    KeptAnswer o₀ (execHallKeepaliveTimeout hall s) := by
  unfold execHallKeepaliveTimeout
  try dsimp only
  repeat' first
    | with_reducible assumption | with_reducible apply next_core | with_reducible apply refused_core | with_reducible apply refuse_core
    | with_reducible apply discardHalls_core | with_reducible apply modDarn_core | with_reducible apply advertise_core
    | with_reducible apply judgePort_core | with_reducible apply sendDarning_core | with_reducible apply failPart_core
    | with_reducible apply foldl_core | with_reducible apply foldl_kept2 | with_reducible apply foldl_kept3 | simp only [kept_mk, kept_fold]
    | (intro _) | with_reducible rfl | split | with_reducible apply ite_answer_core | with_reducible apply ite_done_core
    | with_reducible apply ite_core

theorem answerHandover_core {o₀ : State} (took : Bool) (us : Nat) (o : Outstanding) (s : State) (hk : Kept o₀ s) :
    Kept o₀ (answerHandover took us o s) := by
  unfold answerHandover
  try dsimp only
  repeat' first
    | with_reducible assumption | with_reducible exact trivial | with_reducible apply ok_core | with_reducible apply refuse_core
    | with_reducible apply reply_core | with_reducible apply wait_core | with_reducible apply reopen_core
    | with_reducible apply answerLater_core | simp only [kept_mk, kept_fold] | (intro _) | with_reducible rfl | split
    | with_reducible apply ite_answer_core | with_reducible apply ite_done_core | with_reducible apply ite_core
    | refine of_pair (by with_reducible assumption) ?_ | refine of_triple (by with_reducible assumption) ?_
    | refine of_some (by with_reducible assumption) ?_ | refine of_somep (by with_reducible assumption) ?_
    | refine of_next (by with_reducible assumption) ?_ | refine of_inl (by with_reducible assumption) ?_

theorem refuseHeld_core {o₀ : State} (h : HeldCommand) (s : State) (hk : Kept o₀ s) :
    Kept o₀ (refuseHeld h s) := by
  unfold refuseHeld
  try dsimp only
  repeat' first
    | with_reducible assumption | with_reducible exact trivial | with_reducible apply sendReply_core
    | simp only [kept_mk, kept_fold] | (intro _) | with_reducible rfl | split | with_reducible apply ite_answer_core
    | with_reducible apply ite_done_core | with_reducible apply ite_core | refine of_pair (by with_reducible assumption) ?_
    | refine of_triple (by with_reducible assumption) ?_ | refine of_some (by with_reducible assumption) ?_
    | refine of_somep (by with_reducible assumption) ?_ | refine of_next (by with_reducible assumption) ?_
    | refine of_inl (by with_reducible assumption) ?_

theorem answerAll_core {o₀ : State} (took : Bool) (us : Nat) (s : State) (hk : Kept o₀ s) :
    Kept o₀ (answerAll took us s) := by
  unfold answerAll
  try dsimp only
  repeat' first
    | with_reducible assumption | with_reducible exact trivial | with_reducible apply refuseHeld_core
    | with_reducible apply answerHandover_core | with_reducible apply foldl_core | with_reducible apply foldl_kept2
    | with_reducible apply foldl_kept3 | simp only [kept_mk, kept_fold] | (intro _) | with_reducible rfl | split
    | with_reducible apply ite_answer_core | with_reducible apply ite_done_core | with_reducible apply ite_core
    | refine of_pair (by with_reducible assumption) ?_ | refine of_triple (by with_reducible assumption) ?_
    | refine of_some (by with_reducible assumption) ?_ | refine of_somep (by with_reducible assumption) ?_
    | refine of_next (by with_reducible assumption) ?_ | refine of_inl (by with_reducible assumption) ?_

theorem remountStore_core {o₀ : State} (s : State) (hk : Kept o₀ s) :
    Kept o₀ (remountStore s) := by
  unfold remountStore
  try dsimp only
  repeat' first
    | with_reducible assumption | with_reducible apply modNv_core | with_reducible apply raiseLead_core | simp only [kept_mk, kept_fold]
    | (intro _) | with_reducible rfl | split | with_reducible apply ite_core

theorem activationAfter_core {o₀ : State} (unplanned : Bool) (s : State) (hk : Kept o₀ s) :
    Kept o₀ (activationAfter unplanned s) := by
  unfold activationAfter
  try dsimp only
  repeat' first
    | with_reducible assumption | with_reducible apply modFw_core | with_reducible apply raiseLead_core | with_reducible apply getD_core
    | simp only [kept_mk, kept_fold] | (intro _) | with_reducible rfl | split | with_reducible apply ite_core

theorem execHearthHandoverDone_core {o₀ : State} (s : State) (hk : Kept o₀ s) :
    KeptAnswer o₀ (execHearthHandoverDone s) := by
  unfold execHearthHandoverDone
  try dsimp only
  repeat' first
    | with_reducible assumption | with_reducible exact trivial | with_reducible apply next_core | with_reducible apply refused_core
    | with_reducible apply some_core | with_reducible apply none_core | with_reducible apply somep_core
    | with_reducible apply nonep_core | with_reducible apply activationAfter_core | with_reducible apply remountStore_core
    | with_reducible apply answerAll_core | with_reducible apply modSec_core | with_reducible apply modBoot_core
    | with_reducible apply ptpLost_core | with_reducible apply restoreCounters_core | with_reducible apply advertise_core
    | with_reducible apply raiseLead_core | simp only [kept_mk, kept_fold] | (intro _) | with_reducible rfl | split
    | with_reducible apply ite_answer_core | with_reducible apply ite_done_core | with_reducible apply ite_core
    | refine of_pair (by with_reducible assumption) ?_ | refine of_triple (by with_reducible assumption) ?_
    | refine of_some (by with_reducible assumption) ?_ | refine of_somep (by with_reducible assumption) ?_
    | refine of_next (by with_reducible assumption) ?_ | refine of_inl (by with_reducible assumption) ?_

theorem execHearthHandover_core {o₀ : State} (q : Request) (s : State) (hk : Kept o₀ s) :
    KeptAnswer o₀ (execHearthHandover q s) := by
  unfold execHearthHandover
  try dsimp only
  repeat' first
    | with_reducible assumption | with_reducible apply next_core | with_reducible apply refused_core | with_reducible apply wait_core
    | with_reducible apply runCommand_core | with_reducible apply withChecks_core | with_reducible apply beginHandover_core
    | simp only [kept_mk, kept_fold] | (intro _) | with_reducible rfl

/-! ## Machine/Firmware.lean -/

theorem countSlot_core {o₀ : State} (erased bytes : Nat) (s : State) (hk : Kept o₀ s) :
    Kept o₀ (countSlot erased bytes s) := by
  unfold countSlot
  try dsimp only
  repeat' first
    | with_reducible assumption | with_reducible apply countNv_core | with_reducible apply foldl_core | with_reducible apply foldl_kept2
    | with_reducible apply foldl_kept3 | (intro _) | with_reducible rfl | split | with_reducible apply ite_core

theorem execFwImageBegin_core {o₀ : State} (q : Request) (s : State) (hk : Kept o₀ s) :
    KeptAnswer o₀ (execFwImageBegin q s) := by
  unfold execFwImageBegin
  try dsimp only
  repeat' first
    | with_reducible assumption | with_reducible apply next_core | with_reducible apply refused_core | with_reducible apply ok_core
    | with_reducible apply runCommand_core | with_reducible apply withChecks_core | with_reducible apply anchorWrite_core
    | with_reducible apply countSlot_core | with_reducible apply modFw_core | simp only [kept_mk, kept_fold] | (intro _)
    | with_reducible rfl

theorem execFwImageWrite_core {o₀ : State} (q : Request) (s : State) (hk : Kept o₀ s) :
    KeptAnswer o₀ (execFwImageWrite q s) := by
  unfold execFwImageWrite
  try dsimp only
  repeat' first
    | with_reducible assumption | with_reducible apply next_core | with_reducible apply refused_core | with_reducible apply ok_core
    | with_reducible apply refuse_core | with_reducible apply runCommand_core | with_reducible apply withChecks_core
    | with_reducible apply countSlot_core | with_reducible apply modFw_core | with_reducible apply foldl_core
    | with_reducible apply foldl_kept2 | with_reducible apply foldl_kept3 | simp only [kept_mk, kept_fold] | (intro _) | with_reducible rfl
    | split | refine of_pair (by with_reducible assumption) ?_ | refine of_some (by with_reducible assumption) ?_
    | refine of_next (by with_reducible assumption) ?_ | refine of_inl (by with_reducible assumption) ?_

theorem execFwImageVerify_core {o₀ : State} (q : Request) (s : State) (hk : Kept o₀ s) :
    KeptAnswer o₀ (execFwImageVerify q s) := by
  unfold execFwImageVerify
  try dsimp only
  repeat' first
    | with_reducible assumption | with_reducible apply next_core | with_reducible apply refused_core | with_reducible apply ok_core
    | with_reducible apply refuse_core | with_reducible apply runCommand_core | with_reducible apply anchorWrite_core
    | with_reducible apply modFw_core | simp only [kept_mk, kept_fold] | (intro _) | with_reducible rfl | split
    | with_reducible apply ite_answer_core | with_reducible apply ite_done_core | with_reducible apply ite_core
    | refine of_pair (by with_reducible assumption) ?_ | refine of_some (by with_reducible assumption) ?_
    | refine of_next (by with_reducible assumption) ?_ | refine of_inl (by with_reducible assumption) ?_

theorem execFwActivate_core {o₀ : State} (q : Request) (s : State) (hk : Kept o₀ s) :
    KeptAnswer o₀ (execFwActivate q s) := by
  unfold execFwActivate
  try dsimp only
  repeat' first
    | with_reducible assumption | with_reducible apply next_core | with_reducible apply refused_core | with_reducible apply ok_core
    | with_reducible apply wait_core | with_reducible apply runCommand_core | with_reducible apply withChecks_core
    | with_reducible apply anchorWrite_core | with_reducible apply modFw_core | with_reducible apply setStandby_core
    | simp only [kept_mk, kept_fold] | (intro _) | with_reducible rfl | split | with_reducible apply ite_answer_core
    | with_reducible apply ite_done_core | with_reducible apply ite_core

theorem execActivationStandbyReady_core {o₀ : State} (s : State) (hk : Kept o₀ s) :
    KeptAnswer o₀ (execActivationStandbyReady s) := by
  unfold execActivationStandbyReady
  try dsimp only
  repeat' first
    | with_reducible assumption | with_reducible apply next_core | with_reducible apply refused_core
    | with_reducible apply beginHandover_core | with_reducible apply setStandby_core | with_reducible apply modFw_core
    | simp only [kept_mk, kept_fold] | (intro _) | with_reducible rfl | split | with_reducible apply ite_answer_core
    | with_reducible apply ite_core

theorem execFwTrialEnd_core {o₀ : State} (s : State) (hk : Kept o₀ s) :
    KeptAnswer o₀ (execFwTrialEnd s) := by
  unfold execFwTrialEnd
  try dsimp only
  repeat' first
    | with_reducible assumption | with_reducible exact trivial | with_reducible apply next_core | with_reducible apply refused_core
    | with_reducible apply finishActivation_core | with_reducible apply setStandby_core | with_reducible apply modFw_core
    | simp only [kept_mk, kept_fold] | (intro _) | with_reducible rfl | split | with_reducible apply ite_answer_core
    | with_reducible apply ite_done_core | with_reducible apply ite_core | refine of_pair (by with_reducible assumption) ?_
    | refine of_triple (by with_reducible assumption) ?_ | refine of_some (by with_reducible assumption) ?_
    | refine of_somep (by with_reducible assumption) ?_ | refine of_next (by with_reducible assumption) ?_
    | refine of_inl (by with_reducible assumption) ?_

theorem execFwActivated_core {o₀ : State} (s : State) (hk : Kept o₀ s) :
    KeptAnswer o₀ (execFwActivated s) := by
  unfold execFwActivated
  try dsimp only
  repeat' first
    | with_reducible assumption | with_reducible apply next_core | with_reducible apply refused_core | with_reducible apply advertise_core
    | with_reducible apply finishActivation_core | with_reducible apply setStandby_core | with_reducible rfl | split
    | with_reducible apply ite_answer_core | with_reducible apply ite_core

theorem execFwStatus_core {o₀ : State} (q : Request) (s : State) (hk : Kept o₀ s) :
    KeptAnswer o₀ (execFwStatus q s) := by
  unfold execFwStatus
  try dsimp only
  repeat' first
    | with_reducible assumption | with_reducible apply next_core | with_reducible apply refused_core | with_reducible apply ok_core
    | with_reducible apply runCommand_core | with_reducible apply getD_core | (intro _) | with_reducible rfl

theorem dropSpare_core {o₀ : State} (k : Nat) (high : Bool) (g : Nat) (s : State) (hk : Kept o₀ s) :
    Kept o₀ (dropSpare k high g s) := by
  unfold dropSpare
  try dsimp only
  repeat' first
    | with_reducible assumption | with_reducible apply modSeam_core | with_reducible apply getD_core | simp only [kept_mk, kept_fold]
    | (intro _) | with_reducible rfl | split | with_reducible apply ite_core

theorem withdraw_core {o₀ : State} (item : Nat) (die : Nat) (obj : Nat) (s : State) (hk : Kept o₀ s) :
    Kept o₀ (withdraw item die obj s) := by
  unfold withdraw
  try dsimp only
  repeat' first
    | with_reducible assumption | with_reducible exact trivial | with_reducible apply dropSpare_core
    | with_reducible apply failHearth_core | with_reducible apply withdrawEngine_core | with_reducible apply repairEntry_core
    | with_reducible apply recordFault_core | with_reducible apply modHall_core | with_reducible apply raiseLead_core
    | with_reducible apply draw_core | simp only [kept_mk, kept_fold] | (intro _) | with_reducible rfl | split
    | with_reducible apply ite_answer_core | with_reducible apply ite_done_core | with_reducible apply ite_core
    | refine of_pair (by with_reducible assumption) ?_ | refine of_triple (by with_reducible assumption) ?_
    | refine of_some (by with_reducible assumption) ?_ | refine of_somep (by with_reducible assumption) ?_
    | refine of_next (by with_reducible assumption) ?_ | refine of_inl (by with_reducible assumption) ?_

theorem testedCount_core {o₀ : State} (item m : Nat) (s : State) (hk : Kept o₀ s) :
    Kept o₀ (testedCount item m s).2 := by
  unfold testedCount
  try dsimp only
  repeat' first
    | with_reducible assumption | with_reducible apply draw_core | (intro _) | with_reducible rfl | split
    | refine of_pair (by with_reducible assumption) ?_ | refine of_some (by with_reducible assumption) ?_
    | refine of_next (by with_reducible assumption) ?_ | refine of_inl (by with_reducible assumption) ?_

theorem runSelftest_core {o₀ : State} (item : Nat) (m : Nat) (failed : List (Nat × Nat)) (s : State) (hk : Kept o₀ s) :
    Kept o₀ (runSelftest item m failed s).2.2 := by
  unfold runSelftest
  try dsimp only
  repeat' first
    | with_reducible assumption | with_reducible exact trivial | with_reducible apply testedCount_core
    | with_reducible apply withdraw_core | with_reducible apply advertise_core | with_reducible apply foldl_core
    | with_reducible apply foldl_kept2 | with_reducible apply foldl_kept3 | simp only [kept_mk, kept_fold] | (intro _)
    | with_reducible rfl | split | with_reducible apply ite_answer_core | with_reducible apply ite_done_core
    | with_reducible apply ite_core | refine of_pair (by with_reducible assumption) ?_
    | refine of_triple (by with_reducible assumption) ?_ | refine of_some (by with_reducible assumption) ?_
    | refine of_somep (by with_reducible assumption) ?_ | refine of_next (by with_reducible assumption) ?_
    | refine of_inl (by with_reducible assumption) ?_

theorem execSelftestPeriod_core {o₀ : State} (item : Nat) (failed : List (Nat × Nat)) (s : State) (hk : Kept o₀ s) :
    KeptAnswer o₀ (execSelftestPeriod item failed s) := by
  unfold execSelftestPeriod
  try dsimp only
  repeat' first
    | with_reducible assumption | with_reducible exact trivial | with_reducible apply runSelftest_core
    | with_reducible apply modDarn_core | with_reducible apply guard_core | with_reducible apply getD_core
    | simp only [kept_mk, kept_fold] | (intro _) | with_reducible rfl | split | with_reducible apply ite_answer_core
    | with_reducible apply ite_done_core | with_reducible apply ite_core | refine of_pair (by with_reducible assumption) ?_
    | refine of_triple (by with_reducible assumption) ?_ | refine of_some (by with_reducible assumption) ?_
    | refine of_somep (by with_reducible assumption) ?_ | refine of_next (by with_reducible assumption) ?_
    | refine of_inl (by with_reducible assumption) ?_

theorem execSelftestConfig_core {o₀ : State} (q : Request) (s : State) (hk : Kept o₀ s) :
    KeptAnswer o₀ (execSelftestConfig q s) := by
  unfold execSelftestConfig
  try dsimp only
  repeat' first
    | with_reducible assumption | with_reducible apply next_core | with_reducible apply refused_core | with_reducible apply ok_core
    | with_reducible apply runCommand_core | with_reducible apply withChecks_core | with_reducible apply modDarn_core
    | with_reducible apply getD_core | simp only [kept_mk, kept_fold] | (intro _) | with_reducible rfl

theorem execSelftestRun_core {o₀ : State} (q : Request) (failed : List (Nat × Nat)) (s : State) (hk : Kept o₀ s) :
    KeptAnswer o₀ (execSelftestRun q failed s) := by
  unfold execSelftestRun
  try dsimp only
  repeat' first
    | with_reducible assumption | with_reducible apply next_core | with_reducible apply refused_core | with_reducible apply ok_core
    | with_reducible apply reply_core | with_reducible apply runCommand_core | with_reducible apply withChecks_core
    | with_reducible apply runSelftest_core | simp only [kept_mk, kept_fold] | (intro _) | with_reducible rfl | split
    | with_reducible apply ite_answer_core | with_reducible apply ite_done_core | with_reducible apply ite_core

/-! ## Machine/Reset.lean -/

theorem resetState_base {s : State} : (resetState s).pending = s.pending ∧ (resetState s).ns = s.ns := ⟨rfl, rfl⟩

theorem resetState_events {s : State} : (resetState s).ev.queues = [] ∧ (resetState s).ev.log = [] := ⟨rfl, rfl⟩

theorem cutStore_core {o₀ : State} (s : State) (hk : Kept o₀ s) :
    Kept o₀ (cutStore s).2 := by
  unfold cutStore
  try dsimp only
  repeat' first
    | with_reducible assumption | with_reducible exact trivial | with_reducible apply commitPages_core
    | with_reducible apply applyStored_core | with_reducible apply applyLive_core | with_reducible apply draw_core
    | simp only [kept_mk, kept_fold] | (intro _) | with_reducible rfl | split | with_reducible apply ite_answer_core
    | with_reducible apply ite_done_core | with_reducible apply ite_core | refine of_pair (by with_reducible assumption) ?_
    | refine of_triple (by with_reducible assumption) ?_ | refine of_some (by with_reducible assumption) ?_
    | refine of_somep (by with_reducible assumption) ?_ | refine of_next (by with_reducible assumption) ?_
    | refine of_inl (by with_reducible assumption) ?_

theorem warmState_core {o₀ : State} (b : Option Nat) (s : State) (hk : Kept o₀ s) :
    Kept o₀ (warmState b s) := by
  have h := resetState_base (s := s)
  rw [kept_iff] at hk ⊢
  exact ⟨h.1.trans hk.1, h.2.trans hk.2.1, hk.2.2.1, hk.2.2.2.1, hk.2.2.2.2.1, hk.2.2.2.2.2.1, fun _ => EventsBounded.empty⟩

theorem warmReset_core {o₀ : State} (b : Option Nat) (s : State) (hk : Kept o₀ s) :
    Kept o₀ (warmReset b s) := by
  unfold warmReset
  try dsimp only
  repeat' first
    | with_reducible assumption | with_reducible apply warmState_core | simp only [kept_mk, kept_fold] | with_reducible rfl | split
    | with_reducible apply ite_core | refine of_pair (by with_reducible assumption) ?_ | refine of_some (by with_reducible assumption) ?_
    | refine of_next (by with_reducible assumption) ?_ | refine of_inl (by with_reducible assumption) ?_

theorem thermalReset_core {o₀ : State} (zone : Nat) (s : State) (hk : Kept o₀ s) :
    Kept o₀ (thermalReset zone s) := by
  unfold thermalReset
  try dsimp only
  repeat' first
    | with_reducible assumption | with_reducible exact trivial | with_reducible apply some_core | with_reducible apply none_core
    | with_reducible apply somep_core | with_reducible apply nonep_core | with_reducible apply warmState_core
    | simp only [kept_mk, kept_fold] | (intro _) | with_reducible rfl | split | with_reducible apply ite_answer_core
    | with_reducible apply ite_done_core | with_reducible apply ite_core | refine of_pair (by with_reducible assumption) ?_
    | refine of_triple (by with_reducible assumption) ?_ | refine of_some (by with_reducible assumption) ?_
    | refine of_somep (by with_reducible assumption) ?_ | refine of_next (by with_reducible assumption) ?_
    | refine of_inl (by with_reducible assumption) ?_

theorem releaseReset_core {o₀ : State} (s : State) (hk : Kept o₀ s) :
    Kept o₀ (releaseReset s) := by
  unfold releaseReset
  try dsimp only
  repeat' first
    | with_reducible assumption | with_reducible exact trivial | simp only [kept_mk, kept_fold] | (intro _) | with_reducible rfl
    | split | with_reducible apply ite_answer_core | with_reducible apply ite_done_core | with_reducible apply ite_core
    | refine of_pair (by with_reducible assumption) ?_ | refine of_triple (by with_reducible assumption) ?_
    | refine of_some (by with_reducible assumption) ?_ | refine of_somep (by with_reducible assumption) ?_
    | refine of_next (by with_reducible assumption) ?_ | refine of_inl (by with_reducible assumption) ?_

theorem coldState_core {o₀ : State} (s : State) (hk : Kept o₀ s) :
    Kept o₀ (coldState s) := by
  have h := resetState_base (s := s)
  rw [kept_iff] at hk ⊢
  exact ⟨h.1.trans hk.1, h.2.trans hk.2.1, hk.2.2.1, hk.2.2.2.1, hk.2.2.2.2.1, hk.2.2.2.2.2.1, fun _ => EventsBounded.empty⟩

theorem execWarmReset_core {o₀ : State} (s : State) (hk : Kept o₀ s) :
    KeptAnswer o₀ (execWarmReset s) := by
  unfold execWarmReset
  try dsimp only
  repeat' first
    | with_reducible assumption | with_reducible apply next_core | with_reducible apply refused_core | with_reducible apply warmState_core
    | with_reducible apply warmReset_core | with_reducible rfl | split | with_reducible apply ite_answer_core
    | with_reducible apply ite_core

theorem execResetNAsserted_core {o₀ : State} (s : State) (hk : Kept o₀ s) :
    KeptAnswer o₀ (execResetNAsserted s) := by
  unfold execResetNAsserted
  try dsimp only
  repeat' first
    | with_reducible assumption | with_reducible apply next_core | with_reducible apply refused_core | with_reducible apply warmReset_core
    | with_reducible rfl

theorem execPcieReset_core {o₀ : State} (s : State) (hk : Kept o₀ s) :
    KeptAnswer o₀ (execPcieReset s) := by
  unfold execPcieReset
  try dsimp only
  repeat' first
    | with_reducible assumption | with_reducible exact trivial | with_reducible apply next_core | with_reducible apply refused_core
    | with_reducible apply draw_core | simp only [kept_mk, kept_fold] | (intro _) | with_reducible rfl | split
    | with_reducible apply ite_answer_core | with_reducible apply ite_done_core | with_reducible apply ite_core
    | refine of_pair (by with_reducible assumption) ?_ | refine of_triple (by with_reducible assumption) ?_
    | refine of_some (by with_reducible assumption) ?_ | refine of_somep (by with_reducible assumption) ?_
    | refine of_next (by with_reducible assumption) ?_ | refine of_inl (by with_reducible assumption) ?_

theorem execRailOutOfRange_core {o₀ : State} (tenthMv : List Nat) (s : State) (hk : Kept o₀ s) :
    KeptAnswer o₀ (execRailOutOfRange tenthMv s) := by
  unfold execRailOutOfRange
  generalize railsOut s tenthMv = rails
  refine ite_answer_core trivial (ite_answer_core hk (next_core ?_))
  exact coldState_core { s with porch := _ } hk

theorem execPowerOnReset_core {o₀ : State} (s : State) (hk : Kept o₀ s) :
    KeptAnswer o₀ (execPowerOnReset s) := by
  unfold execPowerOnReset
  try dsimp only
  repeat' first
    | with_reducible assumption | with_reducible apply next_core | with_reducible apply refused_core | with_reducible apply coldState_core
    | simp only [kept_mk, kept_fold] | with_reducible rfl

/-! ## Machine/Thermal.lean -/

theorem modZone_core {o₀ : State} (d : Nat) (g : Zone → Zone) (s : State) (hk : Kept o₀ s) :
    Kept o₀ (modZone d g s) := by
  unfold modZone
  try dsimp only
  repeat' first
    | with_reducible assumption | simp only [kept_mk, kept_fold] | with_reducible rfl

theorem settleBuckets_core {o₀ : State} (h : Nat) (s : State) (hk : Kept o₀ s) :
    Kept o₀ (settleBuckets h s) := by
  unfold settleBuckets
  try dsimp only
  repeat' first
    | with_reducible assumption | with_reducible apply foldl_core | with_reducible apply foldl_kept2 | with_reducible apply foldl_kept3
    | simp only [kept_mk, kept_fold] | (intro _) | with_reducible rfl

theorem setLevel_core {o₀ : State} (d : Nat) (new : Nat) (s : State) (hk : Kept o₀ s) :
    Kept o₀ (setLevel d new s) := by
  unfold setLevel
  try dsimp only
  repeat' first
    | with_reducible assumption | with_reducible exact trivial | with_reducible apply some_core | with_reducible apply none_core
    | with_reducible apply somep_core | with_reducible apply nonep_core | with_reducible apply settleBuckets_core
    | with_reducible apply modZone_core | with_reducible apply thermalReset_core | with_reducible apply raise_core
    | with_reducible apply getD_core | simp only [kept_mk, kept_fold] | (intro _) | with_reducible rfl | split
    | with_reducible apply ite_answer_core | with_reducible apply ite_done_core | with_reducible apply ite_core
    | refine of_pair (by with_reducible assumption) ?_ | refine of_triple (by with_reducible assumption) ?_
    | refine of_some (by with_reducible assumption) ?_ | refine of_somep (by with_reducible assumption) ?_
    | refine of_next (by with_reducible assumption) ?_ | refine of_inl (by with_reducible assumption) ?_

theorem ignoreSensor_core {o₀ : State} (d sensor why : Nat) (s : State) (hk : Kept o₀ s) :
    Kept o₀ (ignoreSensor d sensor why s) := by
  unfold ignoreSensor
  try dsimp only
  repeat' first
    | with_reducible assumption | with_reducible apply raise_core | with_reducible apply modZone_core | simp only [kept_mk, kept_fold]
    | (intro _) | with_reducible rfl

theorem checkSensor_core {o₀ : State} (d sensor : Nat) (r : Reading) (s : State) (hk : Kept o₀ s) :
    Kept o₀ (checkSensor d sensor r s) := by
  unfold checkSensor
  try dsimp only
  repeat' first
    | with_reducible assumption | with_reducible apply ignoreSensor_core | with_reducible rfl | split | with_reducible apply ite_core
    | refine of_pair (by with_reducible assumption) ?_ | refine of_some (by with_reducible assumption) ?_
    | refine of_next (by with_reducible assumption) ?_ | refine of_inl (by with_reducible assumption) ?_

theorem sampleZone_core {o₀ : State} (d : Nat) (rs : List Reading) (s : State) (hk : Kept o₀ s) :
    Kept o₀ (sampleZone d rs s) := by
  unfold sampleZone
  try dsimp only
  repeat' first
    | with_reducible assumption | with_reducible apply checkSensor_core | with_reducible apply modZone_core
    | with_reducible apply setLevel_core | with_reducible apply getD_core | with_reducible apply foldl_core
    | with_reducible apply foldl_kept2 | with_reducible apply foldl_kept3 | simp only [kept_mk, kept_fold] | (intro _) | with_reducible rfl
    | split | with_reducible apply ite_core | refine of_pair (by with_reducible assumption) ?_
    | refine of_some (by with_reducible assumption) ?_ | refine of_next (by with_reducible assumption) ?_
    | refine of_inl (by with_reducible assumption) ?_

theorem samplePic_core {o₀ : State} (d : Nat) (was : Bool) (s : State) (hk : Kept o₀ s) :
    Kept o₀ (samplePic d was s) := by
  unfold samplePic
  try dsimp only
  repeat' first
    | with_reducible assumption | with_reducible exact trivial | with_reducible apply some_core | with_reducible apply none_core
    | with_reducible apply somep_core | with_reducible apply nonep_core | with_reducible apply correctHeaters_core
    | with_reducible apply modWindow_core | simp only [kept_mk, kept_fold] | (intro _) | with_reducible rfl | split
    | with_reducible apply ite_answer_core | with_reducible apply ite_done_core | with_reducible apply ite_core
    | refine of_pair (by with_reducible assumption) ?_ | refine of_triple (by with_reducible assumption) ?_
    | refine of_some (by with_reducible assumption) ?_ | refine of_somep (by with_reducible assumption) ?_
    | refine of_next (by with_reducible assumption) ?_ | refine of_inl (by with_reducible assumption) ?_

theorem execThermalSample_core {o₀ : State} (samples : List (Nat × List Reading)) (s : State) (hk : Kept o₀ s) :
    KeptAnswer o₀ (execThermalSample samples s) := by
  unfold execThermalSample
  try dsimp only
  repeat' first
    | with_reducible assumption | with_reducible exact trivial | with_reducible apply samplePic_core
    | with_reducible apply sampleZone_core | with_reducible apply guard_core | with_reducible apply foldl_core
    | with_reducible apply foldl_kept2 | with_reducible apply foldl_kept3 | simp only [kept_mk, kept_fold] | (intro _)
    | with_reducible rfl | split | with_reducible apply ite_answer_core | with_reducible apply ite_done_core
    | with_reducible apply ite_core | refine of_pair (by with_reducible assumption) ?_
    | refine of_triple (by with_reducible assumption) ?_ | refine of_some (by with_reducible assumption) ?_
    | refine of_somep (by with_reducible assumption) ?_ | refine of_next (by with_reducible assumption) ?_
    | refine of_inl (by with_reducible assumption) ?_

theorem settleHolds_core {o₀ : State} (s : State) (hk : Kept o₀ s) :
    Kept o₀ (settleHolds s) := by
  unfold settleHolds
  try dsimp only
  repeat' first
    | with_reducible assumption | with_reducible apply releaseReset_core | simp only [kept_mk, kept_fold] | (intro _) | with_reducible rfl
    | split | with_reducible apply ite_core

theorem execThermalDwellExpired_core {o₀ : State} (zone : Nat) (s : State) (hk : Kept o₀ s) :
    KeptAnswer o₀ (execThermalDwellExpired zone s) := by
  unfold execThermalDwellExpired
  try dsimp only
  repeat' first
    | with_reducible assumption | with_reducible apply next_core | with_reducible apply refused_core | with_reducible apply refuse_core
    | with_reducible apply setLevel_core | with_reducible apply modZone_core | with_reducible apply settleHolds_core | (intro _)
    | with_reducible rfl | split | with_reducible apply ite_answer_core | with_reducible apply ite_done_core | with_reducible apply ite_core
    | refine of_pair (by with_reducible assumption) ?_ | refine of_some (by with_reducible assumption) ?_
    | refine of_next (by with_reducible assumption) ?_ | refine of_inl (by with_reducible assumption) ?_

theorem execThermalTrip_core {o₀ : State} (zone : Nat) (sensor : Nat) (reading : Int) (s : State) (hk : Kept o₀ s) :
    KeptAnswer o₀ (execThermalTrip zone sensor reading s) := by
  unfold execThermalTrip
  try dsimp only
  repeat' first
    | with_reducible assumption | with_reducible exact trivial | with_reducible apply some_core | with_reducible apply none_core
    | with_reducible apply somep_core | with_reducible apply nonep_core | with_reducible apply modZone_core
    | with_reducible apply thermalReset_core | with_reducible apply guard_core | simp only [kept_mk, kept_fold] | (intro _)
    | with_reducible rfl | split | with_reducible apply ite_answer_core | with_reducible apply ite_done_core
    | with_reducible apply ite_core | refine of_pair (by with_reducible assumption) ?_
    | refine of_triple (by with_reducible assumption) ?_ | refine of_some (by with_reducible assumption) ?_
    | refine of_somep (by with_reducible assumption) ?_ | refine of_next (by with_reducible assumption) ?_
    | refine of_inl (by with_reducible assumption) ?_

theorem modPower_core {o₀ : State} (g : Power → Power) (s : State) (hk : Kept o₀ s) :
    Kept o₀ (modPower g s) := by
  unfold modPower
  try dsimp only
  repeat' first
    | with_reducible assumption | simp only [kept_mk, kept_fold] | with_reducible rfl

theorem execMangleLevelStep_core {o₀ : State} (mangle : Nat) (s : State) (hk : Kept o₀ s) :
    KeptAnswer o₀ (execMangleLevelStep mangle s) := by
  unfold execMangleLevelStep
  try dsimp only
  repeat' first
    | with_reducible assumption | with_reducible exact trivial | with_reducible apply some_core | with_reducible apply none_core
    | with_reducible apply somep_core | with_reducible apply nonep_core | with_reducible apply modPower_core
    | with_reducible apply guard_core | with_reducible apply raise_core | with_reducible apply getD_core
    | simp only [kept_mk, kept_fold] | (intro _) | with_reducible rfl | split | with_reducible apply ite_answer_core
    | with_reducible apply ite_done_core | with_reducible apply ite_core | refine of_pair (by with_reducible assumption) ?_
    | refine of_triple (by with_reducible assumption) ?_ | refine of_some (by with_reducible assumption) ?_
    | refine of_somep (by with_reducible assumption) ?_ | refine of_next (by with_reducible assumption) ?_
    | refine of_inl (by with_reducible assumption) ?_

theorem execPowerCapWindow_core {o₀ : State} (average : Nat) (s : State) (hk : Kept o₀ s) :
    KeptAnswer o₀ (execPowerCapWindow average s) := by
  unfold execPowerCapWindow
  try dsimp only
  repeat' first
    | with_reducible assumption | with_reducible exact trivial | with_reducible apply next_core | with_reducible apply refused_core
    | with_reducible apply some_core | with_reducible apply none_core | with_reducible apply somep_core
    | with_reducible apply nonep_core | with_reducible apply modPower_core | with_reducible apply raiseLimited_core
    | with_reducible apply raiseLead_core | simp only [kept_mk, kept_fold] | (intro _) | with_reducible rfl | split
    | with_reducible apply ite_answer_core | with_reducible apply ite_done_core | with_reducible apply ite_core
    | refine of_pair (by with_reducible assumption) ?_ | refine of_triple (by with_reducible assumption) ?_
    | refine of_some (by with_reducible assumption) ?_ | refine of_somep (by with_reducible assumption) ?_
    | refine of_next (by with_reducible assumption) ?_ | refine of_inl (by with_reducible assumption) ?_

theorem modRail_core {o₀ : State} (k : Nat) (g : Rail → Rail) (s : State) (hk : Kept o₀ s) :
    Kept o₀ (modRail k g s) := by
  unfold modRail
  try dsimp only
  repeat' first
    | with_reducible assumption | with_reducible apply modPower_core | simp only [kept_mk, kept_fold] | (intro _) | with_reducible rfl

theorem writeRail_core {o₀ : State} (k mv : Nat) (s : State) (hk : Kept o₀ s) :
    Kept o₀ (writeRail k mv s) := by
  unfold writeRail
  try dsimp only
  repeat' first
    | with_reducible assumption | with_reducible apply emit_core | with_reducible apply modRail_core | simp only [kept_mk, kept_fold]
    | (intro _) | with_reducible rfl | split | with_reducible apply ite_core

theorem noteMargin_core {o₀ : State} (k : Nat) (margin : Int) (s : State) (hk : Kept o₀ s) :
    Kept o₀ (noteMargin k margin s) := by
  unfold noteMargin
  try dsimp only
  repeat' first
    | with_reducible assumption | with_reducible apply modRail_core | simp only [kept_mk, kept_fold] | (intro _) | with_reducible rfl

theorem execAvsStep_core {o₀ : State} (rail : Nat) (up : Bool) (margin : Int) (s : State) (hk : Kept o₀ s) :
    KeptAnswer o₀ (execAvsStep rail up margin s) := by
  unfold execAvsStep
  try dsimp only
  repeat' first
    | with_reducible assumption | with_reducible apply next_core | with_reducible apply refused_core | with_reducible apply refuse_core
    | with_reducible apply noteMargin_core | with_reducible apply raiseLimited_core | with_reducible apply raise_core
    | with_reducible apply writeRail_core | with_reducible apply modRail_core | simp only [kept_mk, kept_fold] | (intro _)
    | with_reducible rfl | split | with_reducible apply ite_answer_core | with_reducible apply ite_done_core | with_reducible apply ite_core

theorem execHallMargin_core {o₀ : State} (hall : Nat) (margin : Int) (s : State) (hk : Kept o₀ s) :
    KeptAnswer o₀ (execHallMargin hall margin s) := by
  unfold execHallMargin
  try dsimp only
  repeat' first
    | with_reducible assumption | with_reducible apply next_core | with_reducible apply refused_core | with_reducible apply guard_core
    | with_reducible apply raise_core | with_reducible apply modRail_core | with_reducible apply writeRail_core
    | with_reducible apply noteMargin_core | simp only [kept_mk, kept_fold] | (intro _) | with_reducible rfl

theorem modGuard_core {o₀ : State} (m : Nat) (g : Guard → Guard) (s : State) (hk : Kept o₀ s) :
    Kept o₀ (modGuard m g s) := by
  unfold modGuard
  try dsimp only
  repeat' first
    | with_reducible assumption | with_reducible apply modPower_core | with_reducible apply getD_core | simp only [kept_mk, kept_fold]
    | (intro _) | with_reducible rfl

theorem pushVoltage_core {o₀ : State} (m : Nat) (s : State) (hk : Kept o₀ s) :
    Kept o₀ (pushVoltage m s) := by
  unfold pushVoltage
  try dsimp only
  repeat' first
    | with_reducible assumption | with_reducible exact trivial | with_reducible apply modGuard_core
    | with_reducible apply writeRail_core | with_reducible apply getD_core | simp only [kept_mk, kept_fold] | (intro _)
    | with_reducible rfl | split | with_reducible apply ite_answer_core | with_reducible apply ite_done_core
    | with_reducible apply ite_core | refine of_pair (by with_reducible assumption) ?_
    | refine of_triple (by with_reducible assumption) ?_ | refine of_some (by with_reducible assumption) ?_
    | refine of_somep (by with_reducible assumption) ?_ | refine of_next (by with_reducible assumption) ?_
    | refine of_inl (by with_reducible assumption) ?_

theorem execFrequencyGuard_core {o₀ : State} (mangle : Nat) (s : State) (hk : Kept o₀ s) :
    KeptAnswer o₀ (execFrequencyGuard mangle s) := by
  unfold execFrequencyGuard
  try dsimp only
  repeat' first
    | with_reducible assumption | with_reducible exact trivial | with_reducible apply modGuard_core
    | with_reducible apply guard_core | with_reducible apply getD_core | simp only [kept_mk, kept_fold] | (intro _)
    | with_reducible rfl | split | with_reducible apply ite_answer_core | with_reducible apply ite_done_core
    | with_reducible apply ite_core | refine of_pair (by with_reducible assumption) ?_
    | refine of_triple (by with_reducible assumption) ?_ | refine of_some (by with_reducible assumption) ?_
    | refine of_somep (by with_reducible assumption) ?_ | refine of_next (by with_reducible assumption) ?_
    | refine of_inl (by with_reducible assumption) ?_

theorem execFrequencyGuardRelease_core {o₀ : State} (mangle : Nat) (s : State) (hk : Kept o₀ s) :
    KeptAnswer o₀ (execFrequencyGuardRelease mangle s) := by
  unfold execFrequencyGuardRelease
  try dsimp only
  repeat' first
    | with_reducible assumption | with_reducible exact trivial | with_reducible apply some_core | with_reducible apply none_core
    | with_reducible apply somep_core | with_reducible apply nonep_core | with_reducible apply pushVoltage_core
    | with_reducible apply modGuard_core | with_reducible apply guard_core | with_reducible apply getD_core
    | simp only [kept_mk, kept_fold] | (intro _) | with_reducible rfl | split | with_reducible apply ite_answer_core
    | with_reducible apply ite_done_core | with_reducible apply ite_core | refine of_pair (by with_reducible assumption) ?_
    | refine of_triple (by with_reducible assumption) ?_ | refine of_some (by with_reducible assumption) ?_
    | refine of_somep (by with_reducible assumption) ?_ | refine of_next (by with_reducible assumption) ?_
    | refine of_inl (by with_reducible assumption) ?_

theorem execAvsBusPoll_core {o₀ : State} (k : Nat) (response : Option (Nat × Nat)) (s : State) (hk : Kept o₀ s) :
    KeptAnswer o₀ (execAvsBusPoll k response s) := by
  unfold execAvsBusPoll
  try dsimp only
  repeat' first
    | with_reducible assumption | with_reducible exact trivial | with_reducible apply next_core | with_reducible apply refused_core
    | with_reducible apply some_core | with_reducible apply none_core | with_reducible apply somep_core
    | with_reducible apply nonep_core | with_reducible apply modRail_core | with_reducible apply raiseLead_core
    | simp only [kept_mk, kept_fold] | (intro _) | with_reducible rfl | split | with_reducible apply ite_answer_core
    | with_reducible apply ite_done_core | with_reducible apply ite_core | refine of_pair (by with_reducible assumption) ?_
    | refine of_triple (by with_reducible assumption) ?_ | refine of_some (by with_reducible assumption) ?_
    | refine of_somep (by with_reducible assumption) ?_ | refine of_next (by with_reducible assumption) ?_
    | refine of_inl (by with_reducible assumption) ?_

theorem execPowerRead_core {o₀ : State} (q : Request) (analog : List (Nat × Nat)) (s : State) (hk : Kept o₀ s) :
    KeptAnswer o₀ (execPowerRead q analog s) := by
  unfold execPowerRead
  try dsimp only
  repeat' first
    | with_reducible assumption | with_reducible apply next_core | with_reducible apply refused_core | with_reducible apply ok_core
    | with_reducible apply runCommand_core | with_reducible apply getD_core | (intro _) | with_reducible rfl

theorem execThermalRead_core {o₀ : State} (q : Request) (s : State) (hk : Kept o₀ s) :
    KeptAnswer o₀ (execThermalRead q s) := by
  unfold execThermalRead
  try dsimp only
  repeat' first
    | with_reducible assumption | with_reducible apply next_core | with_reducible apply refused_core | with_reducible apply ok_core
    | with_reducible apply runCommand_core | (intro _) | with_reducible rfl

theorem execThermalLimitsSet_core {o₀ : State} (q : Request) (s : State) (hk : Kept o₀ s) :
    KeptAnswer o₀ (execThermalLimitsSet q s) := by
  unfold execThermalLimitsSet
  try dsimp only
  repeat' first
    | with_reducible assumption | with_reducible apply next_core | with_reducible apply refused_core | with_reducible apply reply_core
    | with_reducible apply wait_core | with_reducible apply runCommand_core | with_reducible apply withChecks_core
    | with_reducible apply modPower_core | with_reducible apply nvQueue_core | simp only [kept_mk, kept_fold] | (intro _)
    | with_reducible rfl | split | with_reducible apply ite_answer_core | with_reducible apply ite_core

theorem execPowerCapSet_core {o₀ : State} (q : Request) (s : State) (hk : Kept o₀ s) :
    KeptAnswer o₀ (execPowerCapSet q s) := by
  unfold execPowerCapSet
  try dsimp only
  repeat' first
    | with_reducible assumption | with_reducible apply next_core | with_reducible apply refused_core | with_reducible apply ok_core
    | with_reducible apply runCommand_core | with_reducible apply withChecks_core | with_reducible apply modPower_core
    | simp only [kept_mk, kept_fold] | (intro _) | with_reducible rfl

theorem lowestMargin_core {o₀ : State} (k : Nat) (s : State) (hk : Kept o₀ s) :
    Kept o₀ (lowestMargin k s).2 := by
  unfold lowestMargin
  try dsimp only
  repeat' first
    | with_reducible assumption | with_reducible apply draw_core | with_reducible apply foldl_core | with_reducible apply foldl_kept2
    | with_reducible apply foldl_kept3 | (intro _) | with_reducible rfl | split | refine of_pair (by with_reducible assumption) ?_
    | refine of_some (by with_reducible assumption) ?_ | refine of_next (by with_reducible assumption) ?_
    | refine of_inl (by with_reducible assumption) ?_

theorem hallLoop_core {o₀ : State} (h : Nat) (s : State) (hk : Kept o₀ s) :
    Kept o₀ (hallLoop h s).2 := by
  unfold hallLoop
  try dsimp only
  repeat' first
    | with_reducible assumption | with_reducible apply lowestMargin_core | (intro _) | with_reducible rfl

theorem mangleLoop_core {o₀ : State} (m : Nat) (s : State) (hk : Kept o₀ s) :
    Kept o₀ (mangleLoop m s).2 := by
  unfold mangleLoop
  try dsimp only
  repeat' first
    | with_reducible assumption | with_reducible apply lowestMargin_core | with_reducible apply getD_core | simp only [kept_mk, kept_fold]
    | (intro _) | with_reducible rfl

theorem execLoopStatus_core {o₀ : State} (q : Request) (s : State) (hk : Kept o₀ s) :
    KeptAnswer o₀ (execLoopStatus q s) := by
  unfold execLoopStatus
  try dsimp only
  repeat' first
    | with_reducible assumption | with_reducible apply next_core | with_reducible apply refused_core | with_reducible apply ok_core
    | with_reducible apply runCommand_core | with_reducible apply hallLoop_core | with_reducible apply mangleLoop_core
    | with_reducible apply foldl_core | with_reducible apply foldl_kept2 | with_reducible apply foldl_kept3 | (intro _) | with_reducible rfl

end Sys2Proof.Machine
end

