-- ==== Sys2Proof/Laws/KeptStart.lean ====
section
/-!
SUPPORT. What security, the outside interfaces, start-up and BAR0 leave alone.
-/
namespace Sys2Proof.Machine

/-! ## Machine/Security.lean -/

theorem setTrng_core {o₀ : State} (standby : Bool) (t : Trng) (s : State) (hk : Kept o₀ s) :
    Kept o₀ (setTrng standby t s) := by
  unfold setTrng
  try dsimp only
  repeat' first
    | with_reducible assumption | with_reducible exact trivial | with_reducible apply modBoot_core | simp only [kept_mk, kept_fold]
    | (intro _) | with_reducible rfl | split | with_reducible apply ite_answer_core | with_reducible apply ite_done_core
    | with_reducible apply ite_core | refine of_pair (by with_reducible assumption) ?_
    | refine of_triple (by with_reducible assumption) ?_ | refine of_some (by with_reducible assumption) ?_
    | refine of_somep (by with_reducible assumption) ?_ | refine of_next (by with_reducible assumption) ?_
    | refine of_inl (by with_reducible assumption) ?_

theorem execTrngRunEnd_core {o₀ : State} (standby : Bool) (pass : Bool) (s : State) (hk : Kept o₀ s) :
    KeptAnswer o₀ (execTrngRunEnd standby pass s) := by
  unfold execTrngRunEnd
  try dsimp only
  repeat' first
    | with_reducible assumption | with_reducible exact trivial | with_reducible apply next_core | with_reducible apply refused_core
    | with_reducible apply setTrng_core | simp only [kept_mk, kept_fold] | (intro _) | with_reducible rfl | split
    | with_reducible apply ite_answer_core | with_reducible apply ite_done_core | with_reducible apply ite_core
    | refine of_pair (by with_reducible assumption) ?_ | refine of_triple (by with_reducible assumption) ?_
    | refine of_some (by with_reducible assumption) ?_ | refine of_somep (by with_reducible assumption) ?_
    | refine of_next (by with_reducible assumption) ?_ | refine of_inl (by with_reducible assumption) ?_

theorem execTrngRetest_core {o₀ : State} (standby : Bool) (s : State) (hk : Kept o₀ s) :
    KeptAnswer o₀ (execTrngRetest standby s) := by
  unfold execTrngRetest
  try dsimp only
  repeat' first
    | with_reducible assumption | with_reducible exact trivial | with_reducible apply next_core | with_reducible apply refused_core
    | with_reducible apply setTrng_core | with_reducible apply raiseLead_core | simp only [kept_mk, kept_fold] | (intro _)
    | with_reducible rfl | split | with_reducible apply ite_answer_core | with_reducible apply ite_done_core
    | with_reducible apply ite_core | refine of_pair (by with_reducible assumption) ?_
    | refine of_triple (by with_reducible assumption) ?_ | refine of_some (by with_reducible assumption) ?_
    | refine of_somep (by with_reducible assumption) ?_ | refine of_next (by with_reducible assumption) ?_
    | refine of_inl (by with_reducible assumption) ?_

theorem reseed_core {o₀ : State} (s : State) (hk : Kept o₀ s) :
    Kept o₀ (reseed s) := by
  unfold reseed
  try dsimp only
  repeat' first
    | with_reducible assumption | with_reducible exact trivial | with_reducible apply modSec_core | simp only [kept_mk, kept_fold]
    | (intro _) | with_reducible rfl | split | with_reducible apply ite_answer_core | with_reducible apply ite_done_core
    | with_reducible apply ite_core | refine of_pair (by with_reducible assumption) ?_
    | refine of_triple (by with_reducible assumption) ?_ | refine of_some (by with_reducible assumption) ?_
    | refine of_somep (by with_reducible assumption) ?_ | refine of_next (by with_reducible assumption) ?_
    | refine of_inl (by with_reducible assumption) ?_

theorem execDrbgReseed_core {o₀ : State} (s : State) (hk : Kept o₀ s) :
    KeptAnswer o₀ (execDrbgReseed s) := by
  unfold execDrbgReseed
  try dsimp only
  repeat' first
    | with_reducible assumption | with_reducible exact trivial | with_reducible apply next_core | with_reducible apply refused_core
    | with_reducible apply reseed_core | simp only [kept_mk, kept_fold] | (intro _) | with_reducible rfl | split
    | with_reducible apply ite_answer_core | with_reducible apply ite_done_core | with_reducible apply ite_core
    | refine of_pair (by with_reducible assumption) ?_ | refine of_triple (by with_reducible assumption) ?_
    | refine of_some (by with_reducible assumption) ?_ | refine of_somep (by with_reducible assumption) ?_
    | refine of_next (by with_reducible assumption) ?_ | refine of_inl (by with_reducible assumption) ?_

theorem random_core {o₀ : State} (n : Nat) (s : State) (hk : Kept o₀ s) :
    Kept o₀ (random n s).2 := by
  unfold random
  try dsimp only
  repeat' first
    | with_reducible assumption | with_reducible exact trivial | with_reducible apply reseed_core | simp only [kept_mk, kept_fold]
    | (intro _) | with_reducible rfl | split | with_reducible apply ite_answer_core | with_reducible apply ite_done_core
    | with_reducible apply ite_core | refine of_pair (by with_reducible assumption) ?_
    | refine of_triple (by with_reducible assumption) ?_ | refine of_some (by with_reducible assumption) ?_
    | refine of_somep (by with_reducible assumption) ?_ | refine of_next (by with_reducible assumption) ?_
    | refine of_inl (by with_reducible assumption) ?_

theorem execRandomRead_core {o₀ : State} (q : Request) (s : State) (hk : Kept o₀ s) :
    KeptAnswer o₀ (execRandomRead q s) := by
  unfold execRandomRead
  try dsimp only
  repeat' first
    | with_reducible assumption | with_reducible apply next_core | with_reducible apply refused_core | with_reducible apply ok_core
    | with_reducible apply runCommand_core | with_reducible apply withChecks_core | with_reducible apply random_core | (intro _)
    | with_reducible rfl

theorem execKeyGenerate_core {o₀ : State} (q : Request) (s : State) (hk : Kept o₀ s) :
    KeptAnswer o₀ (execKeyGenerate q s) := by
  unfold execKeyGenerate
  refine runCommand_core _ _ _ _ _ _ (fun c s hk => withChecks_core _ _ _ (fun s hk => ?_) hk) hk
  have hr := random_core 32 _ (random_core 2592 _ (random_core 97 _ hk))
  dsimp only
  generalize random 32 (random 2592 (random 97 s).2).2 = r at hr
  exact storeThen_core _ _ hr

theorem execDebugChallengeExpiry_core {o₀ : State} (s : State) (hk : Kept o₀ s) :
    KeptAnswer o₀ (execDebugChallengeExpiry s) := by
  unfold execDebugChallengeExpiry
  try dsimp only
  repeat' first
    | with_reducible assumption | with_reducible exact trivial | with_reducible apply next_core | with_reducible apply refused_core
    | with_reducible apply modSec_core | simp only [kept_mk, kept_fold] | (intro _) | with_reducible rfl | split
    | with_reducible apply ite_answer_core | with_reducible apply ite_done_core | with_reducible apply ite_core
    | refine of_pair (by with_reducible assumption) ?_ | refine of_triple (by with_reducible assumption) ?_
    | refine of_some (by with_reducible assumption) ?_ | refine of_somep (by with_reducible assumption) ?_
    | refine of_next (by with_reducible assumption) ?_ | refine of_inl (by with_reducible assumption) ?_

theorem debugChallenge_core {o₀ : State} (s : State) (hk : Kept o₀ s) :
    KeptDone o₀ (debugChallenge s) := by
  unfold debugChallenge
  try dsimp only
  repeat' first
    | with_reducible assumption | with_reducible apply ok_core | with_reducible apply withChecks_core | with_reducible apply random_core
    | with_reducible apply modSec_core | simp only [kept_mk, kept_fold] | (intro _) | with_reducible rfl

theorem debugSubmit_core {o₀ : State} (route : Nat) (nonce : Bytes) (s : State) (hk : Kept o₀ s) :
    KeptDone o₀ (debugSubmit route nonce s) := by
  unfold debugSubmit
  try dsimp only
  repeat' first
    | with_reducible assumption | with_reducible apply ok_core | with_reducible apply reply_core | with_reducible apply modSec_core
    | with_reducible apply raiseLead_core | simp only [kept_mk, kept_fold] | (intro _) | with_reducible rfl | split
    | with_reducible apply ite_done_core | with_reducible apply ite_core

theorem execDebugUnlock_core {o₀ : State} (q : Request) (s : State) (hk : Kept o₀ s) :
    KeptAnswer o₀ (execDebugUnlock q s) := by
  unfold execDebugUnlock
  try dsimp only
  repeat' first
    | with_reducible assumption | with_reducible exact trivial | with_reducible apply ok_core | with_reducible apply refuse_core
    | with_reducible apply reply_core | with_reducible apply wait_core | with_reducible apply some_core
    | with_reducible apply none_core | with_reducible apply somep_core | with_reducible apply nonep_core
    | with_reducible apply debugSubmit_core | with_reducible apply debugChallenge_core | with_reducible apply modSec_core
    | with_reducible apply runCommand_core | with_reducible apply withChecks_core | with_reducible apply foldl_core
    | with_reducible apply foldl_kept2 | with_reducible apply foldl_kept3 | simp only [kept_mk, kept_fold] | (intro _)
    | with_reducible rfl | split | with_reducible apply ite_answer_core | with_reducible apply ite_done_core
    | with_reducible apply ite_core | refine of_pair (by with_reducible assumption) ?_
    | refine of_triple (by with_reducible assumption) ?_ | refine of_some (by with_reducible assumption) ?_
    | refine of_somep (by with_reducible assumption) ?_ | refine of_next (by with_reducible assumption) ?_
    | refine of_inl (by with_reducible assumption) ?_

theorem modPorch_core {o₀ : State} (g : Porch → Porch) (s : State) (hk : Kept o₀ s) :
    Kept o₀ (modPorch g s) := by
  unfold modPorch
  try dsimp only
  repeat' first
    | with_reducible assumption | simp only [kept_mk, kept_fold] | with_reducible rfl

theorem raisePorchAlarm_core {o₀ : State} (s : State) (hk : Kept o₀ s) :
    Kept o₀ (raisePorchAlarm s) := by
  unfold raisePorchAlarm
  try dsimp only
  repeat' first
    | with_reducible assumption | with_reducible apply raiseLead_core | with_reducible rfl

theorem execPorchAlarm_core {o₀ : State} (monitors : Nat) (s : State) (hk : Kept o₀ s) :
    KeptAnswer o₀ (execPorchAlarm monitors s) := by
  unfold execPorchAlarm
  try dsimp only
  repeat' first
    | with_reducible assumption | with_reducible exact trivial | with_reducible apply next_core | with_reducible apply refused_core
    | with_reducible apply raisePorchAlarm_core | with_reducible apply modPorch_core | with_reducible apply count_core
    | simp only [kept_mk, kept_fold] | (intro _) | with_reducible rfl | split | with_reducible apply ite_answer_core
    | with_reducible apply ite_done_core | with_reducible apply ite_core | refine of_pair (by with_reducible assumption) ?_
    | refine of_triple (by with_reducible assumption) ?_ | refine of_some (by with_reducible assumption) ?_
    | refine of_somep (by with_reducible assumption) ?_ | refine of_next (by with_reducible assumption) ?_
    | refine of_inl (by with_reducible assumption) ?_

theorem execPorchMonitorAlarmEnd_core {o₀ : State} (monitors : Nat) (s : State) (hk : Kept o₀ s) :
    KeptAnswer o₀ (execPorchMonitorAlarmEnd monitors s) := by
  unfold execPorchMonitorAlarmEnd
  try dsimp only
  repeat' first
    | with_reducible assumption | with_reducible apply next_core | with_reducible apply refused_core | with_reducible apply modPorch_core
    | simp only [kept_mk, kept_fold] | (intro _) | with_reducible rfl

theorem execPorchSecond_core {o₀ : State} (temp : Int) (cellMv : Nat) (s : State) (hk : Kept o₀ s) :
    KeptAnswer o₀ (execPorchSecond temp cellMv s) := by
  unfold execPorchSecond
  try dsimp only
  repeat' first
    | with_reducible assumption | with_reducible apply next_core | with_reducible apply refused_core | with_reducible apply modPorch_core
    | simp only [kept_mk, kept_fold] | (intro _) | with_reducible rfl

theorem execBackupCellLost_core {o₀ : State} (s : State) (hk : Kept o₀ s) :
    KeptAnswer o₀ (execBackupCellLost s) := by
  unfold execBackupCellLost
  try dsimp only
  repeat' first
    | with_reducible assumption | with_reducible apply next_core | with_reducible apply refused_core | with_reducible apply modPorch_core
    | simp only [kept_mk, kept_fold] | (intro _) | with_reducible rfl | split | with_reducible apply ite_answer_core
    | with_reducible apply ite_core

theorem execCalendarSecond_core {o₀ : State} (s : State) (hk : Kept o₀ s) :
    KeptAnswer o₀ (execCalendarSecond s) := by
  unfold execCalendarSecond
  try dsimp only
  repeat' first
    | with_reducible assumption | with_reducible apply next_core | with_reducible apply refused_core | with_reducible apply modPorch_core
    | simp only [kept_mk, kept_fold] | (intro _) | with_reducible rfl | split | with_reducible apply ite_answer_core
    | with_reducible apply ite_core

theorem execPorchRead_core {o₀ : State} (q : Request) (s : State) (hk : Kept o₀ s) :
    KeptAnswer o₀ (execPorchRead q s) := by
  unfold execPorchRead
  try dsimp only
  repeat' first
    | with_reducible assumption | with_reducible apply next_core | with_reducible apply refused_core | with_reducible apply ok_core
    | with_reducible apply runCommand_core | (intro _) | with_reducible rfl

theorem execPorchAlarmClear_core {o₀ : State} (q : Request) (s : State) (hk : Kept o₀ s) :
    KeptAnswer o₀ (execPorchAlarmClear q s) := by
  unfold execPorchAlarmClear
  try dsimp only
  repeat' first
    | with_reducible assumption | with_reducible apply next_core | with_reducible apply refused_core | with_reducible apply reply_core
    | with_reducible apply runCommand_core | with_reducible apply withChecks_core | with_reducible apply modPorch_core
    | with_reducible apply count_core | with_reducible apply raiseLead_core | simp only [kept_mk, kept_fold] | (intro _)
    | with_reducible rfl | split | with_reducible apply ite_answer_core | with_reducible apply ite_core

theorem execFuseRead_core {o₀ : State} (q : Request) (s : State) (hk : Kept o₀ s) :
    KeptAnswer o₀ (execFuseRead q s) := by
  unfold execFuseRead
  try dsimp only
  repeat' first
    | with_reducible assumption | with_reducible apply next_core | with_reducible apply refused_core | with_reducible apply ok_core
    | with_reducible apply runCommand_core | (intro _) | with_reducible rfl | split | with_reducible apply ite_answer_core
    | with_reducible apply ite_done_core | with_reducible apply ite_core

theorem execDeedReport_core {o₀ : State} (q : Request) (s : State) (hk : Kept o₀ s) :
    KeptAnswer o₀ (execDeedReport q s) := by
  unfold execDeedReport
  try dsimp only
  repeat' first
    | with_reducible assumption | with_reducible apply next_core | with_reducible apply refused_core | with_reducible apply ok_core
    | with_reducible apply runCommand_core | with_reducible apply withChecks_core | simp only [kept_mk, kept_fold] | (intro _)
    | with_reducible rfl

/-! ## Machine/Interfaces.lean -/

theorem modPcie_core {o₀ : State} (g : Pcie → Pcie) (s : State) (hk : Kept o₀ s) :
    Kept o₀ (modPcie g s) := by
  unfold modPcie
  try dsimp only
  repeat' first
    | with_reducible assumption | simp only [kept_mk, kept_fold] | with_reducible rfl

theorem execPcieLink_core {o₀ : State} (up : Bool) (speed width : Nat) (s : State) (hk : Kept o₀ s) :
    KeptAnswer o₀ (execPcieLink up speed width s) := by
  unfold execPcieLink
  try dsimp only
  repeat' first
    | with_reducible assumption | with_reducible apply next_core | with_reducible apply refused_core | with_reducible apply refuse_core
    | with_reducible apply raiseLead_core | with_reducible apply modPcie_core | simp only [kept_mk, kept_fold] | (intro _)
    | with_reducible rfl | split | with_reducible apply ite_answer_core | with_reducible apply ite_done_core | with_reducible apply ite_core

theorem configRead_core {o₀ : State} (off : Nat) (s : State) (hk : Kept o₀ s) :
    Kept o₀ (configRead off s).2 := by
  unfold configRead
  try dsimp only
  repeat' first
    | with_reducible assumption | with_reducible apply draw_core | with_reducible rfl | split
    | refine of_pair (by with_reducible assumption) ?_ | refine of_some (by with_reducible assumption) ?_
    | refine of_next (by with_reducible assumption) ?_ | refine of_inl (by with_reducible assumption) ?_

theorem configWrite_core {o₀ : State} (off value : Nat) (s : State) (hk : Kept o₀ s) :
    Kept o₀ (configWrite off value s) := by
  unfold configWrite; dsimp only; split
  · rw [kept_mk]; exact modPcie_core _ _ hk
  · exact modPcie_core _ _ hk
  · exact modPcie_core _ _ hk
  · exact hk

theorem execPcieConfigurationRequest_core {o₀ : State} (write : Bool) (off value : Nat) (s : State) (hk : Kept o₀ s) :
    KeptAnswer o₀ (execPcieConfigurationRequest write off value s) := by
  unfold execPcieConfigurationRequest
  try dsimp only
  repeat' first
    | with_reducible assumption | with_reducible apply next_core | with_reducible apply refused_core | with_reducible apply refuse_core
    | with_reducible apply emit_core | with_reducible apply configWrite_core | with_reducible apply configRead_core | with_reducible rfl
    | split | with_reducible apply ite_answer_core | with_reducible apply ite_done_core | with_reducible apply ite_core

theorem modMgmt_core {o₀ : State} (p : Nat) (g : MgmtPort → MgmtPort) (s : State) (hk : Kept o₀ s) :
    Kept o₀ (modMgmt p g s) := by
  unfold modMgmt
  try dsimp only
  repeat' first
    | with_reducible assumption | simp only [kept_mk, kept_fold] | with_reducible rfl

theorem execMgmtLink_core {o₀ : State} (port : Nat) (up : Bool) (s : State) (hk : Kept o₀ s) :
    KeptAnswer o₀ (execMgmtLink port up s) := by
  unfold execMgmtLink
  try dsimp only
  repeat' first
    | with_reducible assumption | with_reducible apply next_core | with_reducible apply refused_core | with_reducible apply refuse_core
    | with_reducible apply raise_core | with_reducible apply modMgmt_core | simp only [kept_mk, kept_fold] | (intro _) | with_reducible rfl
    | split | with_reducible apply ite_answer_core | with_reducible apply ite_done_core | with_reducible apply ite_core

theorem execIpAddress_core {o₀ : State} (port : Nat) (v6 : Bool) (addr : Nat) (acquired : Bool) (s : State) (hk : Kept o₀ s) :
    KeptAnswer o₀ (execIpAddress port v6 addr acquired s) := by
  unfold execIpAddress
  try dsimp only
  repeat' first
    | with_reducible assumption | with_reducible apply next_core | with_reducible apply refused_core | with_reducible apply refuse_core
    | with_reducible apply raise_core | with_reducible apply modMgmt_core | simp only [kept_mk, kept_fold] | (intro _) | with_reducible rfl
    | split | with_reducible apply ite_answer_core | with_reducible apply ite_done_core | with_reducible apply ite_core

theorem execMgmtNeighbourRequest_core {o₀ : State} (port kind addr : Nat) (s : State) (hk : Kept o₀ s) :
    KeptAnswer o₀ (execMgmtNeighbourRequest port kind addr s) := by
  unfold execMgmtNeighbourRequest
  try dsimp only
  repeat' first
    | with_reducible assumption | with_reducible apply next_core | with_reducible apply refused_core | with_reducible apply refuse_core
    | with_reducible apply emit_core | with_reducible rfl | split | with_reducible apply ite_answer_core
    | with_reducible apply ite_done_core | with_reducible apply ite_core

theorem execSidebandRead_core {o₀ : State} (off len : Nat) (s : State) (hk : Kept o₀ s) :
    KeptAnswer o₀ (execSidebandRead off len s) := by
  unfold execSidebandRead
  try dsimp only
  repeat' first
    | with_reducible assumption | with_reducible apply next_core | with_reducible apply refused_core | with_reducible apply emit_core
    | with_reducible apply getD_core | (intro _) | with_reducible rfl | split | with_reducible apply ite_answer_core
    | with_reducible apply ite_core

theorem judgeAlert_core {o₀ : State} (s : State) (hk : Kept o₀ s) :
    Kept o₀ (judgeAlert s) := by
  unfold judgeAlert
  try dsimp only
  repeat' first
    | with_reducible assumption | with_reducible apply emit_core | simp only [kept_mk, kept_fold] | (intro _) | with_reducible rfl | split
    | with_reducible apply ite_core

theorem jtagActs_core {o₀ : State} (code : Nat) (s : State) (hk : Kept o₀ s) :
    Kept o₀ (jtagActs code s).2 := by
  unfold jtagActs
  try dsimp only
  repeat' first
    | with_reducible assumption | with_reducible apply draw_core | with_reducible rfl | split | with_reducible apply ite_core

theorem execJtagInstruction_core {o₀ : State} (code : Nat) (s : State) (hk : Kept o₀ s) :
    KeptAnswer o₀ (execJtagInstruction code s) := by
  unfold execJtagInstruction
  try dsimp only
  repeat' first
    | with_reducible assumption | with_reducible exact trivial | with_reducible apply next_core | with_reducible apply refused_core
    | with_reducible apply jtagActs_core | with_reducible apply emit_core | simp only [kept_mk, kept_fold] | (intro _)
    | with_reducible rfl | split | with_reducible apply ite_answer_core | with_reducible apply ite_done_core
    | with_reducible apply ite_core | refine of_pair (by with_reducible assumption) ?_
    | refine of_triple (by with_reducible assumption) ?_ | refine of_some (by with_reducible assumption) ?_
    | refine of_somep (by with_reducible assumption) ?_ | refine of_next (by with_reducible assumption) ?_
    | refine of_inl (by with_reducible assumption) ?_

/-! ## Machine/Startup.lean -/

theorem phaseEntered_core {o₀ : State} (s : State) (p : Nat) (hk : Kept o₀ s) :
    Kept o₀ (phaseEntered s p) := by
  unfold phaseEntered
  try dsimp only
  repeat' first
    | with_reducible assumption | with_reducible apply raiseLead_core | with_reducible apply getD_core | with_reducible rfl

theorem enterPhase_core {o₀ : State} (p : Nat) (s : State) (hk : Kept o₀ s) :
    Kept o₀ (enterPhase p s) := by
  unfold enterPhase
  try dsimp only
  repeat' first
    | with_reducible assumption | with_reducible apply modBoot_core | with_reducible apply phaseEntered_core
    | simp only [kept_mk, kept_fold] | (intro _) | with_reducible rfl | split | with_reducible apply ite_core

theorem haltStart_core {o₀ : State} (code : Nat) (s : State) (hk : Kept o₀ s) :
    Kept o₀ (haltStart code s) := by
  unfold haltStart
  try dsimp only
  repeat' first
    | with_reducible assumption | with_reducible apply raiseLead_core | with_reducible apply modBoot_core | simp only [kept_mk, kept_fold]
    | (intro _) | with_reducible rfl

theorem execRefLost_core {o₀ : State} (s : State) (hk : Kept o₀ s) :
    KeptAnswer o₀ (execRefLost s) := by
  unfold execRefLost
  try dsimp only
  repeat' first
    | with_reducible assumption | with_reducible apply next_core | with_reducible apply refused_core | with_reducible apply raiseLead_core
    | with_reducible apply modBoot_core | simp only [kept_mk, kept_fold] | (intro _) | with_reducible rfl | split
    | with_reducible apply ite_answer_core | with_reducible apply ite_core

theorem execRefHoldoverExpired_core {o₀ : State} (s : State) (hk : Kept o₀ s) :
    KeptAnswer o₀ (execRefHoldoverExpired s) := by
  unfold execRefHoldoverExpired; apply next_core; split
  · exact hk
  · have h := resetState_base (s := s)
    rw [kept_iff] at hk ⊢
    exact ⟨h.1.trans hk.1, h.2.trans hk.2.1, hk.2.2.1, hk.2.2.2.1, hk.2.2.2.2.1, hk.2.2.2.2.2.1, fun _ => EventsBounded.empty⟩

theorem execRefReturned_core {o₀ : State} (elapsedUs : Nat) (s : State) (hk : Kept o₀ s) :
    KeptAnswer o₀ (execRefReturned elapsedUs s) := by
  unfold execRefReturned
  try dsimp only
  repeat' first
    | with_reducible assumption | with_reducible exact trivial | with_reducible apply next_core | with_reducible apply refused_core
    | with_reducible apply some_core | with_reducible apply none_core | with_reducible apply somep_core
    | with_reducible apply nonep_core | with_reducible apply warmState_core | with_reducible apply modBoot_core
    | with_reducible apply raiseLead_core | simp only [kept_mk, kept_fold] | (intro _) | with_reducible rfl | split
    | with_reducible apply ite_answer_core | with_reducible apply ite_done_core | with_reducible apply ite_core
    | refine of_pair (by with_reducible assumption) ?_ | refine of_triple (by with_reducible assumption) ?_
    | refine of_some (by with_reducible assumption) ?_ | refine of_somep (by with_reducible assumption) ?_
    | refine of_next (by with_reducible assumption) ?_ | refine of_inl (by with_reducible assumption) ?_

theorem execRefAbsent_core {o₀ : State} (s : State) (hk : Kept o₀ s) :
    KeptAnswer o₀ (execRefAbsent s) := by
  unfold execRefAbsent
  try dsimp only
  repeat' first
    | with_reducible assumption | with_reducible apply next_core | with_reducible apply refused_core | with_reducible apply haltStart_core
    | with_reducible rfl | split | with_reducible apply ite_answer_core | with_reducible apply ite_core

theorem execPllUnlock_core {o₀ : State} (die : Nat) (domain : Nat) (s : State) (hk : Kept o₀ s) :
    KeptAnswer o₀ (execPllUnlock die domain s) := by
  unfold execPllUnlock
  try dsimp only
  repeat' first
    | with_reducible assumption | with_reducible exact trivial | with_reducible apply next_core | with_reducible apply refused_core
    | with_reducible apply declareFault_core | with_reducible apply modBoot_core | with_reducible apply recordFault_core
    | with_reducible apply raise_core | simp only [kept_mk, kept_fold] | (intro _) | with_reducible rfl | split
    | with_reducible apply ite_answer_core | with_reducible apply ite_done_core | with_reducible apply ite_core
    | refine of_pair (by with_reducible assumption) ?_ | refine of_triple (by with_reducible assumption) ?_
    | refine of_some (by with_reducible assumption) ?_ | refine of_somep (by with_reducible assumption) ?_
    | refine of_next (by with_reducible assumption) ?_ | refine of_inl (by with_reducible assumption) ?_

theorem execPorchXtalFail_core {o₀ : State} (s : State) (hk : Kept o₀ s) :
    KeptAnswer o₀ (execPorchXtalFail s) := by
  unfold execPorchXtalFail
  try dsimp only
  repeat' first
    | with_reducible assumption | with_reducible exact trivial | with_reducible apply next_core | with_reducible apply refused_core
    | with_reducible apply modPorch_core | with_reducible apply modBoot_core | simp only [kept_mk, kept_fold] | (intro _)
    | with_reducible rfl | split | with_reducible apply ite_answer_core | with_reducible apply ite_done_core
    | with_reducible apply ite_core | refine of_pair (by with_reducible assumption) ?_
    | refine of_triple (by with_reducible assumption) ?_ | refine of_some (by with_reducible assumption) ?_
    | refine of_somep (by with_reducible assumption) ?_ | refine of_next (by with_reducible assumption) ?_
    | refine of_inl (by with_reducible assumption) ?_

theorem execHearthWatchdogExpired_core {o₀ : State} (hearth : Nat) (s : State) (hk : Kept o₀ s) :
    KeptAnswer o₀ (execHearthWatchdogExpired hearth s) := by
  unfold execHearthWatchdogExpired
  try dsimp only
  repeat' first
    | with_reducible assumption | with_reducible exact trivial | with_reducible apply next_core | with_reducible apply refused_core
    | with_reducible apply some_core | with_reducible apply none_core | with_reducible apply somep_core
    | with_reducible apply nonep_core | with_reducible apply warmReset_core | with_reducible apply failHearth_core
    | with_reducible apply modBoot_core | simp only [kept_mk, kept_fold] | (intro _) | with_reducible rfl | split
    | with_reducible apply ite_answer_core | with_reducible apply ite_done_core | with_reducible apply ite_core
    | refine of_pair (by with_reducible assumption) ?_ | refine of_triple (by with_reducible assumption) ?_
    | refine of_some (by with_reducible assumption) ?_ | refine of_somep (by with_reducible assumption) ?_
    | refine of_next (by with_reducible assumption) ?_ | refine of_inl (by with_reducible assumption) ?_

theorem enterP1_core {o₀ : State} (pcieRef : Bool) (s : State) (hk : Kept o₀ s) :
    Kept o₀ (enterP1 pcieRef s) := by
  unfold enterP1
  try dsimp only
  repeat' first
    | with_reducible assumption | with_reducible exact trivial | with_reducible apply enterPhase_core
    | with_reducible apply modPcie_core | with_reducible apply modBoot_core | with_reducible apply draw_core
    | simp only [kept_mk, kept_fold] | (intro _) | with_reducible rfl | split | with_reducible apply ite_answer_core
    | with_reducible apply ite_done_core | with_reducible apply ite_core | refine of_pair (by with_reducible assumption) ?_
    | refine of_triple (by with_reducible assumption) ?_ | refine of_some (by with_reducible assumption) ?_
    | refine of_somep (by with_reducible assumption) ?_ | refine of_next (by with_reducible assumption) ?_
    | refine of_inl (by with_reducible assumption) ?_

theorem porchHandover_core {o₀ : State} (s : State) (hk : Kept o₀ s) :
    Kept o₀ (porchHandover s) := by
  unfold porchHandover
  try dsimp only
  repeat' first
    | with_reducible assumption | with_reducible apply modPorch_core | with_reducible apply raise_core | with_reducible apply modBoot_core
    | with_reducible apply modTime_core | simp only [kept_mk, kept_fold] | (intro _) | with_reducible rfl | split
    | with_reducible apply ite_core

theorem execP0Complete_core {o₀ : State} (pcieRef : Bool) (s : State) (hk : Kept o₀ s) :
    KeptAnswer o₀ (execP0Complete pcieRef s) := by
  unfold execP0Complete
  try dsimp only
  repeat' first
    | with_reducible assumption | with_reducible exact trivial | with_reducible apply next_core | with_reducible apply refused_core
    | with_reducible apply porchHandover_core | with_reducible apply enterP1_core | with_reducible apply modBoot_core
    | simp only [kept_mk, kept_fold] | (intro _) | with_reducible rfl | split | with_reducible apply ite_answer_core
    | with_reducible apply ite_done_core | with_reducible apply ite_core | refine of_pair (by with_reducible assumption) ?_
    | refine of_triple (by with_reducible assumption) ?_ | refine of_some (by with_reducible assumption) ?_
    | refine of_somep (by with_reducible assumption) ?_ | refine of_next (by with_reducible assumption) ?_
    | refine of_inl (by with_reducible assumption) ?_

theorem execHeartbeatTimeout_core {o₀ : State} (pcieRef : Bool) (s : State) (hk : Kept o₀ s) :
    KeptAnswer o₀ (execHeartbeatTimeout pcieRef s) := by
  unfold execHeartbeatTimeout
  try dsimp only
  repeat' first
    | with_reducible assumption | with_reducible exact trivial | with_reducible apply next_core | with_reducible apply refused_core
    | with_reducible apply porchHandover_core | with_reducible apply enterP1_core | with_reducible apply modBoot_core
    | simp only [kept_mk, kept_fold] | (intro _) | with_reducible rfl | split | with_reducible apply ite_answer_core
    | with_reducible apply ite_done_core | with_reducible apply ite_core | refine of_pair (by with_reducible assumption) ?_
    | refine of_triple (by with_reducible assumption) ?_ | refine of_some (by with_reducible assumption) ?_
    | refine of_somep (by with_reducible assumption) ?_ | refine of_next (by with_reducible assumption) ?_
    | refine of_inl (by with_reducible assumption) ?_

theorem probeDevice_core {o₀ : State} (d : Nat) (m : NvMount) (s : State) (hk : Kept o₀ s) :
    Kept o₀ (probeDevice d m s) := by
  unfold probeDevice
  try dsimp only
  repeat' first
    | with_reducible assumption | with_reducible exact trivial | with_reducible apply modDev_core | simp only [kept_mk, kept_fold]
    | (intro _) | with_reducible rfl | split | with_reducible apply ite_answer_core | with_reducible apply ite_done_core
    | with_reducible apply ite_core | refine of_pair (by with_reducible assumption) ?_
    | refine of_triple (by with_reducible assumption) ?_ | refine of_some (by with_reducible assumption) ?_
    | refine of_somep (by with_reducible assumption) ?_ | refine of_next (by with_reducible assumption) ?_
    | refine of_inl (by with_reducible assumption) ?_

theorem enterRecovery_core {o₀ : State} (code : Nat) (a : NvMount) (b : NvMount) (s : State) (hk : Kept o₀ s) :
    Kept o₀ (enterRecovery code a b s) := by
  unfold enterRecovery
  try dsimp only
  repeat' first
    | with_reducible assumption | with_reducible exact trivial | with_reducible apply probeDevice_core
    | with_reducible apply haltStart_core | with_reducible apply modBoot_core | simp only [kept_mk, kept_fold] | (intro _)
    | with_reducible rfl | split | with_reducible apply ite_answer_core | with_reducible apply ite_done_core
    | with_reducible apply ite_core | refine of_pair (by with_reducible assumption) ?_
    | refine of_triple (by with_reducible assumption) ?_ | refine of_some (by with_reducible assumption) ?_
    | refine of_somep (by with_reducible assumption) ?_ | refine of_next (by with_reducible assumption) ?_
    | refine of_inl (by with_reducible assumption) ?_

theorem cfgRead_core {o₀ : State} (s : State) (hk : Kept o₀ s) :
    Kept o₀ (cfgRead s) := by
  unfold cfgRead
  try dsimp only
  repeat' first
    | with_reducible assumption | with_reducible apply raiseLead_core | with_reducible rfl | split | with_reducible apply ite_core

theorem mountDevice_core {o₀ : State} (d : Nat) (m : NvMount) (other : NvMount) (s : State) (hk : Kept o₀ s) :
    Kept o₀ (mountDevice d m other s) := by
  unfold mountDevice
  try dsimp only
  repeat' first
    | with_reducible assumption | with_reducible exact trivial | with_reducible apply setDeviceState_core
    | with_reducible apply modDev_core | simp only [kept_mk, kept_fold] | (intro _) | with_reducible rfl | split
    | with_reducible apply ite_answer_core | with_reducible apply ite_done_core | with_reducible apply ite_core
    | refine of_pair (by with_reducible assumption) ?_ | refine of_triple (by with_reducible assumption) ?_
    | refine of_some (by with_reducible assumption) ?_ | refine of_somep (by with_reducible assumption) ?_
    | refine of_next (by with_reducible assumption) ?_ | refine of_inl (by with_reducible assumption) ?_

theorem mountStore_core {o₀ : State} (a : NvMount) (b : NvMount) (s : State) (hk : Kept o₀ s) :
    Kept o₀ (mountStore a b s) := by
  unfold mountStore
  try dsimp only
  repeat' first
    | with_reducible assumption | with_reducible exact trivial | with_reducible apply mountDevice_core
    | with_reducible apply anchorWrite_core | with_reducible apply modNv_core | with_reducible apply raiseLead_core
    | simp only [kept_mk, kept_fold] | (intro _) | with_reducible rfl | split | with_reducible apply ite_answer_core
    | with_reducible apply ite_done_core | with_reducible apply ite_core | refine of_pair (by with_reducible assumption) ?_
    | refine of_triple (by with_reducible assumption) ?_ | refine of_some (by with_reducible assumption) ?_
    | refine of_somep (by with_reducible assumption) ?_ | refine of_next (by with_reducible assumption) ?_
    | refine of_inl (by with_reducible assumption) ?_

theorem loadSystem_core {o₀ : State} (badRecords : List Nat) (s : State) (hk : Kept o₀ s) :
    Kept o₀ (loadSystem badRecords s) := by
  unfold loadSystem
  try dsimp only
  repeat' first
    | with_reducible assumption | with_reducible exact trivial | with_reducible apply cfgRead_core | with_reducible apply modNv_core
    | with_reducible apply raiseLead_core | simp only [kept_mk, kept_fold] | (intro _) | with_reducible rfl | split
    | with_reducible apply ite_answer_core | with_reducible apply ite_done_core | with_reducible apply ite_core
    | refine of_pair (by with_reducible assumption) ?_ | refine of_triple (by with_reducible assumption) ?_
    | refine of_some (by with_reducible assumption) ?_ | refine of_somep (by with_reducible assumption) ?_
    | refine of_next (by with_reducible assumption) ?_ | refine of_inl (by with_reducible assumption) ?_

theorem reportLatched_core {o₀ : State} (s : State) (hk : Kept o₀ s) :
    Kept o₀ (reportLatched s) := by
  unfold reportLatched
  try dsimp only
  repeat' first
    | with_reducible assumption | with_reducible apply raiseLead_core | with_reducible apply raisePorchAlarm_core
    | with_reducible apply modPorch_core | with_reducible apply foldl_core | with_reducible apply foldl_kept2
    | with_reducible apply foldl_kept3 | simp only [kept_mk, kept_fold] | (intro _) | with_reducible rfl | split
    | with_reducible apply ite_core | refine of_pair (by with_reducible assumption) ?_ | refine of_some (by with_reducible assumption) ?_
    | refine of_next (by with_reducible assumption) ?_ | refine of_inl (by with_reducible assumption) ?_

theorem recordEntry_core {o₀ : State} (s : State) (p : Nat) (hk : Kept o₀ s) :
    Kept o₀ (recordEntry s p) := by
  unfold recordEntry
  try dsimp only
  repeat' first
    | with_reducible assumption | with_reducible exact trivial | with_reducible apply logEvent_core | with_reducible apply getD_core
    | simp only [kept_mk, kept_fold] | (intro _) | with_reducible rfl | split | with_reducible apply ite_answer_core
    | with_reducible apply ite_done_core | with_reducible apply ite_core | refine of_pair (by with_reducible assumption) ?_
    | refine of_triple (by with_reducible assumption) ?_ | refine of_some (by with_reducible assumption) ?_
    | refine of_somep (by with_reducible assumption) ?_ | refine of_next (by with_reducible assumption) ?_
    | refine of_inl (by with_reducible assumption) ?_

theorem enterP2_core {o₀ : State} (a : NvMount) (b : NvMount) (badRecords : List Nat) (tried : State → State) (s : State)
    (hf_tried : ∀ x0, Kept o₀ x0 → Kept o₀ (tried x0)) (hk : Kept o₀ s) :
    Kept o₀ (enterP2 a b badRecords tried s) := by
  unfold enterP2
  try dsimp only
  repeat' first
    | with_reducible assumption | with_reducible apply hf_tried | with_reducible exact trivial
    | with_reducible apply recordEntry_core | with_reducible apply reportLatched_core | with_reducible apply loadSystem_core
    | with_reducible apply mountStore_core | with_reducible apply enterPhase_core | with_reducible apply modBoot_core
    | simp only [kept_mk, kept_fold] | (intro _) | with_reducible rfl | split | with_reducible apply ite_answer_core
    | with_reducible apply ite_done_core | with_reducible apply ite_core | refine of_pair (by with_reducible assumption) ?_
    | refine of_triple (by with_reducible assumption) ?_ | refine of_some (by with_reducible assumption) ?_
    | refine of_somep (by with_reducible assumption) ?_ | refine of_next (by with_reducible assumption) ?_
    | refine of_inl (by with_reducible assumption) ?_

theorem enterP3_core {o₀ : State} (s : State) (hk : Kept o₀ s) :
    Kept o₀ (enterP3 s) := by
  unfold enterP3
  try dsimp only
  repeat' first
    | with_reducible assumption | with_reducible exact trivial | with_reducible apply cfgRead_core
    | with_reducible apply enterPhase_core | with_reducible apply modPower_core | with_reducible apply setStandby_core
    | with_reducible apply raise_core | with_reducible apply foldl_core | with_reducible apply foldl_kept2
    | with_reducible apply foldl_kept3 | simp only [kept_mk, kept_fold] | (intro _) | with_reducible rfl | split
    | with_reducible apply ite_answer_core | with_reducible apply ite_done_core | with_reducible apply ite_core
    | refine of_pair (by with_reducible assumption) ?_ | refine of_triple (by with_reducible assumption) ?_
    | refine of_some (by with_reducible assumption) ?_ | refine of_somep (by with_reducible assumption) ?_
    | refine of_next (by with_reducible assumption) ?_ | refine of_inl (by with_reducible assumption) ?_

theorem seamUntrained_core {o₀ : State} (s : State) (k : Nat) (hk : Kept o₀ s) : Kept o₀ (seamUntrained s k) := by
  unfold seamUntrained
  try dsimp only
  repeat' first
    | with_reducible assumption | with_reducible apply modSeam_core | with_reducible apply ite_core | split

theorem execDiscoveryDone_core {o₀ : State} (dies : List DieObs) (untrained : List Nat) (miswired : List Nat) (s : State)
    (hk : Kept o₀ s) :
    KeptAnswer o₀ (execDiscoveryDone dies untrained miswired s) := by
  unfold execDiscoveryDone
  try dsimp only
  repeat' first
    | with_reducible assumption | with_reducible exact trivial | with_reducible apply next_core | with_reducible apply refused_core
    | with_reducible apply seamUntrained_core | with_reducible apply enterP3_core | with_reducible apply haltStart_core
    | with_reducible apply declareFault_core | with_reducible apply modBoot_core | with_reducible apply raiseLead_core
    | with_reducible apply getD_core | with_reducible apply foldl_core | with_reducible apply foldl_kept2
    | with_reducible apply foldl_kept3 | simp only [kept_mk, kept_fold] | (intro _) | with_reducible rfl | split
    | with_reducible apply ite_answer_core | with_reducible apply ite_done_core | with_reducible apply ite_core
    | refine of_pair (by with_reducible assumption) ?_ | refine of_triple (by with_reducible assumption) ?_
    | refine of_some (by with_reducible assumption) ?_ | refine of_somep (by with_reducible assumption) ?_
    | refine of_next (by with_reducible assumption) ?_ | refine of_inl (by with_reducible assumption) ?_

theorem spareInP3_core {o₀ : State} (s : State) (r : Nat × Nat × Nat × Nat) (hk : Kept o₀ s) :
    Kept o₀ (spareInP3 s r) := by
  unfold spareInP3
  try dsimp only
  repeat' first
    | with_reducible assumption | with_reducible apply modCellar_core | with_reducible apply count_core
    | with_reducible apply recordFault_core | with_reducible apply raise_core | simp only [kept_mk, kept_fold] | (intro _)
    | with_reducible rfl | split | with_reducible apply ite_core

theorem chunkInP3_core {o₀ : State} (s : State) (c : Nat × Nat × Nat) (hk : Kept o₀ s) :
    Kept o₀ (chunkInP3 s c) := by
  unfold chunkInP3
  try dsimp only
  repeat' first
    | with_reducible assumption | with_reducible exact trivial | with_reducible apply some_core | with_reducible apply none_core
    | with_reducible apply somep_core | with_reducible apply nonep_core | with_reducible apply modChannel_core
    | with_reducible apply recordFault_core | with_reducible apply raise_core | with_reducible apply count_core
    | simp only [kept_mk, kept_fold] | (intro _) | with_reducible rfl | split | with_reducible apply ite_answer_core
    | with_reducible apply ite_done_core | with_reducible apply ite_core | refine of_pair (by with_reducible assumption) ?_
    | refine of_triple (by with_reducible assumption) ?_ | refine of_some (by with_reducible assumption) ?_
    | refine of_somep (by with_reducible assumption) ?_ | refine of_next (by with_reducible assumption) ?_
    | refine of_inl (by with_reducible assumption) ?_

theorem execP3Complete_core {o₀ : State} (halt : Nat) (rows : List (Nat × Nat × Nat × Nat)) (chunks : List (Nat × Nat × Nat))
    (s : State) (hk : Kept o₀ s) :
    KeptAnswer o₀ (execP3Complete halt rows chunks s) := by
  unfold execP3Complete
  try dsimp only
  repeat' first
    | with_reducible assumption | with_reducible exact trivial | with_reducible apply next_core | with_reducible apply refused_core
    | with_reducible apply chunkInP3_core | with_reducible apply spareInP3_core | with_reducible apply haltStart_core
    | with_reducible apply enterPhase_core | with_reducible apply modBoot_core | with_reducible apply startBringUp_core
    | with_reducible apply foldl_core | with_reducible apply foldl_kept2 | with_reducible apply foldl_kept3
    | simp only [kept_mk, kept_fold] | (intro _) | with_reducible rfl | split | with_reducible apply ite_answer_core
    | with_reducible apply ite_done_core | with_reducible apply ite_core | refine of_pair (by with_reducible assumption) ?_
    | refine of_triple (by with_reducible assumption) ?_ | refine of_some (by with_reducible assumption) ?_
    | refine of_somep (by with_reducible assumption) ?_ | refine of_next (by with_reducible assumption) ?_
    | refine of_inl (by with_reducible assumption) ?_

theorem execP4Complete_core {o₀ : State} (s : State) (hk : Kept o₀ s) :
    KeptAnswer o₀ (execP4Complete s) := by
  unfold execP4Complete
  try dsimp only
  repeat' first
    | with_reducible assumption | with_reducible apply next_core | with_reducible apply refused_core | with_reducible apply haltStart_core
    | with_reducible apply enterPhase_core | (intro _) | with_reducible rfl | split | with_reducible apply ite_answer_core
    | with_reducible apply ite_core

theorem enterP6_core {o₀ : State} (s : State) (hk : Kept o₀ s) :
    Kept o₀ (enterP6 s) := by
  unfold enterP6
  try dsimp only
  repeat' first
    | with_reducible assumption | with_reducible apply cfgRead_core | with_reducible apply enterPhase_core
    | with_reducible apply modDarn_core | with_reducible apply modTime_core | with_reducible apply modMantelPort_core
    | with_reducible apply advertise_core | with_reducible apply rankSources_core | with_reducible apply raiseGrants_core
    | with_reducible apply foldl_core | with_reducible apply foldl_kept2 | with_reducible apply foldl_kept3 | simp only [kept_mk, kept_fold]
    | (intro _) | with_reducible rfl | split | with_reducible apply ite_core

theorem execP5Complete_core {o₀ : State} (obs : NvReadObs) (digestBad : Bool) (s : State) (hk : Kept o₀ s) :
    KeptAnswer o₀ (execP5Complete obs digestBad s) := by
  unfold execP5Complete
  try dsimp only
  repeat' first
    | with_reducible assumption | with_reducible exact trivial | with_reducible apply next_core | with_reducible apply refused_core
    | with_reducible apply some_core | with_reducible apply none_core | with_reducible apply somep_core
    | with_reducible apply nonep_core | with_reducible apply enterP6_core | with_reducible apply cfgRead_core
    | with_reducible apply modBoot_core | with_reducible apply layItems_core | with_reducible apply nvReadEffects_core
    | with_reducible apply raiseLead_core | simp only [kept_mk, kept_fold] | (intro _) | with_reducible rfl | split
    | with_reducible apply ite_answer_core | with_reducible apply ite_done_core | with_reducible apply ite_core
    | refine of_pair (by with_reducible assumption) ?_ | refine of_triple (by with_reducible assumption) ?_
    | refine of_some (by with_reducible assumption) ?_ | refine of_somep (by with_reducible assumption) ?_
    | refine of_next (by with_reducible assumption) ?_ | refine of_inl (by with_reducible assumption) ?_

theorem enterP7_core {o₀ : State} (s : State) (hk : Kept o₀ s) :
    Kept o₀ (enterP7 s) := by
  unfold enterP7
  try dsimp only
  repeat' first
    | with_reducible assumption | with_reducible exact trivial | with_reducible apply enterPhase_core
    | with_reducible apply raiseGrants_core | with_reducible apply setPartState_core | with_reducible apply modDarn_core
    | simp only [kept_mk, kept_fold] | (intro _) | with_reducible rfl | split | with_reducible apply ite_answer_core
    | with_reducible apply ite_done_core | with_reducible apply ite_core | refine of_pair (by with_reducible assumption) ?_
    | refine of_triple (by with_reducible assumption) ?_ | refine of_some (by with_reducible assumption) ?_
    | refine of_somep (by with_reducible assumption) ?_ | refine of_next (by with_reducible assumption) ?_
    | refine of_inl (by with_reducible assumption) ?_

theorem execP6Complete_core {o₀ : State} (s : State) (hk : Kept o₀ s) :
    KeptAnswer o₀ (execP6Complete s) := by
  unfold execP6Complete
  try dsimp only
  repeat' first
    | with_reducible assumption | with_reducible apply next_core | with_reducible apply refused_core | with_reducible apply enterP7_core
    | with_reducible rfl | split | with_reducible apply ite_answer_core | with_reducible apply ite_core

theorem execMantelFreeRun_core {o₀ : State} (s : State) (hk : Kept o₀ s) :
    KeptAnswer o₀ (execMantelFreeRun s) := by
  unfold execMantelFreeRun
  try dsimp only
  repeat' first
    | with_reducible assumption | with_reducible apply next_core | with_reducible apply refused_core | with_reducible apply enterP7_core
    | with_reducible apply raiseLead_core | with_reducible rfl | split | with_reducible apply ite_answer_core
    | with_reducible apply ite_core

theorem phaseReg_core {o₀ : State} (s : State) (hk : Kept o₀ s) :
    Kept o₀ (phaseReg s).2 := by
  unfold phaseReg
  try dsimp only
  repeat' first
    | with_reducible assumption | with_reducible apply draw_core | (intro _) | with_reducible rfl | split | with_reducible apply ite_core

theorem execDeviceReset_core {o₀ : State} (q : Request) (s : State) (hk : Kept o₀ s) :
    KeptAnswer o₀ (execDeviceReset q s) := by
  unfold execDeviceReset
  try dsimp only
  repeat' first
    | with_reducible assumption | with_reducible apply next_core | with_reducible apply refused_core | with_reducible apply ok_core
    | with_reducible apply takeArrival_core | with_reducible apply runCommand_core | with_reducible apply withChecks_core
    | with_reducible apply modBoot_core | simp only [kept_mk, kept_fold] | (intro _) | with_reducible rfl | split
    | with_reducible apply ite_answer_core | with_reducible apply ite_done_core | with_reducible apply ite_core

theorem execResetCauseClear_core {o₀ : State} (q : Request) (s : State) (hk : Kept o₀ s) :
    KeptAnswer o₀ (execResetCauseClear q s) := by
  unfold execResetCauseClear
  try dsimp only
  repeat' first
    | with_reducible assumption | with_reducible apply next_core | with_reducible apply refused_core | with_reducible apply ok_core
    | with_reducible apply runCommand_core | with_reducible apply modBoot_core | simp only [kept_mk, kept_fold] | (intro _)
    | with_reducible rfl

theorem execStartupRead_core {o₀ : State} (q : Request) (s : State) (hk : Kept o₀ s) :
    KeptAnswer o₀ (execStartupRead q s) := by
  unfold execStartupRead
  try dsimp only
  repeat' first
    | with_reducible assumption | with_reducible apply next_core | with_reducible apply refused_core | with_reducible apply ok_core
    | with_reducible apply runCommand_core | with_reducible apply phaseReg_core | (intro _) | with_reducible rfl

theorem execDeviceInfo_core {o₀ : State} (q : Request) (s : State) (hk : Kept o₀ s) :
    KeptAnswer o₀ (execDeviceInfo q s) := by
  unfold execDeviceInfo
  try dsimp only
  repeat' first
    | with_reducible assumption | with_reducible apply next_core | with_reducible apply refused_core | with_reducible apply ok_core
    | with_reducible apply runCommand_core | simp only [kept_mk, kept_fold] | (intro _) | with_reducible rfl | split
    | with_reducible apply ite_answer_core | with_reducible apply ite_done_core | with_reducible apply ite_core

/-! ## Machine/Bar0.lean -/

theorem bar0Register_core {o₀ : State} (off : Nat) (s : State) (hk : Kept o₀ s) :
    Kept o₀ (bar0Register off s).2 := by
  unfold bar0Register
  try dsimp only
  repeat' first
    | with_reducible assumption | with_reducible apply phaseReg_core | with_reducible apply getD_core | with_reducible rfl | split
    | with_reducible apply ite_core | refine of_pair (by with_reducible assumption) ?_ | refine of_some (by with_reducible assumption) ?_
    | refine of_next (by with_reducible assumption) ?_ | refine of_inl (by with_reducible assumption) ?_

theorem readLatches_core {o₀ : State} (off : Nat) (s : State) (hk : Kept o₀ s) :
    Kept o₀ (readLatches off s) := by
  unfold readLatches
  try dsimp only
  repeat' first
    | with_reducible assumption | with_reducible apply modTime_core | simp only [kept_mk, kept_fold] | (intro _) | with_reducible rfl
    | split | refine of_pair (by with_reducible assumption) ?_ | refine of_some (by with_reducible assumption) ?_
    | refine of_next (by with_reducible assumption) ?_ | refine of_inl (by with_reducible assumption) ?_

theorem modMbx_core {o₀ : State} (g : Maloa → Maloa) (s : State) (hk : Kept o₀ s) :
    Kept o₀ (modMbx g s) := by
  unfold modMbx
  try dsimp only
  repeat' first
    | with_reducible assumption | simp only [kept_mk, kept_fold] | with_reducible rfl

theorem writeMailbox_core {o₀ : State} (o v : Nat) (s : State) (hk : Kept o₀ s) :
    Kept o₀ (writeMailbox o v s) := by
  unfold writeMailbox
  try dsimp only
  repeat' first
    | with_reducible assumption | with_reducible apply modMbx_core | with_reducible apply writeMbxCtrl_core
    | with_reducible apply testIndices_core | simp only [kept_mk, kept_fold] | (intro _) | with_reducible rfl | split
    | with_reducible apply ite_core | refine of_pair (by with_reducible assumption) ?_ | refine of_some (by with_reducible assumption) ?_
    | refine of_next (by with_reducible assumption) ?_ | refine of_inl (by with_reducible assumption) ?_

theorem writeTceCtrl_core {o₀ : State} (v : Nat) (s : State) (hk : Kept o₀ s) :
    KeptAnswer o₀ (writeTceCtrl v s) := by
  unfold writeTceCtrl
  try dsimp only
  repeat' first
    | with_reducible assumption | with_reducible apply next_core | with_reducible apply refused_core | with_reducible apply modTce_core
    | with_reducible apply execTceRead_core | with_reducible apply execTceWrite_core | with_reducible apply execTceCompareWrite_core
    | with_reducible apply execTceClearAge_core | with_reducible apply tceStart_core | simp only [kept_mk, kept_fold] | (intro _)
    | with_reducible rfl | split | with_reducible apply ite_answer_core | with_reducible apply ite_core
    | refine of_pair (by with_reducible assumption) ?_ | refine of_some (by with_reducible assumption) ?_
    | refine of_next (by with_reducible assumption) ?_ | refine of_inl (by with_reducible assumption) ?_

theorem writeTce_core {o₀ : State} (o v : Nat) (s : State) (hk : Kept o₀ s) :
    Kept o₀ (writeTce o v s) := by
  unfold writeTce
  try dsimp only
  repeat' first
    | with_reducible assumption | with_reducible apply modTce_core | simp only [kept_mk, kept_fold] | (intro _) | with_reducible rfl | split
    | with_reducible apply ite_core | refine of_pair (by with_reducible assumption) ?_ | refine of_some (by with_reducible assumption) ?_
    | refine of_next (by with_reducible assumption) ?_ | refine of_inl (by with_reducible assumption) ?_

theorem writeTime_core {o₀ : State} (o v : Nat) (s : State) (hk : Kept o₀ s) :
    Kept o₀ (writeTime o v s) := by
  unfold writeTime
  try dsimp only
  repeat' first
    | with_reducible assumption | with_reducible apply modTime_core | simp only [kept_mk, kept_fold] | (intro _) | with_reducible rfl
    | split | with_reducible apply ite_core | refine of_pair (by with_reducible assumption) ?_
    | refine of_some (by with_reducible assumption) ?_ | refine of_next (by with_reducible assumption) ?_
    | refine of_inl (by with_reducible assumption) ?_

theorem writeCtr_core {o₀ : State} (o v : Nat) (s : State) (hk : Kept o₀ s) :
    Kept o₀ (writeCtr o v s) := by
  unfold writeCtr
  try dsimp only
  repeat' first
    | with_reducible assumption | with_reducible apply modCtr_core | with_reducible apply count_core
    | with_reducible apply startCapture_core | simp only [kept_mk, kept_fold] | (intro _) | with_reducible rfl | split
    | with_reducible apply ite_core | refine of_pair (by with_reducible assumption) ?_ | refine of_some (by with_reducible assumption) ?_
    | refine of_next (by with_reducible assumption) ?_ | refine of_inl (by with_reducible assumption) ?_

theorem writeEvent_core {o₀ : State} (o v : Nat) (s : State) (hk : Kept o₀ s) :
    Kept o₀ (writeEvent o v s) := by
  unfold writeEvent
  try dsimp only
  repeat' first
    | with_reducible assumption | with_reducible apply setIrq_core | with_reducible rfl | split
    | refine of_pair (by with_reducible assumption) ?_ | refine of_some (by with_reducible assumption) ?_
    | refine of_next (by with_reducible assumption) ?_ | refine of_inl (by with_reducible assumption) ?_

theorem execBar0RegisterWrite_core {o₀ : State} (off value : Nat) (s : State) (hk : Kept o₀ s) :
    KeptAnswer o₀ (execBar0RegisterWrite off value s) := by
  unfold execBar0RegisterWrite
  try dsimp only
  repeat' first
    | with_reducible assumption | with_reducible apply next_core | with_reducible apply refused_core | with_reducible apply refuse_core
    | with_reducible apply modPcie_core | with_reducible apply writeTceCtrl_core | with_reducible apply bar0Write_core
    | with_reducible apply writeMailbox_core | with_reducible apply writeTce_core | with_reducible apply writeTime_core
    | with_reducible apply writeCtr_core | with_reducible apply writeEvent_core | with_reducible apply modBoot_core
    | simp only [kept_mk, kept_fold] | (intro _) | with_reducible rfl | split | with_reducible apply ite_answer_core
    | with_reducible apply ite_done_core | with_reducible apply ite_core | refine of_pair (by with_reducible assumption) ?_
    | refine of_some (by with_reducible assumption) ?_ | refine of_next (by with_reducible assumption) ?_
    | refine of_inl (by with_reducible assumption) ?_

theorem execBar0SubwordAccess_core {o₀ : State} (write : Bool) (off enables : Nat) (s : State) (hk : Kept o₀ s) :
    KeptAnswer o₀ (execBar0SubwordAccess write off enables s) := by
  unfold execBar0SubwordAccess
  try dsimp only
  repeat' first
    | with_reducible assumption | with_reducible apply next_core | with_reducible apply refused_core | with_reducible apply refuse_core
    | with_reducible apply draw_core | with_reducible apply modPcie_core | with_reducible apply bar0Write_core
    | with_reducible apply raiseLead_core | with_reducible apply countBar0_core | with_reducible apply bar0Register_core
    | with_reducible apply emit_core | with_reducible apply readLatches_core | simp only [kept_mk, kept_fold] | (intro _)
    | with_reducible rfl | split | with_reducible apply ite_answer_core | with_reducible apply ite_done_core | with_reducible apply ite_core

end Sys2Proof.Machine
end

