-- ==== Sys2Proof/Laws/KeptStep.lean ====
section
/-!
SUPPORT. What a step leaves alone: the queue but for its front, the time but for a step on an empty queue, and the fuses but for the
two commands that raise an anti-rollback counter (R476).
-/
namespace Sys2Proof.Machine

/-! ## Commands that raise no counter fuse -/

/-- A command other than the two that raise a counter fuse keeps the queue, the time and the fuses. -/
theorem exec_core {o₀ : State} (i : Instr) (s : State) (hi : ∀ a b c, i ≠ .p1ImageChecked a b c) (hb : i ≠ .hearthBStandbyReady)
    (hk : Kept o₀ s) : KeptAnswer o₀ (exec i s) := by
  cases i with
  | deviceReset _ => exact execDeviceReset_core _ _ hk
  | resetCauseClear _ => exact execResetCauseClear_core _ _ hk
  | startupRead _ => exact execStartupRead_core _ _ hk
  | dieMapRead _ => exact execDieMapRead_core _ _ hk
  | seamLinkRead _ => exact execSeamLinkRead_core _ _ hk
  | deviceInfo _ => exact execDeviceInfo_core _ _ hk
  | echo _ => exact execEcho_core _ _ hk
  | tokenSet _ => exact execTokenSet_core _ _ hk
  | tokenClear _ => exact execTokenClear_core _ _ hk
  | tokenRead _ => exact execTokenRead_core _ _ hk
  | selfGidSet _ => exact execSelfGidSet_core _ _ hk
  | eventRead _ => exact execEventRead_core _ _ hk
  | linkWeightsSet _ => exact execLinkWeightsSet_core _ _ hk
  | linkStatusRead _ => exact execLinkStatusRead_core _ _ hk
  | linkRetrain _ => exact execLinkRetrain_core _ _ hk
  | portConfig _ => exact execPortConfig_core _ _ hk
  | portStateRead _ => exact execPortStateRead_core _ _ hk
  | portEnable _ => exact execPortEnable_core _ _ hk
  | gangSet _ => exact execGangSet_core _ _ hk
  | windowReset _ => exact execWindowReset_core _ _ hk
  | lambdaMapRead _ => exact execLambdaMapRead_core _ _ hk
  | portLoopback _ => exact execPortLoopback_core _ _ hk
  | prbsRun _ => exact execPrbsRun_core _ _ hk
  | laserStateRead _ => exact execLaserStateRead_core _ _ hk
  | laserCmisAccess _ _ _ => exact execLaserCmisAccess_core _ _ _ _ hk
  | laserSwitch _ => exact execLaserSwitch_core _ _ hk
  | rxPowerRead _ => exact execRxPowerRead_core _ _ hk
  | monitorConfig _ => exact execMonitorConfig_core _ _ hk
  | biasLimitsSet _ => exact execBiasLimitsSet_core _ _ hk
  | transomMapWrite _ => exact execTransomMapWrite_core _ _ hk
  | transomMapRead _ => exact execTransomMapRead_core _ _ hk
  | transomPathCheck _ => exact execTransomPathCheck_core _ _ hk
  | routeWriteRange _ => exact execRouteWriteRange_core _ _ hk
  | pathsetWrite _ => exact execPathsetWrite_core _ _ hk
  | mcastWrite _ => exact execMcastWrite_core _ _ hk
  | flowletConfig _ => exact execFlowletConfig_core _ _ hk
  | stairConfig _ => exact execStairConfig_core _ _ hk
  | chuteRead _ => exact execChuteRead_core _ _ hk
  | txnBegin _ => exact execTxnBegin_core _ _ hk
  | txnCommit _ _ _ => exact execTxnCommit_core _ _ _ _ hk
  | txnRollback _ => exact execTxnRollback_core _ _ hk
  | txnStatus _ => exact execTxnStatus_core _ _ hk
  | tableRead _ _ => exact execTableRead_core _ _ _ hk
  | tableWrite _ => exact execTableWrite_core _ _ hk
  | tableCompareWrite _ _ => exact execTableCompareWrite_core _ _ _ hk
  | tableClearAge _ => exact execTableClearAge_core _ _ hk
  | snapshotSave _ => exact execSnapshotSave_core _ _ hk
  | snapshotApply _ _ _ => exact execSnapshotApply_core _ _ _ _ hk
  | snapshotList _ => exact execSnapshotList_core _ _ hk
  | snapshotDelete _ => exact execSnapshotDelete_core _ _ hk
  | snapshotSetBoot _ => exact execSnapshotSetBoot_core _ _ hk
  | blockQuiesce _ => exact execBlockQuiesce_core _ _ hk
  | blockResume _ => exact execBlockResume_core _ _ hk
  | blockCreate _ => exact execBlockCreate_core _ _ hk
  | blockDelete _ => exact execBlockDelete_core _ _ hk
  | blockRead _ => exact execBlockRead_core _ _ hk
  | blockPoolSet _ => exact execBlockPoolSet_core _ _ hk
  | grantSet _ => exact execGrantSet_core _ _ hk
  | bufferConfig _ => exact execBufferConfig_core _ _ hk
  | bufferRead _ => exact execBufferRead_core _ _ hk
  | cellarStatus _ => exact execCellarStatus_core _ _ hk
  | cellarRegulatorSet _ => exact execCellarRegulatorSet_core _ _ hk
  | cellarMemtest _ => exact execCellarMemtest_core _ _ hk
  | meterSet _ => exact execMeterSet_core _ _ hk
  | meterRead _ => exact execMeterRead_core _ _ hk
  | shaperSet _ => exact execShaperSet_core _ _ hk
  | shaperRead _ => exact execShaperRead_core _ _ hk
  | gateListWrite _ => exact execGateListWrite_core _ _ hk
  | gateListRead _ => exact execGateListRead_core _ _ hk
  | markSet _ => exact execMarkSet_core _ _ hk
  | schedWeightsSet _ => exact execSchedWeightsSet_core _ _ hk
  | ctxCreate _ => exact execCtxCreate_core _ _ hk
  | ctxModify _ => exact execCtxModify_core _ _ hk
  | ctxDestroy _ => exact execCtxDestroy_core _ _ hk
  | ctxRead _ => exact execCtxRead_core _ _ hk
  | treeSet _ => exact execTreeSet_core _ _ hk
  | engineFlagsRead _ => exact execEngineFlagsRead_core _ _ hk
  | engineFlagsClear _ => exact execEngineFlagsClear_core _ _ hk
  | epochStatus _ => exact execEpochStatus_core _ _ hk
  | epochAbort _ => exact execEpochAbort_core _ _ hk
  | hamperConfig _ => exact execHamperConfig_core _ _ hk
  | engineStateRead _ => exact execEngineStateRead_core _ _ hk
  | mantelConfig _ => exact execMantelConfig_core _ _ hk
  | mantelStatus _ => exact execMantelStatus_core _ _ hk
  | stepConfig _ => exact execStepConfig_core _ _ hk
  | calendarSet _ => exact execCalendarSet_core _ _ hk
  | calendarRead _ => exact execCalendarRead_core _ _ hk
  | ptpConfig _ => exact execPtpConfig_core _ _ hk
  | ptpStatus _ => exact execPtpStatus_core _ _ hk
  | tsQueueRead _ => exact execTsQueueRead_core _ _ hk
  | darningMaskRead _ => exact execDarningMaskRead_core _ _ hk
  | darningConfig _ => exact execDarningConfig_core _ _ hk
  | faultRead _ => exact execFaultRead_core _ _ hk
  | hearthHandover _ => exact execHearthHandover_core _ _ hk
  | selftestConfig _ => exact execSelftestConfig_core _ _ hk
  | selftestRun _ _ => exact execSelftestRun_core _ _ _ hk
  | fwImageBegin _ => exact execFwImageBegin_core _ _ hk
  | fwImageWrite _ => exact execFwImageWrite_core _ _ hk
  | fwImageVerify _ => exact execFwImageVerify_core _ _ hk
  | fwActivate _ => exact execFwActivate_core _ _ hk
  | fwStatus _ => exact execFwStatus_core _ _ hk
  | powerRead _ _ => exact execPowerRead_core _ _ _ hk
  | thermalRead _ => exact execThermalRead_core _ _ hk
  | thermalLimitsSet _ => exact execThermalLimitsSet_core _ _ hk
  | powerCapSet _ => exact execPowerCapSet_core _ _ hk
  | loopStatus _ => exact execLoopStatus_core _ _ hk
  | deedReport _ => exact execDeedReport_core _ _ hk
  | randomRead _ => exact execRandomRead_core _ _ hk
  | keyGenerate _ => exact execKeyGenerate_core _ _ hk
  | debugUnlock _ => exact execDebugUnlock_core _ _ hk
  | porchRead _ => exact execPorchRead_core _ _ hk
  | porchAlarmClear _ => exact execPorchAlarmClear_core _ _ hk
  | fuseRead _ => exact execFuseRead_core _ _ hk
  | nvStatus _ => exact execNvStatus_core _ _ hk
  | nvRead _ _ => exact execNvRead_core _ _ _ hk
  | nvWrite _ => exact execNvWrite_core _ _ hk
  | nvScrub _ => exact execNvScrub_core _ _ hk
  | bootcfgRead _ _ => exact execBootcfgRead_core _ _ _ hk
  | bootcfgWrite _ => exact execBootcfgWrite_core _ _ hk
  | nvLogRead _ _ => exact execNvLogRead_core _ _ _ hk
  | counterRead _ => exact execCounterRead_core _ _ hk
  | counterClear _ => exact execCounterClear_core _ _ hk
  | counterFilterSet _ => exact execCounterFilterSet_core _ _ hk
  | occThresholdSet _ => exact execOccThresholdSet_core _ _ hk
  | telemetryExportSet _ => exact execTelemetryExportSet_core _ _ hk
  | bar0RegisterWrite _ _ => exact execBar0RegisterWrite_core _ _ _ hk
  | bar0SubwordAccess _ _ _ => exact execBar0SubwordAccess_core _ _ _ _ hk
  | refReturned _ => exact execRefReturned_core _ _ hk
  | pllUnlock _ _ => exact execPllUnlock_core _ _ _ hk
  | hearthWatchdogExpired _ => exact execHearthWatchdogExpired_core _ _ hk
  | discoveryDone _ _ _ => exact execDiscoveryDone_core _ _ _ _ hk
  | p3Complete _ _ _ => exact execP3Complete_core _ _ _ _ hk
  | windowUp _ _ => exact execWindowUp_core _ _ _ hk
  | trngRunEnd _ _ => exact execTrngRunEnd_core _ _ _ hk
  | windowLightTimeout _ _ => exact execWindowLightTimeout_core _ _ _ hk
  | seamFlitReceived _ _ _ _ _ => exact execSeamFlitReceived_core _ _ _ _ _ _ hk
  | seamReplay _ _ _ _ => exact execSeamReplay_core _ _ _ _ _ hk
  | seamLaneFailed _ _ _ _ => exact execSeamLaneFailed_core _ _ _ _ _ hk
  | sillCellReceived _ _ _ _ => exact execSillCellReceived_core _ _ _ _ _ hk
  | doorbell _ => exact execDoorbell_core _ _ hk
  | rplIdxHeadWrite _ => exact execRplIdxHeadWrite_core _ _ hk
  | mailboxEnable _ => exact execMailboxEnable_core _ _ hk
  | requestFetch _ _ => exact execRequestFetch_core _ _ _ hk
  | replySegmentWrite _ => exact execReplySegmentWrite_core _ _ hk
  | commandTimeout _ _ => exact execCommandTimeout_core _ _ _ hk
  | sourceForgotten _ => exact execSourceForgotten_core _ _ hk
  | replyCacheExpiry _ _ => exact execReplyCacheExpiry_core _ _ _ hk
  | eventRaised _ => exact execEventRaised_core _ _ hk
  | eventLoss _ => exact execEventLoss_core _ _ hk
  | evCtrlWrite _ => exact execEvCtrlWrite_core _ _ hk
  | codewordPairDecoded _ _ _ => exact execCodewordPairDecoded_core _ _ _ _ hk
  | linkWordReceived _ => exact execLinkWordReceived_core _ _ hk
  | replayTimeout _ => exact execReplayTimeout_core _ _ hk
  | frameReceived _ _ => exact execFrameReceived_core _ _ _ hk
  | codewordLock _ => exact execCodewordLock_core _ _ hk
  | trainingMessageReceived _ => exact execTrainingMessageReceived_core _ _ hk
  | trainingAttemptTimeout _ => exact execTrainingAttemptTimeout_core _ _ hk
  | trainingRetry _ => exact execTrainingRetry_core _ _ hk
  | frameTransmit _ _ => exact execFrameTransmit_core _ _ _ hk
  | linkFecHigh _ => exact execLinkFecHigh_core _ _ hk
  | laneFault _ _ _ _ _ => exact execLaneFault_core _ _ _ _ _ _ hk
  | lambdaBridgeIdentified _ _ => exact execLambdaBridgeIdentified_core _ _ _ hk
  | lambdaSpareSelect _ => exact execLambdaSpareSelect_core _ _ hk
  | lambdaPark _ => exact execLambdaPark_core _ _ hk
  | spareBridgeTimeout _ => exact execSpareBridgeTimeout_core _ _ hk
  | portLaneRestored _ _ => exact execPortLaneRestored_core _ _ _ hk
  | ringLockAcquired _ _ _ => exact execRingLockAcquired_core _ _ _ _ hk
  | eqAdaptStep _ _ _ => exact execEqAdaptStep_core _ _ _ _ hk
  | eqMarginLow _ _ _ => exact execEqMarginLow_core _ _ _ _ hk
  | portPhyReady _ => exact execPortPhyReady_core _ _ hk
  | prbsRunEnd _ _ => exact execPrbsRunEnd_core _ _ _ hk
  | laserModuleReady _ _ => exact execLaserModuleReady_core _ _ _ hk
  | laserModuleInserted _ => exact execLaserModuleInserted_core _ _ hk
  | laserModuleRemoved _ => exact execLaserModuleRemoved_core _ _ hk
  | laserInterrupt _ _ => exact execLaserInterrupt_core _ _ _ hk
  | moduleMonitorRead _ _ _ _ => exact execModuleMonitorRead_core _ _ _ _ _ hk
  | feedLos _ _ => exact execFeedLos_core _ _ _ hk
  | lightRestored _ _ => exact execLightRestored_core _ _ _ hk
  | staggerOddGroup _ => exact execStaggerOddGroup_core _ _ hk
  | frequencyMatch _ => exact execFrequencyMatch_core _ _ hk
  | monitorWindowEnd _ _ _ _ _ => exact execMonitorWindowEnd_core _ _ _ _ _ _ hk
  | lightLoopPass _ => exact execLightLoopPass_core _ _ hk
  | transomMapApplied _ => exact execTransomMapApplied_core _ _ hk
  | transomPassLos _ _ => exact execTransomPassLos_core _ _ _ hk
  | transomPassRestored _ _ => exact execTransomPassRestored_core _ _ _ hk
  | transomRingUnlock _ _ _ => exact execTransomRingUnlock_core _ _ _ _ hk
  | chuteRepair _ _ _ => exact execChuteRepair_core _ _ _ _ hk
  | commitInstant _ => exact execCommitInstant_core _ _ hk
  | tceRead _ _ => exact execTceRead_core _ _ _ hk
  | tceWrite _ => exact execTceWrite_core _ _ hk
  | tceCompareWrite _ _ => exact execTceCompareWrite_core _ _ _ hk
  | tceClearAge _ => exact execTceClearAge_core _ _ hk
  | txnIdleTimeout _ => exact execTxnIdleTimeout_core _ _ hk
  | quiesceDrainCheck _ => exact execQuiesceDrainCheck_core _ _ hk
  | drainLimitExpired _ => exact execDrainLimitExpired_core _ _ hk
  | heldFrameRetry _ => exact execHeldFrameRetry_core _ _ hk
  | bufferLoop _ => exact execBufferLoop_core _ _ hk
  | crossHallArrival _ _ => exact execCrossHallArrival_core _ _ _ hk
  | spillWriteAck _ => exact execSpillWriteAck_core _ _ hk
  | spillReturn _ _ _ _ => exact execSpillReturn_core _ _ _ _ _ hk
  | cellarScrub _ _ => exact execCellarScrub_core _ _ _ hk
  | cellarRowSpared _ _ => exact execCellarRowSpared_core _ _ _ hk
  | chunkRewriteStart _ _ => exact execChunkRewriteStart_core _ _ _ hk
  | cellarChunkSpared _ _ _ => exact execCellarChunkSpared_core _ _ _ _ hk
  | cellarRefresh _ => exact execCellarRefresh_core _ _ hk
  | cellarRefreshMode _ _ => exact execCellarRefreshMode_core _ _ _ hk
  | gateEntryChange _ => exact execGateEntryChange_core _ _ hk
  | mangleContribReceived _ _ => exact execMangleContribReceived_core _ _ _ hk
  | chunkDone _ => exact execChunkDone_core _ _ hk
  | releaseSend _ => exact execReleaseSend_core _ _ hk
  | engineSelftestDone _ _ _ => exact execEngineSelftestDone_core _ _ _ _ hk
  | hamperEntryWrite _ => exact execHamperEntryWrite_core _ _ hk
  | replayWaitExpired _ _ => exact execReplayWaitExpired_core _ _ _ hk
  | collStraggler _ _ => exact execCollStraggler_core _ _ _ hk
  | collRunStalled _ _ => exact execCollRunStalled_core _ _ _ hk
  | mantelFrameReceived _ => exact execMantelFrameReceived_core _ _ hk
  | mantelSourceLost _ => exact execMantelSourceLost_core _ _ hk
  | stepInstant _ => exact execStepInstant_core _ _ hk
  | ptpMessageReceived _ _ => exact execPtpMessageReceived_core _ _ _ hk
  | ptpEventMessageSend _ _ _ => exact execPtpEventMessageSend_core _ _ _ _ hk
  | legRateWrite _ => exact execLegRateWrite_core _ _ hk
  | legOffsetLoWrite _ => exact execLegOffsetLoWrite_core _ _ hk
  | darningFrameReceived _ => exact execDarningFrameReceived_core _ _ hk
  | darningSilent _ => exact execDarningSilent_core _ _ hk
  | maskHoldExpired _ => exact execMaskHoldExpired_core _ _ hk
  | restoreHoldExpired _ => exact execRestoreHoldExpired_core _ _ hk
  | flapHoldExpired _ => exact execFlapHoldExpired_core _ _ hk
  | dieFault _ _ => exact execDieFault_core _ _ _ hk
  | hallKeepaliveTimeout _ => exact execHallKeepaliveTimeout_core _ _ hk
  | selftestPeriod _ _ => exact execSelftestPeriod_core _ _ _ hk
  | thermalDwellExpired _ => exact execThermalDwellExpired_core _ _ hk
  | thermalTrip _ _ _ => exact execThermalTrip_core _ _ _ _ hk
  | mangleLevelStep _ => exact execMangleLevelStep_core _ _ hk
  | avsStep _ _ _ => exact execAvsStep_core _ _ _ _ hk
  | hallMargin _ _ => exact execHallMargin_core _ _ _ hk
  | frequencyGuard _ => exact execFrequencyGuard_core _ _ hk
  | frequencyGuardRelease _ => exact execFrequencyGuardRelease_core _ _ hk
  | porchAlarm _ => exact execPorchAlarm_core _ _ hk
  | nvScrubBlock _ _ _ => exact execNvScrubBlock_core _ _ _ _ hk
  | nvWearLevel _ _ => exact execNvWearLevel_core _ _ _ hk
  | nvResyncDone _ _ => exact execNvResyncDone_core _ _ _ hk
  | telemetryTrigger _ => exact execTelemetryTrigger_core _ _ hk
  | pcieLink _ _ _ => exact execPcieLink_core _ _ _ _ hk
  | mgmtLink _ _ => exact execMgmtLink_core _ _ _ hk
  | ipAddress _ _ _ _ => exact execIpAddress_core _ _ _ _ _ hk
  | mgmtNeighbourRequest _ _ _ => exact execMgmtNeighbourRequest_core _ _ _ _ hk
  | sidebandRead _ _ => exact execSidebandRead_core _ _ _ hk
  | jtagInstruction _ => exact execJtagInstruction_core _ _ hk
  | avsBusPoll _ _ => exact execAvsBusPoll_core _ _ _ hk
  | railOutOfRange _ => exact execRailOutOfRange_core _ _ hk
  | pcieConfigurationRequest _ _ _ => exact execPcieConfigurationRequest_core _ _ _ _ hk
  | maloaRequestRefused _ _ _ _ => exact execMaloaRequestRefused_core _ _ _ _ _ hk
  | ringHeadroom _ _ _ _ => exact execRingHeadroom_core _ _ _ _ _ hk
  | ptpAnnounceTimeout _ => exact execPtpAnnounceTimeout_core _ _ hk
  | porchMonitorAlarmEnd _ => exact execPorchMonitorAlarmEnd_core _ _ hk
  | cellarMemtestDone _ _ => exact execCellarMemtestDone_core _ _ _ hk
  | thermalSample _ => exact execThermalSample_core _ _ hk
  | powerCapWindow _ => exact execPowerCapWindow_core _ _ hk
  | porchSecond _ _ => exact execPorchSecond_core _ _ _ hk
  | telemetryDatagramSend _ => exact execTelemetryDatagramSend_core _ _ hk
  | p1ImageChecked mounts copies cfgBad => exact absurd rfl (hi mounts copies cfgBad)
  | p5Complete _ _ => exact execP5Complete_core _ _ _ hk
  | powerOnReset => exact execPowerOnReset_core _ hk
  | resetNAsserted => exact execResetNAsserted_core _ hk
  | pcieReset => exact execPcieReset_core _ hk
  | warmReset => exact execWarmReset_core _ hk
  | refLost => exact execRefLost_core _ hk
  | refHoldoverExpired => exact execRefHoldoverExpired_core _ hk
  | refAbsent => exact execRefAbsent_core _ hk
  | porchXtalFail => exact execPorchXtalFail_core _ hk
  | p0Complete _ => exact execP0Complete_core _ _ hk
  | p4Complete => exact execP4Complete_core _ hk
  | p6Complete => exact execP6Complete_core _ hk
  | mantelFreeRun => exact execMantelFreeRun_core _ hk
  | trngRetest _ => exact execTrngRetest_core _ _ hk
  | heartbeatTimeout _ => exact execHeartbeatTimeout_core _ _ hk
  | hearthBStandbyReady => exact absurd rfl hb
  | resetRings => exact execResetRings_core _ hk
  | evNewestLoRead => exact execEvNewestLoRead_core _ hk
  | headTimerCheck => exact execHeadTimerCheck_core _ hk
  | flowletSweep => exact execFlowletSweep_core _ hk
  | queueLoadPublish => exact execQueueLoadPublish_core _ hk
  | tceOperationDone => exact execTceOperationDone_core _ hk
  | mantelFrameSend => exact execMantelFrameSend_core _ hk
  | msyncInEdge => exact execMsyncInEdge_core _ hk
  | calendarSecond => exact execCalendarSecond_core _ hk
  | calendarSetTimeAt => exact execCalendarSetTimeAt_core _ hk
  | tsPop => exact execTsPop_core _ hk
  | tsClearOvf => exact execTsClearOvf_core _ hk
  | mantelLoRead => exact execMantelLoRead_core _ hk
  | calNsRead => exact execCalNsRead_core _ hk
  | legLoRead => exact execLegLoRead_core _ hk
  | darningFrameSend => exact execDarningFrameSend_core _ hk
  | leaderHeartbeatLoss => exact execLeaderHeartbeatLoss_core _ hk
  | standbyKeepaliveLoss => exact execStandbyKeepaliveLoss_core _ hk
  | hearthHandoverDone => exact execHearthHandoverDone_core _ hk
  | activationStandbyReady => exact execActivationStandbyReady_core _ hk
  | fwTrialEnd => exact execFwTrialEnd_core _ hk
  | fwActivated => exact execFwActivated_core _ hk
  | debugChallengeExpiry => exact execDebugChallengeExpiry_core _ hk
  | drbgReseed => exact execDrbgReseed_core _ hk
  | nvTransactionCommit _ => exact execNvTransactionCommit_core _ _ hk
  | nvLogWrite => exact execNvLogWrite_core _ hk
  | ctrCapture => exact execCtrCapture_core _ hk
  | ctrReadClear => exact execCtrReadClear_core _ hk
  | backupCellLost => exact execBackupCellLost_core _ hk

/-! ## The two that raise one -/

/-- The queue, the time and the other fuses as they are in `o₀`, and each counter fuse no lower; the event log within its bounds if it was. -/
def Raised (o₀ s : State) : Prop :=
  s.pending = o₀.pending ∧ s.ns = o₀.ns ∧ s.sec.lifecycle = o₀.sec.lifecycle ∧ s.sec.revoked = o₀.sec.revoked ∧
    o₀.sec.svnA ≤ s.sec.svnA ∧ o₀.sec.svnB ≤ s.sec.svnB ∧
    (EventsBounded o₀.ev.queues o₀.ev.log → EventsBounded s.ev.queues s.ev.log)

theorem Kept.raised {o₀ s t : State} (hr : Raised o₀ s) (hk : Kept s t) : Raised o₀ t := by
  rw [kept_iff] at hk
  obtain ⟨h1, h2, h3, h4, h5, h6, h7⟩ := hk
  obtain ⟨r1, r2, r3, r4, r5, r6, r7⟩ := hr
  simp only [Raised, h1, h2, h3, h4, h5, h6]
  exact ⟨r1, r2, r3, r4, r5, r6, fun he => h7 (r7 he)⟩

theorem Raised.refl {s : State} : Raised s s := ⟨rfl, rfl, rfl, rfl, Nat.le_refl _, Nat.le_refl _, id⟩

/-- A counter fuse only rises. -/
theorem raiseSvn_raised {o₀ : State} (hearth new : Nat) (s : State) (hr : Raised o₀ s) : Raised o₀ (raiseSvn hearth new s) := by
  obtain ⟨h1, h2, h3, h4, h5, h6, h7⟩ := hr
  by_cases hh : hearth = 0
  · subst hh
    unfold raiseSvn
    simp only [if_true]
    by_cases h : new ≤ s.sec.svnA
    · simp only [h, if_true]
      exact ⟨h1, h2, h3, h4, h5, h6, h7⟩
    · simp only [h, if_false]
      refine Kept.raised (s := modSec (fun c => { c with svnA := new }) s) ⟨h1, h2, h3, h4, ?_, h6, h7⟩ (raiseLead_core _ _ _ _ _ _ .refl)
      show o₀.sec.svnA ≤ new
      omega
  · unfold raiseSvn
    simp only [hh, if_false]
    by_cases h : new ≤ s.sec.svnB
    · simp only [h, if_true]
      exact ⟨h1, h2, h3, h4, h5, h6, h7⟩
    · simp only [h, if_false]
      refine Kept.raised (s := modSec (fun c => { c with svnB := new }) s) ⟨h1, h2, h3, h4, h5, ?_, h7⟩ (raiseLead_core _ _ _ _ _ _ .refl)
      show o₀.sec.svnB ≤ new
      omega

/-- An answer whose next state, if it has one, has its counter fuses no lower and the rest kept. -/
def RaisedAnswer (o₀ : State) (a : Answer) : Prop := match a with | .next s => Raised o₀ s | _ => True

theorem KeptAnswer.raised {o₀ s : State} {a : Answer} (hr : Raised o₀ s) (h : KeptAnswer s a) : RaisedAnswer o₀ a := by
  cases a with
  | next t => exact Kept.raised hr h
  | fault f => trivial
  | refused r => trivial

theorem ite_raised {o₀ a b : State} {c : Prop} [Decidable c] (ha : Raised o₀ a) (hb : Raised o₀ b) : Raised o₀ (if c then a else b) := by
  split <;> assumption

theorem enterP2_raised {o₀ : State} (a b : NvMount) (badRecords : List Nat) (tried : State → State) (s : State)
    (h : Raised o₀ (tried (recordEntry (recordEntry s 0) 1))) : Raised o₀ (enterP2 a b badRecords tried s) := by
  unfold enterP2
  exact Kept.raised h (reportLatched_core _ (loadSystem_core _ _ (mountStore_core _ _ _ (enterPhase_core _ _ (modBoot_core _ _ .refl)))))

theorem execP1ImageChecked_raised (mounts : List NvMount) (copies : List ImageObs) (badRecords : List Nat) (s : State) :
    RaisedAnswer s (execP1ImageChecked mounts copies badRecords s) := by
  unfold execP1ImageChecked
  split
  · split
    · exact Raised.refl
    · split
      · exact Kept.raised .refl (enterRecovery_core _ _ _ _ .refl)
      · extract_lets all bad spoilt reject told
        have hr : ∀ s, Kept s (reject s) := fun s => ite_core (anchorWrite_core _ (modFw_core _ _ .refl)) .refl
        have ht : ∀ s, Kept s (told s) := fun s => foldl_core (fun _ _ h => raiseLead_core _ _ _ _ _ _ h) .refl
        split
        · exact Kept.raised .refl (enterRecovery_core _ _ _ _ (hr _))
        · rename_i source x img _
          extract_lets s1 hearth
          have h1 : Raised s s1 := Kept.raised .refl (modFw_core _ _ (hr _))
          refine enterP2_raised _ _ _ _ _ ?_
          have h2 := Kept.raised h1 (recordEntry_core _ 1 (recordEntry_core _ 0 .refl))
          have h3 := Kept.raised h2 (raiseLead_core 0x0D01 1 img.version img.svn source _ (ht _))
          dsimp only
          split
          · exact Kept.raised (ite_raised (raiseSvn_raised _ _ _ h3) h3) (takeCurrent_core _ _ _ .refl)
          · exact ite_raised (raiseSvn_raised _ _ _ h3) h3
  · trivial

theorem execHearthBStandbyReady_raised (s : State) : RaisedAnswer s (execHearthBStandbyReady s) := by
  unfold execHearthBStandbyReady
  show Raised s _
  split
  · exact Raised.refl
  · exact Kept.raised (raiseSvn_raised _ _ _ (raiseSvn_raised _ _ _ .refl)) (advertise_core _ (copyCounters_core _ (setStandby_core _ _ _ .refl)))

/-- Every command keeps the queue, the time and the two other fuses, and lowers no counter fuse. -/
theorem exec_raised (i : Instr) (s : State) : RaisedAnswer s (exec i s) := by
  by_cases h1 : ∃ a b c, i = .p1ImageChecked a b c
  · obtain ⟨a, b, c, rfl⟩ := h1
    exact execP1ImageChecked_raised a b c s
  · by_cases h2 : i = .hearthBStandbyReady
    · subst h2; exact execHearthBStandbyReady_raised s
    · exact KeptAnswer.raised .refl (exec_core i s (fun a b c e => h1 ⟨a, b, c, e⟩) h2 .refl)

/-! ## A nanosecond -/

theorem advanceClocks_core {o₀ : State} (s : State) (hk : Kept o₀ s) : Kept o₀ (advanceClocks s) := by
  unfold advanceClocks
  have h1 := ite_core (c := bit s.boot.locked 20 = true) (modTime_core (fun t => { t with count := (t.count + 1) % 2 ^ 64, cal := t.cal.advance }) _ hk) hk
  exact ite_core (modTime_core _ _ h1) h1

/-- A tick raises the time by one and keeps the rest. -/
theorem tick_core (s : State) : Kept { s with ns := s.ns + 1 } (tick s) := by
  unfold tick
  extract_lets s1 s2
  have h1 : Kept { s with ns := s.ns + 1 } s1 :=
    pushVoltage_core 1 _ (pushVoltage_core 0 _ (countOccupancy_core _ (advanceClocks_core _ (serveCellars_core _ (runCycles_core _ .refl)))))
  have h2 : Kept { s with ns := s.ns + 1 } s2 := by
    show Kept _ (match s1.ctr.until' with | some t => if t ≤ s1.ns then endCapture s1 else s1 | none => s1)
    split
    · exact ite_core (endCapture_core _ h1) h1
    · exact h1
  exact judgeAlert_core _ (ite_core (copyCounters_core _ h2) h2)

end Sys2Proof.Machine
end

