-- ==== Sys2Proof/Laws/Memory.lean ====
section
/-!
SUPPORT. The one addressed memory of the block, USER of the store: reading after writing, and that every write keeps its form.
-/
namespace Sys2Proof.Machine

/-- Every address of a memory in its form lies above a bound that its first one exceeds. -/
theorem Memory.wf_cons {a : Nat} {b : Byte} {r : Memory} :
    Memory.wf ((a, b) :: r) = true ↔ b ≠ 0 ∧ (∀ e ∈ r, a < e.1) ∧ Memory.wf r = true := by
  induction r generalizing a b with
  | nil => simp [Memory.wf]
  | cons e r ih =>
    obtain ⟨c, d⟩ := e
    constructor
    · intro h
      simp only [Memory.wf, Bool.and_eq_true, decide_eq_true_eq] at h
      have hr : Memory.wf ((c, d) :: r) = true := by simp only [Memory.wf, Bool.and_eq_true, decide_eq_true_eq]; exact h.2
      refine ⟨h.1.1, fun e he => ?_, hr⟩
      rcases List.mem_cons.mp he with rfl | he
      · exact h.1.2
      · exact Nat.lt_trans h.1.2 ((ih.mp hr).2.1 e he)
    · rintro ⟨h1, h2, h3⟩
      simp only [Memory.wf, Bool.and_eq_true, decide_eq_true_eq] at h3 ⊢
      exact ⟨⟨h1, h2 (c, d) (by simp)⟩, h3⟩

/-- An address of the memory after a write is the one written or one of before. -/
theorem mem_memSet {m : Memory} {a : Nat} {b : Byte} {e : Nat × Byte} (h : e ∈ memSet m a b) : e = (a, b) ∨ e ∈ m := by
  induction m with
  | nil => unfold memSet at h; split at h <;> simp_all
  | cons x r ih =>
    obtain ⟨c, d⟩ := x
    unfold memSet at h
    split at h
    · split at h <;> simp_all
    · split at h
      · split at h
        · simp [h]
        · rcases List.mem_cons.mp h with h | h <;> simp [h]
      · rcases List.mem_cons.mp h with rfl | h
        · simp
        · rcases ih h with h | h <;> simp [h]

/-- A write keeps the form of a memory. -/
theorem memSet_wf {m : Memory} (a : Nat) (b : Byte) (h : m.wf = true) : (memSet m a b).wf = true := by
  induction m with
  | nil => unfold memSet; split <;> simp_all [Memory.wf]
  | cons x r ih =>
    obtain ⟨c, d⟩ := x
    obtain ⟨h1, h2, h3⟩ := Memory.wf_cons.mp h
    unfold memSet
    split
    · split
      · exact h
      · rename_i hac hb
        refine Memory.wf_cons.mpr ⟨hb, fun e he => ?_, h⟩
        rcases List.mem_cons.mp he with rfl | he
        · exact hac
        · exact Nat.lt_trans hac (h2 e he)
    · split
      · rename_i hac
        subst hac
        split
        · exact h3
        · exact Memory.wf_cons.mpr ⟨by assumption, h2, h3⟩
      · refine Memory.wf_cons.mpr ⟨h1, fun e he => ?_, ih h3⟩
        rcases mem_memSet he with rfl | he
        · show c < a; omega
        · exact h2 e he

/-- Writing bytes keeps the form of a memory. -/
theorem memWrite_wf {m : Memory} (a : Nat) (l : Bytes) (h : m.wf = true) : (memWrite m a l).wf = true := by
  induction l generalizing m a with
  | nil => exact h
  | cons b l ih => exact ih (a + 1) (memSet_wf a b h)

/-- The memory of the part after reset has the form. -/
theorem reset_user_wf : State.reset.nv.user.wf = true := rfl

/-- Below its first address a memory reads 0. -/
theorem memGet_below {r : Memory} {a : Nat} (h : ∀ e ∈ r, a < e.1) : memGet r a = 0 := by
  induction r with
  | nil => rfl
  | cons e r ih =>
    obtain ⟨c, d⟩ := e
    have hc : a < c := h (c, d) (by simp)
    unfold memGet tget
    rw [if_neg (by omega)]
    exact ih fun e he => h e (by simp [he])

/-- A byte written reads as written. -/
theorem memGet_memSet_same {m : Memory} (a : Nat) (b : Byte) (h : m.wf = true) : memGet (memSet m a b) a = b := by
  induction m with
  | nil => unfold memSet; split <;> simp_all [memGet, tget]
  | cons x r ih =>
    obtain ⟨c, d⟩ := x
    obtain ⟨h1, h2, h3⟩ := Memory.wf_cons.mp h
    unfold memSet
    split
    · split
      · rename_i hac hb
        rw [hb]
        refine memGet_below fun e he => ?_
        rcases List.mem_cons.mp he with rfl | he
        · exact hac
        · exact Nat.lt_trans hac (h2 e he)
      · simp [memGet, tget]
    · split
      · rename_i hac
        subst hac
        split
        · rename_i hb
          rw [hb]
          exact memGet_below h2
        · simp [memGet, tget]
      · rename_i hac hne
        have hca : ¬ c = a := fun e => hne e.symm
        have := ih h3
        simpa [memGet, tget, hca] using this

/-- A write leaves every other byte as it was. -/
theorem memGet_memSet_other {m : Memory} {a c : Nat} (b : Byte) (hne : c ≠ a) : memGet (memSet m a b) c = memGet m c := by
  induction m with
  | nil =>
    unfold memSet
    split
    · rfl
    · simp [memGet, tget, hne.symm]
  | cons x r ih =>
    obtain ⟨e, d⟩ := x
    unfold memSet
    split
    · split
      · rfl
      · simp [memGet, tget, hne.symm]
    · split
      · rename_i hae
        subst hae
        split <;> simp [memGet, tget, hne.symm]
      · by_cases hec : e = c
        · simp [memGet, tget, hec]
        · simpa [memGet, tget, hec] using ih

end Sys2Proof.Machine
end

