-- ==== Sys2Proof/Laws/Replies.lean ====
section
/-!
SUPPORT. What the records of a reply are: their lengths, and that building them uses up open values and changes nothing else.
-/
namespace Sys2Proof.Machine

/-- Two states differ at most in how many open values have been used. -/
def OnlyDraws (s t : State) : Prop := ∃ d, t = { s with draws := d }

theorem OnlyDraws.refl (s : State) : OnlyDraws s s := ⟨s.draws, rfl⟩

theorem OnlyDraws.trans {s t u : State} (h : OnlyDraws s t) (k : OnlyDraws t u) : OnlyDraws s u := by
  obtain ⟨_, rfl⟩ := h
  obtain ⟨d, rfl⟩ := k
  exact ⟨d, rfl⟩

theorem draw_onlyDraws (n : Nat) (s : State) : OnlyDraws s (draw n s).2 := ⟨_, rfl⟩

/-- A reply built record by record, of `k` bytes each: its length, and the state it leaves. -/
theorem records_onlyDraws {α : Type} {f : α → State → Bytes × State} {k : Nat} (hl : ∀ x s, (f x s).1.length = k)
    (hd : ∀ x s, OnlyDraws s (f x s).2) (l : List α) (a : Bytes × State) :
    (l.foldl (fun a x => (a.1 ++ (f x a.2).1, (f x a.2).2)) a).1.length = a.1.length + l.length * k ∧
      OnlyDraws a.2 (l.foldl (fun a x => (a.1 ++ (f x a.2).1, (f x a.2).2)) a).2 := by
  induction l generalizing a with
  | nil => exact ⟨by simp, .refl _⟩
  | cons x l ih =>
    obtain ⟨h1, h2⟩ := ih (a.1 ++ (f x a.2).1, (f x a.2).2)
    refine ⟨?_, (hd x a.2).trans h2⟩
    rw [List.foldl_cons, h1]
    simp only [List.length_append, hl, List.length_cons]
    rw [Nat.succ_mul]
    omega

@[simp] theorem length_powerField (v : Option Int) : (powerField v).length = 2 := by simp [powerField]

@[simp] theorem length_tempField (v : Option Int) : (tempField v).length = 2 := by simp [tempField]

@[simp] theorem length_poolBytes (p : Pool) : p.bytes.length = 16 := by simp [Pool.bytes]

@[simp] theorem length_levelRecord (s : State) (h l : Nat) : (levelRecord s h l).length = 16 := by simp [levelRecord]

@[simp] theorem length_laserRecord (s : State) (m l : Nat) : (laserRecord s m l).length = 12 := by simp [laserRecord]

@[simp] theorem length_thermalRecord (s : State) (d : Nat) : (thermalRecord s d).length = 8 := by
  unfold thermalRecord; dsimp only; split <;> simp

@[simp] theorem length_windowLoop (s : State) (w : Nat) : (windowLoop s w).length = 8 := by simp [windowLoop]

@[simp] theorem length_fitSigned (k : Nat) (v : Int) (s : State) : (fitSigned k v s).1.length = k := by
  unfold fitSigned; split <;> simp

@[simp] theorem length_loss16 (v : Int) (s : State) : (loss16 v s).1.length = 2 := by
  unfold loss16; split <;> simp

@[simp] theorem length_inputAverage (w e : Nat) (s : State) : (inputAverage w e s).1.length = 2 := by simp [inputAverage]

@[simp] theorem length_powerRecord (w source i l : Nat) (s : State) : (powerRecord w source i l s).1.length = 8 := by
  simp [powerRecord]

@[simp] theorem length_lowestMargin (k : Nat) (s : State) : (lowestMargin k s).1.length = 2 := by
  unfold lowestMargin; split <;> simp

@[simp] theorem length_hallLoop (h : Nat) (s : State) : (hallLoop h s).1.length = 8 := by simp [hallLoop]

@[simp] theorem length_mangleLoop (m : Nat) (s : State) : (mangleLoop m s).1.length = 16 := by simp [mangleLoop]

theorem averageOf_onlyDraws (vs : List (Option Int)) (s : State) : OnlyDraws s (averageOf vs s).2 := by
  unfold averageOf
  split
  · exact .refl _
  · dsimp only
    repeat' split
    all_goals first | exact .refl _ | exact draw_onlyDraws _ _

theorem powerRecord_onlyDraws (w source i l : Nat) (s : State) : OnlyDraws s (powerRecord w source i l s).2 :=
  averageOf_onlyDraws _ _

theorem inputAverage_onlyDraws (w e : Nat) (s : State) : OnlyDraws s (inputAverage w e s).2 := averageOf_onlyDraws _ _

theorem loss16_onlyDraws (v : Int) (s : State) : OnlyDraws s (loss16 v s).2 := by
  unfold loss16; split
  · exact .refl _
  · exact draw_onlyDraws 65536 _

theorem fitSigned_onlyDraws (k : Nat) (v : Int) (s : State) : OnlyDraws s (fitSigned k v s).2 := by
  unfold fitSigned; split
  · exact .refl _
  · exact draw_onlyDraws (256 ^ k) _

theorem lowestMargin_onlyDraws (k : Nat) (s : State) : OnlyDraws s (lowestMargin k s).2 := by
  unfold lowestMargin; split
  · exact draw_onlyDraws 65536 _
  · exact .refl _

theorem hallLoop_onlyDraws (h : Nat) (s : State) : OnlyDraws s (hallLoop h s).2 := lowestMargin_onlyDraws _ _

theorem mangleLoop_onlyDraws (m : Nat) (s : State) : OnlyDraws s (mangleLoop m s).2 := lowestMargin_onlyDraws _ _

theorem phaseReg_onlyDraws (s : State) : OnlyDraws s (phaseReg s).2 := by
  unfold phaseReg
  dsimp only
  split
  · exact draw_onlyDraws _ _
  · exact .refl _

end Sys2Proof.Machine
end

