-- ==== Sys2Proof/Tests/Slice0.lean ====
section
/-!
SUPPORT. Small tests: the worked examples of the spec, one ill-formed command for each check, and for every statement with hypotheses
a state and operands that meet them.
-/
namespace Sys2Proof.Tests
open Sys2Proof.Machine

-- One proof after the other: the kernel's evaluations below would each hold a thread of their own.
set_option Elab.async false

/-- A running part: P7, with its mailbox and both Hearths. -/
def ready : State := { State.reset with
  boot := { State.reset.boot with phase := 7, mailboxReady := true, busMaster := true, discDone := true, trngState := 2, standbyReady := true } }

/-- A request of the mailbox. -/
def ask (params : Bytes) (txn : Nat := 0) : Request := { src := .pcie, tag := 1, txn, params }

/-- An open transaction of the device's scope. -/
def opened : Txn := { handle := 1, device := true, latchkey := 0, token := 0, route := 0, idle := 60, lastNamed := 0 }

/-- The running part with a block between jobs, a transaction open and the table engine at rest. -/
def staging : State := { ready with blocks := [(2, { hasCtx := true, ctxLast := 9 })], setup := { ready.setup with txns := [opened] } }

/-- The running part with its store in service. -/
def stored : State := { ready with nv := { ready.nv with devices := List.replicate 2 { state := 1, pageKiB := 4, capMbit := 4096, blocks := 4096 } } }


/-- The stored part that holds its own device snapshot. -/
def saved : State := { stored with nv := { stored.nv with snapshots := [takeSnapshot stored true 0] } }

theorem saved_digest : (takeSnapshot (started (ask [1, 0, 0, 0]) saved) true 0).digest = (takeSnapshot stored true 0).digest := rfl

/-- The running part with one link, that of port 0, in a given state. -/
def linked (x : Link) : State := { ready with links := [(0, x)] }

/-- The population that Table 1.1 gives, every die with a serial number of its own. -/
def population : List DieObs := (show List Nat from List.replicate 2 0x11 ++ List.replicate 4 0x21 ++ List.replicate 16 0x31 ++ List.replicate 2 0x41 ++
  List.replicate 8 0x51 ++ List.replicate 8 0x61).zipIdx.map fun e => { present := true, typeCode := e.1, serial := e.2 + 1 }

/-- A packet with a good CRC whose OPCODE no command carries. -/
def strange : Bytes :=
  let h : Bytes := [255, 255] ++ zeros 10
  h ++ beBytes 4 (crc32c h)

/-- A frame whose header CRC is right. -/
def sound (length : Nat) : Frame :=
  let f : Frame := { kind := 0, tc := 1, length }
  { f with hcrc := headerCrc f }

/-- A frame of VC 0 at the head of port 0's queue, on an active link that has credit. -/
def waiting : Held := { frame := { kind := 0, tc := 0 }, inPort := 1280, store := .shared 0 }

/-- The running part with that frame, and one frame not yet acknowledged. -/
def sending : State :=
  { linked { state := .active, credit := List.replicate 8 64, unacked := [{ lseq := 0, vc := 0, frame := { kind := 0, tc := 0 } }] } with
    buf := { ready.buf with queues := [((0, 0), { frames := [waiting] })] } }

/-- A Hall whose one shared cell is in use, with a loop that is on. -/
def tight : State :=
  { staging with
    setup := { staging.setup with live := [(.hallBuf 0, (liveValue ready (.hallBuf 0)).set 4 1)] }
    buf := { halls := [(0, { active := 38913, used := [(2, 1)] })], queues := [((0, 1), { frames := [{ waiting with store := .pool 2, vc := 1 }] })] } }

/-- The running part with some live set-up values. -/
def setUp (l : List (ItemKey × Bytes)) : State := { ready with setup := { ready.setup with live := l } }

/-- The running part with one context. -/
def context (r : CtxRun) : State := { ready with coll := { ready.coll with ctxs := [(0, r)] } }

/-- A FINAL chunk that waits to be handed on, and one that is open. -/
def finalChunk : Chunk := { mangle := 1, engine := 0, final := true, frames := [{ kind := 4, tc := 5 }] }

/-- The running part whose port 0 has an active link with these codewords come in. -/
def arriving (codewords : List RxCodeword) : State := linked { state := .active, rx := { codewords } }

/-- A codeword that came in correctable, whose frame stream begins with a new frame. -/
def begun (stream : Bytes) : RxCodeword := { good := true, fstart := 0, stream }

/-- A frame without payload whose both CRCs are right. -/
def sealedFrame : Frame := { sound 0 with fcrc := frameCrc (sound 0) }

/-- The running part whose port 0 trains, with one training message come in. -/
def training (m : TrainMsg) (ann : Option TrainMsg := none) : State :=
  linked { state := .exchange, locked := true, selfActive := true, ann, rx := { train := [(0, m)], index := [(0, 0)] } }

/-- A training message of one lane. -/
def message (kind : Nat) : TrainMsg :=
  { kind, gang := 1, port := 0, peerType := 1, caps := 0, serial := 0, grant := List.replicate 8 0, fresh := true, expectLseq := 0 }

/-! ## Worked examples of the spec -/

/-- R66: the check value of the CRC over the ASCII string "123456789". -/
theorem test_crc_check_value : crc32c [49, 50, 51, 52, 53, 54, 55, 56, 57] = 0xE3069283 := by decide +kernel

/-- The worked example on port numbers: data port 1,000 and Transom port 1,100. -/
theorem test_port_numbers : windowOf 1000 = 7 ∧ hallOf 1000 = 3 ∧ hallDie 3 = 5 ∧ eicDie 7 = 31 ∧ windowOf 1100 = 2 ∧ hallOf 1100 = 1 ∧
    hallDie 1 = 3 := by decide

/-- R102: the check value of CRC-8 over the ASCII string "123456789". -/
theorem test_crc8_check_value : crc8 [49, 50, 51, 52, 53, 54, 55, 56, 57] = 0xF4 := by decide +kernel

/-- Table 5.2, one symbol for each pair of bits: 00, 01, 11 and 10 are levels 0 to 3. -/
theorem test_pam4_mapping : levelsOf [0b0001111000] = [0, 1, 2, 3, 0] := by decide

/-- R98: a codeword of the link with 8 wrong symbols is corrected. -/
theorem test_rs_corrects_eight :
    let c := gf10.encode 16 [1, 2, 3, 4]
    gf10.decode 16 (List.replicate 8 77 ++ c.drop 8) = some (c, 8) := by decide +kernel

/-- R297, R298: two wrong symbols of chunk 5 of a line of zeros are corrected, and wrong symbols in two chunks are not. -/
theorem test_cellar_line :
    let c := encodeLine (List.replicate 64 0)
    decodeLine none ((c.set 10 7).set 11 9) = .corrected 5 2 ∧ decodeLine none ((c.set 10 7).set 12 9) = .uncorrectable := by decide +kernel

/-- The example of the failing lanes: lane 17 of group 5 of link 17 goes to spare 0, lane 40 to spare 1, and lane 3 leaves the upper half: 480 lanes. -/
theorem test_seam_lanes :
    let fail (lane : Nat) (s : State) : State := match exec (.seamLaneFailed 17 false 5 lane) s with | .next t => t | _ => s
    let s := fail 3 (fail 40 (fail 17 ready))
    activeLanes s 17 false = 480 ∧ activeLanes s 17 true = 512 ∧ crossRelayed s 1 3 = false := by decide

/-- R5: byte 0 of a header, 0x2A, is KIND 2, TC 5 and DE 0. -/
theorem test_header_byte : u8 (headerBody { kind := 2, tc := 5 }) 0 = 0x2A := by decide

/-- GID 0x4_5A3C is sent as DEST_GID bytes 0x45, 0xA3, 0xC0. -/
theorem test_gid_bytes : ((headerBody { kind := 0, tc := 0, destGid := 0x45A3C }).drop 4).take 3 = [0x45, 0xA3, 0xC0] := by decide

/-- The status registers of the Cellar at level 3 of Hall 2 and of Hall 2 itself, after a good start-up. -/
theorem test_die_status :
    let s := { ready with boot := { ready.boot with dies := [
      (4, { present := true, matched := true, state := 1, typeCode := 0x21, serial := 0 }),
      (17, { present := true, matched := true, state := 1, typeCode := 0x31, serial := 0 })] } }
    dieStat s 17 = 0xD0310000 ∧ dieStat s 4 = 0xD0218000 := by decide

/-- Link 17 with a halved group, 3 CRC errors and 5 replays. -/
def narrowed : State := { ready with
  seam := [(17, { low := { spares := 0, half := 1 } :: List.replicate 7 { spares := 2 }, high := List.replicate 8 { spares := 2 } })]
  counters := [({ scope := 13, inst := 17, idx := 0 }, { value := 3 }), ({ scope := 13, inst := 17, idx := 1 }, { value := 5 })] }

/-- The worked example of SEAM_LINK_READ: the payload of its reply. -/
theorem test_seam_link_read : (match exec (.seamLinkRead { src := .pcie, tag := 42, params := [0x11, 0, 0, 0] }) narrowed with
    | .next t => t.maloa.waiting.map fun g => (g.tag, g.status, g.opcode, g.payload) | _ => []) =
    [(42, 0, 0x0111, [0x11, 3, 5, 8, 0x01, 0xE0, 2, 0, 0x0E, 0x10, 2, 0, 0, 0, 0, 0, 0, 3, 0, 0, 0, 0, 0, 5])] := by decide

/-- Table 13.1: the colours of the burst. -/
theorem test_meter_burst :
    let v : Bytes := zeros 8 ++ beBytes 4 50000 ++ beBytes 4 16512 ++ beBytes 4 100000 ++ beBytes 4 12384
    ((List.range 12).foldl (fun (a : List Colour × Meter) i =>
      let r := runMeter v a.2 (200 * i) .green 4128
      (a.1 ++ [r.1], r.2)) ([], { tc := 16512 * 65536, tp := 12384 * 65536 })).1 =
    [.green, .green, .green, .green, .green, .yellow, .red, .green, .red, .yellow, .green, .red] := by decide

/-- The sum of some codes of one format, written into another: code, OV and NX. -/
def summed (fmtIn fmtOut mode : Nat) (ovf : Bool) (codes : List Nat) : Option (Nat × Bool × Bool) :=
  match floatFmt fmtIn, floatFmt fmtOut with
  | some f, some g =>
    let fam := fmtFamily fmtIn
    let st := codes.foldl (fun (a : Option Int × List Elem) c =>
      let b := addBlock fam 0 a.1 a.2 [some (decodeFloat fmtIn f c)]
      (b.exp, b.elems)) (none, [{}])
    let w := writeFloat fmtOut g 0 { mode, ovf } 0 (exactOf fam 0 1 st.1 (st.2.headD {}))
    some (w.code, w.ov, w.nx)
  | _, _ => none

/-- Table 15.11: sums of BF16 into BF16, under RNE and RTZ. -/
theorem test_bf16_sums :
    summed 4 4 0 false [0x3F80, 0x3B00, 0x3B00, 0x3B00] = some (0x3F81, false, true) ∧
    summed 4 4 1 false [0x3F80, 0x3B00, 0x3B00, 0x3B00] = some (0x3F80, false, true) ∧
    summed 4 4 0 false [0x3F80, 0x3B80, 0, 0] = some (0x3F80, false, true) ∧
    summed 4 4 0 false [0x3F81, 0x3B80, 0, 0] = some (0x3F82, false, true) ∧
    summed 4 4 1 false [0x3F81, 0x3B80, 0, 0] = some (0x3F81, false, true) := by decide

/-- Just beyond the largest code: FP32 into FP16, SAT, OVF and RTZ. -/
theorem test_fp16_overflow :
    summed 2 5 0 false [0x477FE000, 0x41700000] = some (0x7BFF, false, true) ∧
    summed 2 5 0 false [0x477FE000, 0x41800000] = some (0x7BFF, true, true) ∧
    summed 2 5 0 true [0x477FE000, 0x41800000] = some (0x7C00, true, true) ∧
    summed 2 5 1 false [0x477FE000, 0x41800000] = some (0x7BFF, false, true) := by decide

/-- The promotion of the worked example: window 6 holds 1 at E = −100, and element 5 is promoted. -/
theorem test_promotion :
    let a := addBlock 1 0 none [{}, {}] [some (.fin 1 0), some (.fin 1 (-100))]
    let b := addBlock 1 0 a.exp a.elems [some (.fin 1 30), none]
    a.exp = some (-100) ∧ a.elems.map (·.win) = [2 ^ 100, 1] ∧ b.promotions = 1 ∧
    b.elems.map (fun e => (e.win, e.full)) = [(0, some (2 ^ 160 + 2 ^ 190)), (1, none)] := by decide

/-- The table gives no row bits, so no word spells a command and the queue stays as it is. -/
theorem test_no_word_spells : decodeTableWord 16 0x0100 = none ∧ (State.reset.withFetchWord 16 0x0100).pending = [] := by decide

/-! ## Ill-formed commands: one for each check, which the check refuses -/

/-- A request whose TAG does not fit. -/
def qBad : Request := { src := .pcie, tag := 65536 }
/-- A source whose GID does not fit. -/
def sBad : Source := .inband (2 ^ 20)
/-- A good request. -/
def q : Request := { src := .pcie, tag := 1 }
/-- A lane that stays at the lowest level for the time of one pair of codewords. -/
def silence : List Nat := List.replicate 2720 0
/-- A window of a monitor point in which no power reads. -/
def quiet : MonitorObs := { value := none, lowest := -4000, highest := -4000, last := -4000 }
/-- A laser module that R153 accepts. -/
def good : ModuleObs :=
  { offsets := List.replicate 9 0, dataPower := List.replicate 9 1900, transomPower := List.replicate 8 1900, setLow := 1600, setHigh := 2000, setStep := 50 }

theorem test_requests_1_refused : ([
    .deviceReset qBad, .resetCauseClear qBad, .startupRead qBad, .dieMapRead qBad, .seamLinkRead qBad, .deviceInfo qBad,
    .echo qBad, .tokenSet qBad, .tokenClear qBad, .tokenRead qBad, .selfGidSet qBad, .eventRead qBad, .linkWeightsSet qBad,
    .linkStatusRead qBad, .linkRetrain qBad, .portConfig qBad, .portStateRead qBad, .portEnable qBad, .gangSet qBad,
    .windowReset qBad, .lambdaMapRead qBad, .portLoopback qBad, .prbsRun qBad, .laserStateRead qBad,
    .laserCmisAccess qBad false [], .laserSwitch qBad, .rxPowerRead qBad, .monitorConfig qBad, .biasLimitsSet qBad,
    .transomMapWrite qBad, .transomMapRead qBad, .transomPathCheck qBad, .routeWriteRange qBad, .pathsetWrite qBad,
    .mcastWrite qBad, .flowletConfig qBad, .stairConfig qBad, .chuteRead qBad, .txnBegin qBad, .txnCommit qBad [] 0,
    .txnRollback qBad, .txnStatus qBad, .tableRead qBad [], .tableWrite qBad, .tableCompareWrite qBad false,
    .tableClearAge qBad, .snapshotSave qBad, .snapshotApply qBad {} false, .snapshotList qBad, .snapshotDelete qBad] : List Instr).all (fun c => !c.wf) = true := by decide

theorem test_requests_2_refused : ([
    .snapshotSetBoot qBad, .blockQuiesce qBad, .blockResume qBad, .blockCreate qBad, .blockDelete qBad, .blockRead qBad,
    .blockPoolSet qBad, .grantSet qBad, .bufferConfig qBad, .bufferRead qBad, .cellarStatus qBad, .cellarRegulatorSet qBad,
    .cellarMemtest qBad, .meterSet qBad, .meterRead qBad, .shaperSet qBad, .shaperRead qBad, .gateListWrite qBad,
    .gateListRead qBad, .markSet qBad, .schedWeightsSet qBad, .ctxCreate qBad, .ctxModify qBad, .ctxDestroy qBad,
    .ctxRead qBad, .treeSet qBad, .engineFlagsRead qBad, .engineFlagsClear qBad, .epochStatus qBad, .epochAbort qBad,
    .hamperConfig qBad, .engineStateRead qBad, .mantelConfig qBad, .mantelStatus qBad, .stepConfig qBad, .calendarSet qBad,
    .calendarRead qBad, .ptpConfig qBad, .ptpStatus qBad, .tsQueueRead qBad, .darningMaskRead qBad, .darningConfig qBad,
    .faultRead qBad, .hearthHandover qBad, .selftestConfig qBad, .selftestRun qBad [], .fwImageBegin qBad,
    .fwImageWrite qBad, .fwImageVerify qBad, .fwActivate qBad] : List Instr).all (fun c => !c.wf) = true := by decide

theorem test_requests_3_refused : ([
    .fwStatus qBad, .powerRead qBad [], .thermalRead qBad, .thermalLimitsSet qBad, .powerCapSet qBad, .loopStatus qBad,
    .deedReport qBad, .randomRead qBad, .keyGenerate qBad, .debugUnlock qBad, .porchRead qBad, .porchAlarmClear qBad,
    .fuseRead qBad, .nvStatus qBad, .nvRead qBad {}, .nvWrite qBad, .nvScrub qBad, .bootcfgRead qBad {}, .bootcfgWrite qBad,
    .nvLogRead qBad [], .counterRead qBad, .counterClear qBad, .counterFilterSet qBad, .occThresholdSet qBad,
    .telemetryExportSet qBad] : List Instr).all (fun c => !c.wf) = true := by decide

theorem test_operands_1_refused : ([
    .bar0RegisterWrite 0x400000 0, .bar0RegisterWrite 0 (2 ^ 32), .bar0SubwordAccess false 0x400000 0,
    .bar0SubwordAccess false 0 16, .hearthWatchdogExpired 2, .discoveryDone [] [] [],
    .discoveryDone (List.replicate 40 { present := true, typeCode := 256, serial := 0 }) [] [],
    .discoveryDone (List.replicate 40 { present := true, typeCode := 1, serial := 0 }) [39] [],
    .discoveryDone (List.replicate 40 { present := true, typeCode := 1, serial := 0 }) [] [39], .windowUp 8 0,
    .windowLightTimeout 8 false, .seamFlitReceived 39 false 0 [] true, .seamFlitReceived 0 false 32 [] true,
    .seamFlitReceived 0 false 0 (List.replicate 6 0) true, .seamReplay 39 false true [], .seamReplay 0 false true [(1, 0)],
    .seamReplay 0 false true [(0, 16)], .seamLaneFailed 39 false 0 0, .sillCellReceived 8 false true none,
    .sillCellReceived 0 false true (some 2560), .doorbell 65536, .rplIdxHeadWrite 65536,
    .mailboxEnable (2 ^ 32), .commandTimeout sBad 0, .commandTimeout .pcie 65536, .sourceForgotten sBad,
    .replyCacheExpiry sBad 0, .replyCacheExpiry .pcie 65536, .eventRaised 40, .eventLoss 40, .evCtrlWrite (2 ^ 32),
    .codewordPairDecoded 1280 0 silence, .codewordPairDecoded 0 8 silence, .codewordPairDecoded 0 0 (0 :: silence),
    .codewordPairDecoded 0 0 (4 :: silence.drop 1), .linkWordReceived 1280, .replayTimeout 1280, .frameReceived 1280 {}, .codewordLock 1280,
    .trainingMessageReceived 1280, .trainingAttemptTimeout 1280, .trainingRetry 1280, .frameTransmit 1280 .none,
    .linkFecHigh 1280, .laneFault 160 0 1 false 0, .laneFault 0 9 1 false 0, .laneFault 0 0 0 false 0, .laneFault 0 0 7 false 0,
    .laneFault 0 0 1 true 0, .laneFault 0 0 4 false 0,
    .lambdaBridgeIdentified 128 none, .lambdaSpareSelect 128, .lambdaPark 128, .spareBridgeTimeout 128,
    .portLaneRestored 160 0, .portLaneRestored 0 8, .ringLockAcquired 160 0 false, .ringLockAcquired 0 9 false,
    .eqAdaptStep 1280 0 0] : List Instr).all (fun c => !c.wf) = true := by decide +kernel

theorem test_operands_2_refused : ([
    .eqAdaptStep 0 8 0, .eqMarginLow 1280 0 0, .eqMarginLow 0 8 0, .portPhyReady 1280, .prbsRunEnd 1280 [],
    .laserModuleReady 16 good, .laserModuleInserted 16, .laserModuleRemoved 16, .laserInterrupt 16 [],
    .moduleMonitorRead 16 0 0 [], .feedLos 16 0, .feedLos 0 9, .lightRestored 16 0, .lightRestored 0 9, .staggerOddGroup 8,
    .frequencyMatch 16, .monitorWindowEnd 8 0 0 0 quiet, .lightLoopPass 8, .transomMapApplied 8,
    .transomPassLos 8 0, .transomPassLos 0 32, .transomPassRestored 8 0, .transomPassRestored 0 32,
    .transomRingUnlock 8 0 0, .transomRingUnlock 0 32 0, .transomRingUnlock 0 0 3, .chuteRepair 4 false 0,
    .commitInstant (2 ^ 32), .tceRead (2 ^ 32) false, .tceWrite (2 ^ 32), .tceCompareWrite (2 ^ 32) false,
    .tceClearAge (2 ^ 32), .txnIdleTimeout (2 ^ 32), .quiesceDrainCheck 65536, .drainLimitExpired 65536, .heldFrameRetry 4,
    .bufferLoop 4, .crossHallArrival 4 0, .crossHallArrival 0 4, .spillWriteAck 4, .spillReturn 1280 0 .none [],
    .spillReturn 0 8 .none [], .cellarScrub 4 .silent, .cellarScrub 0 (.read [] false false), .cellarScrub 0 (.read (256 :: List.replicate 71 0) false false), .cellarRowSpared 22 [], .chunkRewriteStart 22 0,
    .chunkRewriteStart 6 32, .cellarChunkSpared 22 0 [], .cellarChunkSpared 6 32 [], .cellarRefresh 22,
    .cellarRefreshMode 22 0] : List Instr).all (fun c => !c.wf) = true := by decide

theorem test_operands_3_refused : ([
    .gateEntryChange 1280, .mangleContribReceived 2 0, .mangleContribReceived 0 4, .chunkDone 2, .releaseSend 65536,
    .engineSelftestDone 2 false false, .hamperEntryWrite 2, .replayWaitExpired 65536 [], .collStraggler 65536 0,
    .collRunStalled 65536 0, .mantelFrameReceived 1280, .mantelSourceLost 1280, .stepInstant 4,
    .ptpMessageReceived 2 { kind := 0, portState := 0 }, .ptpEventMessageSend 2 0 0, .ptpEventMessageSend 0 4 0,
    .ptpEventMessageSend 0 0 65536, .legRateWrite (2 ^ 32), .legOffsetLoWrite (2 ^ 32), .darningFrameReceived 1280,
    .darningSilent 1280, .maskHoldExpired 1280, .restoreHoldExpired 1280, .flapHoldExpired 1280,
    .hallKeepaliveTimeout 4, .selftestPeriod 0 [], .selftestPeriod 6 [], .thermalDwellExpired 40, .thermalTrip 40 0 0,
    .mangleLevelStep 2, .avsStep 6 false 0, .hallMargin 4 0, .frequencyGuard 2, .frequencyGuardRelease 2, .porchAlarm 0,
    .porchAlarm 64, .nvScrubBlock 2 0 {}, .nvWearLevel 2 0, .nvResyncDone 2 0, .telemetryTrigger 8,
    .mgmtLink 2 false, .ipAddress 2 false 0 false, .mgmtNeighbourRequest 2 0 0, .mgmtNeighbourRequest 0 4 0,
    .sidebandRead 256 0, .jtagInstruction 256, .avsBusPoll 6 none, .railOutOfRange [], .nvTransactionCommit [(2, 0, false)]] : List Instr).all (fun c => !c.wf) = true := by decide

theorem test_operands_4_refused : ([
    .pcieConfigurationRequest false 4096 0, .pcieConfigurationRequest false 0 (2 ^ 32), .maloaRequestRefused sBad 0 {} [], .maloaRequestRefused .pcie 0 { checksum := 3 } [],
    .ringHeadroom 160 0 false 0, .ringHeadroom 0 9 false 0, .ringHeadroom 0 0 false 101, .ptpAnnounceTimeout 2,
    .porchMonitorAlarmEnd 64, .cellarMemtestDone 4 [], .laserCmisAccess q true (zeros 129), .bar0RegisterWrite 2 0,
    .bar0SubwordAccess true 0 15, .pllUnlock 2 2, .pllUnlock 0 0, .p3Complete 0x32 [] [], .p3Complete 0 [(22, 0, 0, 0)] [],
    .p3Complete 0 [(6, 32, 0, 0)] [], .p3Complete 0 [] [(22, 0, 0)], .p3Complete 0 [] [(6, 32, 0)],
    .seamLaneFailed 13 true 8 0, .seamLaneFailed 31 true 0 2] : List Instr).all (fun c => !c.wf) = true := by decide +kernel

theorem test_operands_5_refused : ([
    .frameTransmit 0 (.corrected 1056),
    .frameTransmit 0 (.header 1056 0), .frameTransmit 0 (.header 0 3072), .frameTransmit 0 (.payload 1056 0 false),
    .frameTransmit 0 (.payload 0 3072 false), .spillReturn 0 0 (.corrected 1056) [],
    .spillReturn 0 0 (.header 1056 0) [], .spillReturn 0 0 (.header 0 3072) [], .spillReturn 0 0 (.payload 1056 0 false) [],
    .spillReturn 0 0 (.payload 0 3072 false) [], .spillReturn 0 0 .none [(2 ^ 30, .silent)],
    .spillReturn 0 0 .none [(0, .read [] false false)], .laneFault 128 8 1 false 0, .lambdaBridgeIdentified 0 (some 8),
    .laserInterrupt 0 [9], .moduleMonitorRead 0 0 0 (List.replicate 10 (0, 0)),
    .monitorWindowEnd 0 0 16 0 quiet, .monitorWindowEnd 0 0 0 9 quiet,
    .monitorWindowEnd 0 1 4 0 quiet, .monitorWindowEnd 0 1 0 8 quiet,
    .monitorWindowEnd 0 2 1 0 quiet, .monitorWindowEnd 0 3 0 9 quiet,
    .monitorWindowEnd 0 4 1 0 quiet, .monitorWindowEnd 0 5 0 8 quiet,
    .monitorWindowEnd 0 6 0 0 quiet, .dieFault 0 6, .dieFault 2 0, .dieFault 6 0, .dieFault 6 1, .dieFault 40 1, .cellarMemtestDone 0 [(2 ^ 30, .silent)], .thermalTrip 0 4 0,
    .thermalTrip 2 16 0, .thermalTrip 23 8 0, .pcieLink true 3 1, .pcieLink true 2 16, .ipAddress 0 false (2 ^ 32) false,
    .ipAddress 0 true (2 ^ 128) false, .pcieConfigurationRequest false 2 0, .thermalSample [(40, [])],
    .p1ImageChecked [] (List.replicate 4 { image := {} }) [], .p1ImageChecked (List.replicate 2 { state := 1 }) [] [],
    .p1ImageChecked (List.replicate 2 { state := 1 }) (List.replicate 4 { image := {} }) [5],
    .discoveryDone (List.replicate 40 { present := true, typeCode := 1, serial := 2 ^ 64 }) [] [],
    .deviceReset { q with src := .inband (2 ^ 20) }] : List Instr).all (fun c => !c.wf) = true := by decide

theorem test_operands_6_refused : ([
    .deviceReset { q with src := .inband 0, ingress := 1280 }, .deviceReset { q with src := .eth 0 0, ingress := 2 },
    .deviceReset { q with src := .eth (2 ^ 128) 0 }, .deviceReset { q with src := .eth 0 65536 },
    .deviceReset { q with latchkey := 65536 }, .deviceReset { q with tag := 65536 }, .deviceReset { q with token := 65536 },
    .deviceReset { q with txn := 2 ^ 32 }] : List Instr).all (fun c => !c.wf) = true := by decide

theorem test_long_request_refused : Instr.wf (.deviceReset { q with params := zeros 4081 }) = false := by decide +kernel
theorem test_long_slot_refused : Instr.wf (.requestFetch (zeros 4097) true) = false := by decide +kernel
theorem test_long_packet_refused : Instr.wf (.maloaRequestRefused .pcie 0 {} (zeros 4097)) = false := by decide +kernel

/-- The terms that those differ from in one place are well formed. -/
theorem test_good_operands : ([
    .deviceReset q, .frameReceived 1279 {}, .trainingMessageReceived 1279, .linkWordReceived 1279, .maloaRequestRefused .pcie 0 { checksum := 2 } [],
    .seamFlitReceived 38 true 31 (List.replicate 5 1) true, .seamReplay 0 false true [(0, 15)], .sillCellReceived 7 true true (some 2559),
    .cellarScrub 3 (.read (List.replicate 72 255) true false), .spillReturn 1279 7 .none [(2 ^ 30 - 1, .silent)], .laneFault 0 8 1 false 0,
    .nvTransactionCommit [(1, 0, false)], .railOutOfRange (List.replicate 10 0), .dieFault 1 0, .nvScrubBlock 1 6 {},
    .bar0RegisterWrite 0x3FFFFC 0xFFFFFFFF, .bar0SubwordAccess true 0x3FFFFF 14, .pllUnlock 1 21, .p3Complete 0x31 [(21, 31, 0, 0)] [(6, 0, 0)],
    .seamLaneFailed 13 true 7 63, .laneFault 127 8 4 true 0, .monitorWindowEnd 7 0 15 8 quiet, .dieFault 39 2,
    .thermalTrip 23 7 0, .pcieLink true 32 8, .ipAddress 1 true (2 ^ 128 - 1) false, .frameTransmit 0 (.payload 1055 3071 true),
    .discoveryDone (List.replicate 40 { present := true, typeCode := 0x11, serial := 0 }) [38] [0],
    .p1ImageChecked (List.replicate 2 { state := 1 }) (List.replicate 4 { image := {} }) [4]] : List Instr).all Instr.wf = true := by decide

/-- A pair of codewords is 2,720 symbols of the lane (R130). -/
theorem test_good_pair : Instr.wf (.codewordPairDecoded 1279 7 silence) = true := by decide +kernel

/-! ## Witnesses: what the hypotheses of each statement ask is met -/

/-! Obligations.IdleStepCountsTime -/

theorem witness_idleStepCountsTime_1 : ∃ s : State, s.pending = [] ∧ readyHeld s = none := by
  refine ⟨State.reset, ?_⟩
  decide

/-! Obligations.WellFormedCommandsComplete -/

theorem witness_wellFormedCommandsComplete_1 : ∃ c : Instr, c.wf = true := by
  refine ⟨.mailboxEnable 1, ?_⟩
  decide

/-! Obligations.StepKeepsQueueAndTime -/

theorem witness_stepKeepsQueueAndTime_1 : ∃ (s : State) (t : State), step s = .next t := by
  refine ⟨{ ready with pending := [.requestFetch [] true] }, { ready with pending := [] }, ?_⟩
  rfl

/-! Obligations.FusesOnlyRise -/

theorem witness_fusesOnlyRise_1 : ∃ (s : State) (t : State), step s = .next t := by
  refine ⟨{ ready with pending := [.requestFetch [] true] }, { ready with pending := [] }, ?_⟩
  rfl

theorem witness_fusesOnlyRise_2 : ∃ (c : Instr) (s : State) (t : State), (∀ mounts copies badRecords, c ≠ .p1ImageChecked mounts copies badRecords) ∧ c ≠ .hearthBStandbyReady ∧ exec c s = .next t := by
  refine ⟨.requestFetch [] true, ready, ready, ?_⟩
  exact ⟨by simp, by simp, rfl⟩

/-! Obligations.WireFormatsAgree -/

theorem witness_wireFormatsAgree_1 : ∃ (w : LinkWord), w.fstart < 512 ∧ w.ackSeq < 4096 ∧ w.cvcA < 8 ∧ w.credA < 256 ∧ w.cvcB < 8 ∧
    w.credB < 256 := by
  refine ⟨{ ackSeq := 4095, fstart := 511, cvcA := 7, credA := 255, cvcB := 7, credB := 255 }, ?_⟩
  decide

theorem witness_wireFormatsAgree_2 : ∃ (bs : Bytes), bs.length = 8 ∧ (crc8 (bs.take 7) ≠ u8 bs 7 ∨ 128 ≤ u8 bs 0) := by
  refine ⟨[0, 0, 0, 0, 0, 0, 0, 1], ?_⟩
  decide +kernel

theorem witness_wireFormatsAgree_3 : ∃ (f : Frame), f.kind < 16 ∧ f.tc < 8 ∧ f.res1 < 4 ∧ f.latchkey < 65536 ∧ f.destGid < 2 ^ 20 ∧ f.res6 < 16 ∧
    f.srcGid < 2 ^ 20 ∧ f.res9 < 16 ∧ f.hops < 64 ∧ f.res10 < 4 ∧ f.entropy < 256 ∧ f.e2eSeq < 2 ^ 32 ∧ f.length < 65536 ∧ f.ctx < 65536 ∧
    f.gen < 256 ∧ f.fmt < 256 ∧ f.chunk < 2 ^ 32 ∧ f.member < 65536 ∧ f.hcrc < 2 ^ 32 := by
  refine ⟨{ kind := 15, tc := 7, res1 := 3, latchkey := 65535, destGid := 2 ^ 20 - 1, res6 := 15, hops := 63, length := 65535, hcrc := 2 ^ 32 - 1 }, ?_⟩
  decide

theorem witness_wireFormatsAgree_4 : ∃ (lseq : _), lseq < 4096 := by
  refine ⟨4095, ?_⟩
  decide

theorem witness_wireFormatsAgree_5 : ∃ (m : TrainMsg), m.kind < 256 ∧ m.version < 256 ∧ m.gang < 256 ∧ m.laneIndex < 256 ∧ m.port < 65536 ∧
    m.peerType < 256 ∧ m.caps < 256 ∧ m.serial < 2 ^ 64 ∧ m.grant.length = 8 ∧ (∀ g ∈ m.grant, g < 65536) ∧ m.probeTime < 2 ^ 64 ∧
    m.expectLseq < 4096 := by
  refine ⟨{ kind := 255, gang := 8, port := 65535, peerType := 1, caps := 0, serial := 2 ^ 64 - 1, grant := List.replicate 8 65535, fresh := true, expectLseq := 4095 }, ?_⟩
  decide

theorem witness_wireFormatsAgree_7 : ∃ (a : List Nat) (b : List Nat), a.length = b.length := by
  refine ⟨[1], [2], ?_⟩
  decide

theorem witness_wireFormatsAgree_8 : ∃ (xs : List Nat), (∀ x ∈ xs, x < 1024) := by
  refine ⟨[0, 1023], ?_⟩
  decide

theorem witness_wireFormatsAgree_9 : ∃ (bs : Bytes), bs.length % 5 = 0 := by
  refine ⟨[255, 1, 2, 3, 4], ?_⟩
  decide

theorem witness_wireFormatsAgree_10 : ∃ (xs : List Nat), (∀ x ∈ xs, x < 1024) ∧ xs.length % 4 = 0 := by
  refine ⟨[1023, 0, 1, 2], ?_⟩
  decide

/-! Obligations.EventsStayBounded -/

theorem witness_eventsStayBounded_1 : ∃ (s : State) (t : State), (∀ die, (tget s.ev.queues die []).length ≤ 64) ∧ s.ev.log.length ≤ 65536 ∧
    step s = .next t := by
  refine ⟨{ ready with pending := [.requestFetch [] true] }, { ready with pending := [] }, ?_⟩
  exact ⟨fun _ => Nat.zero_le 64, by decide, rfl⟩

/-! Obligations.ReplySegments -/

theorem witness_replySegments_1 : ∃ r : ReplySeg, r.payload.length ≤ 1044480 := by
  refine ⟨{ src := .pcie, tag := 1, status := 0, opcode := 0, payload := zeros 9 }, ?_⟩
  decide

/-! Obligations.MailboxErrorStops -/

theorem witness_mailboxErrorStops_1 : ∃ s : State, s.maloa.err ≠ 0 := by
  refine ⟨{ ready with maloa := { ready.maloa with err := 1 } }, ?_⟩
  decide

theorem witness_mailboxErrorStops_2 : ∃ s : State, s.maloa.err ≠ 0 := by
  refine ⟨{ ready with maloa := { ready.maloa with err := 1 } }, ?_⟩
  decide

theorem witness_mailboxErrorStops_3 : ∃ (head : _) (s : State), bar0Takes s 0x1001C = true ∧
    2 ^ s.maloa.rplLog2 < (s.maloa.rplTail + 65536 - head % 65536) % 65536 := by
  refine ⟨65471, ready, ?_⟩
  decide

theorem witness_mailboxErrorStops_4 : ∃ (v : _) (s : State), bar0Takes s 0x10000 = true ∧ s.maloa.enable = false ∧ bit v 0 = true ∧ bit v 1 = false ∧
    2 ^ clamp 3 10 (bitsOf v 11 8) < (s.maloa.reqTail + 65536 - s.maloa.reqHead) % 65536 := by
  refine ⟨1, { ready with maloa := { ready.maloa with reqTail := 100 } }, ?_⟩
  decide

theorem witness_mailboxErrorStops_5 : ∃ s : State, (tget s.ev.queues (leadDie s) []).length < 64 := by
  refine ⟨ready, ?_⟩
  decide

/-! Obligations.StaticChoiceIsEligible -/

theorem witness_staticChoiceIsEligible_1 : ∃ e : List (Nat × Nat), e ≠ [] := by
  refine ⟨[(7, 0)], ?_⟩
  decide

theorem witness_staticChoiceIsEligible_2 : ∃ (s : State) (t : State) (f : Frame) (g : Frame), flowKey f = flowKey g ∧ hashSeed s = hashSeed t := by
  refine ⟨ready, State.reset, { kind := 0, tc := 1 }, { kind := 1, tc := 1 }, ?_⟩
  decide

/-! Obligations.NoNegativeZero -/

theorem witness_noNegativeZero_1 : ∃ (fmt : Nat) (f : FloatFmt), floatFmt fmt = some f := by
  refine ⟨10, { e := 2, m := 1, bias := 1 }, ?_⟩
  rfl

/-! Obligations.FilterSetReplaces -/

theorem witness_filterSetReplaces_1 : ∃ (q : Request) (s : State), let p := q.params
    accepted opCounterFilterSet q anyBlock s = true ∧ u8 p 0 ≤ 31 ∧ u8 p 1 ≤ 2 ∧ filterReserved p = false ∧ u32 p 8 ≤ u32 p 12 := by
  refine ⟨ask ([31, 2, 1, 0, 15] ++ zeros 15), ready, ?_⟩
  dsimp only
  decide

/-! Obligations.StartupCommandsComplete -/

theorem witness_startupCommandsComplete_1 : ∃ (q : Request) (s : State), s.boot.resetPending = false ∧ accepted opDeviceReset q anyBlock s = true ∧
    u8 q.params 0 = 1 := by
  refine ⟨ask [1, 1, 0, 0], ready, ?_⟩
  decide

theorem witness_startupCommandsComplete_2 : ∃ (q : Request) (s : State), accepted opResetCauseClear q anyBlock s = true := by
  refine ⟨ask [0, 0, 0, 0], ready, ?_⟩
  decide

theorem witness_startupCommandsComplete_3 : ∃ (q : Request) (s : State), accepted opStartupRead q anyBlock s = true ∧ s.boot.entry.length = 8 := by
  refine ⟨ask [], ready, ?_⟩
  decide

theorem witness_startupCommandsComplete_4 : ∃ (q : Request) (s : State), accepted opDeviceInfo q anyBlock s = true := by
  refine ⟨ask [], ready, ?_⟩
  decide

theorem witness_startupCommandsComplete_5 : ∃ (q : Request) (s : State), accepted opEcho q anyBlock s = true := by
  refine ⟨ask [], ready, ?_⟩
  decide

theorem witness_startupCommandsComplete_6 : ∃ (q : Request) (s : State), accepted opDieMapRead q anyBlock s = true ∧ s.boot.discDone = true := by
  refine ⟨ask [], ready, ?_⟩
  decide

theorem witness_startupCommandsComplete_7 : ∃ (q : Request) (s : State), accepted opSeamLinkRead q anyBlock s = true ∧ s.boot.discDone = true ∧
    u8 q.params 0 ≤ 38 := by
  refine ⟨ask [38, 0, 0, 0], ready, ?_⟩
  decide

/-! Obligations.TokenAndEventCommandsComplete -/

theorem witness_tokenAndEventCommandsComplete_1 : ∃ (q : Request) (s : State), accepted opTokenSet q anyBlock s = true ∧
    tokenIdOk (u16 q.params 0) = true ∧
    1 ≤ (tokenOf q.params).level ∧ (tokenOf q.params).level ≤ 3 ∧
    ((tokenOf q.params).level = 2 ∨ (tokenOf q.params).latchkey = 0) ∧
    locksOut q (u16 q.params 0) (some (tokenOf q.params)) (started q s) = false := by
  refine ⟨ask ([4, 0, 3, 7] ++ zeros 24), ready, ?_⟩
  decide

theorem witness_tokenAndEventCommandsComplete_2 : ∃ (q : Request) (s : State), accepted opTokenClear q anyBlock s = true ∧
    tokenIdOk (u16 q.params 0) = true ∧
    locksOut q (u16 q.params 0) none (started q s) = false := by
  refine ⟨ask [0, 1, 0, 0], ready, ?_⟩
  decide

theorem witness_tokenAndEventCommandsComplete_3 : ∃ (q : Request) (s : State), accepted opTokenRead q anyBlock s = true ∧
    tokenIdOk (u16 q.params 0) = true := by
  refine ⟨ask [4, 0, 0, 0], ready, ?_⟩
  decide

theorem witness_tokenAndEventCommandsComplete_4 : ∃ (q : Request) (s : State), accepted opSelfGidSet q anyBlock s = true := by
  refine ⟨ask [128, 0, 0, 1], ready, ?_⟩
  decide

theorem witness_tokenAndEventCommandsComplete_5 : ∃ (q : Request) (s : State), accepted opEventRead q anyBlock s = true ∧ 1 ≤ u8 q.params 9 ∧
    u8 q.params 9 ≤ 127 := by
  refine ⟨ask [0, 0, 0, 0, 0, 0, 0, 0, 0, 127, 0, 0], ready, ?_⟩
  decide

/-! Obligations.LinkCommandsComplete -/

theorem witness_linkCommandsComplete_1 : ∃ (q : Request) (s : State), let p := q.params
    let items := portItems p .link (zeros 4 ++ (p.drop 4).take 6 ++ zeros 2 ++ p.drop 12)
    accepted opLinkWeightsSet q anyBlock s = true ∧ firstRefusal (portRange p) = none ∧ (∀ i < 6, u8 p (4 + i) ≠ 0) ∧
    1000 ≤ u16 p 12 ∧ u16 p 12 ≤ 25000 ∧ 100 ≤ u16 p 14 ∧ u16 p 14 ≤ 10000 ∧
    stagingAllowed q items (started q s) = true := by
  refine ⟨ask [0, 0, 0, 1, 1, 1, 1, 1, 1, 1, 0, 0, 3, 232, 39, 16] 1, staging, ?_⟩
  dsimp only
  decide

theorem witness_linkCommandsComplete_2 : ∃ (q : Request) (s : State), accepted opLinkStatusRead q (portInBlock q) s = true ∧
    u16 q.params 0 < 1280 := by
  refine ⟨ask [4, 255, 0, 0], ready, ?_⟩
  decide

theorem witness_linkCommandsComplete_3 : ∃ (q : Request) (s : State), accepted opLinkRetrain q anyBlock s = true ∧ u16 q.params 0 < 1280 ∧
    phyReady (started q s) (u16 q.params 0) = true ∧
    isTraining (started q s) (u16 q.params 0) = false := by
  refine ⟨ask [0, 0, 0, 0], { ready with ports := [(0, { state := .up })] }, ?_⟩
  decide

/-! Obligations.PortCommandsComplete -/

theorem witness_portCommandsComplete_1 : ∃ (q : Request) (s : State), accepted opPortConfig q anyBlock s = true ∧
    firstRefusal (portRange q.params) = none ∧
    u8 q.params 5 ≤ 7 ∧ 1 ≤ u8 q.params 6 ∧ u8 q.params 6 ≤ 100 := by
  refine ⟨ask [4, 255, 0, 1, 0, 7, 100, 0], ready, ?_⟩
  decide

theorem witness_portCommandsComplete_2 : ∃ (q : Request) (s : State), accepted opPortStateRead q (portInBlock q) s = true ∧
    u16 q.params 0 < 1280 := by
  refine ⟨ask [4, 255, 0, 0], ready, ?_⟩
  decide

theorem witness_portCommandsComplete_3 : ∃ (q : Request) (s : State), accepted opPortEnable q anyBlock s = true ∧
    firstRefusal (portRange q.params) = none ∧
    (∀ i < u16 q.params 2, (windowAt (started q s) (windowOf (u16 q.params 0 + i))).bringUp = false) := by
  refine ⟨ask [0, 0, 0, 2, 1, 0, 0, 0], ready, ?_⟩
  decide

theorem witness_portCommandsComplete_4 : ∃ (q : Request) (s : State), let items : List Item := [{ key := .gang (16 * u8 q.params 0 + u8 q.params 1), value := q.params.drop 4 }]
    accepted opGangSet q anyBlock s = true ∧ u8 q.params 0 ≤ 7 ∧ u8 q.params 1 ≤ 15 ∧
    widthsOk ((List.range 8).map fun i => u8 q.params (4 + i)) = true ∧ stagingAllowed q items (started q s) = true := by
  refine ⟨ask [7, 15, 0, 0, 8, 8, 8, 8, 8, 8, 8, 8] 1, staging, ?_⟩
  dsimp only
  decide

theorem witness_portCommandsComplete_5 : ∃ (q : Request) (s : State), let w := u8 q.params 0
    accepted opWindowReset q anyBlock s = true ∧ w ≤ 7 ∧ (windowAt (started q s) w).bringUp = false := by
  refine ⟨ask [7, 0, 0, 0], ready, ?_⟩
  dsimp only
  decide

theorem witness_portCommandsComplete_6 : ∃ (q : Request) (s : State), accepted opLambdaMapRead q anyBlock s = true ∧ u8 q.params 0 ≤ 7 ∧
    u8 q.params 1 ≤ 15 := by
  refine ⟨ask [7, 15, 0, 0], ready, ?_⟩
  decide

theorem witness_portCommandsComplete_7 : ∃ (q : Request) (s : State), let n := u16 q.params 0
    let mode := u8 q.params 2
    accepted opPortLoopback q anyBlock s = true ∧ n < 1280 ∧ mode ≤ 3 ∧ (portCode (started q s) n = 0 ∨ portCode (started q s) n = 9) ∧
      (windowAt (started q s) (windowOf n)).inService = true := by
  refine ⟨ask [0, 0, 3, 0], { ready with windows := [(0, { inService := true })], ports := [(0, { state := .disabled })] }, ?_⟩
  dsimp only
  decide

theorem witness_portCommandsComplete_8 : ∃ (q : Request) (s : State), let n := u16 q.params 0
    accepted opPrbsRun q anyBlock s = true ∧ n < 1280 ∧ u8 q.params 2 ≤ 1 ∧ 1 ≤ u32 q.params 4 ∧ u32 q.params 4 ≤ 60000 ∧
      (portCode (started q s) n = 0 ∨ portCode (started q s) n = 9) ∧ (windowAt (started q s) (windowOf n)).inService = true ∧
      (portAt (started q s) n).prbs = none := by
  refine ⟨ask [0, 0, 1, 0, 0, 0, 234, 96], { ready with windows := [(0, { inService := true })], ports := [(0, { state := .disabled })] }, ?_⟩
  dsimp only
  decide

/-! Obligations.LightCommandsComplete -/

theorem witness_lightCommandsComplete_1 : ∃ (q : Request) (s : State) (t : _), let w := u8 q.params 0
    let side := u8 q.params 1 + 1
    let m := moduleOf w side
    let a := if bit (u8 q.params 2) 1 then
        modModule m (fun x => { x with lasers := x.lasers.map fun y => { y with failed := false } }) (started q s) else started q s
    accepted opLaserSwitch q anyBlock s = true ∧ w ≤ 7 ∧ u8 q.params 1 ≤ 1 ∧ lightBusy (started q s) w = false ∧
    (moduleAt (started q s) m).state = 2 ∧ startSwitch w side 1 (bit (u8 q.params 2) 0) (List.range 9) a = some t := by
  refine ⟨ask [0, 1, 0, 0], { ready with modules := [(1, { state := 2, lasers := List.replicate 9 { on := true } })], light := [(0, { points := [((3, 0, 0), { windows := [(0, some 1700, false)] })] })] }, (startSwitch 0 2 1 false (List.range 9) (started (ask [0, 1, 0, 0]) { ready with modules := [(1, { state := 2, lasers := List.replicate 9 { on := true } })], light := [(0, { points := [((3, 0, 0), { windows := [(0, some 1700, false)] })] })] })).get (by decide), ?_⟩
  dsimp only
  exact ⟨by decide, by decide, by decide, by decide, by decide, (Option.some_get _).symm⟩

theorem witness_lightCommandsComplete_2 : ∃ (q : Request) (s : State), accepted opLaserStateRead q anyBlock s = true ∧ u8 q.params 0 ≤ 15 := by
  refine ⟨ask [15, 0, 0, 0], ready, ?_⟩
  decide

theorem witness_lightCommandsComplete_3 : ∃ (q : Request) (s : State), let p := q.params
    let m := u8 p 0
    let n := u8 p 5
    let wr := decide (u8 p 1 = 1)
    accepted opLaserCmisAccess q anyBlock s = true ∧ m ≤ 15 ∧ u8 p 1 ≤ 1 ∧ 1 ≤ n ∧ n ≤ 128 ∧ u8 p 4 + n ≤ 256 ∧
    p.length = 8 + (if wr then ceilDiv n 4 * 4 else 0) ∧
    (wr = false ∨ (128 ≤ u8 p 4 ∧ u8 p 3 < 16) ∨ activeOn (started q s) (m / 2) (sideOf m) = []) ∧
    2 ≤ (moduleAt (started q s) m).state := by
  refine ⟨ask [1, 0, 0, 0, 0, 128, 0, 0], { ready with modules := [(1, { state := 2, lasers := List.replicate 9 { on := true } })], light := [(0, { points := [((3, 0, 0), { windows := [(0, some 1700, false)] })] })] }, ?_⟩
  dsimp only
  decide

theorem witness_lightCommandsComplete_4 : ∃ (q : Request) (s : State), accepted opRxPowerRead q (rxInBlock q) s = true ∧ u8 q.params 0 ≤ 7 ∧
    u8 q.params 1 ≤ 5 ∧
    u8 q.params 2 ≤ (if u8 q.params 1 = 0 then 15 else if u8 q.params 1 = 1 then 3 else 0) := by
  refine ⟨ask [7, 0, 15, 0], ready, ?_⟩
  decide

theorem witness_lightCommandsComplete_5 : ∃ (q : Request) (s : State), let p := q.params
    let v (i : Nat) : Int := signedOf 16 (u16 p i)
    let cls := u8 p 1
    accepted opMonitorConfig q anyBlock s = true ∧ (u8 p 0 ≤ 7 ∨ u8 p 0 = 255) ∧ cls ≤ 2 ∧ u8 p 2 ≤ 3 ∧ 1 ≤ u8 p 3 ∧ u8 p 3 ≤ 64 ∧
    v 4 < v 6 ∧ v 6 < v 8 ∧ v 8 < v 10 ∧ v 10 < v 12 ∧
    (cls = 2 → 1400 ≤ v 14 ∧ v 14 ≤ 1800 ∧ v 8 < v 14 ∧ v 14 < v 10) := by
  refine ⟨ask [255, 2, 0, 64, 244, 72, 248, 48, 252, 24, 7, 208, 11, 84, 7, 8], ready, ?_⟩
  dsimp only
  decide

theorem witness_lightCommandsComplete_6 : ∃ (q : Request) (s : State), accepted opBiasLimitsSet q anyBlock s = true ∧
    (u8 q.params 0 ≤ 15 ∨ u8 q.params 0 = 255) ∧ 95 ≤ u8 q.params 1 ∧
    u8 q.params 1 ≤ 100 := by
  refine ⟨ask [255, 100, 0, 0], ready, ?_⟩
  decide

/-! Obligations.TransomCommandsComplete -/

theorem witness_transomCommandsComplete_1 : ∃ (q : Request) (s : State), let p := q.params
    let w := u8 p 0
    let first := u8 p 1
    let n := u8 p 2
    let word (i : Nat) : Nat := u32 p (4 + 4 * i)
    let after (i : Nat) : Nat :=
      if first ≤ i && i < first + n then word (i - first)
      else u32 (seenValue (started q s) (txnAt (started q s) q.txn) (.entry 6 (32 * w + i))) 0
    let items : List Item := (List.range n).map fun i =>
      { key := .entry 6 (32 * w + first + i), value := beBytes 4 (word i / 2 ^ 26 * 2 ^ 26 + word i % 2 ^ 16) }
    accepted opTransomMapWrite q anyBlock s = true ∧ w ≤ 7 ∧ first ≤ 31 ∧ 1 ≤ n ∧ first + n ≤ 32 ∧ p.length = 4 + 4 * n ∧
    (∀ i < n, firstRefusal (transomWordChecks (4 + 4 * i) (word i)) = none) ∧
    (∀ i < n, entryConflict after (first + i) = false) ∧ stagingAllowed q items (started q s) = true := by
  refine ⟨ask [7, 31, 1, 0, 0, 0, 0, 0] 1, staging, ?_⟩
  dsimp only
  decide

theorem witness_transomCommandsComplete_2 : ∃ (q : Request) (s : State), accepted opTransomMapRead q anyBlock s = true ∧ u8 q.params 0 ≤ 7 := by
  refine ⟨ask [7, 0, 0, 0], ready, ?_⟩
  decide

theorem witness_transomCommandsComplete_3 : ∃ (q : Request) (s : State), accepted opTransomPathCheck q anyBlock s = true ∧ u8 q.params 0 ≤ 7 ∧
    u8 q.params 1 ≤ 31 ∧ u8 q.params 2 ≤ 7 := by
  refine ⟨ask [7, 31, 7, 0, 0, 0, 0, 0], ready, ?_⟩
  decide

/-! Obligations.TableCommandsComplete -/

theorem witness_tableCommandsComplete_1 : ∃ (q : Request) (s : State), let p := q.params
    let first := u32 p 0 % 2 ^ 20
    let n := u32 p 4
    let same := bit (u8 p 8) 0
    let items : List Item := (List.range n).map fun i =>
      { key := .entry 1 (first + i), value := beBytes 4 (withParity (u32 p (if same then 12 else 12 + 4 * i))) }
    accepted opRouteWriteRange q anyBlock s = true ∧ 1 ≤ n ∧ first + n ≤ 1048576 ∧ (same = true ∨ n ≤ 1017) ∧
    p.length = (if same then 16 else 12 + 4 * n) ∧ stagingAllowed q items (started q s) = true := by
  refine ⟨ask [0, 15, 255, 255, 0, 0, 0, 1, 0, 0, 0, 0, 0, 0, 0, 5] 1, staging, ?_⟩
  dsimp only
  decide

theorem witness_tableCommandsComplete_2 : ∃ (q : Request) (s : State), let p := q.params
    let n := u8 p 2
    let cs := (List.range n).map fun i => (u16 p (4 + 2 * i) / 32, u16 p (4 + 2 * i) % 32)
    let items : List Item := [{ key := .entry 2 (u16 p 0), value := wordBytes (pathsetWords cs) }]
    accepted opPathsetWrite q anyBlock s = true ∧ u16 p 0 < 16384 ∧ n ≤ 64 ∧ (∀ c ∈ cs, c.1 < 1280 ∧ c.2 ≠ 0) ∧
    ((cs.map (·.1)).eraseDups).length = cs.length ∧ p.length = 4 + 4 * ceilDiv n 2 ∧
    stagingAllowed q items (started q s) = true := by
  refine ⟨ask [63, 255, 2, 0, 0, 1, 0, 33] 1, staging, ?_⟩
  dsimp only
  decide

theorem witness_tableCommandsComplete_3 : ∃ (q : Request) (s : State), let p := q.params
    let items : List Item := [{ key := .entry 3 (u16 p 0)
                                value := beBytes 4 (b2n (bit (u8 p 2) 0) * 2 ^ 31 + b2n (bit (u8 p 2) 1) * 2 ^ 30) ++ p.drop 4 }]
    accepted opMcastWrite q anyBlock s = true ∧ stagingAllowed q items (started q s) = true := by
  refine ⟨ask (zeros 164) 1, staging, ?_⟩
  dsimp only
  decide +kernel

theorem witness_tableCommandsComplete_4 : ∃ (q : Request) (s : State), let p := q.params
    let items : List Item := [{ key := .flowletCfg, value := [byteOf (u8 p 0), 0] ++ p.drop 2 }]
    accepted opFlowletConfig q anyBlock s = true ∧ u8 p 0 ≤ 2 ∧ 1 ≤ u16 p 2 ∧ u16 p 2 ≤ 16384 ∧
    stagingAllowed q items (started q s) = true := by
  refine ⟨ask [2, 0, 64, 0, 0, 0, 0, 0] 1, staging, ?_⟩
  dsimp only
  decide

theorem witness_tableCommandsComplete_5 : ∃ (q : Request) (s : State), let w (c : Nat) : Nat := u32 q.params (4 * c)
    let items : List Item := { key := .stairAll, value := [] } :: (List.range 8).map fun c =>
      { key := .entry 4 c, value := beBytes 4 (w c) }
    accepted opStairConfig q anyBlock s = true ∧ (∀ c < 8, 1 ≤ w c / 65536 ∧ w c % 256 ≤ 2) ∧
    stagingAllowed q items (started q s) = true := by
  refine ⟨ask [0, 1, 0, 2, 0, 1, 0, 2, 0, 1, 0, 2, 0, 1, 0, 2, 0, 1, 0, 2, 0, 1, 0, 2, 0, 1, 0, 2, 0, 1, 0, 2] 1, staging, ?_⟩
  dsimp only
  decide

theorem witness_tableCommandsComplete_6 : ∃ (q : Request) (s : State), accepted opChuteRead q anyBlock s = true ∧ u8 q.params 0 ≤ 3 ∧
    1 ≤ u8 q.params 8 ∧ u8 q.params 8 ≤ 27 := by
  refine ⟨ask [3, 0, 0, 0, 0, 0, 0, 0, 27, 0, 0, 0], ready, ?_⟩
  decide

theorem witness_tableCommandsComplete_7 : ∃ (q : Request) (s : State), let p := q.params
    let table := u8 p 0
    let i := u32 p 4
    let n := u16 p 8
    accepted opTableRead q anyBlock s = true ∧ q.txn = 0 ∧ u8 p 1 = 1 ∧ firstRefusal (tableChecks true table i) = none ∧
    u8 p 2 ≤ 3 ∧ u8 p 3 ≤ 1 ∧ 1 ≤ n ∧ n * tableWords table ≤ 1018 ∧ i + n ≤ tableSize table := by
  refine ⟨ask [5, 1, 3, 0, 0, 3, 255, 255, 0, 1, 0, 0], ready, ?_⟩
  dsimp only
  decide

theorem witness_tableCommandsComplete_8 : ∃ (q : Request) (s : State), let p := q.params
    let table := u8 p 0
    let i := u32 p 4
    let n := u16 p 8
    let a := started q s
    accepted opTableRead q anyBlock s = true ∧ u8 p 1 = 0 ∧
    (q.txn = 0 ∨ ownTxnRefused q false (· = .failed) a = none) ∧ firstRefusal (tableChecks true table i) = none ∧ table ≠ 5 ∧
    u8 p 2 ≤ 3 ∧ u8 p 3 ≤ 1 ∧ 1 ≤ n ∧ n * tableWords table ≤ 1018 ∧ i + n ≤ tableSize table := by
  refine ⟨ask [1, 0, 0, 0, 0, 0, 0, 0, 0, 1, 0, 0], ready, ?_⟩
  dsimp only
  decide

theorem witness_tableCommandsComplete_9 : ∃ (q : Request) (s : State), let table := u8 q.params 0
    let r := engineWrite q 4 8 table (u32 q.params 4) (bytesWords (tableWords table) (q.params.drop 8)) (started q s)
    accepted opTableWrite q anyBlock s = true ∧ firstRefusal (tableChecks false table (u32 q.params 4)) = none ∧
      q.params.length = 8 + 4 * tableWords table ∧ r.1.refuse.status = 0 := by
  refine ⟨ask [1, 0, 0, 0, 0, 15, 255, 255, 0, 0, 0, 0] 1, staging, ?_⟩
  dsimp only
  decide

theorem witness_tableCommandsComplete_10 : ∃ (q : Request) (bad : _) (s : State), let table := u8 q.params 0
    let n := tableWords table
    let r := engineCompareWrite q 4 (8 + 4 * n) table (u32 q.params 4) bad (bytesWords n (q.params.drop 8))
      (bytesWords n (q.params.drop (8 + 4 * n))) (started q s)
    accepted opTableCompareWrite q anyBlock s = true ∧ firstRefusal (tableChecks false table (u32 q.params 4)) = none ∧
      q.params.length = 8 + 8 * n ∧ r.1.refuse.status = 0 := by
  refine ⟨ask ([1, 0, 0, 0, 0, 0, 0, 1] ++ zeros 8) 1, false, staging, ?_⟩
  dsimp only
  decide

theorem witness_tableCommandsComplete_11 : ∃ (q : Request) (s : State), accepted opTableClearAge q anyBlock s = true ∧ u8 q.params 0 = 5 ∧
    u8 q.params 1 ≤ 3 ∧ u32 q.params 4 < 262144 := by
  refine ⟨ask [5, 3, 0, 0, 0, 3, 255, 255], ready, ?_⟩
  decide

/-! Obligations.TransactionCommandsComplete -/

theorem witness_transactionCommandsComplete_1 : ∃ (q : Request) (s : State), let p := q.params
    let dev := decide (u8 p 0 = 1)
    let c := callerOf (tracked q s) q
    let a := started q s
    accepted opTxnBegin q (fun _ own => u8 q.params 0 ≠ 0 || u16 q.params 2 = own) s = true ∧ u8 p 0 ≤ 1 ∧
    (dev = true → c.level = ownerLevel ∧ u16 p 2 = 0) ∧ (dev = false → (blockAt a (u16 p 2)).isSome = true) ∧ u16 p 4 ≤ 3600 ∧
    (∀ t ∈ a.setup.txns, ¬(t.device = dev ∧ t.latchkey = u16 p 2)) := by
  refine ⟨ask [1, 0, 0, 0, 14, 16, 0, 0], ready, ?_⟩
  dsimp only
  decide

theorem witness_transactionCommandsComplete_2 : ∃ (q : Request) (bad : _) (s : State) (t : Txn), let a := started q s
    let r := shadowsGood t.handle bad a
    let d := draw 2000001 r.2
    accepted opTxnCommit q anyBlock s = true ∧ q.txn ≠ 0 ∧ ownTxnRefused q false (fun _ => false) a = none ∧ txnAt a q.txn = some t ∧
      t.state = .opened ∧ busyBlock a t = none ∧ r.1 = true ∧ commitRefusal t a = none ∧ (u64 q.params 0 = 0 ∨ (u64 q.params 0 % 1024 = 0 ∧
      u64 q.params 0 ≤ mantel a + 10 * second ∧ mantel r.2 + d.1 + 2048 ≤ u64 q.params 0)) := by
  refine ⟨ask (zeros 8) 1, [], staging, opened, ?_⟩
  dsimp only
  decide

theorem witness_transactionCommandsComplete_3 : ∃ (q : Request) (s : State) (t : _), let a := started q s
    accepted opTxnRollback q anyBlock s = true ∧ q.txn ≠ 0 ∧
    ownTxnRefused q (decide ((callerOf (tracked q s) q).level = ownerLevel)) (· = .committing) a = none ∧ txnAt a q.txn = some t := by
  refine ⟨ask [] 1, staging, opened, ?_⟩
  dsimp only
  decide

theorem witness_transactionCommandsComplete_4 : ∃ (q : Request) (s : State) (t : _), accepted opTxnStatus q (fun s own => match txnAt s (u32 q.params 0) with
      | none => true
      | some t => !t.device && t.latchkey = own) s = true ∧ txnAt (started q s) (u32 q.params 0) = some t := by
  refine ⟨ask [0, 0, 0, 1], staging, opened, ?_⟩
  decide

/-! Obligations.SnapshotCommandsComplete -/

theorem witness_snapshotCommandsComplete_1 : ∃ (q : Request) (s : State), let a := started q s
    let device := decide (u8 q.params 0 = 1)
    let n := takeSnapshot a device (u16 q.params 2)
    accepted opSnapshotSave q anyBlock s = true ∧ u8 q.params 0 ≤ 1 ∧ (device = true → u16 q.params 2 = 0) ∧
    (device = false → (blockAt a (u16 q.params 2)).isSome = true) ∧ snapshotAt a n.digest = none ∧
    a.nv.snapshots.length < 64 ∧ storeUp a = true := by
  refine ⟨ask [1, 0, 0, 0], stored, ?_⟩
  dsimp only
  decide

theorem witness_snapshotCommandsComplete_2 : ∃ (q : Request) (s : State), let a := started q s
    let device := decide (u8 q.params 0 = 1)
    let n := takeSnapshot a device (u16 q.params 2)
    accepted opSnapshotSave q anyBlock s = true ∧ u8 q.params 0 ≤ 1 ∧ (device = true → u16 q.params 2 = 0) ∧
    (device = false → (blockAt a (u16 q.params 2)).isSome = true) ∧ (snapshotAt a n.digest).isSome = true := by
  refine ⟨ask [1, 0, 0, 0], saved, ?_⟩
  dsimp only
  refine ⟨by decide, by decide, by decide, by decide, ?_⟩
  show (List.find? (fun x => decide (x.digest = (takeSnapshot (started (ask [1, 0, 0, 0]) saved) true 0).digest))
    [takeSnapshot stored true 0]).isSome = true
  rw [saved_digest]; simp

theorem witness_snapshotCommandsComplete_3 : ∃ (q : Request) (obs : NvReadObs) (s : State) (n : Snapshot) (t : Txn), let d := u64 q.params 0
    let b := started q s
    let cached := b.cellar.snapshots.contains d && !obs.cachedBad
    let a := cacheSnapshot d (if cached then b else nvReadEffects 6 n.content.length obs (dropCached d b))
    let items := snapshotDiff a n
    accepted opSnapshotApply q anyBlock s = true ∧ snapshotAt b d = some n ∧ txnAt b q.txn = some t ∧ n.device = t.device ∧
      n.latchkey = t.latchkey ∧ (cached = true ∨ nvLost obs b = false) ∧ stagingAllowed q items a = true ∧
      (∀ w < 8, (∃ i ∈ items, ∃ e, i.key = .entry 6 e ∧ e / 32 = w) → stagedMapOk (withStaged q items a) q.txn w = true) ∧
      namesOutOfService a n = false := by
  refine ⟨ask [0, 0, 0, 0, 0, 0, 0, 5] 1, {}, { staging with blocks := [], nv := { stored.nv with snapshots := [{ digest := 5, device := true, latchkey := 0, secs := 0, content := [], items := [] }] } }, { digest := 5, device := true, latchkey := 0, secs := 0, content := [], items := [] }, opened, ?_⟩
  refine ⟨by decide, by decide, by decide, by decide, by decide, by decide, by decide, ?_, by decide⟩
  rintro w _ ⟨i, hi, _⟩
  exact absurd (show i ∈ ([] : List Item) from hi) List.not_mem_nil

theorem witness_snapshotCommandsComplete_4 : ∃ (q : Request) (s : State), accepted opSnapshotList q anyBlock s = true := by
  refine ⟨ask [], ready, ?_⟩
  decide

theorem witness_snapshotCommandsComplete_5 : ∃ (q : Request) (s : State), let a := started q s
    accepted opSnapshotDelete q anyBlock s = true ∧ (snapshotAt a (u64 q.params 0)).isSome = true ∧ storeUp a = true := by
  refine ⟨ask [0, 0, 0, 0, 0, 0, 0, 5], { stored with nv := { stored.nv with snapshots := [{ digest := 5, device := true, latchkey := 0, secs := 0, content := [], items := [] }] } }, ?_⟩
  dsimp only
  decide

theorem witness_snapshotCommandsComplete_6 : ∃ (q : Request) (s : State), let a := started q s
    accepted opSnapshotSetBoot q anyBlock s = true ∧
    (u64 q.params 0 = 0 ∨ (snapshotAt a (u64 q.params 0)).isSome = true) ∧
    (∀ n, snapshotAt a (u64 q.params 0) = some n → n.device = true) ∧ storeUp a = true := by
  refine ⟨ask [0, 0, 0, 0, 0, 0, 0, 5], { stored with nv := { stored.nv with snapshots := [{ digest := 5, device := true, latchkey := 0, secs := 0, content := [], items := [] }] } }, ?_⟩
  dsimp only
  decide

/-! Obligations.PartitionCommandsComplete -/

theorem witness_partitionCommandsComplete_1 : ∃ (q : Request) (s : State), let p := q.params
    let b := layoutOf p {}
    let a := started q s
    let items : List Item := [{ key := .block (u16 p 0), value := p }]
    accepted opBlockCreate q anyBlock s = true ∧ (notDevice q a).1 = false ∧ u16 p 0 ≠ 0 ∧ u16 p 0 ≠ 0xFFFF ∧ u8 p 3 ≤ 64 ∧
      (b.hasCtx = true → b.ctxFirst ≤ b.ctxLast) ∧ (b.hasCtx = false → b.ctxFirst = 0 ∧ b.ctxLast = 0) ∧ p.length = 60 + 8 * u8 p 3 ∧
      (∀ r ∈ b.ranges, r.2 ≠ 0 ∧ r.1 + r.2 ≤ 1048576) ∧ (b.ranges.Pairwise fun x r => ¬(r.1 < x.1 + x.2 ∧ x.1 < r.1 + r.2)) ∧
      keyInUse a (namedTxn q a) (u16 p 0) = bit (u8 p 2) 0 ∧ stagingAllowed q items a = true := by
  refine ⟨ask [255, 254, 0, 1, 0, 0, 0, 0, 0, 0, 0, 0, 0, 0, 0, 0, 0, 0, 0, 0, 0, 0, 0, 0, 0, 0, 0, 0, 0, 0, 0, 0, 0, 0, 0, 0, 0, 0, 0, 0, 0, 0, 0, 0, 0, 0, 0, 0, 0, 0, 0, 0, 0, 0, 0, 0, 0, 0, 0, 0, 0, 15, 255, 255, 0, 0, 0, 1] 1, staging, ?_⟩
  dsimp only
  decide

theorem witness_partitionCommandsComplete_2 : ∃ (q : Request) (s : State), let key := u16 q.params 0
    let a := started q s
    let items : List Item := [{ key := .block key, value := beBytes 2 key ++ zeros 2 }]
    accepted opBlockDelete q anyBlock s = true ∧ (notDevice q a).1 = false ∧ keyInUse a (namedTxn q a) key = true ∧
    stagingAllowed q items a = true := by
  refine ⟨ask [0, 2, 0, 0] 1, staging, ?_⟩
  dsimp only
  decide

theorem witness_partitionCommandsComplete_3 : ∃ (q : Request) (s : State), accepted opBlockRead q (fun _ own => u16 q.params 0 = own) s = true ∧
    u16 q.params 0 = 0 := by
  refine ⟨ask [0, 0, 0, 0], ready, ?_⟩
  decide

theorem witness_partitionCommandsComplete_4 : ∃ (q : Request) (s : State) (b : _), accepted opBlockRead q (fun _ own => u16 q.params 0 = own) s = true ∧ u16 q.params 0 ≠ 0 ∧
    blockAt (started q s) (u16 q.params 0) = some b := by
  refine ⟨ask [0, 2, 0, 0], staging, { hasCtx := true, ctxLast := 9 }, ?_⟩
  decide

theorem witness_partitionCommandsComplete_5 : ∃ (q : Request) (s : State), let p := q.params
    let key := u16 p 0
    let a := started q s
    let items : List Item := [{ key := .pool key, value := beBytes 2 key ++ zeros 2 ++ (poolFrom p).bytes.take 9 ++ zeros 3 }]
    accepted opBlockPoolSet q anyBlock s = true ∧ (notDevice q a).1 = false ∧ u16 p 4 ≤ 2048 ∧ 1 ≤ u16 p 6 ∧ u16 p 6 ≤ 3072 ∧
    u16 p 8 ≤ 1024 ∧ u16 p 10 ≤ 1024 ∧ 1 ≤ u8 p 12 ∧ u16 p 4 ≤ u16 p 6 ∧ (key = 0 ∨ keyInUse a (namedTxn q a) key = true) ∧
    stagingAllowed q items a = true := by
  refine ⟨ask [0, 2, 0, 0, 8, 0, 12, 0, 4, 0, 4, 0, 1, 0, 0, 0] 1, staging, ?_⟩
  dsimp only
  decide

theorem witness_partitionCommandsComplete_6 : ∃ (q : Request) (s : State), let a := started q s
    accepted opGrantSet q anyBlock s = true ∧ u8 q.params 2 < 16 ∧ (blockAt a (u16 q.params 0)).isSome = true := by
  refine ⟨ask [0, 2, 15, 0], staging, ?_⟩
  dsimp only
  decide

theorem witness_partitionCommandsComplete_7 : ∃ (q : Request) (s : State) (b : _), let key := u16 q.params 0
    let a := started q s
    accepted opBlockQuiesce q (fun _ own => u16 q.params 0 = own) s = true ∧ blockAt a key = some b ∧ u32 q.params 4 ≤ 500000 := by
  refine ⟨ask [0, 2, 0, 0, 0, 7, 161, 32], staging, { hasCtx := true, ctxLast := 9 }, ?_⟩
  dsimp only
  decide

theorem witness_partitionCommandsComplete_8 : ∃ (q : Request) (s : State), let key := u16 q.params 0
    let a := started q s
    accepted opBlockResume q (fun _ own => u16 q.params 0 = own) s = true ∧ (blockAt a key).isSome = true := by
  refine ⟨ask [0, 2, 0, 0], staging, ?_⟩
  dsimp only
  decide

/-! Obligations.BufferCommandsComplete -/

theorem witness_bufferCommandsComplete_1 : ∃ (q : Request) (s : State), let p := q.params
    let items : List Item := if u8 p 0 = 0 then (setBits 4 (u8 p 1)).map fun h =>
        { key := .hallBuf h, value := zeros 4 ++ (p.drop 4).take 3 ++ zeros 1 ++ (p.drop 8).take 34 ++ zeros 2 }
      else (List.range (u16 p 6)).map fun i => { key := .grant (u16 p 4 + i), value := p.drop 8 }
    accepted opBufferConfig q anyBlock s = true ∧ u8 p 0 ≤ 1 ∧
    firstRefusal (if u8 p 0 = 0 then hallChecks p else grantChecks p) = none ∧ stagingAllowed q items (started q s) = true := by
  refine ⟨ask [0, 15, 0, 0, 0, 0, 0, 0, 0, 3, 3, 3, 3, 0, 0, 0, 0, 0, 0, 0, 9, 9, 9, 9, 0, 1, 0, 2, 0, 2, 0, 1, 0, 1, 0, 8, 0, 1, 0, 0, 16, 0, 0, 0] 1, staging, ?_⟩
  dsimp only
  decide

theorem witness_bufferCommandsComplete_2 : ∃ (q : Request) (s : State), let a := started q s
    let n := u16 q.params 2
    accepted opBufferRead q anyBlock s = true ∧ u8 q.params 0 ≤ 3 ∧
    (bit (u8 q.params 1) 0 = true → n < 1280 ∧ hallOf n = u8 q.params 0 ∧ gangBase a n = n) := by
  refine ⟨ask [3, 1, 4, 255], ready, ?_⟩
  dsimp only
  decide

theorem witness_bufferCommandsComplete_3 : ∃ (q : Request) (s : State), accepted opCellarStatus q anyBlock s = true ∧ u8 q.params 0 ≤ 3 ∧
    4 ≤ (started q s).boot.phase := by
  refine ⟨ask [3, 0, 0, 0], ready, ?_⟩
  decide

theorem witness_bufferCommandsComplete_4 : ∃ (q : Request) (s : State), let p := q.params
    let halls := setBits 4 (u8 p 0)
    let items : List Item := halls.map fun h => { key := .regulator h (u8 p 1), value := p.drop 4 }
    accepted opCellarRegulatorSet q anyBlock s = true ∧ 1 ≤ u8 p 0 ∧ u8 p 0 < 16 ∧ u8 p 1 ≤ 4 ∧ 1 ≤ u32 p 4 ∧ u32 p 4 ≤ 262144 ∧
    64 ≤ u32 p 8 ∧ u32 p 8 ≤ 4194304 ∧ 4 ≤ (started q s).boot.phase ∧ stagingAllowed q items (started q s) = true := by
  refine ⟨ask [15, 4, 0, 0, 0, 4, 0, 0, 0, 0, 0, 64] 1, staging, ?_⟩
  dsimp only
  decide

theorem witness_bufferCommandsComplete_5 : ∃ (q : Request) (s : State), let p := q.params
    let h := u8 p 0
    let first := u32 p 4
    let a := started q s
    accepted opCellarMemtest q anyBlock s = true ∧ h ≤ 3 ∧ u8 p 1 ≤ 1 ∧ first < 2 ^ 30 ∧ 1 ≤ u32 p 8 ∧ first + u32 p 8 ≤ 2 ^ 30 ∧
    (u8 p 1 = 1 → partBase a 0 * 2 ^ 22 ≤ first ∧ ((hallAt a h).spillUsed.map (·.2)).sum = 0) ∧ 4 ≤ a.boot.phase ∧
    (tget a.zones (hallDie h) {}).level < 2 ∧ tfind a.cellar.tests h = none := by
  refine ⟨ask [3, 0, 0, 0, 63, 255, 255, 255, 0, 0, 0, 1], ready, ?_⟩
  dsimp only
  decide

/-! Obligations.SchedulingCommandsComplete -/

theorem witness_schedulingCommandsComplete_1 : ∃ (q : Request) (s : State), let p := q.params
    let n := u16 p 2
    let tc := u8 p 1
    let a := started q s
    accepted opMeterSet q anyBlock s = true ∧ q.txn = 0 ∧ u8 p 0 ≤ 1 ∧ u8 p 4 < 8 ∧ bit (u8 p 4) 2 = true ∧ 1 ≤ tc ∧ tc ≤ 5 ∧
      (u8 p 0 = 0 → n < 1280 ∧ setBits 4 (u8 p 7) = []) ∧ (u8 p 0 = 1 → setBits 4 (u8 p 7) ≠ [] ∧ (blockAt a n).isSome = true) ∧ u8 p 5 ≤ 1 ∧
      u8 p 6 ≤ 2 ∧ u8 p 7 < 16 := by
  refine ⟨ask ([1, 5, 0, 2, 4, 1, 2, 15] ++ zeros 16), staging, ?_⟩
  dsimp only
  decide

theorem witness_schedulingCommandsComplete_2 : ∃ (q : Request) (s : State), let p := q.params
    let n := u16 p 2
    let tc := u8 p 1
    let halls := setBits 4 (u8 p 7)
    let a := started q s
    let v := p.take 7 ++ zeros 1 ++ p.drop 8
    let items : List Item := if u8 p 0 = 0 then [{ key := .meterPort n tc, value := v }]
      else halls.map fun h => { key := .meterBlock h n tc, value := v }
    accepted opMeterSet q anyBlock s = true ∧ firstRefusal (formTxnRefused opMeterSet true q a) = none ∧ u8 p 0 ≤ 1 ∧ u8 p 4 < 4 ∧ 1 ≤ tc ∧
      tc ≤ 5 ∧ (u8 p 0 = 0 → n < 1280 ∧ halls = []) ∧ (u8 p 0 = 1 → halls ≠ [] ∧ keyInUse a (namedTxn q a) n = true) ∧ u8 p 5 ≤ 1 ∧ u8 p 6 ≤ 2 ∧
      u8 p 7 < 16 ∧ 1 ≤ u32 p 8 ∧ u32 p 8 ≤ u32 p 16 ∧ u32 p 16 ≤ 1600000 ∧ 4128 ≤ u32 p 12 ∧ u32 p 12 ≤ 16777216 ∧ 4128 ≤ u32 p 20 ∧
      u32 p 20 ≤ 16777216 ∧ stagingAllowed q items a = true := by
  refine ⟨ask [1, 5, 0, 2, 3, 1, 2, 15, 0, 0, 0, 1, 0, 0, 16, 32, 0, 24, 106, 0, 1, 0, 0, 0] 1, staging, ?_⟩
  dsimp only
  decide

theorem witness_schedulingCommandsComplete_3 : ∃ (q : Request) (s : State), accepted opMeterRead q (fun s key => if u8 q.params 0 = 0 then portInBlock { q with params := q.params.drop 2 } s key
        else u16 q.params 2 = key) s = true ∧
    u8 q.params 0 ≤ 1 ∧ 1 ≤ u8 q.params 1 ∧ u8 q.params 1 ≤ 5 ∧ u8 q.params 4 ≤ 3 ∧
    (u8 q.params 0 = 0 → u16 q.params 2 < 1280 ∧ u8 q.params 4 = 0) ∧
    (u8 q.params 0 = 1 → (blockAt (started q s) (u16 q.params 2)).isSome = true) := by
  refine ⟨ask [0, 5, 4, 255, 0, 0, 0, 0], ready, ?_⟩
  decide

theorem witness_schedulingCommandsComplete_4 : ∃ (q : Request) (s : State), let p := q.params
    let vc := u8 p 4
    let rate : Nat := if bit (u8 p 5) 1 then 1000000 else 1600000
    let burst : Nat := if bit (u8 p 5) 1 then 65536 else 16777216
    let items := portItems p (fun n => .shaper n vc) (zeros 4 ++ p.drop 4)
    accepted opShaperSet q anyBlock s = true ∧ firstRefusal (portRange p) = none ∧ 1 ≤ vc ∧ vc ≤ 5 ∧ u8 p 5 < 4 ∧
    -32 ≤ signedOf 16 (u16 p 6) ∧ signedOf 16 (u16 p 6) ≤ 255 ∧ 1 ≤ u32 p 8 ∧ u32 p 8 ≤ u32 p 16 ∧ u32 p 16 ≤ rate ∧
    1 ≤ u32 p 12 ∧ u32 p 12 ≤ burst ∧ 1 ≤ u32 p 20 ∧ u32 p 20 ≤ burst ∧ stagingAllowed q items (started q s) = true := by
  refine ⟨ask [4, 255, 0, 1, 5, 3, 255, 224, 0, 15, 66, 64, 0, 1, 0, 0, 0, 15, 66, 64, 0, 0, 0, 1] 1, staging, ?_⟩
  dsimp only
  decide

theorem witness_schedulingCommandsComplete_5 : ∃ (q : Request) (s : State), accepted opShaperRead q (portInBlock q) s = true ∧
    u16 q.params 0 < 1280 ∧ 1 ≤ u8 q.params 2 ∧ u8 q.params 2 ≤ 5 := by
  refine ⟨ask [4, 255, 5, 0], ready, ?_⟩
  decide

theorem witness_schedulingCommandsComplete_6 : ∃ (q : Request) (s : State) (g : _), let p := q.params
    let n := u16 p 2
    let items : List Item := [{ key := .gates (u16 p 0), value := if n = 0 then [] else zeros 2 ++ p.drop 2 }]
    accepted opGateListWrite q anyBlock s = true ∧ p.length = 12 + 4 * n ∧ u16 p 0 < 1280 ∧ 1 ≤ n ∧ n ≤ 256 ∧
    gateListOf p = some g ∧ (∀ e ∈ g.entries, 8 ≤ e.1) ∧ g.cycle ≤ 1000000000 ∧
    (∀ v, 1 ≤ v → v ≤ 5 → ∃ e ∈ g.entries, bit e.2 v = true) ∧ stagingAllowed q items (started q s) = true := by
  refine ⟨ask [4, 255, 0, 1, 0, 0, 0, 0, 0, 0, 0, 0, 0, 0, 8, 62] 1, staging, { base := 0, entries := [(8, 62)] }, ?_⟩
  dsimp only
  exact ⟨by decide, by decide, by decide, by decide, by decide, by decide, by decide, by decide, fun v h1 h5 => by obtain rfl | rfl | rfl | rfl | rfl : v = 1 ∨ v = 2 ∨ v = 3 ∨ v = 4 ∨ v = 5 := (by omega) <;> decide, by decide⟩

theorem witness_schedulingCommandsComplete_7 : ∃ (q : Request) (s : State), let p := q.params
    let items : List Item := [{ key := .gates (u16 p 0), value := [] }]
    accepted opGateListWrite q anyBlock s = true ∧ p.length = 12 ∧ u16 p 0 < 1280 ∧ u16 p 2 = 0 ∧
    stagingAllowed q items (started q s) = true := by
  refine ⟨ask ([4, 255] ++ zeros 10) 1, staging, ?_⟩
  dsimp only
  decide

theorem witness_schedulingCommandsComplete_8 : ∃ (q : Request) (s : State), accepted opGateListRead q (portInBlock q) s = true ∧
    u16 q.params 0 < 1280 := by
  refine ⟨ask [4, 255, 0, 0], ready, ?_⟩
  decide

theorem witness_schedulingCommandsComplete_9 : ∃ (q : Request) (s : State), let p := q.params
    let vc := u8 p 4
    let items := portItems p (fun n => .mark n vc) (zeros 5 ++ p.drop 5)
    accepted opMarkSet q anyBlock s = true ∧ firstRefusal (portRange p) = none ∧ 1 ≤ vc ∧ vc ≤ 4 ∧ u8 p 5 < 2 ∧ 1 ≤ u16 p 6 ∧
    u16 p 6 ≤ 256 ∧ u32 p 8 < u32 p 12 ∧ u32 p 12 ≤ 3145728 ∧ stagingAllowed q items (started q s) = true := by
  refine ⟨ask [0, 0, 0, 1, 4, 1, 1, 0, 0, 0, 0, 0, 0, 48, 0, 0] 1, staging, ?_⟩
  dsimp only
  decide

theorem witness_schedulingCommandsComplete_10 : ∃ (q : Request) (s : State), let p := q.params
    let halls := setBits 4 (u8 p 0)
    let items : List Item := halls.map fun h => { key := .xfer h, value := zeros 1 ++ (p.drop 1).take 2 ++ zeros 1 ++ p.drop 4 }
    accepted opSchedWeightsSet q anyBlock s = true ∧ halls ≠ [] ∧ (∀ off ∈ [1, 2, 4, 5, 6, 7], u8 p off ≠ 0) ∧
    stagingAllowed q items (started q s) = true := by
  refine ⟨ask [15, 1, 1, 0, 1, 1, 1, 1] 1, staging, ?_⟩
  dsimp only
  decide

/-! Obligations.CollectiveCommandsComplete -/

theorem witness_collectiveCommandsComplete_1 : ∃ (q : Request) (s : State), let c := u16 q.params 0
    let a := started q s
    let items : List Item := [{ key := .ctx c, value := cleanCtx q.params }]
    accepted opCtxCreate q (ctxInBlock q) s = true ∧ firstRefusal (ctxChecks q.params) = none ∧
    ctxInRange a (namedTxn q a) c = true ∧ ctxKnown a (namedTxn q a) c = false ∧ stagingAllowed q items a = true := by
  refine ⟨ask [0, 9, 0, 0, 1, 0, 2, 0, 0, 1, 1, 0, 0, 0, 0, 0, 0, 0, 0, 0, 0, 0, 0, 0, 0, 0, 0, 0, 0, 0, 0, 2, 0, 0, 0, 1, 0, 0, 0, 0, 0, 0, 0, 0, 0, 0, 0, 0, 0, 0, 0, 0, 0, 0, 2, 0] 1, staging, ?_⟩
  dsimp only
  decide

theorem witness_collectiveCommandsComplete_2 : ∃ (q : Request) (s : State), let c := u16 q.params 0
    let a := started q s
    let items : List Item := [{ key := .ctx c, value := cleanCtx q.params }]
    accepted opCtxModify q (ctxInBlock q) s = true ∧ firstRefusal (ctxChecks q.params) = none ∧
    ((ctxAt a c).isSome = false ∨ u8 (liveValue a (.ctx c)) 2 ≠ u8 q.params 2) ∧ ctxInRange a (namedTxn q a) c = true ∧
      ctxKnown a (namedTxn q a) c = true ∧
    stagingAllowed q items a = true := by
  refine ⟨ask [0, 9, 1, 0, 1, 0, 2, 0, 0, 1, 1, 0, 0, 0, 0, 0, 0, 0, 0, 0, 0, 0, 0, 0, 0, 0, 0, 0, 0, 0, 0, 2, 0, 0, 0, 1, 0, 0, 0, 0, 0, 0, 0, 0, 0, 0, 0, 0, 0, 0, 0, 0, 0, 0, 2, 0] 1, { staging with coll := { staging.coll with ctxs := [(9, {})] } }, ?_⟩
  dsimp only
  decide

theorem witness_collectiveCommandsComplete_3 : ∃ (q : Request) (s : State), let c := u16 q.params 0
    let a := started q s
    let items : List Item := [{ key := .ctx c, value := [] }]
    accepted opCtxDestroy q (ctxOfBlock q) s = true ∧ ctxKnown a (namedTxn q a) c = true ∧ stagingAllowed q items a = true := by
  refine ⟨ask [0, 9, 0, 0] 1, { staging with coll := { staging.coll with ctxs := [(9, {})] } }, ?_⟩
  dsimp only
  decide

theorem witness_collectiveCommandsComplete_4 : ∃ (q : Request) (s : State), accepted opCtxRead q (ctxOfBlock q) s = true ∧
    (ctxAt (started q s) (u16 q.params 0)).isSome = true := by
  refine ⟨ask [0, 9, 0, 0], { staging with coll := { staging.coll with ctxs := [(9, {})] } }, ?_⟩
  decide

theorem witness_collectiveCommandsComplete_5 : ∃ (q : Request) (s : State), let p := q.params
    let n := (p.length - 16) / 4
    let carried := (List.range n).map fun i => (u32 p 12 + i, u32 p (16 + 4 * i) % 2 ^ 20)
    let c := u16 p 0
    let a := started q s
    let t : TreeConf := { k := u8 p 2, s := u32 p 4, j := u32 p 8 }
    let staged := treeConf (((namedTxn q a).bind fun x => x.staged (.tree c)).getD [])
    let old := if { staged with gids := [] } = t then staged.gids else []
    let t' := { t with gids := treeGids t old carried }
    let items : List Item := [{ key := .tree c, value := t'.bytes }]
    accepted opTreeSet q (fun s key => ctxOfBlock q s key && (blockAt s key).any fun b => carried.all fun g => b.hasGid g.2) s = true ∧
    1 ≤ t.k ∧ t.k ≤ 64 ∧ 1 ≤ t.s ∧ t.s ≤ 1048576 ∧ t.j < t.s ∧ u32 p 12 < t.s ∧ u32 p 12 + n ≤ t.s ∧
    t.children.length + (ctxConf (seenValue a (namedTxn q a) (.ctx c))).recs.length ≤ 64 ∧
    ctxKnown a (namedTxn q a) c = true ∧ stagingAllowed q items a = true := by
  refine ⟨ask ([0, 9, 64, 0, 0, 0, 0, 2, 0, 0, 0, 1] ++ zeros 8) 1, { staging with coll := { staging.coll with ctxs := [(9, {})] } }, ?_⟩
  dsimp only
  decide

theorem witness_collectiveCommandsComplete_6 : ∃ (q : Request) (s : State), accepted opEngineFlagsRead q anyBlock s = true ∧ u8 q.params 0 ≤ 1 := by
  refine ⟨ask [1, 0, 0, 0], ready, ?_⟩
  decide

theorem witness_collectiveCommandsComplete_7 : ∃ (q : Request) (s : State), let m := u8 q.params 0
    let flags := u8 q.params 1
    accepted opEngineFlagsClear q anyBlock s = true ∧ (m ≤ 1 ∨ m = 0xFF) ∧ 1 ≤ flags ∧ flags < 16 ∧ 1 ≤ u64 q.params 4 ∧
    u64 q.params 4 < 2 ^ 34 := by
  refine ⟨ask [255, 15, 0, 0, 0, 0, 0, 3, 255, 255, 255, 255], ready, ?_⟩
  dsimp only
  decide

theorem witness_collectiveCommandsComplete_8 : ∃ (q : Request) (s : State), accepted opEngineStateRead q anyBlock s = true ∧ u8 q.params 0 ≤ 1 := by
  refine ⟨ask [1, 0, 0, 0], ready, ?_⟩
  decide

theorem witness_collectiveCommandsComplete_9 : ∃ (q : Request) (s : State), accepted opEpochStatus q (ctxOfBlock q) s = true ∧
    (ctxAt (started q s) (u16 q.params 0)).isSome = true ∧
    u8 q.params 2 ≤ 1 := by
  refine ⟨ask [0, 9, 1, 0], { staging with coll := { staging.coll with ctxs := [(9, {})] } }, ?_⟩
  decide

theorem witness_collectiveCommandsComplete_10 : ∃ (q : Request) (s : State) (r : _), let c := u16 q.params 0
    let a := started q s
    accepted opEpochAbort q (ctxOfBlock q) s = true ∧ ctxAt a c = some r ∧ u8 q.params 2 = (ctxOf a c).gen := by
  refine ⟨ask [0, 9, 0, 0], { staging with coll := { staging.coll with ctxs := [(9, {})] } }, {}, ?_⟩
  dsimp only
  decide

theorem witness_collectiveCommandsComplete_11 : ∃ (q : Request) (s : State), accepted opHamperConfig q anyBlock s = true ∧ 10 ≤ u32 q.params 0 ∧
    u32 q.params 0 ≤ 100000 ∧ 1 ≤ u32 q.params 4 ∧
    u32 q.params 4 ≤ 1000000 ∧ 1 ≤ u32 q.params 8 ∧ u32 q.params 8 ≤ 60000 := by
  refine ⟨ask [0, 1, 134, 160, 0, 15, 66, 64, 0, 0, 234, 96, 0, 0, 0, 0], ready, ?_⟩
  decide

/-! Obligations.TimeCommandsComplete -/

theorem witness_timeCommandsComplete_1 : ∃ (q : Request) (s : State), let p := q.params
    accepted opMantelConfig q anyBlock s = true ∧ u8 p 0 = 0 ∧ u8 p 1 ≤ 1 ∧ 1 ≤ u16 p 4 ∧ u16 p 4 ≤ 1000 ∧ 64 ≤ u32 p 8 ∧
    u32 p 8 ≤ 1000000 ∧ p.length = 12 := by
  refine ⟨ask [0, 1, 0, 0, 3, 232, 0, 0, 0, 15, 66, 64], ready, ?_⟩
  dsimp only
  decide

theorem witness_timeCommandsComplete_2 : ∃ (q : Request) (s : State), let p := q.params
    let asym := signedOf 32 (u32 p 8)
    accepted opMantelConfig q anyBlock s = true ∧ u8 p 0 = 1 ∧ u16 p 4 < 1024 ∧ u16 p 4 + u16 p 6 ≤ 1024 ∧ -500000 ≤ asym ∧ asym ≤ 500000 ∧
      u8 p 12 < 2 ∧ p.length = 16 := by
  refine ⟨ask [1, 0, 0, 0, 3, 255, 0, 1, 255, 248, 94, 224, 1, 0, 0, 0], ready, ?_⟩
  dsimp only
  decide

theorem witness_timeCommandsComplete_3 : ∃ (q : Request) (s : State), let n := u16 q.params 0
    accepted opMantelStatus q anyBlock s = true ∧ (n < 1024 ∨ n = 0xFFFF) := by
  refine ⟨ask [255, 255, 0, 0], ready, ?_⟩
  dsimp only
  decide

theorem witness_timeCommandsComplete_4 : ∃ (q : Request) (s : State), let p := q.params
    let x : StepGen := { enable := bit (u8 p 1) 0, base := u64 p 4, period := u64 p 12, actions := u8 p 2 % 16 }
    accepted opStepConfig q anyBlock s = true ∧ u8 p 0 ≤ 3 ∧ 65536 ≤ x.period ∧ x.period ≤ 2 ^ 40 ∧ x.period % 1024 = 0 ∧
    (bit (u8 p 2) 2 = true → 1000000 ≤ x.period) := by
  refine ⟨ask [3, 1, 15, 0, 0, 0, 0, 0, 0, 0, 0, 0, 0, 0, 0, 0, 0, 16, 0, 0], ready, ?_⟩
  dsimp only
  decide

theorem witness_timeCommandsComplete_5 : ∃ (q : Request) (s : State), let p := q.params
    let a := started q s
    let src := u8 p 0
    accepted opCalendarSet q anyBlock s = true ∧ src = a.time.cal.source ∧ src ≤ 2 ∧ bit (u8 p 1) 0 = true ∧ bit (u8 p 1) 1 = false ∧
    u32 p 12 < second ∧ u64 p 16 = 0 ∧ 1 ≤ u32 p 24 ∧ u32 p 24 ≤ 1000000 ∧ (src = 0 → a.time.cal.state ≠ 0) := by
  refine ⟨ask [0, 1, 0, 0, 0, 0, 0, 0, 0, 0, 0, 0, 59, 154, 201, 255, 0, 0, 0, 0, 0, 0, 0, 0, 0, 15, 66, 64], { ready with time := { ready.time with cal := { ready.time.cal with state := 1, source := 0 } } }, ?_⟩
  dsimp only
  decide

theorem witness_timeCommandsComplete_6 : ∃ (q : Request) (s : State), let p := q.params
    let a := started q s
    let src := u8 p 0
    accepted opCalendarSet q anyBlock s = true ∧ src ≤ 2 ∧ (bit (u8 p 1) 0 = true → u32 p 12 < second) ∧
    (bit (u8 p 1) 0 = true → u64 p 16 ≠ 0 → mantel a ≤ u64 p 16 ∧ u64 p 16 ≤ mantel a + 10 * second) ∧
    1 ≤ u32 p 24 ∧ u32 p 24 ≤ 1000000 := by
  refine ⟨ask [2, 1, 0, 0, 0, 0, 0, 0, 0, 0, 0, 0, 0, 0, 0, 0, 0, 0, 0, 0, 0, 0, 0, 1, 0, 0, 0, 1], ready, ?_⟩
  dsimp only
  decide

theorem witness_timeCommandsComplete_7 : ∃ (q : Request) (s : State), accepted opCalendarRead q anyBlock s = true := by
  refine ⟨ask [], ready, ?_⟩
  decide

theorem witness_timeCommandsComplete_8 : ∃ (q : Request) (s : State), let p := q.params
    let n := u8 p 0
    let within (off : Nat) (lo hi : Int) : Prop := lo ≤ signedOf 8 (u8 p off) ∧ signedOf 8 (u8 p off) ≤ hi
    accepted opPtpConfig q anyBlock s = true ∧ n ≤ 1 ∧ u8 p 1 < 16 ∧ u8 p 2 ≤ 2 ∧ u8 p 3 ≤ 127 ∧ within 7 (-7) 1 ∧ within 8 (-3) 4 ∧
      within 9 (-7) 5 ∧ 2 ≤ u8 p 10 ∧ u8 p 10 ≤ 10 ∧
      (bit (u8 p 1) 0 = true → (ptpAt (started q s) (1 - n)).enabled = true → u8 (ptpAt (started q s) (1 - n)).config 3 = u8 p 3) ∧
      (tget (started q s).boot.dies n {}).state ≠ 3 := by
  refine ⟨ask [1, 0, 2, 127, 0, 0, 0, 249, 4, 5, 10, 0], ready, ?_⟩
  dsimp only
  decide

theorem witness_timeCommandsComplete_9 : ∃ (q : Request) (s : State), accepted opPtpStatus q anyBlock s = true ∧ u8 q.params 0 ≤ 1 := by
  refine ⟨ask [1, 0, 0, 0], ready, ?_⟩
  decide

theorem witness_timeCommandsComplete_10 : ∃ (q : Request) (s : State), let n := u8 q.params 0
    accepted opTsQueueRead q anyBlock s = true ∧ 1 ≤ n ∧ n ≤ 64 := by
  refine ⟨ask [64, 0, 0, 0], ready, ?_⟩
  dsimp only
  decide

/-! Obligations.DarningCommandsComplete -/

theorem witness_darningCommandsComplete_1 : ∃ (q : Request) (s : State), accepted opDarningMaskRead q anyBlock s = true := by
  refine ⟨ask [], ready, ?_⟩
  decide

theorem witness_darningCommandsComplete_2 : ∃ (q : Request) (s : State), let p := q.params
    accepted opDarningConfig q anyBlock s = true ∧ q.txn = 0 ∧ u8 p 0 = 0 ∧ firstRefusal (darningChecks p) = none := by
  refine ⟨ask [0, 0, 0, 0, 3, 232, 16, 2, 3, 32, 0, 0, 0, 0, 39, 16, 0, 0, 14, 16, 0, 1, 81, 128], ready, ?_⟩
  dsimp only
  decide

theorem witness_darningCommandsComplete_3 : ∃ (q : Request) (s : State), let p := q.params
    let a := started q s
    let items : List Item := (List.range (u16 p 4)).map fun i => { key := .darnPort (u16 p 2 + i), value := p.drop 6 }
    accepted opDarningConfig q anyBlock s = true ∧ u8 p 0 = 1 ∧ p.length = 8 ∧
    txnRefused { opDarningConfig with ownTxn := false, staging := true } q a = none ∧ u16 p 2 < 1280 ∧
    u16 p 2 + u16 p 4 ≤ 1280 ∧ u16 p 6 ≤ 4095 ∧ stagingAllowed q items a = true := by
  refine ⟨ask [1, 0, 4, 255, 0, 1, 15, 255] 1, staging, ?_⟩
  dsimp only
  decide

theorem witness_darningCommandsComplete_4 : ∃ (q : Request) (s : State), let p := q.params
    accepted opDarningConfig q anyBlock s = true ∧ q.txn = 0 ∧ u8 p 0 = 2 ∧ p.length = 8 ∧ u8 p 1 < 4 ∧ u16 p 2 < 1280 ∧
      u16 p 2 + u16 p 4 ≤ 1280 := by
  refine ⟨ask [2, 3, 4, 255, 0, 1, 0, 0], ready, ?_⟩
  dsimp only
  decide

theorem witness_darningCommandsComplete_5 : ∃ (q : Request) (s : State), let p := q.params
    let a := started q s
    accepted opDarningConfig q anyBlock s = true ∧ q.txn = 0 ∧ u8 p 0 = 3 ∧ p.length = 4 ∧ u8 p 1 < 2 ∧ partFailed a = false := by
  refine ⟨ask [3, 0, 0, 0], ready, ?_⟩
  dsimp only
  decide

theorem witness_darningCommandsComplete_6 : ∃ (q : Request) (s : State), accepted opFaultRead q anyBlock s = true ∧ 1 ≤ u8 q.params 5 ∧
    u8 q.params 5 ≤ 127 := by
  refine ⟨ask [0, 0, 0, 0, 0, 127, 0, 0], ready, ?_⟩
  decide

theorem witness_darningCommandsComplete_7 : ∃ (q : Request) (s : State), accepted opHearthHandover q anyBlock s = true ∧ s.fw.step = 0 ∧
    s.boot.standbyReady = true := by
  refine ⟨ask [], ready, ?_⟩
  decide

theorem witness_darningCommandsComplete_8 : ∃ (q : Request) (s : State), let ps := (List.range 5).map fun i => u32 q.params (4 + 4 * i)
    accepted opSelftestConfig q anyBlock s = true ∧ (∀ x ∈ ps, 1 ≤ x ∧ x ≤ 86400) := by
  refine ⟨ask [0, 0, 0, 0, 0, 0, 0, 1, 0, 1, 81, 128, 0, 0, 0, 1, 0, 0, 0, 1, 0, 0, 0, 1], ready, ?_⟩
  dsimp only
  decide

theorem witness_darningCommandsComplete_9 : ∃ (q : Request) (s : State), let item := u8 q.params 0
    let m := u8 q.params 1
    let a := started q s
    accepted opSelftestRun q anyBlock s = true ∧ 1 ≤ item ∧ item ≤ 6 ∧ (item = 6 → m ≤ 1) ∧ 7 ≤ a.boot.phase ∧
    (item = 6 → ∀ c ∈ reservers a, (ctxOf a c).slotsIn m = 0) := by
  refine ⟨ask [6, 1, 0, 0], ready, ?_⟩
  dsimp only
  decide

/-! Obligations.FirmwareCommandsComplete -/

theorem witness_firmwareCommandsComplete_1 : ∃ (q : Request) (s : State), let size := u32 q.params 0
    let a := started q s
    accepted opFwImageBegin q anyBlock s = true ∧ a.fw.step = 0 ∧ 4 ≤ size ∧ size ≤ 67108864 ∧ size % 4 = 0 ∧ storeUp a = true ∧
    size ≤ slotCapacity a := by
  refine ⟨ask [0, 0, 0, 4], stored, ?_⟩
  dsimp only
  decide

theorem witness_firmwareCommandsComplete_2 : ∃ (q : Request) (s : State) (size : _), let off := u32 q.params 0
    let data := q.params.drop 8
    let a := started q s
    accepted opFwImageWrite q anyBlock s = true ∧ a.fw.session = some size ∧ off % 4 = 0 ∧ off + data.length ≤ size ∧
    storeUp a = true := by
  refine ⟨ask (zeros 12), { stored with fw := { stored.fw with session := some 4 } }, 4, ?_⟩
  dsimp only
  decide

theorem witness_firmwareCommandsComplete_3 : ∃ (q : Request) (s : State) (size : _), let a := started q s
    accepted opFwImageVerify q anyBlock s = true ∧ a.fw.session = some size ∧ size ≤ 4 * a.fw.words.length := by
  refine ⟨ask [], { stored with fw := { stored.fw with session := some 4, words := [(0, zeros 4)] } }, 4, ?_⟩
  dsimp only
  decide

theorem witness_firmwareCommandsComplete_4 : ∃ (q : Request) (s : State), let a := started q s
    accepted opFwActivate q anyBlock s = true ∧ u8 q.params 0 = 0 ∧ a.fw.step = 0 ∧ (a.fw.pending = 2 ∨ a.fw.pending = 3) ∧
    a.fw.pendImage.isSome = true := by
  refine ⟨ask [0, 0, 0, 0], { stored with fw := { stored.fw with pending := 2, pendImage := some { version := 1, svn := 0, stateMin := 0, stateMax := 1, keySlot := 0, burn := false, digests := [] } } }, ?_⟩
  dsimp only
  decide

theorem witness_firmwareCommandsComplete_5 : ∃ (q : Request) (s : State), let p := q.params
    let a := started q s
    accepted opFwActivate q anyBlock s = true ∧ u8 p 0 = 1 ∧ a.boot.recovery = false ∧ a.fw.step = 0 ∧
    (a.fw.pending = 2 ∨ a.fw.pending = 3) ∧ a.fw.pendImage.isSome = true ∧ firstRefusal (activateChecks p a) = none := by
  refine ⟨ask [1, 0, 14, 16], { stored with fw := { stored.fw with pending := 3, pendImage := some { version := 1, svn := 0, stateMin := 0, stateMax := 1, keySlot := 0, burn := false, digests := [] } } }, ?_⟩
  dsimp only
  decide

theorem witness_firmwareCommandsComplete_6 : ∃ (q : Request) (s : State), accepted opFwStatus q anyBlock s = true := by
  refine ⟨ask [], ready, ?_⟩
  decide

/-! Obligations.PowerCommandsComplete -/

theorem witness_powerCommandsComplete_1 : ∃ (q : Request) (s : State), accepted opPowerRead q anyBlock s = true := by
  refine ⟨ask [], ready, ?_⟩
  decide

theorem witness_powerCommandsComplete_2 : ∃ (q : Request) (s : State), accepted opThermalRead q anyBlock s = true := by
  refine ⟨ask [], ready, ?_⟩
  decide

theorem witness_powerCommandsComplete_3 : ∃ (q : Request) (s : State), let p := q.params
    let z := u8 p 0
    accepted opThermalLimitsSet q anyBlock s = true ∧ z ≤ 5 ∧ 40 ≤ u8 p 1 ∧ u8 p 1 + 3 ≤ u8 p 2 ∧ u8 p 2 + 3 ≤ u8 p 3 ∧
    u8 p 3 ≤ maxShutdown z := by
  refine ⟨ask [5, 40, 43, 46], ready, ?_⟩
  dsimp only
  decide

theorem witness_powerCommandsComplete_4 : ∃ (q : Request) (s : State), accepted opPowerCapSet q anyBlock s = true ∧ 1100 ≤ u16 q.params 0 ∧
    u16 q.params 0 ≤ 1600 := by
  refine ⟨ask [6, 64, 0, 0], ready, ?_⟩
  decide

theorem witness_powerCommandsComplete_5 : ∃ (q : Request) (s : State), accepted opLoopStatus q anyBlock s = true := by
  refine ⟨ask [], ready, ?_⟩
  decide

/-! Obligations.SecurityCommandsComplete -/

theorem witness_securityCommandsComplete_1 : ∃ (q : Request) (s : State), let n := u16 q.params 0
    accepted opRandomRead q anyBlock s = true ∧ 4 ≤ n ∧ n ≤ 4080 ∧ n % 4 = 0 ∧ firstRefusal (randomChecks (started q s)) = none := by
  refine ⟨ask [15, 240, 0, 0], ready, ?_⟩
  dsimp only
  decide

theorem witness_securityCommandsComplete_2 : ∃ (q : Request) (s : State), let a := random 97 (started q s)
    let b := random 2592 a.2
    let share := random 32 b.2
    accepted opKeyGenerate q anyBlock s = true ∧ (started q s).sec.full = false ∧
    firstRefusal (randomChecks (started q s)) = none ∧ storeUp share.2 = true := by
  refine ⟨ask [], stored, ?_⟩
  dsimp only
  decide

theorem witness_securityCommandsComplete_3 : ∃ (q : Request) (s : State), accepted opDebugUnlock q anyBlock s = true ∧ u8 q.params 0 = 0 ∧
    q.params.length = 4 := by
  refine ⟨ask [0, 0, 0, 0], ready, ?_⟩
  decide

theorem witness_securityCommandsComplete_4 : ∃ (q : Request) (s : State), let off := u32 q.params 4
    let data := q.params.drop 8
    accepted opDebugUnlock q anyBlock s = true ∧ u8 q.params 0 = 1 ∧ q.params.length ≠ 4 ∧ off % 4 = 0 ∧ off + data.length ≤ 7460 ∧
      (∃ nonce t, (started q s).sec.challenge = some (nonce, t) ∧ s.ns < t + 600 * second) := by
  refine ⟨ask [1, 0, 0, 0, 0, 0, 29, 32, 0, 0, 0, 0], { ready with sec := { ready.sec with challenge := some (zeros 4, 0) } }, ?_⟩
  exact ⟨by decide, by decide, by decide, by decide, by decide, zeros 4, 0, by decide, by decide⟩

theorem witness_securityCommandsComplete_5 : ∃ (q : Request) (s : State) (nonce : _) (t : _), accepted opDebugUnlock q anyBlock s = true ∧
    u8 q.params 0 = 2 ∧ q.params.length = 4 ∧
    (started q s).sec.challenge = some (nonce, t) := by
  refine ⟨ask [2, 0, 0, 0], { ready with sec := { ready.sec with challenge := some (zeros 4, 0) } }, zeros 4, 0, ?_⟩
  decide

theorem witness_securityCommandsComplete_6 : ∃ (q : Request) (s : State), accepted opPorchRead q anyBlock s = true := by
  refine ⟨ask [], ready, ?_⟩
  decide

theorem witness_securityCommandsComplete_7 : ∃ (q : Request) (s : State), let mask := u8 q.params 0
    accepted opPorchAlarmClear q anyBlock s = true ∧ mask < 64 := by
  refine ⟨ask [63, 0, 0, 0], ready, ?_⟩
  dsimp only
  decide

theorem witness_securityCommandsComplete_8 : ∃ (q : Request) (s : State), accepted opFuseRead q anyBlock s = true := by
  refine ⟨ask [], ready, ?_⟩
  decide

theorem witness_securityCommandsComplete_9 : ∃ (q : Request) (s : State), accepted opDeedReport q anyBlock s = true ∧
    (started q s).sec.full = false := by
  refine ⟨ask (zeros 32), ready, ?_⟩
  decide

/-! Obligations.StoreCommandsComplete -/

theorem witness_storeCommandsComplete_1 : ∃ (q : Request) (s : State), accepted opNvStatus q anyBlock s = true := by
  refine ⟨ask [], ready, ?_⟩
  decide

theorem witness_storeCommandsComplete_2 : ∃ (q : Request) (obs : _) (s : State), let off := u32 q.params 0
    let n := u32 q.params 4
    accepted opNvRead q anyBlock s = true ∧ off % 4 = 0 ∧ 4 ≤ n ∧ n ≤ 4080 ∧ n % 4 = 0 ∧ off + n ≤ 4194304 ∧
      (readable (started q s) 0 = true ∨ readable (started q s) 1 = true) ∧ nvLost obs (started q s) = false := by
  refine ⟨ask [0, 63, 240, 16, 0, 0, 15, 240], {}, stored, ?_⟩
  dsimp only
  decide

theorem witness_storeCommandsComplete_3 : ∃ (q : Request) (s : State), let off := u32 q.params 0
    let data := q.params.drop 8
    accepted opNvWrite q anyBlock s = true ∧ off % 4 = 0 ∧ off + data.length ≤ 4194304 ∧ storeUp (started q s) = true := by
  refine ⟨ask ([0, 63, 255, 252] ++ zeros 8), stored, ?_⟩
  dsimp only
  decide

theorem witness_storeCommandsComplete_4 : ∃ (q : Request) (s : State), accepted opNvScrub q anyBlock s = true ∧ u8 q.params 0 = 0 ∧
    s.nv.scrubRun = false := by
  refine ⟨ask [0, 0, 0, 0], ready, ?_⟩
  decide

theorem witness_storeCommandsComplete_5 : ∃ (q : Request) (s : State), accepted opNvScrub q anyBlock s = true ∧ u8 q.params 0 = 1 := by
  refine ⟨ask [1, 0, 0, 0], ready, ?_⟩
  decide

theorem witness_storeCommandsComplete_6 : ∃ (q : Request) (obs : _) (s : State), accepted opBootcfgRead q anyBlock s = true ∧
    (readable (started q s) 0 = true ∨ readable (started q s) 1 = true) ∧ nvLost obs (started q s) = false := by
  refine ⟨ask [], {}, stored, ?_⟩
  decide

theorem witness_storeCommandsComplete_7 : ∃ (q : Request) (s : State), let p := q.params
    let f := u8 p 0
    accepted opBootcfgWrite q anyBlock s = true ∧ 1 ≤ f ∧ f < 8 ∧ (bit f 0 = true → u8 p 1 ≤ 1) ∧
    (bit f 1 = true → 1 ≤ u8 p 2 ∧ u8 p 2 ≤ 168) ∧
    (bit f 2 = true → 8 ≤ u16 p 4 ∧ u16 p 4 ≤ 32 ∧ 2 ≤ u16 p 6 ∧ u16 p 6 ≤ 16 ∧ u16 p 8 ≤ 128 ∧ 4 + u16 p 4 + u16 p 6 + u16 p 8 ≤ 224) ∧
    storeUp (started q s) = true := by
  refine ⟨ask [7, 1, 168, 0, 0, 32, 0, 16, 0, 128, 0, 0], stored, ?_⟩
  dsimp only
  decide

theorem witness_storeCommandsComplete_8 : ∃ (q : Request) (s : State), accepted opNvLogRead q anyBlock s = true ∧ 1 ≤ u8 q.params 5 ∧
    u8 q.params 5 ≤ 84 := by
  refine ⟨ask [0, 0, 0, 0, 0, 84, 0, 0], ready, ?_⟩
  decide

/-! Obligations.CounterCommandsComplete -/

theorem witness_counterCommandsComplete_1 : ∃ (q : Request) (s : State), let p := q.params
    let inst := u32 p 4 % 2 ^ 24
    accepted opCounterRead q (fun s key => instanceOfBlock (u8 p 0) inst key s) s = true ∧
    firstRefusal (selectionChecks (u8 p 0) (u8 p 2) (u8 p 3) inst 1) = none := by
  refine ⟨ask [18, 0, 0, 1, 0, 0, 0, 31], ready, ?_⟩
  dsimp only
  decide

theorem witness_counterCommandsComplete_2 : ∃ (q : Request) (s : State), let p := q.params
    let scope := u8 p 0
    let k := u8 p 3
    let n := u32 p 8
    accepted opCounterClear q anyBlock s = true ∧ scope ≠ 0xFF ∧ 1 ≤ u8 p 1 ∧ u8 p 1 < 4 ∧ 1 ≤ n ∧ n ≤ 65536 ∧
    firstRefusal (selectionChecks scope (u8 p 2) k (u32 p 4) n) = none := by
  refine ⟨ask [1, 3, 0, 1, 0, 0, 0, 0, 0, 0, 0, 1], ready, ?_⟩
  dsimp only
  decide

theorem witness_counterCommandsComplete_3 : ∃ (q : Request) (s : State), let p := q.params
    accepted opCounterClear q anyBlock s = true ∧ u8 p 0 = 0xFF ∧ 1 ≤ u8 p 1 ∧ u8 p 1 < 4 := by
  refine ⟨ask ([255, 3] ++ zeros 10), ready, ?_⟩
  dsimp only
  decide

theorem witness_counterCommandsComplete_4 : ∃ (q : Request) (s : State), let p := q.params
    accepted opCounterFilterSet q anyBlock s = true ∧ u8 p 0 ≤ 31 ∧ u8 p 1 ≤ 2 ∧ filterReserved p = false ∧ u32 p 8 ≤ u32 p 12 := by
  refine ⟨ask ([31, 2, 1, 0, 15] ++ zeros 15), ready, ?_⟩
  dsimp only
  decide

theorem witness_counterCommandsComplete_5 : ∃ (q : Request) (s : State), let p := q.params
    accepted opOccThresholdSet q anyBlock s = true ∧ u16 p 0 < 1280 ∧ 1 ≤ u16 p 2 ∧ u16 p 0 + u16 p 2 ≤ 1280 ∧ 1 ≤ u8 p 4 ∧
    u32 p 8 ≤ occNever := by
  refine ⟨ask [0, 0, 5, 0, 255, 0, 0, 0, 0, 48, 0, 0], ready, ?_⟩
  dsimp only
  decide

theorem witness_counterCommandsComplete_6 : ∃ (q : Request) (s : State), let p := q.params
    accepted opTelemetryExportSet q anyBlock s = true ∧ u8 p 0 = 0 ∧ p.length = 28 ∧ u8 p 2 < 2 ∧ u8 p 1 ≤ 1 ∧ 1 ≤ u32 p 24 ∧
    u32 p 24 ≤ 5000 ∧ (dieAt (started q s) (u8 p 1)).state ≠ 3 := by
  refine ⟨ask [0, 1, 1, 0, 0, 0, 0, 0, 0, 0, 0, 0, 0, 0, 0, 0, 0, 0, 0, 0, 0, 0, 0, 0, 0, 0, 19, 136], ready, ?_⟩
  dsimp only
  decide

theorem witness_counterCommandsComplete_7 : ∃ (q : Request) (s : State), let p := q.params
    accepted opTelemetryExportSet q anyBlock s = true ∧ u8 p 0 = 1 ∧ firstRefusal (exportChecks p) = none := by
  refine ⟨ask [1, 7, 3, 3, 1, 0, 1, 0, 0, 0, 0, 0, 0, 0, 0, 1, 0, 0, 0, 0], ready, ?_⟩
  dsimp only
  decide

/-! Obligations.ResetEventsComplete -/

theorem witness_resetEventsComplete_2 : ∃ s : State, s.boot.cold = false ∧ s.boot.phase ≠ 0 ∧ s.boot.held = false := by
  refine ⟨ready, ?_⟩
  decide

theorem witness_resetEventsComplete_3 : ∃ s : State, s.boot.resetPending = true := by
  refine ⟨{ ready with boot := { ready.boot with resetPending := true } }, ?_⟩
  decide

theorem witness_resetEventsComplete_4 : ∃ s : State, s.boot.resetPending = false ∧ s.boot.cold = false ∧ s.boot.phase ≠ 0 ∧ s.boot.held = false := by
  refine ⟨ready, ?_⟩
  decide

theorem witness_resetEventsComplete_5 : ∃ s : State, s.boot.cold = false := by
  refine ⟨ready, ?_⟩
  decide

theorem witness_resetEventsComplete_6 : ∃ (tenthMv : _) (s : State), let rails := railsOut s tenthMv
    tenthMv.length = 10 ∧ rails ≠ 0 := by
  refine ⟨0 :: List.replicate 9 100000, ready, ?_⟩
  decide

theorem witness_resetEventsComplete_7 : ∃ (h : _) (s : State), h < 2 ∧ s.boot.held = false ∧ s.boot.watchdogs ||| 2 ^ h ≠ 3 := by
  refine ⟨1, { ready with boot := { ready.boot with phase := 2 } }, ?_⟩
  decide

theorem witness_resetEventsComplete_8 : ∃ (h : _) (s : State), h < 2 ∧ s.boot.held = false ∧ s.boot.watchdogs ||| 2 ^ h = 3 ∧ s.boot.cold = false ∧
    s.boot.phase ≠ 0 := by
  refine ⟨1, { ready with boot := { ready.boot with watchdogs := 1 } }, ?_⟩
  decide

/-! Obligations.ClockEventsComplete -/

theorem witness_clockEventsComplete_1 : ∃ s : State, s.boot.refPresent = true := by
  refine ⟨{ ready with boot := { ready.boot with refPresent := true } }, ?_⟩
  decide

theorem witness_clockEventsComplete_2 : ∃ s : State, s.boot.refHoldover = true ∧ s.boot.held = false := by
  refine ⟨{ ready with boot := { ready.boot with refHoldover := true } }, ?_⟩
  decide

theorem witness_clockEventsComplete_3 : ∃ (us : _) (s : State), s.boot.clockHeld = false ∧ s.boot.refHoldover = true ∧ us < 100000 := by
  refine ⟨0, { ready with boot := { ready.boot with refHoldover := true } }, ?_⟩
  decide

theorem witness_clockEventsComplete_4 : ∃ (s : State), s.boot.clockHeld = true ∧ s.boot.thermalHeld = [] := by
  refine ⟨{ ready with boot := { ready.boot with held := true, clockHeld := true } }, ?_⟩
  decide

theorem witness_clockEventsComplete_5 : ∃ s : State, startsIn 0 s = true ∧ s.boot.refPresent = false := by
  refine ⟨State.reset, ?_⟩
  decide

theorem witness_clockEventsComplete_6 : ∃ (die : _) (domain : _) (s : State), (domainDies domain).contains die = true ∧ s.boot.refPresent = true ∧
    s.boot.held = false ∧ s.boot.phase ≠ 0 := by
  refine ⟨2, 1, { ready with boot := { ready.boot with phase := 2, refPresent := true } }, ?_⟩
  decide

theorem witness_clockEventsComplete_7 : ∃ s : State, s.porch.onRc = false := by
  refine ⟨ready, ?_⟩
  decide

/-! Obligations.StartupEventsComplete -/

theorem witness_startupEventsComplete_1 : ∃ (s : State), s.boot.phase = 0 ∧ s.boot.held = false ∧ s.boot.lost = false := by
  refine ⟨State.reset, ?_⟩
  decide

theorem witness_startupEventsComplete_2 : ∃ (s : State), s.boot.phase ≤ 1 ∧ s.boot.held = false ∧ s.boot.leadB = false ∧ s.boot.recovery = false ∧
    (dieAt s 1).state ≠ 3 := by
  refine ⟨State.reset, ?_⟩
  decide

theorem witness_startupEventsComplete_3 : ∃ (m : _) (n : _) (s : State), let a := judgeMount m
    let b := judgeMount n
    startsIn 1 s = true ∧ a.state = 0 ∧ b.state = 0 := by
  refine ⟨{ state := 0 }, { state := 0 }, { ready with boot := { ready.boot with phase := 1 } }, ?_⟩
  decide

theorem witness_startupEventsComplete_4 : ∃ (m : _) (n : _) (copies : _) (s : State) (source : _) (img : _) (rest : _), let a := judgeMount m
    let b := judgeMount n
    startsIn 1 s = true ∧ (a.state ≠ 0 ∨ b.state ≠ 0) ∧ imageTries copies [a, b] s = (source, 0, img) :: rest := by
  refine ⟨{ state := 1 }, { state := 1 }, List.replicate 4 { image := {} }, { ready with boot := { ready.boot with phase := 1 } }, 1, {}, [(2, 0, {})], ?_⟩
  decide

theorem witness_startupEventsComplete_5 : ∃ (dies : _) (untrained : _) (miswired : _) (s : State), let cut := untrained ++ (List.range 39).filter fun k => !seamUp s k
    let w := walkAll dies cut miswired (leadCode s)
    dies.length = 40 ∧ startsIn 2 s = true ∧ s.boot.discDone = false ∧ w.fail = none := by
  refine ⟨population, [], [], { ready with boot := { ready.boot with phase := 2, discDone := false } }, ?_⟩
  dsimp only
  decide +kernel

theorem witness_startupEventsComplete_6 : ∃ (dies : _) (untrained : _) (miswired : _) (code : _) (first : _) (s : State), let cut := untrained ++ (List.range 39).filter fun k => !seamUp s k
    let w := walkAll dies cut miswired (leadCode s)
    dies.length = 40 ∧ startsIn 2 s = true ∧ s.boot.discDone = false ∧ w.fail = some (code, first) := by
  refine ⟨population, [0], [], 3, 0, { ready with boot := { ready.boot with phase := 2, discDone := false } }, ?_⟩
  dsimp only
  decide +kernel

theorem witness_startupEventsComplete_7 : ∃ (rows : List (Nat × Nat × Nat × Nat)) (chunks : List (Nat × Nat × Nat)) (s : State), startsIn 3 s = true ∧ pastSpares rows chunks = false := by
  refine ⟨[(6, 31, 0, 7)], [], { ready with boot := { ready.boot with phase := 3 } }, ?_⟩
  decide

theorem witness_startupEventsComplete_8 : ∃ (halt : _) (s : State), startsIn 3 s = true ∧ (halt = 0x30 ∨ halt = 0x31) := by
  refine ⟨0x30, { ready with boot := { ready.boot with phase := 3 } }, ?_⟩
  decide

theorem witness_startupEventsComplete_9 : ∃ (rows : List (Nat × Nat × Nat × Nat)) (chunks : List (Nat × Nat × Nat)) (s : State), startsIn 3 s = true ∧ pastSpares rows chunks = true := by
  refine ⟨[], [(6, 31, 0), (6, 31, 1), (6, 31, 2)], { ready with boot := { ready.boot with phase := 3 } }, ?_⟩
  decide

theorem witness_startupEventsComplete_10 : ∃ s : State, startsIn 4 s = true ∧
    (∀ w < 8, (windowAt s w).inService = true ∨ windowOut (windowAt s w) = true) ∧
    (∃ w < 8, (windowAt s w).inService = true) := by
  refine ⟨{ ready with windows := (List.range 8).map fun w => (w, { inService := true }), boot := { ready.boot with phase := 4 } }, ?_⟩
  decide

theorem witness_startupEventsComplete_11 : ∃ s : State, startsIn 4 s = true ∧ (∀ w < 8, (windowAt s w).inService = false ∧
    windowOut (windowAt s w) = true) := by
  refine ⟨{ ready with windows := (List.range 8).map fun w => (w, { cause := 1 }), boot := { ready.boot with phase := 4 } }, ?_⟩
  decide

theorem witness_startupEventsComplete_12 : ∃ s : State, startsIn 5 s = true ∧
    ((cfgRead s).boot.emptyTables = true ∨ field (readableCfg (cfgRead s)) 76 8 = 0) := by
  refine ⟨{ ready with boot := { ready.boot with phase := 5, emptyTables := true } }, ?_⟩
  decide

theorem witness_startupEventsComplete_13 : ∃ (obs : NvReadObs) (bad : _) (s : State) (n : Snapshot), startsIn 5 s = true ∧
    (cfgRead s).boot.emptyTables = false ∧ field (readableCfg (cfgRead s)) 76 8 ≠ 0 ∧
    snapshotAt (cfgRead s) (field (readableCfg (cfgRead s)) 76 8) = some n ∧ bootRejected n obs bad (cfgRead s) = none := by
  refine ⟨{}, false, { stored with boot := { ready.boot with phase := 5 }, nv := { stored.nv with bootcfg := zeros 83 ++ [5], snapshots := [{ digest := 5, device := true, latchkey := 0, secs := 0, content := [], items := [] }] } }, { digest := 5, device := true, latchkey := 0, secs := 0, content := [], items := [] }, ?_⟩
  decide

theorem witness_startupEventsComplete_14 : ∃ s : State, startsIn 6 s = true ∧ mantelLocked s = true := by
  refine ⟨{ ready with time := { ready.time with state := .locked }, boot := { ready.boot with phase := 6 } }, ?_⟩
  decide

theorem witness_startupEventsComplete_15 : ∃ s : State, startsIn 6 s = true ∧ s.time.state = .freeRun ∧ s.time.master = false := by
  refine ⟨{ ready with boot := { ready.boot with phase := 6 } }, ?_⟩
  decide

theorem witness_startupEventsComplete_16 : ∃ s : State, 3 ≤ s.boot.phase ∧ s.boot.held = false ∧ s.boot.lost = false ∧
    s.boot.standbyReady = false ∧ s.boot.handover = false ∧
    (dieAt s (standbyDie s)).state ≠ 3 ∧ s.fw.step ∉ [2, 3, 6] := by
  refine ⟨{ ready with boot := { ready.boot with standbyReady := false } }, ?_⟩
  decide

theorem witness_startupEventsComplete_17 : ∃ (standby : _) (s : State), (trngAt s standby).state = 1 := by
  refine ⟨true, { ready with boot := { ready.boot with standbyTrng := { state := 1 } } }, ?_⟩
  decide

theorem witness_startupEventsComplete_18 : ∃ (standby : _) (s : State), (trngAt s standby).state = 2 := by
  refine ⟨false, ready, ?_⟩
  decide

/-! Obligations.WindowEventsComplete -/

theorem witness_windowEventsComplete_1 : ∃ (w : _) (s : State), w < 8 ∧ (windowAt s w).bringUp = true ∧ picCold s w = false := by
  refine ⟨7, { ready with windows := [(7, { bringUp := true })] }, ?_⟩
  decide

theorem witness_windowEventsComplete_2 : ∃ (w : _) (rings : _) (s : State), w < 8 ∧ (windowAt s w).bringUp = true ∧
    (rings = false ∨ lockHeld s w = false) := by
  refine ⟨7, false, { ready with windows := [(7, { bringUp := true })] }, ?_⟩
  decide

theorem witness_windowEventsComplete_3 : ∃ (port : _) (s : State), isPort port = true ∧ carriesFrames s port = true ∧
    (windowAt s (windowOf port)).inService = true ∧ ((portAt s port).state = .tuning ∨ (portAt s port).state = .noLight) ∧
    usableLanes s port ≠ 0 := by
  refine ⟨0, { ready with windows := [(0, { inService := true })], ports := [(0, { state := .tuning })] }, ?_⟩
  decide

theorem witness_windowEventsComplete_4 : ∃ (port : _) (st : _) (s : State), isPort port = true ∧ (portAt s port).prbs = some st := by
  refine ⟨1279, .disabled, { ready with ports := [(1279, { prbs := some .disabled })] }, ?_⟩
  decide

/-! Obligations.SeamEventsComplete -/

theorem witness_seamEventsComplete_1 : ∃ (w : SeamWay) (k : _) (ready : _) (c : _), SeamWay.pick w k ready = some c := by
  refine ⟨{}, 38, 31, 3, ?_⟩
  simp [SeamWay.pick, SeamWay.hasCredit, SeamWay.underCap, slotOrder, linkChannels, bit]
  decide

theorem witness_seamEventsComplete_2 : ∃ (w : SeamWay) (k : _) (ready : _) (c : _), SeamWay.pick w k ready = none ∧ c ∈ linkChannels k ∧
    bit ready c = true ∧ w.hasCredit k c = true := by
  refine ⟨{ taken := List.replicate 8 (some 0) }, 23, 5, 0, ?_⟩
  simp [SeamWay.pick, SeamWay.hasCredit, SeamWay.underCap, slotOrder, linkChannels, bit]
  decide

theorem witness_seamEventsComplete_3 : ∃ (link : _) (high : _) (ready : _) (flit : _) (w : _) (s : State), link < 39 ∧
    activeLanes s link high ≠ 0 ∧ ((seamAt s link).way high).send link ready = (some flit, w) := by
  refine ⟨38, true, 8, (0, 3), { slot := 1, taken := [some 3], seq := 1, spent := [0, 0, 0, 1, 0] }, ready, ?_⟩
  have h : SeamWay.pick {} 38 8 = some 3 := by
    simp [SeamWay.pick, SeamWay.hasCredit, SeamWay.underCap, slotOrder, linkChannels, bit]
    decide
  refine ⟨by decide, by decide, ?_⟩
  show SeamWay.send {} 38 8 = _
  unfold SeamWay.send
  rw [h]
  rfl

theorem witness_seamEventsComplete_4 : ∃ (link : _) (high : _) (ready : _) (w : _) (s : State), link < 39 ∧ activeLanes s link high ≠ 0 ∧
    ((seamAt s link).way high).send link ready = (none, w) := by
  refine ⟨38, true, 0, { slot := 1, taken := [none] }, ready, ?_⟩
  decide

theorem witness_seamEventsComplete_5 : ∃ (link : _) (high : _) (s : State), link < 39 ∧ ((seamAt s link).way high).replay ≠ [] := by
  refine ⟨38, true, { ready with seam := [(38, { highWay := { replay := [(0, 3)] } })] }, ?_⟩
  decide

theorem witness_seamEventsComplete_6 : ∃ (link : _) (high : _) (group : _) (lane : _) (s : State), link < 39 ∧ group < (linkGroups link).1 ∧
    lane < (linkGroups link).2 ∧
    group < ((seamAt s link).dir high).length ∧ 0 < (((seamAt s link).dir high).getD group { spares := 0 }).spares := by
  refine ⟨13, true, 7, 63, ready, ?_⟩
  decide

theorem witness_seamEventsComplete_7 : ∃ (w : _) (wire : _) (s : State), w < 8 ∧ (∀ n, wire = some n → n < 2560) ∧
    (tget s.sill w {}).start + 1000000 > s.ns := by
  refine ⟨7, some 2559, ready, ?_⟩
  exact ⟨by decide, fun _ h => by cases h; decide, by decide⟩

/-! Obligations.RegisterEventsComplete -/

theorem witness_registerEventsComplete_1 : ∃ (o : _) (s : State), o < 65536 ∧ o % 4 = 0 ∧ bar0Takes s (0x10000 + o) = true := by
  refine ⟨65532, ready, ?_⟩
  decide

theorem witness_registerEventsComplete_2 : ∃ (o : _) (s : State), 4 ≤ o ∧ o < 65536 ∧ o % 4 = 0 ∧ bar0Takes s (0x20000 + o) = true := by
  refine ⟨65532, ready, ?_⟩
  decide

theorem witness_registerEventsComplete_3 : ∃ (v : _) (s : State), v < 2 ^ 31 ∧ bar0Takes s 0x20000 = true := by
  refine ⟨0, ready, ?_⟩
  decide

theorem witness_registerEventsComplete_4 : ∃ (o : _) (s : State), o < 65536 ∧ o % 4 = 0 ∧ bar0Takes s (0x30000 + o) = true := by
  refine ⟨65532, ready, ?_⟩
  decide

theorem witness_registerEventsComplete_5 : ∃ (o : _) (s : State), o < 65536 ∧ o % 4 = 0 ∧ bar0Takes s (0x40000 + o) = true := by
  refine ⟨65532, ready, ?_⟩
  decide

theorem witness_registerEventsComplete_6 : ∃ (o : _) (s : State), o < 65536 ∧ o % 4 = 0 ∧ bar0Takes s (0x50000 + o) = true := by
  refine ⟨65532, ready, ?_⟩
  decide

theorem witness_registerEventsComplete_7 : ∃ s : State, bar0Takes s 0x60004 = true := by
  refine ⟨ready, ?_⟩
  decide

theorem witness_registerEventsComplete_8 : ∃ (off : _) (s : State), 0x8000 ≤ off ∧ off < 0x8040 ∧ off % 4 = 0 ∧ endpointRuns s = true := by
  refine ⟨0x803C, ready, ?_⟩
  decide

theorem witness_registerEventsComplete_9 : ∃ (off : _) (be : _) (s : State), off < 0x400000 ∧ be < 15 ∧ isMsix off = false ∧
    endpointRuns s = true ∧ bar0Takes s off = true := by
  refine ⟨0x3FFFFF, 14, ready, ?_⟩
  decide

theorem witness_registerEventsComplete_10 : ∃ (off : _) (be : _) (s : State), off < 0x400000 ∧ be < 16 ∧ endpointRuns s = true ∧
    bar0Takes s off = true := by
  refine ⟨0x3FFFFF, 15, ready, ?_⟩
  decide

/-! Obligations.MailboxEventsComplete -/

theorem witness_mailboxEventsComplete_1 : ∃ (tail : _) (s : State), bar0Takes s 0x10018 = true ∧
    (tail % 65536 + 65536 - s.maloa.reqHead) % 65536 ≤ 2 ^ s.maloa.reqLog2 := by
  refine ⟨64, ready, ?_⟩
  decide

theorem witness_mailboxEventsComplete_2 : ∃ (tail : _) (s : State), bar0Takes s 0x10018 = true ∧
    2 ^ s.maloa.reqLog2 < (tail % 65536 + 65536 - s.maloa.reqHead) % 65536 := by
  refine ⟨65, ready, ?_⟩
  decide

theorem witness_mailboxEventsComplete_3 : ∃ (head : _) (s : State), bar0Takes s 0x1001C = true ∧
    (s.maloa.rplTail + 65536 - head % 65536) % 65536 ≤ 2 ^ s.maloa.rplLog2 := by
  refine ⟨65535, { ready with maloa := { ready.maloa with rplTail := 63 } }, ?_⟩
  decide

theorem witness_mailboxEventsComplete_4 : ∃ s : State, bar0Takes s 0x10000 = true := by
  refine ⟨ready, ?_⟩
  decide

theorem witness_mailboxEventsComplete_5 : ∃ s : State, bar0Takes s 0x10000 = true := by
  refine ⟨ready, ?_⟩
  decide

theorem witness_mailboxEventsComplete_6 : ∃ s : State, mailboxRuns s = true ∧ s.maloa.reqHead ≠ s.maloa.reqTail ∧ outstandingOf .pcie s < 64 := by
  refine ⟨{ ready with maloa := { ready.maloa with enable := true, reqTail := 1 } }, ?_⟩
  decide

theorem witness_mailboxEventsComplete_7 : ∃ (r : ReplySeg) (rest : _) (s : State), mailboxRuns s = true ∧ replySlotFree s = true ∧
    s.maloa.waiting = r :: rest ∧ r.more = true := by
  refine ⟨{ src := .pcie, tag := 1, status := 0, opcode := 0, more := true }, [], { ready with maloa := { ready.maloa with enable := true, waiting := [{ src := .pcie, tag := 1, status := 0, opcode := 0, more := true }] } }, ?_⟩
  decide

theorem witness_mailboxEventsComplete_8 : ∃ (r : ReplySeg) (rest : _) (s : State), mailboxRuns s = true ∧ replySlotFree s = true ∧
    s.maloa.waiting = r :: rest := by
  refine ⟨{ src := .pcie, tag := 1, status := 0, opcode := 0, more := false }, [], { ready with maloa := { ready.maloa with enable := true, waiting := [{ src := .pcie, tag := 1, status := 0, opcode := 0, more := false }] } }, ?_⟩
  decide

/-! Obligations.InterpreterEventsComplete -/

theorem witness_interpreterEventsComplete_1 : ∃ (src : _) (tag : _) (o : _) (s : State), s.maloa.outstanding.find? (fun o => o.src = src && o.tag = tag && o.wait ≠ .ring) = some o ∧ timeUp o s = true ∧ (∀ w, o.wait ≠ .window w) := by
  refine ⟨.pcie, 1, { src := .pcie, tag := 1, opcode := 0, wait := .handover }, { ready with ns := 10 ^ 15, maloa := { ready.maloa with outstanding := [{ src := .pcie, tag := 1, opcode := 0, wait := .handover }] } }, ?_⟩
  exact ⟨by decide, by decide, fun _ h => by cases h⟩

theorem witness_interpreterEventsComplete_2 : ∃ (src : _) (tag : _) (o : _) (w : _) (s : State), s.maloa.outstanding.find? (fun o => o.src = src && o.tag = tag && o.wait ≠ .ring) = some o ∧ timeUp o s = true ∧ o.wait = .window w := by
  refine ⟨.pcie, 1, { src := .pcie, tag := 1, opcode := 0, wait := .window 7 }, 7, { ready with ns := 10 ^ 15, maloa := { ready.maloa with outstanding := [{ src := .pcie, tag := 1, opcode := 0, wait := .window 7 }] } }, ?_⟩
  decide

theorem witness_interpreterEventsComplete_3 : ∃ (src : _) (s : State), outstandingOf src s = 0 := by
  refine ⟨.pcie, ready, ?_⟩
  decide

theorem witness_interpreterEventsComplete_5 : ∃ (src : Source) (ingress : _) (udp : UdpObs) (packet : Bytes) (s : State), let a := takeArrival src (· = packet) s
    let came := s.maloa.arrived.find? fun x => x.src = src && x.packet = packet
    let q : Request := { src, ingress := (came.map (·.ingress)).getD ingress, latchkey := (came.map (·.latchkey)).getD 0
                         tag := u16 packet 2, token := u16 packet 6, txn := u32 packet 8, params := (packet.drop 16).take (u16 packet 4) }
    routeOpen src s = true ∧ discardCause src udp packet = none ∧ duplicateTag src (u16 packet 2) s = false ∧
      assignedOpcodes.contains (u16 packet 0) = false ∧ cachedFor (u16 packet 0) q a = none ∧ limitRefusal src a = none := by
  refine ⟨.pcie, 0, {}, strange, ready, ?_⟩
  dsimp only
  decide +kernel

theorem witness_interpreterEventsComplete_6 : ∃ (die : _) (m : _) (rest : _) (s : State), 2 ≤ s.boot.phase ∧ tget s.ev.queues die [] = m :: rest ∧
    (∀ t, s.ev.lastAt = some t → t + 50 ≤ s.ns) := by
  refine ⟨39, { code := 0x0101, die := 0, severity := 1 }, [], { ready with ev := { ready.ev with queues := [(39, [{ code := 0x0101, die := 0, severity := 1 }])] } }, ?_⟩
  exact ⟨by decide, by decide, fun _ h => by cases (show (none : Option Nat) = some _ from h)⟩

theorem witness_interpreterEventsComplete_7 : ∃ (die : _) (s : State), tget s.ev.lost die 0 ≠ 0 ∧ (tget s.ev.queues die []).length < 64 := by
  refine ⟨39, { ready with ev := { ready.ev with lost := [(39, 1)] } }, ?_⟩
  decide

theorem witness_interpreterEventsComplete_8 : ∃ s : State, bar0Takes s 0x50000 = true := by
  refine ⟨ready, ?_⟩
  decide

theorem witness_interpreterEventsComplete_9 : ∃ s : State, bar0Open s = true := by
  refine ⟨ready, ?_⟩
  decide

/-! Obligations.ReceiveEventsComplete -/

theorem witness_receiveEventsComplete_1 : ∃ (c : RxCodeword) (pos : _) (r : List RxCodeword) (lseq : _) (rtx : _) (f : _) (rest : _) (p : _), readFrame c pos r = (.frame lseq rtx f, rest, p) := by
  refine ⟨{ good := true, stream := frameWire 4095 true (sound 0) }, 0, [], 4095, true, sound 0, [{ good := true, stream := frameWire 4095 true (sound 0) }], some 40, ?_⟩
  decide +kernel

theorem witness_receiveEventsComplete_2 : ∃ (p : _) (s : State), isPort p = true ∧ (linkAt s p).state = .active := by
  refine ⟨0, linked { state := .active }, ?_⟩
  decide

/-! Obligations.LinkEventsComplete -/

theorem witness_linkEventsComplete_1 : ∃ (p : _) (lane : _) (s : State), isPort p = true ∧ lane < 8 ∧ bit (activeMask s p) lane = true := by
  refine ⟨0, 0, ready, ?_⟩
  decide

theorem witness_linkEventsComplete_2 : ∃ (p : _) (lw : LinkWord) (r : _) (s : State), isPort p = true ∧ (linkAt s p).state = .active ∧
    (linkAt s p).rx.words = lw :: r ∧ lw.train = true := by
  refine ⟨0, { ackSeq := 0, train := true }, [], linked { state := .active, rx := { words := [{ ackSeq := 0, train := true }] } }, ?_⟩
  decide

theorem witness_linkEventsComplete_3 : ∃ (p : _) (lw : LinkWord) (r : _) (s : State), isPort p = true ∧ (linkAt s p).state = .active ∧
    (linkAt s p).rx.words = lw :: r ∧ lw.train = false ∧ lw.nak = false := by
  refine ⟨0, { ackSeq := 0 }, [], linked { state := .active, rx := { words := [{ ackSeq := 0 }] } }, ?_⟩
  decide

theorem witness_linkEventsComplete_4 : ∃ (p : _) (s : State), isPort p = true ∧ (linkAt s p).state = .active ∧ (linkAt s p).unacked ≠ [] := by
  refine ⟨0, sending, ?_⟩
  decide

theorem witness_linkEventsComplete_5 : ∃ (p : _) (s : State), isPort p = true ∧ (linkAt s p).state = .locking := by
  refine ⟨0, linked { state := .locking }, ?_⟩
  decide

theorem witness_linkEventsComplete_6 : ∃ (p : _) (lane : _) (msg : TrainMsg) (r : _) (s : State), isPort p = true ∧
    (linkAt s p).rx.train = (lane, msg) :: r ∧ msg.tcrcOk = true ∧ msg.version = 1 ∧ (linkAt s p).locked = true ∧ isTraining s p = true := by
  refine ⟨0, 0, { kind := 1, gang := 1, port := 0, peerType := 0, caps := 0, serial := 0, grant := [], fresh := true, expectLseq := 0 }, [], linked { state := .exchange, locked := true, rx := { train := [(0, { kind := 1, gang := 1, port := 0, peerType := 0, caps := 0, serial := 0, grant := [], fresh := true, expectLseq := 0 })] } }, ?_⟩
  decide

theorem witness_linkEventsComplete_7 : ∃ (p : _) (s : State), isPort p = true ∧ isTraining s p = true := by
  refine ⟨0, linked { state := .locking }, ?_⟩
  decide

theorem witness_linkEventsComplete_8 : ∃ (p : _) (s : State), isPort p = true ∧ phyReady s p = true := by
  refine ⟨0, { ready with ports := [(0, { state := .phyReady })] }, ?_⟩
  decide

theorem witness_linkEventsComplete_9 : ∃ (p : _) (s : State) (n : _), let a := markWaits p (fillCaps p (endFrame p s))
    isPort p = true ∧ (linkAt s p).state = .active ∧ (linkAt s p).busyUntil ≤ s.ns ∧ (linkAt a p).replayNext = some n := by
  refine ⟨0, linked { state := .active, replayNext := some 7 }, 7, ?_⟩
  dsimp only
  decide

theorem witness_linkEventsComplete_10 : ∃ (p : _) (s : State) (v : _) (x : _), let a := markWaits p (fillCaps p (endFrame p s))
    isPort p = true ∧ (linkAt s p).state = .active ∧ (linkAt s p).busyUntil ≤ s.ns ∧ (linkAt a p).replayNext = none ∧ (pickVc a p).1 = some v ∧
      eligibleHead a p v = some x ∧ windowFull a p x.frame = false := by
  refine ⟨0, sending, 0, waiting, ?_⟩
  dsimp only
  decide

theorem witness_linkEventsComplete_11 : ∃ (p : _) (s : State), let a := markWaits p (fillCaps p (endFrame p s))
    isPort p = true ∧ (linkAt s p).state = .active ∧ (linkAt s p).busyUntil ≤ s.ns ∧ (linkAt a p).replayNext = none ∧ (pickVc a p).1 = none := by
  refine ⟨0, linked { state := .active }, ?_⟩
  dsimp only
  decide

theorem witness_linkEventsComplete_12 : ∃ (p : _) (s : State), isPort p = true ∧ (linkAt s p).symWindow * 100000 ≤ (linkAt s p).cwWindow * 272 := by
  refine ⟨0, linked {  }, ?_⟩
  decide

/-! Obligations.LaneEventsComplete -/

theorem witness_laneEventsComplete_1 : ∃ (pair : _) (k : _) (c : _) (level : _) (s : State), pair < 160 ∧ k < 8 ∧ (c = 1 ∨ c = 2 ∨ c = 5 ∨ c = 6) ∧
    faultHolds s pair k c level = true := by
  refine ⟨127, 7, 5, 10 ^ 9, ready, ?_⟩
  decide

theorem witness_laneEventsComplete_2 : ∃ (pair : _) (k : _) (c : _), pair < 160 ∧ k < 8 ∧ (c = 3 ∨ c = 4) := by
  refine ⟨159, 7, 4, ?_⟩
  decide

theorem witness_laneEventsComplete_3 : ∃ (pair : _) (k : _) (c : _) (level : _) (s : State), pair < 128 ∧ k < 9 ∧ (c = 1 ∨ c = 5 ∨ c = 6) ∧
    faultHolds s pair k c level = false := by
  refine ⟨127, 8, 1, 0, ready, ?_⟩
  decide

theorem witness_laneEventsComplete_4 : ∃ (pair : _) (k : _) (s : State), pair < 128 ∧ k < 8 ∧
    ((fibreAt s pair).spare = .standby ∨ (fibreAt s pair).spare = .unmatched) := by
  refine ⟨0, 7, ready, ?_⟩
  decide

theorem witness_laneEventsComplete_5 : ∃ (pair : _) (s : State), pair < 128 ∧ (fibreAt s pair).spare = .standby := by
  refine ⟨127, ready, ?_⟩
  decide

theorem witness_laneEventsComplete_6 : ∃ (pair : _) (k : _) (s : State), pair < 128 ∧ (fibreAt s pair).selected = false ∧
    ((fibreAt s pair).spare = .bridging k ∨ (fibreAt s pair).spare = .mirroring k) := by
  refine ⟨0, 7, { ready with fibres := [(0, { spare := .bridging 7 })] }, ?_⟩
  decide

theorem witness_laneEventsComplete_7 : ∃ (pair : _) (k : _) (s : State), pair < 128 ∧ (fibreAt s pair).selected = true ∧
    ((fibreAt s pair).spare = .bridging k ∨ (fibreAt s pair).spare = .mirroring k) := by
  refine ⟨0, 7, { ready with fibres := [(0, { spare := .mirroring 7, selected := true })] }, ?_⟩
  decide

theorem witness_laneEventsComplete_8 : ∃ (pair : _) (k : _) (s : State), pair < 128 ∧ (fibreAt s pair).selected = false ∧
    ((fibreAt s pair).spare = .bridging k ∧ (fibreAt s pair).since + 20000 ≤ s.ns ∨ (fibreAt s pair).spare = .mirroring k) := by
  refine ⟨0, 7, { ready with fibres := [(0, { spare := .mirroring 7 })] }, ?_⟩
  decide

theorem witness_laneEventsComplete_9 : ∃ (pair : _) (k : _) (s : State), pair < 160 ∧ k < 8 ∧ bit (fibreAt s pair).lightDrop k = false := by
  refine ⟨159, 7, ready, ?_⟩
  decide

theorem witness_laneEventsComplete_10 : ∃ (pair : _) (k : _) (s : State), pair < 128 ∧ k < 9 ∧ picCold s (windowOf (8 * pair)) = false ∧
    bit (fibreAt s pair).lightDrop k = false := by
  refine ⟨127, 8, ready, ?_⟩
  decide

theorem witness_laneEventsComplete_11 : ∃ (e : _) (k : _) (s : State), e < 32 ∧ k < 8 ∧ picCold s (windowOf (8 * (128 + e))) = false ∧
    bit (fibreAt s (128 + e)).lightDrop k = false := by
  refine ⟨31, 7, ready, ?_⟩
  decide

theorem witness_laneEventsComplete_12 : ∃ (pair : _) (k : _) (s : State), pair < 160 ∧ k < 9 ∧ picCold s (windowOf (8 * pair)) = true := by
  refine ⟨159, 8, { ready with boot := { ready.boot with phase := 4 }, zones := [(39, { reading := some 2559 })] }, ?_⟩
  decide

theorem witness_laneEventsComplete_13 : ∃ (pair : _) (k : _) (pct : _), pair < 160 ∧ k < 9 ∧ (pair < 128 ∨ k < 8) ∧ 10 ≤ pct := by
  refine ⟨127, 8, 10, ?_⟩
  decide

theorem witness_laneEventsComplete_14 : ∃ (pair : _) (k : _) (s : State), pair < 128 ∧ k < 9 ∧
    ((fibreAt s pair).lambdas.getD k {}).txLock = true := by
  refine ⟨127, 8, { ready with fibres := [(127, { lambdas := List.replicate 9 { txLock := true } })] }, ?_⟩
  decide

theorem witness_laneEventsComplete_15 : ∃ (p : _) (lane : Nat) (s : State), isPort p = true ∧ lane < 8 ∧
    ((portAt s p).eqFreeze = true ∨ eqHeld s (p / 8) (p % 8 + lane) = true ∨ ∃ t, ((portAt s p).eq.getD lane {}).stepped = some t ∧
    s.ns < t + 10000000) := by
  refine ⟨0, 7, { ready with ports := [(0, { eqFreeze := true })] }, ?_⟩
  exact ⟨by decide, by decide, .inl (by decide)⟩

theorem witness_laneEventsComplete_16 : ∃ (p : _) (lane : _) (s : State), isPort p = true ∧ lane < 8 ∧ (portAt s p).eqFreeze = false ∧
    eqHeld s (p / 8) (p % 8 + lane) = false ∧ ((portAt s p).eq.getD lane {}).stepped = none ∧ (portAt s p).eq.length = 8 := by
  refine ⟨1279, 0, { ready with fibres := [(159, { lambdas := List.replicate 9 { txLock := true, rxLock := true } })] }, ?_⟩
  decide

theorem witness_laneEventsComplete_17 : ∃ (p : _) (lane : _), isPort p = true ∧ lane < 8 := by
  refine ⟨1279, 7, ?_⟩
  decide

/-! Obligations.LightEventsComplete -/

theorem witness_lightEventsComplete_1 : ∃ m, m < 16 := by
  refine ⟨15, ?_⟩
  decide

theorem witness_lightEventsComplete_2 : ∃ (m : _) (obs : ModuleObs) (s : State), m < 16 ∧ (moduleAt s m).state ≠ 2 ∧ 3 ≤ s.boot.phase ∧
    rejectCode obs ≠ 0 := by
  refine ⟨15, { good with setStep := 51 }, ready, ?_⟩
  decide

theorem witness_lightEventsComplete_3 : ∃ (m : _) (obs : ModuleObs) (s : State), m < 16 ∧ (moduleAt s m).state ≠ 2 ∧ 3 ≤ s.boot.phase ∧
    rejectCode obs = 0 ∧ (moduleAt s (moduleOf (m / 2) (3 - sideOf m))).state = 0 := by
  refine ⟨15, good, ready, ?_⟩
  decide

theorem witness_lightEventsComplete_4 : ∃ (m : _) (s : State), m < 16 ∧ (moduleAt s m).state ≠ 0 := by
  refine ⟨15, { ready with modules := [(15, { state := 2 })] }, ?_⟩
  decide

theorem witness_lightEventsComplete_5 : ∃ (m : _) (faulty : List Nat), m < 16 ∧ (∀ l ∈ faulty, l < 9) := by
  refine ⟨15, [8], ?_⟩
  decide

theorem witness_lightEventsComplete_6 : ∃ (m : _) (s : State), m < 16 ∧ (moduleAt s m).state ≠ 0 := by
  refine ⟨15, { ready with modules := [(15, { state := 2 })] }, ?_⟩
  decide

theorem witness_lightEventsComplete_7 : ∃ (m : _) (s : State), m < 16 ∧ (moduleAt s m).state ≠ 0 := by
  refine ⟨15, { ready with modules := [(15, { state := 2 })] }, ?_⟩
  decide

theorem witness_lightEventsComplete_8 : ∃ m l, m < 16 ∧ l < 9 := by
  refine ⟨15, 8, ?_⟩
  decide

theorem witness_lightEventsComplete_9 : ∃ (m : _) (l : _) (s : State), m < 16 ∧ l < 9 ∧ bit (lightAt s (m / 2)).lost l = true ∧
    (moduleAt s m).state = 2 := by
  refine ⟨15, 8, { ready with light := [(7, { lost := 256 })], modules := [(15, { state := 2 })] }, ?_⟩
  decide

theorem witness_lightEventsComplete_10 : ∃ (m : _) (l : _) (s : State), m < 16 ∧ l < 9 ∧ bit (lightAt s (m / 2)).lost l = false ∧
    (lightAt s (m / 2)).sel.getD l 0 ≠ 0 := by
  refine ⟨15, 8, { ready with light := [(7, { sel := List.replicate 9 1 })] }, ?_⟩
  decide

theorem witness_lightEventsComplete_11 : ∃ (w : _) (y : _) (s : State), w < 8 ∧ (lightAt s w).switch = some y := by
  refine ⟨7, { target := 1, cause := 1 }, { ready with light := [(7, { switch := some { target := 1, cause := 1 } })] }, ?_⟩
  decide

theorem witness_lightEventsComplete_12 : ∃ (m : _) (s : State), m < 16 ∧ (moduleAt s m).state = 2 ∧ (moduleAt s m).fineTune = true ∧
    (moduleAt s m).lasers.length = 9 := by
  refine ⟨15, { ready with modules := [(15, { state := 2, fineTune := true })] }, ?_⟩
  decide

theorem witness_lightEventsComplete_13 : ∃ (w : _) (s : State), let t := takeLimits (2 * w + 1) (takeLimits (2 * w) s)
    w < 8 ∧ lightHeld t w = false := by
  refine ⟨7, ready, ?_⟩
  dsimp only
  decide

theorem witness_lightEventsComplete_14 : ∃ (w : _) (l : _), w < 8 ∧ l < 9 := by
  refine ⟨7, 8, ?_⟩
  decide

/-! Obligations.TransomEventsComplete -/

theorem witness_transomEventsComplete_1 : ∃ (w : _) (t0 : _) (is : _) (s : State), w < 8 ∧ tget s.transom.changing w [] = [(t0, is)] := by
  refine ⟨7, 3, [5], { ready with transom := { changing := [(7, [(3, [5])])] } }, ?_⟩
  decide

theorem witness_transomEventsComplete_2 : ∃ (w : _) (s : State), w < 8 ∧ tget s.transom.changing w [] = [] := by
  refine ⟨7, ready, ?_⟩
  decide

theorem witness_transomEventsComplete_3 : ∃ (w : _) (e : _) (s : State), w < 8 ∧ e < 32 ∧ transomMode s (32 * w + e) = 2 := by
  refine ⟨7, 31, setUp [(.entry 6 255, [128, 0, 0, 0])], ?_⟩
  decide

theorem witness_transomEventsComplete_4 : ∃ (w : _) (e : _) (s : State), w < 8 ∧ e < 32 ∧ transomMode s (32 * w + e) = 2 := by
  refine ⟨7, 31, setUp [(.entry 6 255, [128, 0, 0, 0])], ?_⟩
  decide

theorem witness_transomEventsComplete_5 : ∃ (w : _) (e : _) (ring : _) (s : State), w < 8 ∧ e < 32 ∧ ring < 3 ∧ transomMode s (32 * w + e) = 2 := by
  refine ⟨7, 31, 2, setUp [(.entry 6 255, [128, 0, 0, 0])], ?_⟩
  decide

/-! Obligations.TableEventsComplete -/

theorem witness_tableEventsComplete_3 : ∃ (h : _) (r : _) (table : _) (code : _) (s : State), h < 4 ∧
    (chuteAt s h).records.find? (fun r => !r.read) = some r ∧ repairTable r = some (table, code) := by
  refine ⟨3, { seq := 1, time := 0, cause := 1, port := 0, index := 9, pipe := 0, head := [] }, 1, 1, { ready with fwd := { ready.fwd with chutes := [(3, { records := [{ seq := 1, time := 0, cause := 1, port := 0, index := 9, pipe := 0, head := [] }] })], bad := [(1, 3, 9)] } }, ?_⟩
  decide

theorem witness_tableEventsComplete_4 : ∃ (ctrl : _) (s : State), bar0Takes s 0x20000 = true ∧ s.setup.tce.busy = false ∧ bit ctrl 16 = true ∧
    1 ≤ bitsOf ctrl 15 8 ∧ bitsOf ctrl 15 8 ≤ 6 ∧
    s.setup.tce.index < tableSize (bitsOf ctrl 15 8) := by
  refine ⟨0x10101, ready, ?_⟩
  decide

theorem witness_tableEventsComplete_5 : ∃ s : State, bar0Takes s 0x20000 = true ∧ s.setup.tce.busy = true := by
  refine ⟨{ staging with setup := { staging.setup with tce := { busy := true } } }, ?_⟩
  decide

theorem witness_tableEventsComplete_6 : ∃ (ctrl : _) (s : State), bar0Takes s 0x20000 = true ∧ s.setup.tce.busy = false ∧ bit ctrl 16 = true ∧
    1 ≤ bitsOf ctrl 15 8 ∧
    bitsOf ctrl 15 8 ≤ 6 ∧ bitsOf ctrl 15 8 ≠ 5 ∧ s.setup.tce.index < tableSize (bitsOf ctrl 15 8) := by
  refine ⟨0x10601, ready, ?_⟩
  decide

theorem witness_tableEventsComplete_7 : ∃ (ctrl : _) (s : State), let a := modTce (fun t => { t with ctrl := bitsOf ctrl 19 8 * 256 + 2, busy := true }) (countBar0 1 0x20000 s)
    bar0Takes s 0x20000 = true ∧ s.setup.tce.busy = false ∧ bit ctrl 16 = false ∧ 1 ≤ bitsOf ctrl 15 8 ∧ bitsOf ctrl 15 8 ≤ 6 ∧
      bitsOf ctrl 15 8 ≠ 5 ∧ s.setup.tce.index < tableSize (bitsOf ctrl 15 8) ∧ tceTxnRefused a = none := by
  refine ⟨0x0102, { staging with setup := { staging.setup with tce := { handle := 1 } } }, ?_⟩
  dsimp only
  decide

theorem witness_tableEventsComplete_8 : ∃ (ctrl : _) (s : State), let a := modTce (fun t => { t with ctrl := bitsOf ctrl 19 8 * 256 + 3, busy := true }) (countBar0 1 0x20000 s)
    bar0Takes s 0x20000 = true ∧ s.setup.tce.busy = false ∧ bit ctrl 16 = false ∧ 1 ≤ bitsOf ctrl 15 8 ∧ bitsOf ctrl 15 8 ≤ 6 ∧
      bitsOf ctrl 15 8 ≠ 5 ∧ s.setup.tce.index < tableSize (bitsOf ctrl 15 8) ∧ tceTxnRefused a = none := by
  refine ⟨0x0603, { staging with setup := { staging.setup with tce := { handle := 1 } } }, ?_⟩
  dsimp only
  decide

theorem witness_tableEventsComplete_9 : ∃ (ctrl : _) (s : State), bar0Takes s 0x20000 = true ∧ s.setup.tce.busy = false ∧ bitsOf ctrl 15 8 = 5 ∧
    bit ctrl 16 = true ∧
    s.setup.tce.index < 262144 := by
  refine ⟨0x10501, { staging with setup := { staging.setup with tce := { index := 262143 } } }, ?_⟩
  decide

theorem witness_tableEventsComplete_10 : ∃ (s : State) (st : _) (rs : _) (m : _) (ws : _), s.setup.tce.result = some (st, rs, m, ws) := by
  refine ⟨{ staging with setup := { staging.setup with tce := { result := some (0, 0, true, [1]) } } }, 0, 0, true, [1], ?_⟩
  decide

/-! Obligations.TransactionEventsComplete -/

theorem witness_transactionEventsComplete_1 : ∃ (h : _) (t : _) (s : State), txnAt s h = some t ∧ t.state ≠ .committing := by
  refine ⟨1, opened, staging, ?_⟩
  decide

theorem witness_transactionEventsComplete_2 : ∃ (h : _) (t : _) (s : State), txnAt s h = some t ∧ t.state = .committing := by
  refine ⟨1, { opened with state := .committing }, { ready with setup := { ready.setup with txns := [{ opened with state := .committing }] } }, ?_⟩
  decide

theorem witness_transactionEventsComplete_3 : ∃ (k : _) (b : _) (s : State), blockAt s k = some b ∧ b.state = .quiescing ∧ drained s k = true := by
  refine ⟨2, { state := .quiescing }, { ready with blocks := [(2, { state := .quiescing })] }, ?_⟩
  decide

theorem witness_transactionEventsComplete_4 : ∃ (k : _) (b : _) (d : _) (s : State), blockAt s k = some b ∧ b.state = .quiescing ∧
    b.drain = some d ∧ d.expired = false ∧ d.start + d.limit * 1000 ≤ s.ns ∧ d.force = false := by
  refine ⟨2, { state := .quiescing, drain := some { force := false, start := 0 } }, { force := false, start := 0 }, { ready with ns := 10000000, blocks := [(2, { state := .quiescing, drain := some { force := false, start := 0 } })] }, ?_⟩
  decide

theorem witness_transactionEventsComplete_5 : ∃ (k : _) (b : _) (d : _) (s : State), blockAt s k = some b ∧ b.state = .quiescing ∧
    b.drain = some d ∧ d.expired = false ∧ d.start + d.limit * 1000 ≤ s.ns ∧ d.force = true := by
  refine ⟨2, { state := .quiescing, drain := some { force := true, start := 0 } }, { force := true, start := 0 }, { ready with ns := 10000000, blocks := [(2, { state := .quiescing, drain := some { force := true, start := 0 } })] }, ?_⟩
  decide

/-! Obligations.BufferEventsComplete -/

theorem witness_bufferEventsComplete_1 : ∃ (h : _) (s : State), let a := holdStall h s
    let l := (hallAt a h).held.filter fun x => x.turn.isNone
    h < 4 ∧ l ≠ [] := by
  refine ⟨3, { ready with buf := { halls := [(3, { held := [waiting] })] } }, ?_⟩
  decide

theorem witness_bufferEventsComplete_2 : ∃ (h : _) (s : State), h < 4 ∧ bit (hallSetting s h 4 1) 0 = false := by
  refine ⟨3, setUp [(.hallBuf 3, (liveValue ready (.hallBuf 3)).set 4 0)], ?_⟩
  decide

theorem witness_bufferEventsComplete_3 : ∃ (h : _) (v : _) (s : State), h < 4 ∧ bit (hallSetting s h 4 1) 0 = true ∧
    (sharedSpace s h - sharedUsed s h) * 256 < hallSetting s h 24 2 * sharedSpace s h ∧
    [1, 2, 3, 4].find? (fun v => vcHolds s h v && hallSetting s h (15 + v) 1 < (hallAt s h).k.getD v 0) = some v := by
  refine ⟨0, 1, tight, ?_⟩
  decide

theorem witness_bufferEventsComplete_4 : ∃ (src : _) (dst : _) (route : _) (s : State) (x : _), let a := modHall src (fun a => { a with rounds := tset a.rounds dst (pickCross s src dst).2 }) s
    src < 4 ∧ dst < 4 ∧ pickRoute s src dst (tget (hallAt s src).relay dst [0, 0, 0]) = some route ∧
      ((pickCross s src dst).1.bind fun v => crossHead a src dst v) = some x := by
  refine ⟨3, 0, 0, { ready with buf := { halls := [(3, { xfer := [(0, [waiting])] })] } }, waiting, ?_⟩
  dsimp only
  decide

theorem witness_bufferEventsComplete_5 : ∃ (src : _) (dst : _) (s : State), src < 4 ∧ dst < 4 ∧
    pickRoute s src dst (tget (hallAt s src).relay dst [0, 0, 0]) = none := by
  refine ⟨3, 0, { ready with seam := (List.range 6).map fun i => (13 + i, { low := List.replicate 8 { spares := 0, half := 3 } }) }, ?_⟩
  decide

theorem witness_bufferEventsComplete_6 : ∃ (h : _) (x : _) (r : _) (s : State), h < 4 ∧ tget s.buf.spillWrites h [] = x :: r := by
  refine ⟨3, waiting, [], { ready with buf := { spillWrites := [(3, [waiting])] } }, ?_⟩
  decide

theorem witness_bufferEventsComplete_7 : ∃ (p : _) (vc : _) (x : Held) (r : _) (s : State), let a := countLines (hallOf p) 0 0 (2 * x.cells) (useTokens (hallOf p) 0 (2 * x.cells) s)
    isPort p = true ∧ vc < 8 ∧ (queueAt s p vc).spilled = x :: r ∧ sumCells (queueAt s p vc).frames < hallSetting s (hallOf p) 34 2 + 128 ∧
      x.cells ≤ freeCells a (hallOf p) (poolKey s x.frame.latchkey) := by
  refine ⟨0, 0, waiting, [], { ready with buf := { queues := [((0, 0), { spilled := [waiting] })] } }, ?_⟩
  dsimp only
  decide

theorem witness_bufferEventsComplete_9 : ∃ (p : _), isPort p = true := by
  refine ⟨1279, ?_⟩
  decide

/-! Obligations.CellarEventsComplete -/

theorem witness_cellarEventsComplete_1 : ∃ (h : _) (s : State), h < 4 ∧ s.ns - (scrubAt s h).start ≤ u8 (bootcfg s) 3 * hour ∧
    (scrubAt s h).pos + 1 < 2 ^ 30 ∧
    scrubSkips s h (lineOf ((scrubAt s h).pos % 128) ((scrubAt s h).pos / 128)) = true := by
  refine ⟨0, { ready with cellar := { ready.cellar with poisoned := [(0, lineOf 0 0)] } }, ?_⟩
  decide

theorem witness_cellarEventsComplete_2 : ∃ (h : _) (s : State), let line := lineOf ((scrubAt s h).pos % 128) ((scrubAt s h).pos / 128)
    h < 4 ∧ s.ns - (scrubAt s h).start ≤ u8 (bootcfg s) 3 * hour ∧ (scrubAt s h).pos + 1 < 2 ^ 30 ∧ scrubSkips s h line = false := by
  refine ⟨3, ready, ?_⟩
  dsimp only
  decide

theorem witness_cellarEventsComplete_3 : ∃ (die : _) (k : _) (rest : _) (s : State), (cellarDie s die).copies = k :: rest := by
  refine ⟨6, (1, 2, 3), [], { ready with cellar := { ready.cellar with dies := [(6, { copies := [(1, 2, 3)] })] } }, ?_⟩
  decide

theorem witness_cellarEventsComplete_4 : ∃ (die : _) (ch : _) (s : State), isCellar die = true ∧ ch < 32 ∧
    ((cellarDie s die).channel ch).marked.isSome = true ∧
    ((cellarDie s die).channel ch).spareUsed = false ∧ ((cellarDie s die).channel ch).rewriting = none := by
  refine ⟨21, 31, { ready with cellar := { ready.cellar with dies := [(21, { channels := [(31, { marked := some 2 })] })] } }, ?_⟩
  decide

theorem witness_cellarEventsComplete_5 : ∃ (die : _) (ch : _) (start : _) (chunk : _) (s : State), isCellar die = true ∧ ch < 32 ∧
    ((cellarDie s die).channel ch).rewriting = some start ∧
    ((cellarDie s die).channel ch).marked = some chunk := by
  refine ⟨21, 31, 0, 2, { ready with cellar := { ready.cellar with dies := [(21, { channels := [(31, { marked := some 2, rewriting := some 0 })] })] } }, ?_⟩
  decide

theorem witness_cellarEventsComplete_6 : ∃ die, isCellar die = true := by
  refine ⟨21, ?_⟩
  decide

theorem witness_cellarEventsComplete_7 : ∃ (die : _) (t : _) (s : State), isCellar die = true ∧ (cellarDie s die).mode < refreshModeOf t := by
  refine ⟨21, 30000, ready, ?_⟩
  decide

theorem witness_cellarEventsComplete_8 : ∃ (h : _) (a : _) (first : _) (n : _) (s : State), h < 4 ∧ tfind s.cellar.tests h = some (a, first, n) := by
  refine ⟨3, 1, 0, 1, { ready with cellar := { ready.cellar with tests := [(3, 1, 0, 1)] } }, ?_⟩
  decide

/-! Obligations.CollectiveEventsComplete -/

theorem witness_collectiveEventsComplete_1 : ∃ (m : _) (y : MangleIn) (s : State), m < 2 ∧ nextInput (mangleAt s m).input = some y := by
  refine ⟨0, { hall := 0, frame := waiting, buffer := some 3 }, { ready with coll := { ready.coll with mangles := [{ input := [{ hall := 0, frame := waiting, buffer := some 3 }] }, {}] } }, ?_⟩
  decide

theorem witness_collectiveEventsComplete_2 : ∃ (m : _) (c : _) (i : _) (ch : _) (s : State), m < 2 ∧
    oldestFinal (pushOut m s) m = some (c, i, ch) ∧ (mangleAt (pushOut m s) m).output = [] ∧
    chunkRoom (pushOut m s) c ch = true ∧ isRoot (pushOut m s) c = false ∧
    bufferUsed (pushOut m s) m + entrySize ((ch.frames.map fun f => f.length).sum) ≤ 4194304 := by
  refine ⟨1, 0, 1, finalChunk, { context { chunks := [(1, finalChunk)] } with setup := { ready.setup with live := [(.tree 0, [2, 0, 0, 0, 0, 0, 0, 3, 0, 0, 0, 1])] } }, ?_⟩
  decide

theorem witness_collectiveEventsComplete_3 : ∃ (ctx : _) (r : _) (s : State), ctxAt s ctx = some r ∧ r.due = true ∧ isRoot s ctx = true ∧
    (∀ t, r.lastRelease = some t → t + 500 ≤ s.ns) ∧
    groupRoom s (ctxOf s ctx).home (releaseFrame s ctx r.rel) = true := by
  refine ⟨0, { due := true }, context { due := true }, ?_⟩
  decide

theorem witness_collectiveEventsComplete_4 : ∃ (m : _) (c : _) (i : _) (ch : _) (s : State), m < 2 ∧ oldestTest s m = some (c, i) ∧
    chunkAt s c i = some ch := by
  refine ⟨1, 0, 1, { mangle := 1, engine := 0, testing := true }, context { chunks := [(1, { mangle := 1, engine := 0, testing := true })] }, ?_⟩
  decide

theorem witness_collectiveEventsComplete_5 : ∃ (m : _) (c : _) (i : _) (e : _) (s : State) (u : _), m < 2 ∧ s.coll.ctxs = [(c, u)] ∧
    u.hamper = [(i, e)] ∧ e.mangle = m ∧ e.written = false ∧
    (takeTokens (2 * m + i % 2) 1 (e.size / 64) s).isSome = true := by
  refine ⟨1, 0, 1, { mangle := 1, size := 128, excess := 0, since := 0, frames := [] }, context { hamper := [(1, { mangle := 1, size := 128, excess := 0, since := 0, frames := [] })] }, { hamper := [(1, { mangle := 1, size := 128, excess := 0, since := 0, frames := [] })] }, ?_⟩
  decide

theorem witness_collectiveEventsComplete_6 : ∃ (ctx : _) (r : CtxRun) (t0 : _) (us : _) (s : State), ctxAt s ctx = some r ∧ isRoot s ctx = false ∧
    r.failed = false ∧ ctxRunning s ctx = true ∧ r.replayTimer = some (t0, us) := by
  refine ⟨0, { restart := some (7, 20), hamper := [(1, { mangle := 1, size := 128, excess := 0, since := 0, frames := [] })] }, 7, 20, { context { restart := some (7, 20), hamper := [(1, { mangle := 1, size := 128, excess := 0, since := 0, frames := [] })] } with setup := { ready.setup with live := [(.tree 0, [2, 0, 0, 0, 0, 0, 0, 3, 0, 0, 0, 1])] } }, ?_⟩
  decide

theorem witness_collectiveEventsComplete_7 : ∃ (ctx : _) (i : _) (r : _) (ch : _) (s : State), ctxAt s ctx = some r ∧ chunkAt s ctx i = some ch ∧
    ch.final = false ∧ ch.straggler = false ∧ ctxRunning s ctx = true := by
  refine ⟨0, 1, { chunks := [(1, { mangle := 1, engine := 0, testing := true })] }, { mangle := 1, engine := 0, testing := true }, context { chunks := [(1, { mangle := 1, engine := 0, testing := true })] }, ?_⟩
  decide

theorem witness_collectiveEventsComplete_8 : ∃ (ctx : _) (run : _) (r : _) (x : _) (s : State), ctxAt s ctx = some r ∧
    tfind r.runOpen run = some x ∧ isRoot s ctx = true ∧ r.rel ≤ run ∧ run ∉ r.stalled ∧ ctxRunning s ctx = true ∧
    x.start + x.limit * 1000000 ≤ s.ns := by
  refine ⟨0, 64, { runOpen := [(64, { opened := 0, start := 0, limit := 0 })] }, { opened := 0, start := 0, limit := 0 }, context { runOpen := [(64, { opened := 0, start := 0, limit := 0 })] }, ?_⟩
  decide

/-! Obligations.MantelEventsComplete -/

theorem witness_mantelEventsComplete_1 : ∃ (s : State), (∀ t, s.time.lastSend = some t → t + s.time.interval * 1000 ≤ s.ns) := by
  refine ⟨ready, ?_⟩
  exact fun _ h => by cases (show (none : Option Nat) = some _ from h)

theorem witness_mantelEventsComplete_2 : ∃ (t : Nat) (s : State), s.time.lastSend = some t ∧ s.ns < t + s.time.interval * 1000 := by
  refine ⟨5, { ready with time := { ready.time with lastSend := some 5 } }, ?_⟩
  decide

theorem witness_mantelEventsComplete_3 : ∃ (p : _) (x : MantelRx) (s : State), isPort p = true ∧
    s.time.inbox.find? (fun x => x.port = p) = some x ∧ (x.frame.length ≠ 64 ∨ u8 x.frame.payload 0 ≠ 1) := by
  refine ⟨0, { port := 0, rtx := false, count := 0, frac := 0, cal := 0, frame := waiting.frame }, { ready with time := { ready.time with inbox := [{ port := 0, rtx := false, count := 0, frac := 0, cal := 0, frame := waiting.frame }] } }, ?_⟩
  decide

theorem witness_mantelEventsComplete_4 : ∃ (p : _) (x : MantelRx) (s : State), isPort p = true ∧
    s.time.inbox.find? (fun x => x.port = p) = some x ∧ x.frame.length = 64 ∧ u8 x.frame.payload 0 = 1 := by
  refine ⟨0, { port := 0, rtx := false, count := 5, frac := 7, cal := 0, frame := { kind := 3, tc := 6, length := 64, payload := 1 :: zeros 63 } }, { ready with time := { ready.time with inbox := [{ port := 0, rtx := false, count := 5, frac := 7, cal := 0, frame := { kind := 3, tc := 6, length := 64, payload := 1 :: zeros 63 } }] } }, ?_⟩
  decide

theorem witness_mantelEventsComplete_5 : ∃ (p : _) (s : State), isPort p = true ∧ (mantelPort s p).info.isSome = true := by
  refine ⟨0, { ready with time := { ready.time with ports := [(0, { info := some { source := true, holdover := false, gmPriority := 1, depth := 0, gmSerial := 5, tTx := 0, tTxFrac := 0, tRx := 0, tRxFrac := 0 } })] } }, ?_⟩
  decide

theorem witness_mantelEventsComplete_6 : ∃ (g : _) (s : State), g < 4 ∧ (s.time.gens.getD g {}).enable = true := by
  refine ⟨3, { ready with time := { ready.time with gens := List.replicate 4 { enable := true } } }, ?_⟩
  decide

theorem witness_mantelEventsComplete_7 : ∃ s : State, (∀ e, s.time.lastEdge = some e → e + 1000 ≤ s.ns) := by
  refine ⟨ready, ?_⟩
  decide

theorem witness_mantelEventsComplete_8 : ∃ (t0 : _) (sec : _) (ns : _) (s : State), s.time.cal.setAt = some (t0, sec, ns) := by
  refine ⟨1, 2, 3, { ready with time := { ready.time with cal := { setAt := some (1, 2, 3) } } }, ?_⟩
  decide

/-! Obligations.ClockReadEventsComplete -/

theorem witness_clockReadEventsComplete_1 : ∃ (p : _) (obs : PtpObs) (s : State), p < 2 ∧ ptpRuns s p = true ∧
    (obs.kind = 0 ∨ obs.domain ≠ u8 (ptpAt s p).config 3) := by
  refine ⟨1, { kind := 0, portState := 9 }, { ready with time := { ready.time with ptp := [{}, { config := [1, 1] }] } }, ?_⟩
  decide

theorem witness_clockReadEventsComplete_2 : ∃ (p : _) (obs : PtpObs) (s : State), p < 2 ∧ ptpRuns s p = true ∧ obs.kind ≠ 0 ∧
    obs.domain = u8 (ptpAt s p).config 3 ∧ s.time.ptp.length = 2 ∧ s.time.cal.source ≠ 1 := by
  refine ⟨1, { kind := 1, portState := 9 }, { ready with time := { ready.time with ptp := [{}, { config := [1, 1] }] } }, ?_⟩
  decide

theorem witness_clockReadEventsComplete_3 : ∃ (p : _) (s : State), p < 2 ∧ ptpRuns s p = true := by
  refine ⟨1, { ready with time := { ready.time with ptp := [{}, { config := [1, 1] }] } }, ?_⟩
  decide

theorem witness_clockReadEventsComplete_4 : ∃ (p : _) (k : _) (s : State), p < 2 ∧ k < 4 ∧ ptpRuns s p = true ∧ s.time.ts.length < 64 ∧
    s.time.tsIrqEn = false := by
  refine ⟨1, 3, { ready with time := { ready.time with ptp := [{}, { config := [1, 1] }] } }, ?_⟩
  decide

theorem witness_clockReadEventsComplete_5 : ∃ (p : _) (k : _) (s : State), p < 2 ∧ k < 4 ∧ ptpRuns s p = true ∧ 64 ≤ s.time.ts.length := by
  refine ⟨1, 3, { ready with time := { ready.time with ptp := [{}, { config := [1, 1] }], ts := List.replicate 64 { id := 0, port := 0, msgType := 0, sec := 0, ns := 0, frac := 0 } } }, ?_⟩
  decide

theorem witness_clockReadEventsComplete_6 : ∃ s : State, bar0Takes s 0x30050 = true := by
  refine ⟨ready, ?_⟩
  decide

theorem witness_clockReadEventsComplete_7 : ∃ s : State, bar0Takes s 0x30050 = true := by
  refine ⟨ready, ?_⟩
  decide

theorem witness_clockReadEventsComplete_8 : ∃ s : State, bar0Open s = true := by
  refine ⟨ready, ?_⟩
  decide

theorem witness_clockReadEventsComplete_9 : ∃ s : State, bar0Open s = true := by
  refine ⟨ready, ?_⟩
  decide

theorem witness_clockReadEventsComplete_10 : ∃ s : State, bar0Open s = true := by
  refine ⟨ready, ?_⟩
  decide

theorem witness_clockReadEventsComplete_11 : ∃ s : State, bar0Takes s 0x30030 = true := by
  refine ⟨ready, ?_⟩
  decide

theorem witness_clockReadEventsComplete_12 : ∃ s : State, bar0Takes s 0x30028 = true := by
  refine ⟨ready, ?_⟩
  decide

/-! Obligations.DarningEventsComplete -/

theorem witness_darningEventsComplete_2 : ∃ (p : _) (f : _) (s : State), isPort p = true ∧ s.darn.inbox.find? (fun e => e.1 = p) = some (p, f) ∧
    (f.length ≠ 544 ∨ u8 f.payload 0 ≠ 1) := by
  refine ⟨0, { kind := 5, tc := 6, length := 8, payload := [1] }, { ready with darn := { ready.darn with inbox := [(0, { kind := 5, tc := 6, length := 8, payload := [1] })] } }, ?_⟩
  decide

theorem witness_darningEventsComplete_3 : ∃ (p : _) (f : _) (s : State), isPort p = true ∧ s.darn.inbox.find? (fun e => e.1 = p) = some (p, f) ∧
    f.length = 544 ∧ u8 f.payload 0 = 1 := by
  refine ⟨0, { kind := 5, tc := 6, length := 544, payload := [1] }, { ready with darn := { ready.darn with inbox := [(0, { kind := 5, tc := 6, length := 544, payload := [1] })] } }, ?_⟩
  decide

theorem witness_darningEventsComplete_4 : ∃ (p : _) (r : DarnRx) (s : State), isPort p = true ∧ switchPeer s p = true ∧
    (darnPort s p).rx = some r := by
  refine ⟨0, { state := 1, verdict := 0, reach := 0, at' := 0, limit := 0 }, { { ready with darn := { ready.darn with ports := [(0, { rx := some { state := 1, verdict := 0, reach := 0, at' := 0, limit := 0 } })] } } with links := [(0, { peerType := 1 })] }, ?_⟩
  decide

theorem witness_darningEventsComplete_5 : ∃ (p : _) (h : Hold) (s : State), isPort p = true ∧ maskBit s p = true ∧
    (darnPort s p).outSince = some h ∧ isUp s p = false := by
  refine ⟨0, { start := 0, limit := 5 }, { ready with darn := { ready.darn with mask := 1, ports := [(0, { outSince := some { start := 0, limit := 5 } })] } }, ?_⟩
  decide

theorem witness_darningEventsComplete_6 : ∃ (p : _) (h : Hold) (s : State), isPort p = true ∧ maskBit s p = false ∧ (darnPort s p).since = some h ∧
    isUp s p = true ∧ carriesFrames s p = true ∧ darnCause s p = none := by
  refine ⟨0, { start := 0, limit := 5 }, { { ready with darn := { ready.darn with state := 1, ports := [(0, { since := some { start := 0, limit := 5 } })] } } with ports := [(0, { state := .up })] }, ?_⟩
  decide

theorem witness_darningEventsComplete_7 : ∃ (p : _) (s : State), isPort p = true ∧ (darnPort s p).flapHeld = true := by
  refine ⟨0, { ready with darn := { ready.darn with ports := [(0, { flapHeld := true })] } }, ?_⟩
  decide

/-! Obligations.FailoverEventsComplete -/

theorem witness_failoverEventsComplete_1 : ∃ die c, 1 ≤ c ∧ c ≤ dieConditions die := by
  refine ⟨0, 5, ?_⟩
  decide

theorem witness_failoverEventsComplete_4 : ∃ s : State, s.boot.standbyReady = true := by
  refine ⟨ready, ?_⟩
  decide

theorem witness_failoverEventsComplete_5 : ∃ s : State, s.boot.standbyReady = true := by
  refine ⟨ready, ?_⟩
  decide

theorem witness_failoverEventsComplete_6 : ∃ (h : _) (s : State), h < 4 ∧ h ∉ s.darn.hallFailed ∧ partFailed s = false := by
  refine ⟨3, ready, ?_⟩
  decide

theorem witness_failoverEventsComplete_7 : ∃ s : State, s.boot.handover = true ∧ s.boot.handoverCause ≠ 2 := by
  refine ⟨{ ready with boot := { ready.boot with handover := true } }, ?_⟩
  decide

theorem witness_failoverEventsComplete_8 : ∃ s : State, (s.fw.step = 2 ∨ s.fw.step = 3) := by
  refine ⟨{ ready with fw := { ready.fw with step := 3 } }, ?_⟩
  decide

theorem witness_failoverEventsComplete_9 : ∃ (s : State), s.fw.step = 5 ∧ s.ns < s.fw.trialStart + s.fw.trial * 1000000000 := by
  refine ⟨{ ready with fw := { ready.fw with step := 5, trial := 1 } }, ?_⟩
  decide

theorem witness_failoverEventsComplete_10 : ∃ (s : State), s.fw.step = 5 ∧ s.fw.trialStart + s.fw.trial * 1000000000 ≤ s.ns ∧
    s.boot.standbyReady = true := by
  refine ⟨{ ready with ns := 10 ^ 9, fw := { ready.fw with step := 5, trial := 1 } }, ?_⟩
  decide

theorem witness_failoverEventsComplete_11 : ∃ (s : State), s.fw.step = 5 ∧ s.fw.trialStart + s.fw.trial * 1000000000 ≤ s.ns ∧
    s.boot.standbyReady = false := by
  refine ⟨{ { ready with boot := { ready.boot with standbyReady := false } } with ns := 10 ^ 9, fw := { ready.fw with step := 5, trial := 1 } }, ?_⟩
  decide

theorem witness_failoverEventsComplete_12 : ∃ s : State, s.fw.step = 6 := by
  refine ⟨{ ready with fw := { ready.fw with step := 6 } }, ?_⟩
  decide

theorem witness_failoverEventsComplete_13 : ∃ (item : _) (s : State), 1 ≤ item ∧ item ≤ 5 ∧ bit s.darn.testEnable item = true ∧ s.boot.phase = 7 ∧
    partFailed s = false := by
  refine ⟨5, ready, ?_⟩
  decide

/-! Obligations.ThermalEventsComplete -/

theorem witness_thermalEventsComplete_1 : ∃ (samples : List (Nat × List Reading)), (∀ e ∈ samples, e.1 < 40) := by
  refine ⟨[(39, [some 30000])], ?_⟩
  decide

theorem witness_thermalEventsComplete_2 : ∃ (z : _) (k : _) (s : State), z < 40 ∧ (zoneAt s z).bad.length < sensorsOf z ∧
    dueLevel (zoneAt s z) s.ns = some k := by
  refine ⟨39, 1, { ready with ns := 10000000, zones := [(39, { above := [some 0, none, none] })] }, ?_⟩
  decide

theorem witness_thermalEventsComplete_3 : ∃ (z : _) (i : _) (r : _) (s : State), z < 40 ∧ i < sensorsOf z ∧ i ∉ (zoneAt s z).bad ∧ 125 * 256 ≤ r ∧
    s.boot.cold = false ∧ (s.boot.phase ≠ 0 ∨ s.boot.held = true) := by
  refine ⟨39, 3, 32000, ready, ?_⟩
  decide

theorem witness_thermalEventsComplete_4 : ∃ (z : _) (i : _) (r : _), z < 40 ∧ i < sensorsOf z ∧ r < 125 * 256 := by
  refine ⟨39, 3, 31999, ?_⟩
  decide

theorem witness_thermalEventsComplete_5 : ∃ (m : _) (s : State), m < 2 ∧ s.power.levels.length = 2 ∧
    (∀ t, s.power.stepped.getD m none = some t → t + dwell ≤ s.ns) := by
  refine ⟨1, ready, ?_⟩
  exact ⟨by decide, by decide, fun _ h => by cases (show (none : Option Nat) = some _ from h)⟩

theorem witness_thermalEventsComplete_6 : ∃ (m : _) (t : Nat) (s : State), m < 2 ∧ s.power.stepped.getD m none = some t ∧ s.ns < t + dwell := by
  refine ⟨1, 5, { ready with power := { ready.power with stepped := [none, some 5] } }, ?_⟩
  decide

theorem witness_thermalEventsComplete_7 : ∃ (t : Nat) (s : State), s.power.windowAt = some t ∧ s.ns < t + capWindow := by
  refine ⟨5, { ready with power := { ready.power with windowAt := some 5 } }, ?_⟩
  decide

theorem witness_thermalEventsComplete_8 : ∃ (avg : _) (s : State), s.boot.handover = false ∧
    (∀ t, s.power.windowAt = some t → t + capWindow ≤ s.ns) ∧ s.power.capNow * 1000 < avg ∧ s.power.sCap < 4 := by
  refine ⟨1600001, ready, ?_⟩
  exact ⟨by decide, fun _ h => (by cases (show (none : Option Nat) = some _ from h)), by decide, by decide⟩

theorem witness_thermalEventsComplete_9 : ∃ (avg : _) (s : State), s.boot.handover = false ∧
    (∀ t, s.power.windowAt = some t → t + capWindow ≤ s.ns) ∧ avg ≤ s.power.capNow * 1000 ∧ (s.power.capNow - 30) * 1000 ≤ avg := by
  refine ⟨1600000, ready, ?_⟩
  exact ⟨by decide, fun _ h => (by cases (show (none : Option Nat) = some _ from h)), by decide, by decide⟩

theorem witness_thermalEventsComplete_10 : ∃ (k : _) (s : State), k < 6 ∧ (railAt s k).setpoint < 850 := by
  refine ⟨5, ready, ?_⟩
  decide

theorem witness_thermalEventsComplete_11 : ∃ (k : _) (s : State), k < 4 ∧ 620 < (railAt s k).setpoint ∧
    (∀ t, (railAt s k).lastDown = some t → t + 1000000 ≤ s.ns) := by
  refine ⟨3, ready, ?_⟩
  exact ⟨by decide, by decide, fun _ h => by cases (show (none : Option Nat) = some _ from h)⟩

theorem witness_thermalEventsComplete_12 : ∃ (h : _), h < 4 := by
  refine ⟨3, ?_⟩
  decide

theorem witness_thermalEventsComplete_13 : ∃ (m : _) (s : State), m < 2 ∧ (s.power.guards.getD m {}).on = false := by
  refine ⟨1, ready, ?_⟩
  decide

theorem witness_thermalEventsComplete_14 : ∃ (m : _) (s : State), m < 2 ∧ (s.power.guards.getD m {}).on = true := by
  refine ⟨1, { ready with power := { ready.power with guards := [{}, { on := true }] } }, ?_⟩
  decide

theorem witness_thermalEventsComplete_15 : ∃ k, k < 6 := by
  refine ⟨5, ?_⟩
  decide

theorem witness_thermalEventsComplete_16 : ∃ (k : _) (s : State), k < 6 ∧ (railAt s k).errors = 2 ∧ (railAt s k).readOnly = false := by
  refine ⟨5, { ready with power := { ready.power with rails := [(5, { errors := 2 })] } }, ?_⟩
  decide

/-! Obligations.SecurityEventsComplete -/

theorem witness_securityEventsComplete_1 : ∃ (mon : _) (s : State), let new := (setBits 6 mon).filter fun i => !bit s.porch.live i
    new ≠ [] := by
  refine ⟨32, ready, ?_⟩
  dsimp only
  decide

theorem witness_securityEventsComplete_2 : ∃ (mon : _) (s : State), setBits 6 mon ≠ [] ∧ (∀ i ∈ setBits 6 mon, bit s.porch.live i = true) := by
  refine ⟨32, { ready with porch := { ready.porch with live := 32 } }, ?_⟩
  decide

theorem witness_securityEventsComplete_5 : ∃ s : State, s.porch.mainPower = true := by
  refine ⟨ready, ?_⟩
  decide

theorem witness_securityEventsComplete_6 : ∃ s : State, s.porch.mainPower = false := by
  refine ⟨{ ready with porch := { ready.porch with mainPower := false } }, ?_⟩
  decide

theorem witness_securityEventsComplete_7 : ∃ s : State, s.boot.phase ≠ 0 ∧ s.boot.lost = false := by
  refine ⟨ready, ?_⟩
  decide

theorem witness_securityEventsComplete_8 : ∃ (c : _) (t0 : _) (s : State), s.sec.challenge = some (c, t0) := by
  refine ⟨zeros 4, 0, { ready with sec := { ready.sec with challenge := some (zeros 4, 0) } }, ?_⟩
  decide

theorem witness_securityEventsComplete_9 : ∃ (s : State), s.sec.challenge = none := by
  refine ⟨ready, ?_⟩
  decide

theorem witness_securityEventsComplete_10 : ∃ s : State, s.boot.trngState = 2 := by
  refine ⟨ready, ?_⟩
  decide

/-! Obligations.StoreEventsComplete -/

theorem witness_storeEventsComplete_1 : ∃ (x : _) (rest : _) (s : State), s.nv.queue = x :: rest ∧ storeUp s = true ∧
    (∀ route a b share, x.effect ≠ .ownerKey route a b share) := by
  refine ⟨{ id := 7, effect := .none }, [], { stored with nv := { stored.nv with queue := [{ id := 7, effect := .none }] } }, ?_⟩
  exact ⟨by decide, by decide, fun _ _ _ _ h => by cases h⟩

theorem witness_storeEventsComplete_2 : ∃ (x : _) (rest : _) (s : State), s.nv.queue = x :: rest ∧ storeUp s = false ∧ x.effect.always = false := by
  refine ⟨{ id := 7, effect := .bootcfg [] }, [], { ready with nv := { ready.nv with queue := [{ id := 7, effect := .bootcfg [] }] } }, ?_⟩
  decide

theorem witness_storeEventsComplete_3 : ∃ (d : _) (s : State), d < 2 ∧ readable s d = true ∧ s.nv.scrubRun = true ∧
    s.nv.scrubDone + 1 < s.nv.scrubTotal := by
  refine ⟨1, { stored with nv := { stored.nv with scrubRun := true, scrubTotal := 2 } }, ?_⟩
  decide

theorem witness_storeEventsComplete_4 : ∃ (d : _) (s : State), d < 2 ∧ readable s d = true ∧ s.nv.scrubRun = true ∧
    s.nv.scrubTotal ≤ s.nv.scrubDone + 1 := by
  refine ⟨1, { stored with nv := { stored.nv with scrubRun := true, scrubTotal := 1 } }, ?_⟩
  decide

theorem witness_storeEventsComplete_5 : ∃ (d : _) (s : State), d < 2 ∧ readable s d = false := by
  refine ⟨1, { stored with nv := { stored.nv with devices := List.replicate 2 { maxErase := 2001 } } }, ?_⟩
  decide

theorem witness_storeEventsComplete_6 : ∃ (d : _) (s : State), d < 2 ∧ (nvDev s d).minErase + 2000 < (nvDev s d).maxErase ∧
    (∀ t, (nvDev s d).lastMove = some t → t + second ≤ s.ns) := by
  refine ⟨1, { stored with nv := { stored.nv with devices := List.replicate 2 { maxErase := 2001 } } }, ?_⟩
  exact ⟨by decide, by decide, fun _ h => by cases (show (none : Option Nat) = some _ from h)⟩

theorem witness_storeEventsComplete_7 : ∃ (d : _) (s : State), d < 2 ∧ (nvDev s d).state = 2 := by
  refine ⟨1, { stored with nv := { stored.nv with devices := List.replicate 2 { state := 2 } } }, ?_⟩
  decide

theorem witness_storeEventsComplete_8 : ∃ s : State, storeUp s = true ∧ s.nv.logQueue ≠ [] := by
  refine ⟨{ stored with nv := { stored.nv with logQueue := [{ seq := 1, msg := { code := 0x0101, die := 0, severity := 1 } }] } }, ?_⟩
  decide

/-! Obligations.CounterEventsComplete -/

theorem witness_counterEventsComplete_1 : ∃ s : State, bar0Takes s 0x40008 = true := by
  refine ⟨ready, ?_⟩
  decide

theorem witness_counterEventsComplete_2 : ∃ s : State, bar0Takes s 0x40008 = true := by
  refine ⟨ready, ?_⟩
  decide

theorem witness_counterEventsComplete_3 : ∃ (n : _) (s : State), n < 8 ∧ (s.tel.sets.getD n {}).step = false := by
  refine ⟨7, ready, ?_⟩
  decide

theorem witness_counterEventsComplete_4 : ∃ (s : State), let sent := (s.tel.recent.filter fun e => s.ns < e.1 + 1000000).map (·.2)
    let rs := fitRecords (min 4072 (s.tel.maxRate * 125 - sent.sum - 24)) s.tel.stored
    s.tel.enable = true ∧ (s.mgmt.getD s.tel.mgmt {}).up = true ∧ (dieAt s s.tel.mgmt).state ≠ 3 ∧ s.boot.handover = false ∧ s.boot.lost = false ∧
      rs ≠ [] := by
  refine ⟨{ ready with mgmt := [{ up := true }, {}], tel := { ready.tel with enable := true, stored := [{ hall := 0, set := 0, scope := 11, first := 0, inst := 0, trigger := 0, offset := 0, locked := true, values := [1] }] } }, ?_⟩
  decide

/-! Obligations.InterfaceEventsComplete -/

theorem witness_interfaceEventsComplete_1 : ∃ (speed : _) (width : _) (s : State), speed ∈ [2, 5, 8, 16, 32] ∧ width ∈ [1, 2, 4, 8] ∧
    s.pcie.up = false ∧ endpointRuns s = true := by
  refine ⟨32, 8, ready, ?_⟩
  decide

theorem witness_interfaceEventsComplete_2 : ∃ s : State, s.pcie.up = true := by
  refine ⟨{ ready with pcie := { ready.pcie with up := true } }, ?_⟩
  decide

theorem witness_interfaceEventsComplete_3 : ∃ (off : _) (s : State), off < 4096 ∧ endpointRuns s = true ∧ s.ns < s.pcie.retryUntil := by
  refine ⟨4095, { ready with pcie := { ready.pcie with retryUntil := 5 } }, ?_⟩
  decide

theorem witness_interfaceEventsComplete_4 : ∃ (off : _) (s : State), off < 4096 ∧ endpointRuns s = true ∧ s.pcie.retryUntil ≤ s.ns := by
  refine ⟨4095, ready, ?_⟩
  decide

theorem witness_interfaceEventsComplete_5 : ∃ s : State, endpointRuns s = true ∧ s.pcie.retryUntil ≤ s.ns := by
  refine ⟨ready, ?_⟩
  decide

theorem witness_interfaceEventsComplete_6 : ∃ (p : _) (s : State), p < 2 ∧ (mgmtAt s p).up = false ∧ mgmtRuns s p = true := by
  refine ⟨1, ready, ?_⟩
  decide

theorem witness_interfaceEventsComplete_7 : ∃ (p : _) (s : State), p < 2 ∧ (mgmtAt s p).up = true := by
  refine ⟨1, { ready with mgmt := [{}, { up := true }] }, ?_⟩
  decide

theorem witness_interfaceEventsComplete_8 : ∃ (p : _) (a : _) (s : State), p < 2 ∧ a < 2 ^ 32 ∧ mgmtRuns s p = true ∧ (mgmtAt s p).up = true ∧
    (mgmtAt s p).v4 ≠ some a := by
  refine ⟨1, 5, { ready with mgmt := [{}, { up := true }] }, ?_⟩
  decide

theorem witness_interfaceEventsComplete_9 : ∃ (p : _) (a : _) (s : State), p < 2 ∧ a < 2 ^ 128 ∧ mgmtRuns s p = true ∧ (mgmtAt s p).up = true ∧
    a ∉ (mgmtAt s p).v6 ∧ (mgmtAt s p).v6.length < 2 := by
  refine ⟨1, 5, { ready with mgmt := [{}, { up := true }] }, ?_⟩
  decide

theorem witness_interfaceEventsComplete_10 : ∃ (p : _) (k : _) (a : _) (s : State), p < 2 ∧ k < 4 ∧ mgmtRuns s p = true ∧ (mgmtAt s p).up = true ∧
    portHasAddress s p (decide (k % 2 = 1)) a = true := by
  refine ⟨1, 2, 5, { ready with mgmt := [{}, { up := true, v4 := some 5 }] }, ?_⟩
  decide

theorem witness_interfaceEventsComplete_11 : ∃ s : State, sidebandServes s = true := by
  refine ⟨ready, ?_⟩
  decide

theorem witness_interfaceEventsComplete_12 : ∃ code, code ∈ [0x00, 0x01, 0x02, 0xFF] := by
  refine ⟨0xFF, ?_⟩
  decide

theorem witness_interfaceEventsComplete_13 : ∃ (code : _) (s : State), code < 256 ∧ code ∉ [0x00, 0x01, 0x02, 0xFF] ∧ s.sec.lifecycle ≠ 0 ∧
    s.sec.full = false ∧ s.sec.trace = false := by
  refine ⟨3, ready, ?_⟩
  decide

/-! ## Witnesses of the clauses that stand in a conclusion -/

/-- Obligations.ReceiveEventsComplete: each kind of what stands next in the frame stream. -/
theorem witness_receive_clauses :
    (frontOf (linkAt (arriving []) 0).rx).1 = .nothing ∧
    (frontOf (linkAt (arriving [begun ((frameWire 5 false sealedFrame).take 10), { good := true, abrt := true }]) 0).rx).1 = .aborted ∧
    (frontOf (linkAt (arriving [{ good := false }]) 0).rx).1 = .lost ∧
    (frontOf (linkAt (arriving [begun (1 :: zeros 60)]) 0).rx).1 = .badPrefix ∧
    (frontOf (linkAt (arriving [begun (frameWire 5 false { sealedFrame with hcrc := 0 })]) 0).rx).1 = .badHeader ∧
    (frontOf (linkAt (arriving [begun ((frameWire 5 false (sound 4097)).take 36)]) 0).rx).1 = .badLength ∧
    (frontOf (linkAt (arriving [begun (frameWire 5 false (sound 0))]) 0).rx).1 = .frame 5 false (sound 0) ∧
    (sound 0).fcrc ≠ frameCrc (sound 0) ∧
    (frontOf (linkAt (arriving [begun (frameWire 4095 true sealedFrame)]) 0).rx).1 = .frame 4095 true sealedFrame ∧
    sealedFrame.fcrc = frameCrc sealedFrame := by decide +kernel

/-- Obligations.LinkEventsComplete, a pair of codewords: an active link, one in training with lock, and neither. -/
theorem witness_link_pair_clauses :
    (linkAt (arriving []) 0).state = .active ∧
    (isTraining (training (message 1)) 0 = true ∧ (linkAt (training (message 1)) 0).locked = true) ∧
    ((linkAt ready 0).state ≠ .active ∧ isTraining ready 0 = false) := by decide

/-- Obligations.LinkEventsComplete, a training message: each kind. -/
theorem witness_link_message_clauses :
    (gangWidth (training (message 1)) 0 = 1 ∧ (linkAt (training (message 1)) 0).ann = none) ∧
    (linkAt (training (message 1) (some (message 1))) 0).ann.isSome = true ∧
    gangWidth (training { message 1 with gang := 2 }) 0 ≠ 2 ∧
    laneIndex (training (message 3)) 0 0 = 0 ∧
    (laneIndex (training (message 4)) 0 0 = 0 ∧ (linkAt (training (message 4)) 0).probes < 8) ∧
    ((linkAt (training (message 5) (some (message 1))) 0).ann = some (message 1) ∧
      (linkAt (training (message 5) (some (message 1))) 0).selfActive = true) := by decide

/-- Obligations.TransomEventsComplete: a fibre that the map leaves alone, and one that it terminates and whose port is enabled. -/
theorem witness_transom_clauses :
    terminated (setUp [(.entry 6 31, [0, 0, 0, 0])]) (1024 + 31) = false ∧
    (let s := { ready with ports := [(1029, { state := .disabled })] }
     terminated s (1024 + 5) = true ∧ (portAt s (1024 + 5)).enabled = true ∧ (portAt s (1024 + 5)).state = .disabled) := by decide

/-- Obligations.TableEventsComplete: an entry that is still bad, and one that an earlier repair has written. -/
theorem witness_chute_clauses : (1, 3, 7) ∉ ready.fwd.bad ∧ (1, 3, 7) ∈ { ready with fwd := { ready.fwd with bad := [(1, 3, 7)] } }.fwd.bad := by decide

/-- Obligations.CellarEventsComplete: a channel scrubbed within 4 µs, and one never scrubbed. -/
theorem witness_scrub_clauses :
    (∀ t, ((cellarDie { ready with ns := 10, cellar := { ready.cellar with dies := [(6, { channels := [(0, { scrubbed := some 9 })] })] } } 6).channel 0).scrubbed =
      some t → 10 < t + 4000) ∧ ((cellarDie ready 6).channel 0).scrubbed = none :=
  ⟨fun _ h => by cases h; decide, by decide⟩

/-- Obligations.CollectiveEventsComplete: a chunk within STRAG_MS, and one past it. -/
theorem witness_straggler_clauses :
    (let ch : Chunk := { mangle := 1, engine := 0, limit := 1 }
     ready.ns < ch.opened + ch.limit * 1000) ∧
    (let ch : Chunk := { mangle := 1, engine := 0, limit := 1 }
     ch.opened + ch.limit * 1000 ≤ { ready with ns := 1000 }.ns) := by decide

/-- Obligations.FailoverEventsComplete: a test before its period ends, and one at it. -/
theorem witness_selftest_clauses :
    (let s := { ready with darn := { ready.darn with testDue := List.replicate 5 9 } }
     s.ns < s.darn.testDue.getD 4 0) ∧ ready.darn.testDue.getD 4 0 ≤ ready.ns := by decide

/-! USER of the store (R511): bytes of 0 are not listed, and a byte written over reads as last written. -/

theorem test_user_write_form : memWrite (memWrite [] 5 [1, 0, 2]) 4 [9, 0] = [(4, 9), (7, 2)] := by decide

theorem test_user_read_back : memGet (memWrite [] 5 [1, 0, 2]) 7 = 2 ∧ memGet (memWrite [] 5 [1, 0, 2]) 6 = 0 := by decide

end Sys2Proof.Tests
end

section
/-!
SUPPORT. No sign of zero (R364): every code that the writers of a float format give is zero, or a sign and a nonzero magnitude.
-/
namespace Sys2Proof.Machine

/-! ## Float layouts -/

/-- A decidable fact of all ten float layouts holds of the layout of any format code. -/
theorem floatFmt_forall {P : Nat → FloatFmt → Prop} {fmt : Nat} {f : FloatFmt} (all : ∀ k ∈ List.range 11, ∀ g ∈ floatFmt k, P k g)
    (h : floatFmt fmt = some f) : P fmt f := by
  have hlt : fmt < 11 := by
    refine Nat.lt_of_not_le fun hge => ?_
    unfold floatFmt at h
    split at h
    case h_11 => cases h
    all_goals exact absurd hge (by decide)
  exact all fmt (List.mem_range.2 hlt) f h

/-- A code of `e + m + 1` bits as it is stored: TF32 stands in bits 31:13 (Table 15.1). -/
def storedCode (fmt c : Nat) : Nat := if fmt = 3 then c * 2 ^ 13 else c

/-- The sign bit of a layout, for a negative number. -/
def signCode (f : FloatFmt) (neg : Bool) : Nat := if neg then 2 ^ (f.e + f.m) else 0

theorem storedCode_zero (fmt : Nat) : storedCode fmt 0 = 0 := by simp [storedCode]

theorem storedCode_inj {fmt a b : Nat} : storedCode fmt a = storedCode fmt b ↔ a = b := by
  unfold storedCode
  split <;> omega

section Floats
variable {fmt : Nat} {f : FloatFmt}

theorem floatFmt_fields_pos (h : floatFmt fmt = some f) : 0 < f.e ∧ 0 < f.m :=
  floatFmt_forall (P := fun _ g => 0 < g.e ∧ 0 < g.m) (by decide) h

theorem floatFmt_not_int (h : floatFmt fmt = some f) : isInt fmt = false :=
  floatFmt_forall (P := fun k _ => isInt k = false) (by decide) h

/-- The code of −0 is the sign bit alone. -/
theorem negZero_eq_storedCode (h : floatFmt fmt = some f) : 2 ^ (fmtBits fmt - 1) = storedCode fmt (2 ^ (f.e + f.m)) :=
  floatFmt_forall (P := fun k g => 2 ^ (fmtBits k - 1) = storedCode k (2 ^ (g.e + g.m))) (by decide) h

theorem maxCode_pos (h : floatFmt fmt = some f) : 0 < maxCode fmt f :=
  floatFmt_forall (P := fun k g => 0 < maxCode k g) (by decide) h

theorem maxCode_lt (h : floatFmt fmt = some f) : maxCode fmt f < 2 ^ (f.e + f.m) :=
  floatFmt_forall (P := fun k g => maxCode k g < 2 ^ (g.e + g.m)) (by decide) h

theorem infCode_pos (h : floatFmt fmt = some f) : 0 < (2 ^ f.e - 1) * 2 ^ f.m :=
  floatFmt_forall (P := fun _ g => 0 < (2 ^ g.e - 1) * 2 ^ g.m) (by decide) h

/-- The code of the NaN written, infinity's with the first significand bit, lies below the sign bit. -/
theorem nanCode_lt (h : floatFmt fmt = some f) : (2 ^ f.e - 1) * 2 ^ f.m + 2 ^ (f.m - 1) < 2 ^ (f.e + f.m) :=
  floatFmt_forall (P := fun _ g => (2 ^ g.e - 1) * 2 ^ g.m + 2 ^ (g.m - 1) < 2 ^ (g.e + g.m)) (by decide) h

theorem infCode_lt (h : floatFmt fmt = some f) : (2 ^ f.e - 1) * 2 ^ f.m < 2 ^ (f.e + f.m) :=
  Nat.lt_of_le_of_lt (Nat.le_add_right ..) (nanCode_lt h)

/-! ## Reading -/

/-- A code whose exponent and significand fields are 0 reads as zero, whatever its sign bit. -/
theorem decodeFloat_of_fields_zero (he : 0 < f.e) {c : Nat} (hman : c % 2 ^ f.m = 0) (hexp : c / 2 ^ f.m % 2 ^ f.e = 0) :
    decodeFloat fmt f (storedCode fmt c) = .fin 0 0 := by
  have hread : (if fmt = 3 then storedCode fmt c / 2 ^ 13 else storedCode fmt c) = c := by
    unfold storedCode
    split <;> omega
  have htop : ¬ 0 = 2 ^ f.e - 1 := by
    have := Nat.one_lt_two_pow (Nat.ne_of_gt he)
    omega
  simp only [decodeFloat, hread, hman, hexp, htop]
  simp [oddValue]

theorem decodeFloat_zero (he : 0 < f.e) : decodeFloat fmt f 0 = .fin 0 0 := by
  have := decodeFloat_of_fields_zero (fmt := fmt) he (c := 0) (by simp) (by simp)
  rwa [storedCode_zero] at this

theorem decodeFloat_negZero (h : floatFmt fmt = some f) : decodeFloat fmt f (2 ^ (fmtBits fmt - 1)) = .fin 0 0 := by
  rw [negZero_eq_storedCode h]
  apply decodeFloat_of_fields_zero (floatFmt_fields_pos h).1
  · rw [Nat.pow_add, Nat.mul_mod_left]
  · rw [Nat.pow_add, Nat.mul_div_cancel _ (Nat.two_pow_pos f.m), Nat.mod_self]

/-! ## Writing -/

/-- The codes that R364 allows: zero, or a nonzero magnitude below the sign bit with a sign. -/
def SignedCode (fmt : Nat) (f : FloatFmt) (code : Nat) : Prop :=
  code = 0 ∨ ∃ neg c, 0 < c ∧ c < 2 ^ (f.e + f.m) ∧ code = storedCode fmt (c + signCode f neg)

theorem SignedCode.zero : SignedCode fmt f 0 := .inl rfl

theorem SignedCode.signed {c : Nat} (neg : Bool) (hpos : 0 < c) (hlt : c < 2 ^ (f.e + f.m)) :
    SignedCode fmt f (storedCode fmt (c + signCode f neg)) := .inr ⟨neg, c, hpos, hlt, rfl⟩

theorem SignedCode.unsigned {c : Nat} (hpos : 0 < c) (hlt : c < 2 ^ (f.e + f.m)) : SignedCode fmt f (storedCode fmt c) :=
  .signed false hpos hlt

/-- The code 0x7F of E4M3, a NaN, has a nonzero magnitude and no sign. -/
theorem SignedCode.e4m3Nan (h : floatFmt fmt = some f) (hfmt : fmt = 6 ∨ fmt = 8) : SignedCode fmt f 0x7F := by
  obtain rfl | rfl := hfmt <;> cases h <;> exact .unsigned (c := 0x7F) (by decide) (by decide)

theorem SignedCode.ne_negZero (h : floatFmt fmt = some f) {code : Nat} (hc : SignedCode fmt f code) : code ≠ 2 ^ (fmtBits fmt - 1) := by
  rw [negZero_eq_storedCode h]
  obtain rfl | ⟨neg, c, hpos, hlt, rfl⟩ := hc
  · rw [← storedCode_zero fmt, Ne, storedCode_inj]
    exact Nat.ne_of_lt (Nat.two_pow_pos _)
  · rw [Ne, storedCode_inj, signCode]
    split <;> omega

theorem writeFloat_zero (x : Int) (rd : Rounding) (u : Nat) (neg : Bool) (d : Nat) : (writeFloat fmt f x rd u (neg, 0, d)).code = 0 := by
  simp [writeFloat]

/-- The magnitude written for a result that overflows: the largest finite one, or infinity (NaN in E4M3) where OVF says so (R370). -/
def overflowCode (fmt : Nat) (f : FloatFmt) (rd : Rounding) : Nat :=
  if !rd.ovf then maxCode fmt f else if fmt = 6 then 0x7F else (2 ^ f.e - 1) * 2 ^ f.m

/-- The two ways in which a nonzero result is written: as an overflow, whose NaN in E4M3 has no sign, or as a magnitude `c` cut at the largest
finite one, whose sign falls away where it is 0. -/
theorem writeFloat_nonzero (x : Int) (rd : Rounding) (u : Nat) (neg : Bool) {n : Nat} (hn : n ≠ 0) (d : Nat) :
    ∃ (above : Bool) (c : Nat), (writeFloat fmt f x rd u (neg, n, d)).code =
      if above then storedCode fmt (if rd.ovf && fmt = 6 then overflowCode fmt f rd else overflowCode fmt f rd + signCode f neg)
      else if min c (maxCode fmt f) = 0 then 0 else storedCode fmt (min c (maxCode fmt f) + signCode f neg) := by
  simp only [writeFloat, if_neg hn, apply_ite Written.code]
  exact ⟨_, _, rfl⟩

theorem overflowCode_pos (h : floatFmt fmt = some f) (rd : Rounding) : 0 < overflowCode fmt f rd := by
  unfold overflowCode
  split
  · exact maxCode_pos h
  split
  · decide
  · exact infCode_pos h

theorem overflowCode_lt (h : floatFmt fmt = some f) (rd : Rounding) : overflowCode fmt f rd < 2 ^ (f.e + f.m) := by
  unfold overflowCode
  split
  · exact maxCode_lt h
  split
  case isTrue h6 =>
    subst h6
    cases h
    decide
  · exact infCode_lt h

theorem writeFloat_signedCode (h : floatFmt fmt = some f) (x : Int) (rd : Rounding) (u : Nat) (v : Bool × Nat × Nat) :
    SignedCode fmt f (writeFloat fmt f x rd u v).code := by
  obtain ⟨neg, n, d⟩ := v
  by_cases hn : n = 0
  · rw [hn, writeFloat_zero]
    exact .zero
  obtain ⟨above, c, hcode⟩ := writeFloat_nonzero (fmt := fmt) (f := f) x rd u neg hn d
  rw [hcode]
  split
  · split
    · exact .unsigned (overflowCode_pos h rd) (overflowCode_lt h rd)
    · exact .signed neg (overflowCode_pos h rd) (overflowCode_lt h rd)
  · split
    case isTrue => exact .zero
    case isFalse hc => exact .signed neg (Nat.pos_of_ne_zero hc) (Nat.lt_of_le_of_lt (Nat.min_le_right c _) (maxCode_lt h))

/-- Of the classes that are not FINITE only −INF takes a sign, and its magnitude is that of infinity (Table 15.7). -/
theorem writeClass_signedCode (h : floatFmt fmt = some f) (cls : Nat) : SignedCode fmt f (writeClass fmt cls).1 := by
  simp only [writeClass, floatFmt_not_int h, h, Bool.false_eq_true, if_false]
  split
  · exact .zero
  split
  case isTrue hfmt => exact .e4m3Nan h (by simpa using hfmt)
  split
  · exact .unsigned (Nat.add_pos_left (infCode_pos h) _) (nanCode_lt h)
  change SignedCode fmt f (storedCode fmt (if cls = 2 then _ else _))
  split
  · exact .signed true (infCode_pos h) (infCode_lt h)
  · exact .unsigned (infCode_pos h) (infCode_lt h)

/-! ## Chunks and blocks -/

/-- An output whose codes R364 allows. -/
def Output.Signed (fmt : Nat) (f : FloatFmt) (o : Output) : Prop := ∀ c ∈ o.codes, SignedCode fmt f c

theorem Output.Signed.add {o : Output} (ho : o.Signed fmt f) {w : Written} (hw : SignedCode fmt f w.code) (special nv : Bool) :
    (o.add w special nv).Signed fmt f := by
  intro c hc
  obtain hc | hc := List.mem_append.1 hc
  · exact ho c hc
  · rwa [List.mem_singleton.1 hc]

theorem writePlain_signed (h : floatFmt fmt = some f) (rd : Rounding) (l : List Exact) : (writePlain fmt rd l).Signed fmt f := by
  unfold writePlain
  refine List.foldlRecOn l _ (by simp [Output.Signed]) fun o ho e _ => ?_
  simp only [h]
  split
  · exact ho.add (w := { code := _ }) (writeClass_signedCode h e.cls) _ _
  · exact ho.add (writeFloat_signedCode h ..) _ _

theorem writeMxBlock_signed (h : floatFmt fmt = some f) (rd : Rounding) (l : List Exact) : (writeMxBlock fmt rd l).2.Signed fmt f := by
  simp only [writeMxBlock, h]
  refine iteInduction (motive := fun r : Nat × Output => r.2.Signed fmt f) (fun _ => ?_) fun _ => ?_
  · -- a block that is NaN as a whole
    intro c hc
    obtain ⟨-, -, rfl⟩ := List.mem_map.1 hc
    split
    case isTrue h8 => exact .e4m3Nan h (.inr h8)
    · exact .zero
  · refine List.foldlRecOn l _ (by simp [Output.Signed]) fun o ho e _ => ?_
    split
    · exact ho.add (w := { code := _ }) (writeClass_signedCode h e.cls) _ _
    · exact ho.add (writeFloat_signedCode h ..) _ _

end Floats

/-- Settles O12 (R364): both codes of zero read as zero, a result of zero is written as 0, and every other code written has a magnitude that
is not 0. -/
theorem noNegativeZero : Obligations.NoNegativeZero := by
  intro fmt f rd h
  refine ⟨?_, fun x u neg d => writeFloat_zero x rd u neg d, fun x u v => (writeFloat_signedCode h x rd u v).ne_negZero h,
    fun l c hc => (writePlain_signed h rd l c hc).ne_negZero h, fun l c hc => (writeMxBlock_signed h rd l c hc).ne_negZero h⟩
  rw [decodeFloat_negZero h, decodeFloat_zero (floatFmt_fields_pos h).1]

end Sys2Proof.Machine
end

section
/-!
SUPPORT. A filter replaced and its count cleared (R521): what a table finds after an entry is set, what clearing counters leaves of each,
and the state that an accepted COUNTER_FILTER_SET gives.
-/
namespace Sys2Proof.Machine

/-! ## Tables and counters -/

theorem tfind_tset {κ α : Type} [DecidableEq κ] (t : Tbl κ α) (k k' : κ) (v : α) :
    tfind (tset t k v) k' = if k = k' then some v else tfind t k' := by
  induction t with
  | nil => simp [tset, tfind]
  | cons e t ih =>
    obtain ⟨a, b⟩ := e
    by_cases h : a = k
    · subst h; by_cases h' : a = k' <;> simp [tset, tfind, h']
    · by_cases h' : a = k'
      · subst h'; simp [tset, tfind, h, Ne.symm h]
      · simp [tset, tfind, h, h', ih]

@[simp] theorem Counter.clear_all (c : Counter) : c.clear true true = {} := by simp [Counter.clear]

@[simp] theorem Counter.clear_zero (value ovf : Bool) : ({} : Counter).clear value ovf = {} := by simp [Counter.clear]

/-- A counter that is named is cleared and any other stays; one never touched reads 0 in either case. -/
theorem tget_clearCounters (sel : CtrKey → Bool) (value ovf : Bool) (s : State) (k : CtrKey) :
    tget (clearCounters sel value ovf s).counters k {} =
      if sel k then (tget s.counters k {}).clear value ovf else tget s.counters k {} := by
  simp only [clearCounters]
  induction s.counters with
  | nil => simp [tget]
  | cons e l ih =>
    obtain ⟨k', c⟩ := e
    by_cases hk : k' = k
    · subst hk
      by_cases hs : sel k' = true <;> simp [tget, hs]
    · by_cases hs : sel k' = true <;> simpa [tget, hs, hk] using ih

/-! ## COUNTER_FILTER_SET -/

/-- The setting that the parameters of a COUNTER_FILTER_SET hold (Table 22.14). -/
def filterOf (p : Bytes) : Filter :=
  { type := u8 p 1, enable := bit (u8 p 2) 0, priv := u8 p 3, mask := u8 p 4, lo := u32 p 8, hi := u32 p 12, cls := u16 p 16 }

/-- The state with filter `f` replaced and its count and OVF cleared. -/
def replaceFilter (f : Nat) (x : Filter) (s : State) : State :=
  { clearCounters (fun k => k.scope = 18 && k.inst = f) true true s with filters := tset s.filters f x }

theorem tfind_replaceFilter (f : Nat) (x : Filter) (s : State) (g : Nat) :
    tfind (replaceFilter f x s).filters g = if f = g then some x else tfind s.filters g :=
  tfind_tset s.filters f g x

theorem tget_replaceFilter (f : Nat) (x : Filter) (s : State) (k : CtrKey) :
    tget (replaceFilter f x s).counters k {} = if k.scope = 18 ∧ k.inst = f then {} else tget s.counters k {} := by
  simp only [replaceFilter, tget_clearCounters, Counter.clear_all, Bool.and_eq_true, decide_eq_true_eq]

/-- An accepted COUNTER_FILTER_SET whose own checks pass (Table 22.14) is answered OK with its filter replaced. -/
theorem counterFilterSet_accepted {q : Request} {s : State} (ha : accepted opCounterFilterSet q anyBlock s = true)
    (hf : u8 q.params 0 ≤ 31) (htype : u8 q.params 1 ≤ 2) (hres : filterReserved q.params = false)
    (hrange : u32 q.params 8 ≤ u32 q.params 12) :
    exec (.counterFilterSet q) s =
      answered opCounterFilterSet q s (.ok [] (replaceFilter (u8 q.params 0) (filterOf q.params) (started q s))) := by
  change execCounterFilterSet q s = _
  unfold execCounterFilterSet
  rw [runCommand_accepted ha]
  dsimp only
  rw [withChecks_none (by simp [hf, htype, hres, hrange])]
  rfl

/-- Settles O13 (R521): the command's own part replaces the one filter and clears the one count; every other filter, every other counter and
the rest of the state stay as they are. -/
theorem filterSetReplaces : Obligations.FilterSetReplaces := by
  refine ⟨fun q s ha hf htype hres hrange => ?_, fun g => rfl⟩
  refine ⟨_, counterFilterSet_accepted ha hf htype hres hrange, ?setting, ?others, tget_replaceFilter _ _ _, rfl⟩
  case setting => rw [tfind_replaceFilter, if_pos rfl]; rfl
  case others => exact fun g hg => by rw [tfind_replaceFilter, if_neg hg.symm]

end Sys2Proof.Machine
end

section
/-!
SUPPORT. What one step leaves: the queue but for its front, the time but for an idle step, the fuses but for the two commands that raise a
counter, and the event log within its bounds (R80, R93, R94, R476).
-/
namespace Sys2Proof.Machine

/-! ## A step -/

/-- A held command that starts changes nothing but the Maloa interpreter's own state. -/
theorem readyHeld_frame {s t : State} {i : Instr} (h : readyHeld s = some (i, t)) : ∃ maloa, t = { s with maloa } := by
  unfold readyHeld at h
  split at h
  · cases h
  · obtain ⟨-, rfl⟩ := Prod.mk.inj (Option.some.inj h)
    exact ⟨_, rfl⟩

/-- The state whose queue, time, fuses and events a step goes on from: the front command off the queue, or a nanosecond passed. -/
def StepFrom (s o : State) : Prop :=
  o.pending = s.pending.tail ∧ o.sec = s.sec ∧ o.ev = s.ev ∧ (o.ns = s.ns ∨ s.pending = [] ∧ o.ns = s.ns + 1)

/-- A step runs its front command, a held one, or a nanosecond (log 6). -/
theorem step_raised {s t : State} (h : step s = .next t) : ∃ o, StepFrom s o ∧ Raised o t := by
  unfold step at h
  split at h
  case h_2 c rest hq =>
    have hr := exec_raised c { s with pending := rest }
    rw [h] at hr
    exact ⟨{ s with pending := rest }, ⟨by simp [hq], rfl, rfl, .inl rfl⟩, hr⟩
  case h_1 hq =>
    unfold idle at h
    split at h
    next i u hu =>
      obtain ⟨m, rfl⟩ := readyHeld_frame hu
      have hr := exec_raised i { s with maloa := m }
      rw [h] at hr
      exact ⟨{ s with maloa := m }, ⟨by simp [hq], rfl, rfl, .inl rfl⟩, hr⟩
    next =>
      cases h
      exact ⟨{ s with ns := s.ns + 1 }, ⟨by simp [hq], rfl, rfl, .inr ⟨hq, rfl⟩⟩, Kept.raised .refl (tick_core s)⟩

/-- Settles O4: whatever a step runs keeps the queue it goes on from, and the time. -/
theorem stepKeepsQueueAndTime : Obligations.StepKeepsQueueAndTime := by
  intro s t h
  obtain ⟨o, ⟨hq, -, -, hns⟩, ⟨hpending, htime, -⟩⟩ := step_raised h
  refine ⟨hpending.trans hq, fun hne => ?_, fun _ => ?_⟩
  · obtain hns | ⟨he, -⟩ := hns
    · exact htime.trans hns
    · exact absurd he hne
  · rw [htime]
    exact hns.imp_right And.right

/-- Settles O5 (R476): every command leaves each counter no lower, and all but two leave both as they are. -/
theorem fusesOnlyRise : Obligations.FusesOnlyRise := by
  refine ⟨fun s t h => ?_, fun c s t hp hb h => ?_⟩
  · obtain ⟨o, ⟨-, hsec, -, -⟩, ⟨-, -, hl, hr, ha, hb, -⟩⟩ := step_raised h
    rw [hsec] at hl hr ha hb
    exact ⟨ha, hb, by omega, hl, hr⟩
  · have hk := exec_core c s hp hb .refl
    rw [h] at hk
    obtain ⟨-, -, -, -, ha, hb, -⟩ := kept_iff.mp hk
    exact ⟨ha, hb⟩

/-- Settles O7 (R93, R94): every operation that queues or logs an event keeps the bounds. -/
theorem eventsStayBounded : Obligations.EventsStayBounded := by
  intro s t hq hl h
  obtain ⟨o, ⟨-, -, hev, -⟩, ⟨-, -, -, -, -, -, hbound⟩⟩ := step_raised h
  rw [hev] at hbound
  exact hbound ⟨hq, hl⟩

/-- Settles O1: with a command at its front, that is what a step runs. -/
theorem stepRunsFrontCommand : Obligations.StepRunsFrontCommand := fun _ _ _ => rfl

end Sys2Proof.Machine

namespace Sys2Proof
open Machine

/-- Settles O8 (R9, R42): the fields of the state after a cold reset. -/
theorem resetState : Obligations.ResetState := by
  unfold Obligations.ResetState
  and_intros <;> intros <;> rfl

end Sys2Proof
end

section
/-!
SUPPORT. The mailbox and its replies: how a payload is cut into segments (R68), and what an error of the mailbox stops (R83 to R85). And
STATIC's choice of a port (R209).
-/
namespace Sys2Proof.Machine

/-! ## Replies (R68) -/

/-- Cutting keeps the payload, makes pieces of 4,080 bytes but for the last, and at most as many as the fuel and one more. -/
theorem segments_flatten (n : Nat) (bs : Bytes) : (segments n bs).flatten = bs := by
  induction n generalizing bs with
  | zero => simp [segments]
  | succ n ih =>
    unfold segments
    split
    · simp
    · rw [List.flatten_cons, ih, List.take_append_drop]

theorem segments_length_pos (n : Nat) (bs : Bytes) : 1 ≤ (segments n bs).length := by
  cases n with
  | zero => simp [segments]
  | succ n => unfold segments; split <;> simp

/-- With fuel for the payload, the last piece fits and every other is whole. -/
theorem segments_getElem {n : Nat} {bs : Bytes} (h : bs.length ≤ 4080 * (n + 1)) {i : Nat} {b : Bytes}
    (hi : (segments n bs)[i]? = some b) :
    b.length ≤ 4080 ∧ (i + 1 < (segments n bs).length → b.length = 4080) := by
  induction n generalizing bs i with
  | zero =>
    cases i <;> simp [segments] at hi ⊢
    subst hi; omega
  | succ n ih =>
    unfold segments at hi ⊢
    split at hi
    next hs =>
      rw [if_pos hs]
      cases i <;> simp at hi ⊢
      subst hi; omega
    next hs =>
      rw [if_neg hs]
      cases i with
      | zero =>
        simp only [List.getElem?_cons_zero, Option.some.injEq] at hi
        subst hi
        simp only [List.length_take]
        omega
      | succ i =>
        obtain ⟨h1, h2⟩ := ih (by simp only [List.length_drop]; omega) hi
        exact ⟨h1, fun hl => h2 (by simpa using hl)⟩

theorem segments_length_le {k n : Nat} {bs : Bytes} (hk : 1 ≤ k) (h : bs.length ≤ 4080 * k) : (segments n bs).length ≤ k := by
  induction n generalizing k bs with
  | zero => simpa [segments] using hk
  | succ n ih =>
    unfold segments
    split
    · simpa using hk
    · obtain _ | k := k
      · omega
      · have := ih (k := k) (bs := bs.drop 4080) (by omega) (by simp only [List.length_drop]; omega)
        simpa using this

/-- Segment `i` of a reply carries piece `i`, its number, and MORE unless it is the last. -/
theorem numberSegments_eq (r : ReplySeg) (k : Nat) (l : List Bytes) :
    numberSegments r k l = l.mapIdx fun i b => { r with seg := k + i, more := decide (i + 1 < l.length), payload := b } := by
  induction l generalizing k with
  | nil => rfl
  | cons b l ih =>
    cases l with
    | nil => simp [numberSegments]
    | cons c l =>
      rw [numberSegments, ih, List.mapIdx_cons (l := c :: l)]
      · simp [Nat.add_right_comm, Nat.add_assoc]
      · simp

theorem numberSegments_payload (r : ReplySeg) (k : Nat) (l : List Bytes) : (numberSegments r k l).map (·.payload) = l := by
  rw [numberSegments_eq]
  exact List.ext_getElem? fun i => by simp [Option.map_map, Function.comp_def]

/-- Settles O9 (R68): the pieces make up the payload, and numbering gives each its place. -/
theorem replySegments : Obligations.ReplySegments := by
  intro r h
  refine ⟨?payload, ?atLeast, ?atMost, fun i g hg => ?_⟩
  case payload =>
    rw [List.flatMap_def, numberSegments_payload, segments_flatten]
  case atLeast => simpa [numberSegments_eq] using segments_length_pos 256 r.payload
  case atMost => simpa [numberSegments_eq] using segments_length_le (by decide) (show r.payload.length ≤ 4080 * 256 by omega)
  rw [numberSegments_eq] at hg ⊢
  rw [List.getElem?_mapIdx, Option.map_eq_some_iff] at hg
  obtain ⟨b, hb, rfl⟩ := hg
  obtain ⟨hmost, hfull⟩ := segments_getElem (n := 256) (by omega) hb
  refine ⟨by simp, by simp, fun hi => hfull (by simpa using hi), hmost, rfl, rfl, rfl, rfl⟩

/-! ## The mailbox (R83 to R85) -/

/-- An event joins its die's queue where that has room (R93). -/
theorem raise_room {die : Nat} {s : State} (h : (tget s.ev.queues die []).length < 64) (code sev a b c : Nat) :
    ∃ m : EventMsg, m.code = code ∧ m.severity = sev ∧ m.arg0 = a % 2 ^ 32 ∧
      tget (raise code die sev a b c s).ev.queues die [] = tget s.ev.queues die [] ++ [m] := by
  unfold raise
  dsimp only
  rw [if_pos h]
  refine ⟨_, ?_, ?_, ?_, (tget_tset ..).trans (if_pos rfl)⟩ <;> rfl

theorem mailboxError_maloa (c : Nat) (s : State) : (mailboxError c s).maloa = { s.maloa with err := c } := by
  obtain ⟨ev, h⟩ := raiseLead_frame 0x0131 4 c 0 0 { s with maloa := { s.maloa with err := c } }
  unfold mailboxError
  rw [h]

/-- Setting MBX_STAT.ERR queues MBX_ERROR where the leading Hearth's queue has room. -/
theorem mailboxError_room {c : Nat} {s : State} (h : (tget s.ev.queues (leadDie s) []).length < 64) :
    (mailboxError c s).maloa = { s.maloa with err := c } ∧
    ∃ m, m.code = 0x0131 ∧ m.severity = 4 ∧ m.arg0 = c % 2 ^ 32 ∧
      tget (mailboxError c s).ev.queues (leadDie s) [] = tget s.ev.queues (leadDie s) [] ++ [m] := by
  refine ⟨mailboxError_maloa c s, ?_⟩
  exact raise_room (s := { s with maloa := { s.maloa with err := c } }) h 0x0131 4 c 0 0

theorem mailboxRuns_of_err {s : State} (h : s.maloa.err ≠ 0) : mailboxRuns s = false := by simp [mailboxRuns, h]

theorem countBar0_frame (cls off : Nat) (s : State) : ∃ counters, countBar0 cls off s = { s with counters } := countFilter_frame _ _ _

/-- A BAR0 write that acts is counted, then acts. -/
theorem bar0Write_taken {off : Nat} {s : State} (h : bar0Takes s off = true) (k : State → Answer) :
    bar0Write off k s = k (countBar0 1 off s) := by simp [bar0Write, h]

/-- Settles O10 (R83, R85, Table 3.7; log 67 for two failing rings). -/
theorem mailboxErrorStops : Obligations.MailboxErrorStops := by
  refine ⟨?fetch, ?segment, ?replyHead, ?enable, fun c s h => mailboxError_room h⟩
  case fetch =>
    intro slot ok s h
    change execRequestFetch slot ok s = _
    simp [execRequestFetch, mailboxRuns_of_err h]
  case segment =>
    intro ok s h
    change execReplySegmentWrite ok s = _
    simp only [execReplySegmentWrite, mailboxRuns_of_err h]
    split <;> rfl
  case replyHead =>
    intro head s ht h
    change execRplIdxHeadWrite head s = _
    obtain ⟨c, hc⟩ := countBar0_frame 1 0x1001C s
    rw [execRplIdxHeadWrite, bar0Write_taken ht, hc]
    simp [testIndices, modMbx, h]
  case enable =>
    intro v s ht hoff hon hreset h
    refine ⟨_, (bar0Write_taken ht _ : execMailboxEnable v s = _), ?_⟩
    obtain ⟨c, hc⟩ := countBar0_frame 1 0x10000 s
    simp [hc, writeMbxCtrl, hreset, hoff, hon, testIndices, h, mailboxError_maloa]

/-! ## Lists -/

theorem filter_always {α : Type} (l : List α) : l.filter (fun _ => true) = l := List.filter_eq_self.mpr fun _ _ => rfl

/-- Two steps that agree on what a list holds fold alike over it. -/
theorem foldl_congr_mem {α β : Type} {f g : β → α → β} {l : List α} (h : ∀ b, ∀ a ∈ l, f b a = g b a) (b : β) :
    l.foldl f b = l.foldl g b := by
  induction l generalizing b with
  | nil => rfl
  | cons a l ih =>
    rw [List.foldl_cons, List.foldl_cons, h b a List.mem_cons_self]
    exact ih (fun b x hx => h b x (List.mem_cons_of_mem a hx)) _

/-! ## STATIC (R209) -/

/-- Settles O11: the index lies below |E|, and it and the entry depend on the flow's key bytes, the seed and E alone. -/
theorem staticChoiceIsEligible : Obligations.StaticChoiceIsEligible := by
  refine ⟨fun s f e he => ?_, fun s t f g e hk hs => by rw [staticChoice, staticChoice, flowHash, flowHash, hk, hs]⟩
  have hpos : 0 < e.length := List.length_pos_iff.mpr he
  have hlt : flowHash s f / 2 ^ 22 % 1024 * e.length / 1024 < e.length := by
    rw [Nat.div_lt_iff_lt_mul (by decide), Nat.mul_comm e.length]
    exact Nat.mul_lt_mul_of_pos_right (Nat.mod_lt _ (by decide)) hpos
  exact ⟨_, _, rfl, List.getElem?_eq_getElem hlt, by rw [staticChoice, ← List.getElem_eq_getD (h := hlt)]⟩

end Sys2Proof.Machine
end

section
/-!
SUPPORT. Fields of byte strings, and what a lane carries: link words, prefixes, headers, training messages, symbols and levels read back as
they were written (R98 to R103, R122, R130).
-/
namespace Sys2Proof.Machine

/-! ## Numbers and byte strings (R5) -/

theorem byteOf_toNat (n : Nat) : (byteOf n).toNat = n % 256 := by simp [byteOf]

theorem beNat_cons (b : Byte) (bs : Bytes) : beNat (b :: bs) = b.toNat * 256 ^ bs.length + beNat bs := by
  have h (l : Bytes) (a : Nat) : l.foldl (fun acc b => acc * 256 + b.toNat) a = a * 256 ^ l.length + beNat l := by
    induction l generalizing a with
    | nil => simp [beNat]
    | cons c l ih =>
      have hc : beNat (c :: l) = (0 * 256 + c.toNat) * 256 ^ l.length + beNat l := ih _
      rw [List.foldl_cons, ih, hc, List.length_cons]
      simp only [Nat.add_mul, Nat.zero_mul, Nat.zero_add, Nat.pow_succ', Nat.mul_assoc, Nat.add_assoc]
  rw [beNat, List.foldl_cons, h]
  simp

theorem beNat_lt (bs : Bytes) : beNat bs < 256 ^ bs.length := by
  induction bs with
  | nil => simp [beNat]
  | cons b bs ih =>
    rw [beNat_cons, List.length_cons, Nat.pow_succ]
    have hb : b.toNat + 1 ≤ 256 := b.isLt
    calc b.toNat * 256 ^ bs.length + beNat bs < b.toNat * 256 ^ bs.length + 256 ^ bs.length := by omega
      _ = (b.toNat + 1) * 256 ^ bs.length := (Nat.add_one_mul _ _).symm
      _ ≤ 256 ^ bs.length * 256 := by rw [Nat.mul_comm]; exact Nat.mul_le_mul_left _ hb

theorem beNat_beBytes (k n : Nat) : beNat (beBytes k n) = n % 256 ^ k := by
  induction k with
  | zero => simp [beBytes, beNat, Nat.mod_one]
  | succ k ih =>
    rw [beBytes, beNat_cons, ih, length_beBytes, byteOf_toNat, Nat.pow_succ, Nat.mod_mul, Nat.add_comm, Nat.mul_comm]

theorem beBytes_congr {k n m : Nat} (h : n % 256 ^ k = m % 256 ^ k) : beBytes k n = beBytes k m := by
  induction k with
  | zero => rfl
  | succ k ih =>
    rw [Nat.pow_succ] at h
    rw [beBytes, beBytes, ih (by rw [← Nat.mod_mul_right_mod n _ 256, ← Nat.mod_mul_right_mod m _ 256, h])]
    congr 1
    apply BitVec.eq_of_toNat_eq
    rw [byteOf_toNat, byteOf_toNat, ← Nat.mod_mul_right_div_self, ← Nat.mod_mul_right_div_self, h]

theorem beBytes_beNat (bs : Bytes) : beBytes bs.length (beNat bs) = bs := by
  induction bs with
  | nil => rfl
  | cons b bs ih =>
    rw [List.length_cons, beBytes, beNat_cons, beBytes_congr (m := beNat bs) (by simp), ih]
    congr 1
    apply BitVec.eq_of_toNat_eq
    rw [byteOf_toNat, Nat.mul_comm, Nat.mul_add_div (Nat.pow_pos (by decide)), Nat.div_eq_of_lt (beNat_lt bs), Nat.add_zero, Nat.mod_eq_of_lt b.isLt]

/-! ## Fields (R5) -/

theorem field_succ (bs : Bytes) (off k : Nat) : field bs off (k + 1) = field bs off k * 256 + (bs.getD (off + k) 0).toNat := by
  simp [field, beNat, List.range_succ]

theorem getD_append_left {a b : Bytes} {i : Nat} (h : i < a.length) : (a ++ b).getD i 0 = a.getD i 0 := by
  rw [List.getD_eq_getElem?_getD, List.getElem?_append_left h, List.getD_eq_getElem?_getD]

theorem getD_append_right {a b : Bytes} {i : Nat} (h : a.length ≤ i) : (a ++ b).getD i 0 = b.getD (i - a.length) 0 := by
  rw [List.getD_eq_getElem?_getD, List.getElem?_append_right h, List.getD_eq_getElem?_getD]

/-- A field that lies in the first part of a string. -/
theorem field_append_left {a b : Bytes} {off k : Nat} (h : off + k ≤ a.length) : field (a ++ b) off k = field a off k := by
  induction k with
  | zero => rfl
  | succ k ih => rw [field_succ, field_succ, ih (by omega), getD_append_left (by omega)]

/-- A field that lies in the second part of a string. -/
theorem field_append_right {a b : Bytes} {off k : Nat} (h : a.length ≤ off) : field (a ++ b) off k = field b (off - a.length) k := by
  induction k with
  | zero => rfl
  | succ k ih => rw [field_succ, field_succ, ih, getD_append_right (by omega), Nat.sub_add_comm h]

theorem field_add (bs : Bytes) (off j k : Nat) : field bs off (j + k) = field bs off j * 256 ^ k + field bs (off + j) k := by
  induction k with
  | zero => simp [field, beNat]
  | succ k ih => rw [← Nat.add_assoc, field_succ, ih, field_succ bs (off + j), Nat.pow_succ, Nat.add_assoc off, Nat.add_mul, Nat.mul_assoc, Nat.add_assoc]

theorem getD_beBytes {m n i : Nat} (h : i < m) : ((beBytes m n).getD i 0).toNat = n / 256 ^ (m - 1 - i) % 256 := by
  induction m generalizing i with
  | zero => omega
  | succ m ih =>
    cases i with
    | zero => simp [beBytes, byteOf]
    | succ i =>
      rw [beBytes, List.getD_cons_succ, ih (by omega)]
      congr 3
      omega

/-- A field of a number's bytes holds the digits that stand there. -/
theorem field_beBytes {m n off k : Nat} (h : off + k ≤ m) : field (beBytes m n) off k = n / 256 ^ (m - off - k) % 256 ^ k := by
  induction k with
  | zero => simp [field, beNat, Nat.mod_one]
  | succ k ih =>
    rw [field_succ, ih (by omega), getD_beBytes (by omega)]
    have e : m - off - k = (m - off - (k + 1)) + 1 := by omega
    have e' : m - 1 - (off + k) = m - off - (k + 1) := by omega
    rw [e, e', Nat.pow_succ, ← Nat.div_div_eq_div_mul, Nat.pow_succ, Nat.mul_comm (256 ^ k), Nat.mod_mul]
    omega

/-! ## One-bit fields -/

theorem b2n_le_one (b : Bool) : b2n b ≤ 1 := by cases b <;> decide

/-- A bit of a number in which a flag stands. -/
theorem bit_eq_iff {n i : Nat} {b : Bool} : bit n i = b ↔ n / 2 ^ i % 2 = b2n b := by
  rw [bit, Nat.testBit_eq_decide_div_mod_eq]
  cases b <;> simp [b2n]

/-! ## Check codes -/

theorem crc8Bit_lt {c : Nat} (h : c < 256) : crc8Bit c < 256 := by
  unfold crc8Bit
  split
  · exact Nat.xor_lt_two_pow (n := 8) (Nat.mod_lt _ (by decide)) (by decide)
  · omega

theorem crc8_lt (bs : Bytes) : crc8 bs < 256 := by
  refine List.foldlRecOn (motive := (· < 256)) bs _ (by decide) fun c hc b _ => ?_
  have hx : Nat.xor c b.toNat < 256 := Nat.xor_lt_two_pow (n := 8) hc b.isLt
  exact crc8Bit_lt <| crc8Bit_lt <| crc8Bit_lt <| crc8Bit_lt <| crc8Bit_lt <| crc8Bit_lt <| crc8Bit_lt <| crc8Bit_lt hx

theorem crc32cBit_lt {c : Nat} (h : c < 2 ^ 32) : crc32cBit c < 2 ^ 32 := by
  unfold crc32cBit
  split
  · exact Nat.xor_lt_two_pow (by omega) (by decide)
  · omega

theorem crc32c_lt (bs : Bytes) : crc32c bs < 2 ^ 32 := by
  refine Nat.xor_lt_two_pow (List.foldlRecOn (motive := (· < 2 ^ 32)) bs _ (by decide) fun c hc b _ => ?_) (by decide)
  have hx : Nat.xor c b.toNat < 2 ^ 32 := Nat.xor_lt_two_pow hc (Nat.lt_trans b.isLt (by decide))
  exact crc32cBit_lt <| crc32cBit_lt <| crc32cBit_lt <| crc32cBit_lt <| crc32cBit_lt <| crc32cBit_lt <| crc32cBit_lt <| crc32cBit_lt hx

end Sys2Proof.Machine
end

section
/-!
SUPPORT. What a lane carries: link words, prefixes, headers, training messages, symbols and levels read back as they were written
(R98 to R103, R122, R130).
-/
namespace Sys2Proof.Machine

/-! ## Link words (R102) -/

theorem linkWordHigh_length (w : LinkWord) : (linkWordHigh w).length = 7 := length_beBytes 7 _

/-- Eight bytes whose last is the check code of the others, as a number. -/
theorem u64_checked {h : Bytes} (hl : h.length = 7) : u64 (h ++ beBytes 1 (crc8 h)) 0 = field h 0 7 * 256 + crc8 h := by
  rw [u64, field_add _ 0 7 1, field_append_left (by omega), field_append_right (by omega), field_beBytes (by omega), hl]
  simp [Nat.mod_eq_of_lt (crc8_lt h)]

theorem linkWordOf_linkWordBytes {w : LinkWord} (h1 : w.fstart < 512) (h2 : w.ackSeq < 4096) (h3 : w.cvcA < 8) (h4 : w.credA < 256)
    (h5 : w.cvcB < 8) (h6 : w.credB < 256) : linkWordOf (linkWordBytes w) = some w := by
  have hl := linkWordHigh_length w
  have hcrc : crc8 ((linkWordBytes w).take 7) = u8 (linkWordBytes w) 7 := by
    rw [linkWordBytes, List.take_left' hl, u8, field_append_right (by omega), hl, field_beBytes (by omega)]
    simp [Nat.mod_eq_of_lt (crc8_lt _)]
  have hc := crc8_lt (linkWordHigh w)
  have hn : u64 (linkWordBytes w) 0 = _ := u64_checked hl
  rw [show field (linkWordHigh w) 0 7 = _ from field_beBytes (by omega)] at hn
  have ht := b2n_le_one w.train
  have hk := b2n_le_one w.nak
  have ha := b2n_le_one w.abrt
  unfold linkWordOf
  dsimp only
  rw [hcrc]
  generalize u64 (linkWordBytes w) 0 = n at hn
  rw [if_neg (by simp; omega), Option.some.injEq]
  have htrain : decide (n / 2 ^ 62 = 1) = w.train := by
    rw [show n / 2 ^ 62 = b2n w.train by omega]
    cases w.train <;> rfl
  rw [htrain, show n / 2 ^ 53 % 512 = w.fstart by omega, bit_eq_iff.mpr (show n / 2 ^ 52 % 2 = b2n w.nak by omega),
    show n / 2 ^ 40 % 4096 = w.ackSeq by omega, show n / 2 ^ 37 % 8 = w.cvcA by omega, show n / 2 ^ 29 % 256 = w.credA by omega,
    show n / 2 ^ 26 % 8 = w.cvcB by omega, show n / 2 ^ 18 % 256 = w.credB by omega,
    bit_eq_iff.mpr (show n / 2 ^ 17 % 2 = b2n w.abrt by omega)]

/-- A wrong check code or a reserved kind spells no link word. -/
theorem linkWordOf_bad {bs : Bytes} (h : crc8 (bs.take 7) ≠ u8 bs 7 ∨ 128 ≤ u8 bs 0) : linkWordOf bs = none := by
  have hn : u64 bs 0 = u8 bs 0 * 256 ^ 7 + field bs (0 + 1) 7 := field_add bs 0 1 7
  unfold linkWordOf
  dsimp only
  rw [if_pos]
  rw [Bool.or_eq_true, decide_eq_true_eq, decide_eq_true_eq]
  exact h.imp_right fun h => by omega

/-! ## Link prefixes (R103) -/

theorem prefix_reads_back {lseq : Nat} (h : lseq < 4096) (rtx : Bool) : prefixGood (prefixBytes lseq rtx) = true ∧
    u16 (prefixBytes lseq rtx) 0 / 16 = lseq ∧ bit (u8 (prefixBytes lseq rtx) 1) 3 = rtx := by
  have hl (n : Nat) : (beBytes 3 n).length = 3 := length_beBytes 3 n
  have hr := b2n_le_one rtx
  unfold prefixGood prefixBytes
  dsimp only
  generalize hm : lseq % 4096 * 2 ^ 12 + b2n rtx * 2 ^ 11 + 2 ^ 10 = m
  have h1 : u8 (beBytes 3 m ++ beBytes 1 (crc8 (beBytes 3 m))) 1 = m / 256 % 256 := by
    rw [u8, field_append_left (by simp)]
    exact field_beBytes (by omega)
  have h2 : u16 (beBytes 3 m ++ beBytes 1 (crc8 (beBytes 3 m))) 0 = m / 256 % 65536 := by
    rw [u16, field_append_left (by simp)]
    exact field_beBytes (by omega)
  have h3 : u8 (beBytes 3 m ++ beBytes 1 (crc8 (beBytes 3 m))) 3 = crc8 (beBytes 3 m) := by
    rw [u8, field_append_right (by simp), hl, field_beBytes (by omega)]
    simp [Nat.mod_eq_of_lt (crc8_lt _)]
  rw [h1, h2, h3, List.take_left' (hl m)]
  have hmark : bit (m / 256 % 256) 2 = true := bit_eq_iff.mpr (show m / 256 % 256 / 2 ^ 2 % 2 = 1 by omega)
  exact ⟨by simp [hmark], by omega, bit_eq_iff.mpr (by omega)⟩

/-! ## Headers (R106) -/

theorem headerBytes_length (f : Frame) : (headerBytes f).length = 32 := by simp [headerBytes, headerBody]

theorem headerOf_headerBytes {f : Frame} (h1 : f.kind < 16) (h2 : f.tc < 8) (h3 : f.res1 < 4) (h4 : f.latchkey < 65536)
    (h5 : f.destGid < 2 ^ 20) (h6 : f.res6 < 16) (h7 : f.srcGid < 2 ^ 20) (h8 : f.res9 < 16) (h9 : f.hops < 64) (h10 : f.res10 < 4)
    (h11 : f.entropy < 256) (h12 : f.e2eSeq < 2 ^ 32) (h13 : f.length < 65536) (h14 : f.ctx < 65536) (h15 : f.gen < 256)
    (h16 : f.fmt < 256) (h17 : f.chunk < 2 ^ 32) (h18 : f.member < 65536) (h19 : f.hcrc < 2 ^ 32) :
    headerOf (headerBytes f) = { f with fcrc := 0, payload := [] } := by
  have d0 := b2n_le_one f.de
  have d1 := b2n_le_one f.cm
  have d2 := b2n_le_one f.ord
  have d3 := b2n_le_one f.trim
  have d4 := b2n_le_one f.spray
  have d5 := b2n_le_one f.byp
  have d6 := b2n_le_one f.esc
  unfold headerOf headerBytes headerBody u8 u16 u32
  simp (disch := simp) only [field_append_left, field_append_right, field_beBytes, length_beBytes, List.length_append, Nat.reduceAdd, Nat.reduceSub]
  simp only [Frame.mk.injEq, bit_eq_iff, and_true]
  and_intros <;> omega

/-! ## Training messages (R122) -/

/-- Field `v` of fields of two bytes that stand one after the other. -/
theorem field_pairs (l : List Nat) {n v : Nat} (h : v < n) :
    field ((List.range n).flatMap fun v => beBytes 2 (l.getD v 0)) (2 * v) 2 = l.getD v 0 % 65536 := by
  have hl (n : Nat) : ((List.range n).flatMap fun v => beBytes 2 (l.getD v 0)).length = n * 2 := by
    rw [length_flatMap_const (n := 2) (by simp), List.length_range]
  induction n with
  | zero => omega
  | succ n ih =>
    rw [List.range_succ, List.flatMap_append, List.flatMap_singleton]
    by_cases hv : v < n
    · rw [field_append_left (by rw [hl]; omega), ih hv]
    · obtain rfl : v = n := by omega
      rw [field_append_right (by rw [hl]; omega), hl, field_beBytes (by omega), Nat.mul_comm, Nat.sub_self]
      simp

theorem length_trainGrant (l : List Nat) : ((List.range 8).flatMap fun v => beBytes 2 (l.getD v 0)).length = 16 := by
  rw [length_flatMap_const (n := 2) fun _ _ => length_beBytes .., List.length_range]

theorem trainBody_length (m : TrainMsg) : (trainBody m).length = 60 := by
  simp only [trainBody, zeros, List.length_append, length_beBytes, length_trainGrant, List.length_replicate]

theorem trainMsgOf_trainBytes {m : TrainMsg} (h1 : m.kind < 256) (h2 : m.version < 256) (h3 : m.gang < 256) (h4 : m.laneIndex < 256)
    (h5 : m.port < 65536) (h6 : m.peerType < 256) (h7 : m.caps < 256) (h8 : m.serial < 2 ^ 64) (h9 : m.grant.length = 8)
    (h10 : ∀ g ∈ m.grant, g < 65536) (h11 : m.probeTime < 2 ^ 64) (h12 : m.expectLseq < 4096) :
    trainMsgOf (trainBytes m) = { m with tcrcOk := true } := by
  have hf := b2n_le_one m.fresh
  have hl := trainBody_length m
  have hcrc : crc32c ((trainBytes m).take 60) = u32 (trainBytes m) 60 := by
    rw [trainBytes, List.take_left' hl, u32, field_append_right (by omega), hl, field_beBytes (by omega)]
    have := crc32c_lt (trainBody m)
    omega
  have hgrant : ((List.range 8).map fun v => u16 (trainBytes m) (16 + 2 * v)) = m.grant := by
    refine List.ext_getElem (by simp [h9]) fun v hv hv' => ?_
    rw [List.getElem_map, List.getElem_range, u16, trainBytes, field_append_left (by omega)]
    unfold trainBody
    simp only [List.length_map, List.length_range] at hv
    rw [field_append_left (by simp only [List.length_append, length_beBytes, length_trainGrant]; omega), field_append_left (by simp only [List.length_append, length_beBytes, length_trainGrant]; omega),
      field_append_left (by simp only [List.length_append, length_beBytes, length_trainGrant]; omega),
      field_append_right (by simp), show ∀ a : Bytes, a.length = 16 → 16 + 2 * v - a.length = 2 * v by intros; omega, field_pairs _ hv,
      ← List.getElem_eq_getD (h := hv'), Nat.mod_eq_of_lt (h10 _ (List.getElem_mem hv'))]
    simp
  unfold trainMsgOf
  rw [hcrc, hgrant]
  unfold trainBytes trainBody u8 u16 u64
  simp (disch := simp only [zeros, List.length_append, length_beBytes, length_trainGrant, List.length_replicate,
    Nat.reduceAdd, Nat.reduceLeDiff, Nat.le_refl]) only
    [field_append_left, field_append_right, field_beBytes, length_beBytes, List.length_append, length_trainGrant, Nat.reduceAdd,
    Nat.reduceSub]
  simp only [TrainMsg.mk.injEq, bit_eq_iff, true_and, decide_true]
  and_intros <;> omega

/-! ## The scrambler (R99) -/

/-- The bytes that the scrambler makes of a stream from a state on. -/
def scrambleFrom (st : Nat) : Bytes → Bytes
  | [] => []
  | b :: bs => (b ^^^ byteOf (prbs31 st)) :: scrambleFrom (prbs31 st) bs

theorem scramble_eq (bs : Bytes) : scramble bs = scrambleFrom (2 ^ 31 - 1) bs := by
  have h (bs : Bytes) (st : Nat) (done : Bytes) : (bs.foldl (fun (p : Nat × Bytes) b =>
      let st := prbs31 p.1
      (st, p.2 ++ [b ^^^ byteOf st])) (st, done)).2 = done ++ scrambleFrom st bs := by
    induction bs generalizing st done with
    | nil => simp [scrambleFrom]
    | cons b bs ih => simp [scrambleFrom, ih]
  exact h bs _ []

theorem scrambleFrom_twice (st : Nat) (bs : Bytes) : scrambleFrom st (scrambleFrom st bs) = bs := by
  induction bs generalizing st with
  | nil => rfl
  | cons b bs ih => simp [scrambleFrom, ih, BitVec.xor_assoc]

/-! ## Symbols and levels (R98, R130) -/

theorem parted_interleave {a b : List Nat} (h : a.length = b.length) : parted (interleave a b) = (a, b) := by
  induction a generalizing b with
  | nil => cases b <;> simp_all [interleave, parted]
  | cons x a ih =>
    cases b with
    | nil => simp at h
    | cons y b => rw [interleave, parted, ih (by simpa using h)]

theorem gray_gray (n : Nat) : gray (gray n) = n := by
  unfold gray
  repeat' split
  all_goals omega

theorem levelSymbols_levelsOf {xs : List Nat} (h : ∀ x ∈ xs, x < 1024) : levelSymbols (levelsOf xs) = xs := by
  induction xs with
  | nil => rfl
  | cons x xs ih =>
    obtain ⟨hx, hxs⟩ := List.forall_mem_cons.mp h
    have he : levelsOf (x :: xs) =
        gray (x / 256) :: gray (x / 64 % 4) :: gray (x / 16 % 4) :: gray (x / 4 % 4) :: gray (x % 4) :: levelsOf xs := rfl
    rw [he, levelSymbols, ih hxs]
    simp only [gray_gray]
    congr 1
    omega

theorem symbolBytes_symbolsOf (bs : Bytes) (h : bs.length % 5 = 0) : symbolBytes (symbolsOf bs) = bs := by
  induction bs using symbolsOf.induct with
  | case1 a b c d e r ih =>
    have hn : beNat [a, b, c, d, e] < 256 ^ 5 := beNat_lt [a, b, c, d, e]
    have hb : beBytes 5 (beNat [a, b, c, d, e]) = [a, b, c, d, e] := beBytes_beNat [a, b, c, d, e]
    simp only [symbolsOf, List.cons_append, List.nil_append, symbolBytes, ih (by simp at h; omega)]
    generalize beNat [a, b, c, d, e] = n at hn hb
    rw [show n / 2 ^ 30 * 2 ^ 30 + n / 2 ^ 20 % 1024 * 2 ^ 20 + n / 2 ^ 10 % 1024 * 2 ^ 10 + n % 1024 = n by omega, hb]
    rfl
  | case2 bs hs =>
    match bs with
    | [] => rfl
    | [_] | [_, _] | [_, _, _] | [_, _, _, _] => simp at h
    | a :: b :: c :: d :: e :: r => exact absurd rfl (hs a b c d e r)

/-- Five bytes that a number below 2^40 spells pack into its four symbols. -/
theorem symbolsOf_beBytes {n : Nat} (h : n < 2 ^ 40) (bs : Bytes) : symbolsOf (beBytes 5 n ++ bs) =
    [n / 2 ^ 30, n / 2 ^ 20 % 1024, n / 2 ^ 10 % 1024, n % 1024] ++ symbolsOf bs := by
  have hn := beNat_beBytes 5 n
  rw [Nat.mod_eq_of_lt (by omega)] at hn
  simp only [beBytes, List.cons_append, List.nil_append, symbolsOf] at hn ⊢
  rw [hn]

theorem symbolsOf_symbolBytes {xs : List Nat} (hx : ∀ x ∈ xs, x < 1024) (h : xs.length % 4 = 0) : symbolsOf (symbolBytes xs) = xs := by
  induction xs using symbolBytes.induct with
  | case1 a b c d r ih =>
    simp only [List.forall_mem_cons] at hx
    obtain ⟨ha, hb, hc, hd, hr⟩ := hx
    rw [symbolBytes, symbolsOf_beBytes (by omega), ih hr (by simp at h; omega)]
    simp only [List.cons_append, List.nil_append, List.cons.injEq, and_true]
    omega
  | case2 xs hs =>
    match xs with
    | [] => rfl
    | [_] | [_, _] | [_, _, _] => simp at h
    | a :: b :: c :: d :: r => exact absurd rfl (hs a b c d r)

/-- Settles O6: each format by the lemma that reads it back. -/
theorem wireFormatsAgree : Obligations.WireFormatsAgree := by
  refine ⟨?linkWord, ?badLinkWord, ?header, ?linkPrefix, ?trainMsg, ?scrambler, fun a b h => parted_interleave h,
    fun xs h => levelSymbols_levelsOf h, symbolBytes_symbolsOf, fun xs h hl => symbolsOf_symbolBytes h hl⟩
  case linkWord =>
    exact fun w h1 h2 h3 h4 h5 h6 => ⟨by simp [linkWordBytes, linkWordHigh], linkWordOf_linkWordBytes h1 h2 h3 h4 h5 h6⟩
  case badLinkWord => exact fun bs _ h => linkWordOf_bad h
  case header =>
    exact fun f h1 h2 h3 h4 h5 h6 h7 h8 h9 h10 h11 h12 h13 h14 h15 h16 h17 h18 h19 => ⟨headerBytes_length f,
      headerOf_headerBytes h1 h2 h3 h4 h5 h6 h7 h8 h9 h10 h11 h12 h13 h14 h15 h16 h17 h18 h19⟩
  case linkPrefix => exact fun lseq rtx h => prefix_reads_back h rtx
  case trainMsg =>
    exact fun m h1 h2 h3 h4 h5 h6 h7 h8 h9 h10 h11 h12 => ⟨by simp [trainBytes, trainBody_length],
      trainMsgOf_trainBytes h1 h2 h3 h4 h5 h6 h7 h8 h9 h10 h11 h12⟩
  case scrambler => exact fun bs => by rw [scramble_eq, scramble_eq, scrambleFrom_twice]

end Sys2Proof.Machine
end

section
/-!
SUPPORT. How an accepted Maloa command is answered (R69, R76): its own checks pass and its own part runs, or it only reads.
-/
namespace Sys2Proof.Machine

/-- An accepted command whose own checks pass is answered with what follows them. -/
theorem runCommand_checked {op : OpSpec} {i : Instr} {q : Request} {inBlock : State → Nat → Bool}
    {checks : Caller → State → List (Bool × Refuse)} {k : Caller → State → Done} {s : State} (h : accepted op q inBlock s = true)
    (hc : firstRefusal (checks (callerOf (tracked q s) q) (started q s)) = none) :
    runCommand op i q inBlock (fun c s => withChecks (checks c s) s (k c)) s =
      answered op q s (k (callerOf (tracked q s) q) (started q s)) := by
  rw [runCommand_accepted h, withChecks_none hc]

theorem answered_checked {op : OpSpec} {q : Request} {s : State} {cs : List (Bool × Refuse)} (h : firstRefusal cs = none) (t : State)
    (k : State → Done) : answered op q s (withChecks cs t k) = answered op q s (k t) := by rw [withChecks_none h]

/-- The first check that fails refuses the command (R69). -/
theorem withChecks_fail {b : Bool} (h : b = true) (r : Refuse) (cs : List (Bool × Refuse)) (s : State) (k : State → Done) :
    withChecks ((b, r) :: cs) s k = .refuse r s := by subst h; rfl

theorem withChecks_pass {b : Bool} (h : b = false) (r : Refuse) (cs : List (Bool × Refuse)) (s : State) (k : State → Done) :
    withChecks ((b, r) :: cs) s k = withChecks cs s k := by subst h; rfl

@[simp] theorem chk_fst (b : Bool) (r : Refuse) : (chk b r).1 = b := rfl

@[simp] theorem firstRefusal_cons_fst (c : Bool × Refuse) (l : List (Bool × Refuse)) :
    firstRefusal (c :: l) = none ↔ c.1 = false ∧ firstRefusal l = none := firstRefusal_cons c.1 c.2 l

@[simp] theorem firstRefusal_map {α : Type} (l : List α) (f : α → Bool × Refuse) :
    firstRefusal (l.map f) = none ↔ ∀ x ∈ l, (f x).1 = false := by
  simp [firstRefusal_none_iff]

/-- A staging command whose items may be staged is answered OK with them staged (R229). -/
theorem answered_staged {op : OpSpec} {q : Request} {s : State} {items : List Item} (h : stagingAllowed q items (started q s) = true)
    (off : Nat) (payload : Bytes) : answered op q s (stageDone q off items payload (started q s)) =
      answered op q s (.ok payload (withStaged q items (started q s))) := by
  rw [stageDone_allowed h]

/-- A command only replies that is answered OK on a state that differs at most in the open values used. -/
theorem repliesOnly_of_ok {op : OpSpec} {i : Instr} {q : Request} {s t : State} {payload : Bytes} {n : Nat}
    (he : exec i s = answered op q s (.ok payload t)) (hl : payload.length = n) (ht : OnlyDraws (started q s) t) :
    RepliesOnly op i q s n := by
  obtain ⟨d, rfl⟩ := ht
  exact ⟨payload, d, hl, he⟩

theorem repliesOnly_someLength {op : OpSpec} {i : Instr} {q : Request} {s t : State} {payload : Bytes}
    (he : exec i s = answered op q s (.ok payload t)) (ht : OnlyDraws (started q s) t) : ∃ n, RepliesOnly op i q s n :=
  ⟨_, repliesOnly_of_ok he (.refl _) ht⟩

/-- An accepted command has one of its LENGTHs (R69, check 8). -/
theorem accepted_length {op : OpSpec} {q : Request} {inBlock : State → Nat → Bool} {s : State} (h : accepted op q inBlock s = true) :
    op.lengths q.params.length = true := by
  have hr : (acceptRefusal op q inBlock (tracked q s)).isNone = true := by
    simp only [accepted, Bool.and_eq_true] at h
    exact h.1.1.2
  unfold acceptRefusal at hr
  split at hr
  · cases hr
  · split at hr
    · cases hr
    · split at hr
      · cases hr
      · split at hr
        · cases hr
        · simp_all

end Sys2Proof.Machine
end

section
/-!
SUPPORT. The reset and start-up commands (O14): each clause runs its command through the laws of the interpreter.
-/
namespace Sys2Proof.Machine

/-- Settles O14. -/
theorem startupCommandsComplete : Obligations.StartupCommandsComplete := by
  refine ⟨?deviceReset, ?resetCauseClear, ?startupRead, ?deviceInfo, ?echo, ?dieMapRead, ?seamLinkRead⟩
  case deviceReset =>
    intro q s hr ha hp
    change execDeviceReset q s = _
    rw [execDeviceReset, hr, if_neg Bool.false_ne_true]
    exact runCommand_checked ha (by simp [hp])
  case resetCauseClear => exact fun q s ha => (runCommand_accepted ha : execResetCauseClear q s = _)
  case startupRead =>
    exact fun q s ha hl => repliesOnly_of_ok (runCommand_accepted ha : execStartupRead q s = _) (by simp [hl]) (phaseReg_onlyDraws _)
  case deviceInfo => exact fun q s ha => repliesOnly_of_ok (runCommand_accepted ha : execDeviceInfo q s = _) (by simp) (.refl _)
  case echo => exact fun q s ha => (runCommand_accepted ha : execEcho q s = _)
  case dieMapRead =>
    intro q s ha hd
    refine repliesOnly_of_ok (runCommand_checked ha (by simp [notDiscovered, hd]) : execDieMapRead q s = _) ?_ (.refl _)
    rw [length_flatMap_const (n := 16) (by simp)]
    rfl
  case seamLinkRead =>
    intro q s ha hd hk
    exact repliesOnly_of_ok (runCommand_checked ha (by simp [notDiscovered, hd, hk]) : execSeamLinkRead q s = _) (by simp) (.refl _)

end Sys2Proof.Machine
end

section
/-!
SUPPORT. The token, identity and event commands (O15), with the length of the records that EVENT_READ answers.
-/
namespace Sys2Proof.Machine

theorem length_eventRecs (l : List EventRec) : (l.flatMap EventRec.bytes).length = 32 * l.length := by
  rw [length_flatMap_const (n := 32) (by simp [EventRec.bytes, EventRec.words]), Nat.mul_comm]

/-- Settles O15. -/
theorem tokenAndEventCommandsComplete : Obligations.TokenAndEventCommandsComplete := by
  refine ⟨?tokenSet, ?tokenClear, ?tokenRead, ?selfGidSet, ?eventRead⟩
  case tokenSet =>
    intro q s ha hid hlow hhigh hkey hlock
    refine (runCommand_checked ha ?_ : execTokenSet q s = _).trans (by simp)
    simpa [hid, hlock, Nat.pos_iff_ne_zero.mp hlow, hhigh] using Classical.or_iff_not_imp_left.mp hkey
  case tokenClear =>
    intro q s ha hid hlock
    exact (runCommand_checked ha (by simp [hid, hlock]) : execTokenClear q s = _).trans (by simp)
  case tokenRead => exact fun q s ha hid => (runCommand_checked ha (by simp [hid]) : execTokenRead q s = _)
  case selfGidSet => exact fun q s ha => (runCommand_accepted ha : execSelfGidSet q s = _)
  case eventRead =>
    intro q s ha hlow hhigh
    refine ⟨_, ?_, repliesOnly_of_ok (runCommand_checked ha ?_ : execEventRead q s = _)
      (List.length_append.trans (congrArg (16 + ·) (length_eventRecs _))) (.refl _)⟩
    · exact List.length_take_le ..
    · simp [Nat.pos_iff_ne_zero.mp hlow, hhigh]

end Sys2Proof.Machine
end

section
/-!
SUPPORT. The link commands (O16) and the port commands (O17): what is staged is read off each command's own definition.
-/
namespace Sys2Proof.Machine

/-- Settles O16. -/
theorem linkCommandsComplete : Obligations.LinkCommandsComplete := by
  refine ⟨?weightsSet, ?statusRead, ?retrain⟩
  case weightsSet =>
    intro q s
    dsimp only
    intro ha hr hz hlow hhigh hlow' hhigh' hs
    refine (runCommand_checked ha ?_ : execLinkWeightsSet q s = _).trans (answered_staged hs 0 [])
    simpa [hr, hhigh, hhigh', hlow, hlow'] using hz
  case statusRead =>
    intro q s ha hp
    exact repliesOnly_someLength
      ((runCommand_accepted ha : execLinkStatusRead q s = _).trans (answered_checked (by simp [hp]) _ _)) (.refl _)
  case retrain =>
    intro q s ha hp hy ht
    refine (runCommand_checked ha ?_ : execLinkRetrain q s = _).trans ?_
    · simp [hp, hy, ht]
    · rfl

/-- The byte of PORT_STATE_READ for an equaliser margin: open where the margin exceeds it (log 31). -/
def marginByte (m : Nat) (s : State) : Bytes × State :=
  if m < 256 then (beBytes 1 m, s) else (beBytes 1 (draw 256 s).1, (draw 256 s).2)

@[simp] theorem length_marginByte (m : Nat) (s : State) : (marginByte m s).1.length = 1 := by
  unfold marginByte; split <;> simp

theorem marginByte_onlyDraws (m : Nat) (s : State) : OnlyDraws s (marginByte m s).2 := by
  unfold marginByte; split
  · exact .refl _
  · exact draw_onlyDraws 256 _

/-- The margins of PORT_STATE_READ are built byte by byte. -/
theorem marginBytes_onlyDraws (f : Nat → Nat) (l : List Nat) (a : Bytes × State) :
    let r := l.foldl (fun (a : Bytes × State) i => if f i < 256 then (a.1 ++ beBytes 1 (f i), a.2) else
      (a.1 ++ beBytes 1 (draw 256 a.2).1, (draw 256 a.2).2)) a
    r.1.length = a.1.length + l.length * 1 ∧ OnlyDraws a.2 r.2 := by
  have hf : (fun (a : Bytes × State) i => if f i < 256 then (a.1 ++ beBytes 1 (f i), a.2) else
      (a.1 ++ beBytes 1 (draw 256 a.2).1, (draw 256 a.2).2)) =
      fun a i => (a.1 ++ (marginByte (f i) a.2).1, (marginByte (f i) a.2).2) := by
    funext a i
    unfold marginByte
    split <;> rfl
  rw [hf]
  exact records_onlyDraws (fun _ _ => length_marginByte _ _) (fun _ _ => marginByte_onlyDraws _ _) l a

/-- Settles O17. -/
theorem portCommandsComplete : Obligations.PortCommandsComplete := by
  refine ⟨?config, ?stateRead, ?enable, ?gangSet, ?windowReset, ?lambdaMapRead, ?loopback, ?prbs⟩
  case config =>
    intro q s ha hr hpre hlow hhigh
    exact (runCommand_checked ha (by simp [hr, hpre, Nat.pos_iff_ne_zero.mp hlow, hhigh]) : execPortConfig q s = _)
  case stateRead =>
    intro q s ha hp
    refine repliesOnly_of_ok (runCommand_checked ha (by simp [hp]) : execPortStateRead q s = _) ?_ (marginBytes_onlyDraws _ _ _).2
    simp only [List.length_append, length_beBytes, (marginBytes_onlyDraws _ _ _).1]
    simp [List.map_const']
  case enable =>
    intro q s ha hr hw
    exact (runCommand_checked ha (by simpa [hr] using hw) : execPortEnable q s = _)
  case gangSet =>
    intro q s
    dsimp only
    intro ha hw hk hwd hs
    refine (runCommand_checked ha ?_ : execGangSet q s = _).trans (answered_staged hs 0 [])
    simp [hw, hk, hwd]
  case windowReset =>
    intro q s
    dsimp only
    intro ha hw hb
    exact (runCommand_checked ha (by simp [hw, hb]) : execWindowReset q s = _)
  case lambdaMapRead =>
    exact fun q s ha hw hk => repliesOnly_someLength (runCommand_checked ha (by simp [hw, hk]) : execLambdaMapRead q s = _) (.refl _)
  case loopback =>
    intro q s
    dsimp only
    intro ha hn hm hst hw
    refine (runCommand_checked ha ?_ : execPortLoopback q s = _).trans ?_
    · simpa [hn, hm, hw] using Classical.or_iff_not_imp_left.mp hst
    · dsimp only
      split <;> rfl
  case prbs =>
    intro q s
    dsimp only
    intro ha hn hm hlow hhigh hst hw hno
    exact (runCommand_checked ha (by simpa [hn, hm, Nat.pos_iff_ne_zero.mp hlow, hhigh, hw, hno] using Classical.or_iff_not_imp_left.mp hst) : execPrbsRun q s = _)

end Sys2Proof.Machine
end

section
/-!
SUPPORT. The light commands (Tables 6.13 to 6.18): what setting one Window's light or one module leaves of the others, and each command's
answer.
-/
namespace Sys2Proof.Machine

theorem moduleAt_modModule (m m' : Nat) (g : LaserModule → LaserModule) (s : State) :
    moduleAt (modModule m g s) m' = if m = m' then g (moduleAt s m) else moduleAt s m' := tget_tset ..

/-- A change that leaves switch and takeovers alone is all that happens to the light (R160). -/
theorem lightAt_modLight {g : Light → Light} (hs : ∀ x, (g x).switch = x.switch) (ht : ∀ x, (g x).takeovers = x.takeovers) (w w' : Nat)
    (s : State) : lightAt (modLight w g s) w' = if w = w' then g (lightAt s w) else lightAt s w' := by
  have h : modLight w g s = { s with light := tset s.light w (g (lightAt s w)) } := by
    simp only [modLight, hs, ht, Bool.and_not_self]
    rfl
  rw [h]
  exact tget_tset ..

/-- The same setting given to each of some Windows. -/
theorem lightAt_foldl_modLight {g : Light → Light} (hs : ∀ x, (g x).switch = x.switch) (ht : ∀ x, (g x).takeovers = x.takeovers)
    {l : List Nat} (hl : l.Nodup) (w : Nat) (s : State) :
    lightAt (l.foldl (fun s w => modLight w g s) s) w = if w ∈ l then g (lightAt s w) else lightAt s w := by
  induction l generalizing s with
  | nil => simp
  | cons v l ih =>
    rw [List.foldl_cons, ih (List.nodup_cons.mp hl).2, lightAt_modLight hs ht]
    have hv := (List.nodup_cons.mp hl).1
    by_cases h : v = w
    · subst h; simp [hv]
    · simp [h, Ne.symm h]

/-- A light with one monitor class set (Table 6.17). -/
def setClass (cls : Nat) (c : MonitorClass) (x : Light) : Light := { x with classes := x.classes.set cls c }

theorem lightAt_setClass (cls : Nat) (c : MonitorClass) {l : List Nat} (hl : l.Nodup) (w : Nat) (s : State) :
    lightAt (l.foldl (fun s w => modLight w (fun x => { x with classes := x.classes.set cls c }) s) s) w =
      if w ∈ l then setClass cls c (lightAt s w) else lightAt s w :=
  lightAt_foldl_modLight (g := setClass cls c) (fun _ => rfl) (fun _ => rfl) hl w s

/-- Settles O18. -/
theorem lightCommandsComplete : Obligations.LightCommandsComplete := by
  refine ⟨?laserSwitch, ?stateRead, ?cmisAccess, ?rxPowerRead, ?monitorConfig, ?biasLimitsSet, ?takeLimits⟩
  case laserSwitch =>
    intro q s t
    dsimp only
    intro ha hw hside hbusy hstate hstart
    refine (runCommand_checked ha (by simp [hw, hside, hbusy, hstate]) : execLaserSwitch q s = _).trans ?_
    dsimp only
    rw [hstart]
  case stateRead =>
    intro q s ha hm
    refine repliesOnly_of_ok (runCommand_checked ha (by simp [hm]) : execLaserStateRead q s = _) ?_ (.refl _)
    simp [length_flatMap_const (n := 12)]
  case cmisAccess =>
    intro q data s
    dsimp only
    intro ha hm hop hlow hhigh hend hlen hact hstate
    refine (runCommand_checked ha ?_ : execLaserCmisAccess q true data s = _).trans ?_
    · simp only [decide_eq_false_iff_not] at hact
      simp [hm, hop, Nat.pos_iff_ne_zero.mp hlow, hhigh, hend, hlen]
      refine ⟨fun hwrite hpage => ?_, hstate⟩
      obtain h | ⟨_, _⟩ | h := hact
      · exact absurd hwrite h
      · omega
      · exact h
    · simp
  case rxPowerRead =>
    intro q s ha hw hsrc hi
    have hl : q.params.length = 4 := by simpa [opRxPowerRead] using accepted_length ha
    obtain ⟨hlen, hd⟩ := records_onlyDraws (fun l s => length_powerRecord (u8 q.params 0) (u8 q.params 1) (u8 q.params 2) l s)
      (fun _ _ => powerRecord_onlyDraws _ _ _ _ _) (List.range 9) ([], started q s)
    refine repliesOnly_of_ok (runCommand_checked ha (by simp [hw, hsrc, hi]) : execRxPowerRead q s = _) ?_ hd
    simp only [List.length_append, hlen]
    simp [hl]
  case monitorConfig =>
    intro q s
    dsimp only
    intro ha hw hc h2 h3 h3' h4 h6 h8 h10 ht
    have hnodup : (if u8 q.params 0 = 255 then List.range 8 else [u8 q.params 0]).Nodup := by
      split
      · exact List.nodup_range
      · simp
    refine ⟨_, (runCommand_checked ha ?_ : execMonitorConfig q s = _), fun w hno => ?_, fun w hlt hyes => ?_⟩
    · simp [hc, h2, Nat.pos_iff_ne_zero.mp h3, h3', h4, h6, h8, h10]
      exact ⟨by omega, fun h => ⟨(ht h).1, (ht h).2.1⟩, fun h => (ht h).2.2⟩
    · rw [lightAt_setClass _ _ hnodup, if_neg (by split <;> simp <;> omega)]
    · rw [lightAt_setClass _ _ hnodup, if_pos (by split <;> simp <;> omega)]
      rfl
  case biasLimitsSet =>
    intro q s ha hm h1 h2
    refine (runCommand_checked ha ?_ : execBiasLimitsSet q s = _)
    simpa [h1, h2] using fun h => hm.resolve_left (by omega)
  case takeLimits =>
    intro m s
    dsimp only
    rw [takeLimits, moduleAt_modModule, if_pos rfl]
    cases (moduleAt s m).limits <;> rfl

end Sys2Proof.Machine
end

section
/-!
SUPPORT. The Transom, forwarding and table commands (Tables 7.9 to 7.11, 8.10 to 8.15, 9.16 to 9.19): their own checks and their answers.
-/
namespace Sys2Proof.Machine

/-- Conflicts are looked for with `find?` over a range; none is found where no index has one. -/
theorem find?_range_none {n : Nat} {p : Nat → Bool} (h : ∀ i < n, p i = false) : (List.range n).find? p = none := by
  simpa using h

/-- The records of TRANSOM_MAP_READ are built entry by entry. -/
theorem transomRecords_onlyDraws (s : State) (w : Nat) (l : List Nat) (a : Bytes × State) :
    let r := l.foldl (fun (a : Bytes × State) i =>
        let x := tget s.transom.routes (32 * w + i) {}
        let v := inputAverage w i a.2
        (a.1 ++ beBytes 4 (entryWord s 6 (32 * w + i)) ++ beBytes 1 (outputSource s w (i / 8) (i % 8)) ++
          beBytes 1 (b2n x.switch + 2 * b2n x.matrix + 4 * b2n x.add + 8 * b2n x.holding) ++ v.1, v.2)) a
    r.1.length = a.1.length + l.length * 8 ∧ OnlyDraws a.2 r.2 := by
  have h := records_onlyDraws (k := 8) (f := fun i t =>
    (beBytes 4 (entryWord s 6 (32 * w + i)) ++ beBytes 1 (outputSource s w (i / 8) (i % 8)) ++
      beBytes 1 (b2n (tget s.transom.routes (32 * w + i) {}).switch + 2 * b2n (tget s.transom.routes (32 * w + i) {}).matrix +
        4 * b2n (tget s.transom.routes (32 * w + i) {}).add + 8 * b2n (tget s.transom.routes (32 * w + i) {}).holding) ++
      (inputAverage w i t).1, (inputAverage w i t).2)) (fun _ _ => by simp) (fun _ _ => inputAverage_onlyDraws _ _ _) l a
  simpa only [List.append_assoc] using h

/-- Settles O19. -/
theorem transomCommandsComplete : Obligations.TransomCommandsComplete := by
  refine ⟨?mapWrite, ?mapRead, ?pathCheck⟩
  case mapWrite =>
    intro q s
    dsimp only
    intro ha hw hf h1 hn hlen hword hconf hs
    have hmin : min (u8 q.params 2) ((q.params.length - 4) / 4) = u8 q.params 2 := by omega
    refine ((runCommand_accepted ha : execTransomMapWrite q s = _).trans (answered_checked ?_ _ _)).trans ?_
    · have hwords : firstRefusal ((List.range (u8 q.params 2)).flatMap fun i =>
          transomWordChecks (4 + 4 * i) (u32 q.params (4 + 4 * i))) = none := by
        rw [firstRefusal_none_iff]
        intro c hc
        obtain ⟨i, hi, hc⟩ := List.mem_flatMap.mp hc
        exact (firstRefusal_none_iff _).mp (hword i (List.mem_range.mp hi)) c hc
      rw [hmin]
      simp [hwords, hw, hf, Nat.pos_iff_ne_zero.mp h1, hn, hlen]
    · dsimp only
      rw [find?_range_none hconf]
      exact answered_staged hs 0 []
  case mapRead =>
    intro q s ha hw
    refine repliesOnly_of_ok (runCommand_checked ha (by simp [hw]) : execTransomMapRead q s = _) ?_ (transomRecords_onlyDraws ..).2
    simp only [List.length_append, (transomRecords_onlyDraws ..).1]
    simp
  case pathCheck =>
    intro q s ha hw he hn
    have hl : q.params.length = 8 := by simpa [opTransomPathCheck] using accepted_length ha
    refine repliesOnly_of_ok (runCommand_checked ha (by simp [hw, he, hn]) : execTransomPathCheck q s = _) ?_ ?_
    · simp [hl]
    · exact (loss16_onlyDraws _ _).trans ((loss16_onlyDraws _ _).trans (inputAverage_onlyDraws _ _ _))

/-! ## Path sets (R200) -/

theorem nodup_of_eraseDups_length {l : List Nat} (h : l.eraseDups.length = l.length) : l.Nodup := by
  have hle (k : Nat) : ∀ l : List Nat, l.length ≤ k → l.eraseDups.length ≤ l.length ∧ (l.eraseDups.length = l.length → l.Nodup) := by
    induction k with
    | zero => intro l hl; simp [List.length_eq_zero_iff.mp (Nat.le_zero.mp hl)]
    | succ k ih =>
      intro l hl
      cases l with
      | nil => simp
      | cons a l =>
        rw [List.length_cons] at hl
        have hf := List.length_filter_le (fun b => !b == a) l
        obtain ⟨h1, h2⟩ := ih (l.filter fun b => !b == a) (by omega)
        rw [List.eraseDups_cons, List.length_cons, List.length_cons]
        refine ⟨by omega, fun h => ?_⟩
        have hall := List.length_filter_eq_length_iff.mp (show (l.filter fun b => !b == a).length = l.length by omega)
        rw [List.filter_eq_self.mpr hall] at h2
        rw [List.filter_eq_self.mpr hall] at h
        exact List.nodup_cons.mpr ⟨fun hm => by simpa using hall a hm, h2 (by omega)⟩
  exact (hle l.length l (Nat.le_refl _)).2 h

/-- Candidates in range, each of its own port, make a good path set. -/
theorem candidateBad_none {cs : List (Nat × Nat)} (hc : ∀ c ∈ cs, c.1 < 1280 ∧ c.2 ≠ 0) (hd : (cs.map (·.1)).Nodup) :
    candidateBad cs = none := by
  unfold candidateBad
  dsimp only
  have hget (i : Nat) (hi : i < cs.length) : cs.getD i (0, 1) = cs[i] := (List.getElem_eq_getD _).symm
  rw [find?_range_none fun i hi => ?_, find?_range_none fun i hi => ?_]
  · refine List.any_eq_false.mpr fun j hj => ?_
    have hji := List.mem_range.mp hj
    have hj' : j < cs.length := by omega
    have hne : ¬ (cs.map (·.1))[j]'(by simpa using hj') = (cs.map (·.1))[i]'(by simpa using hi) := fun h =>
      absurd ((List.getElem_inj hd).mp h) (by omega)
    simp only [hget i hi, hget j hj']
    simpa using hne
  · obtain ⟨h1, h2⟩ := hc _ (List.getElem_mem hi)
    simp only [hget i hi]
    simpa using ⟨h1, h2⟩

/-! ## Reading a table (Table 9.16) -/

/-- Entries read one after the other, none of which is lost. -/
theorem foldl_read {α : Type} {F : Option (List Nat) × State → α → Option (List Nat) × State} {g : α → State → List Nat × State}
    (hF : ∀ ws t k, F (some ws, t) k = (some (ws ++ (g k t).1), (g k t).2)) (l : List α) (r : List Nat × State) :
    l.foldl F (some r.1, r.2) = (some (l.foldl (fun r k => (r.1 ++ (g k r.2).1, (g k r.2).2)) r).1,
      (l.foldl (fun r k => (r.1 ++ (g k r.2).1, (g k r.2).2)) r).2) := by
  induction l generalizing r with
  | nil => rfl
  | cons k l ih => rw [List.foldl_cons, hF]; exact ih (r.1 ++ (g k r.2).1, (g k r.2).2)

/-- Where reading changes nothing, the words are those of the entries in turn. -/
theorem foldl_readSame {α : Type} {F : Option (List Nat) × State → α → Option (List Nat) × State} {g : α → List Nat} {t : State}
    (hF : ∀ ws k, F (some ws, t) k = (some (ws ++ g k), t)) (l : List α) (ws : List Nat) :
    l.foldl F (some ws, t) = (some (ws ++ l.flatMap g), t) := by
  induction l generalizing ws with
  | nil => simp
  | cons k l ih => rw [List.foldl_cons, hF, ih, List.flatMap_cons, List.append_assoc]

/-- Settles O20. -/
theorem tableCommandsComplete : Obligations.TableCommandsComplete := by
  refine ⟨?route, ?pathset, ?mcast, ?flowlet, ?stair, ?chute, ?readLive, ?readShadow, ?write, ?compareWrite, ?clearAge⟩
  case route =>
    intro q s
    dsimp only
    intro ha h1 hn hsame hlen hs
    refine (runCommand_checked ha ?_ : execRouteWriteRange q s = _).trans (answered_staged hs 0 [])
    simp [Nat.pos_iff_ne_zero.mp h1, hlen]
    exact ⟨hn, fun h => hsame.resolve_left (by simp [h])⟩
  case pathset =>
    intro q s
    dsimp only
    intro ha h1 hn hc hdup hlen hs
    have hmin : min (u8 q.params 2) ((q.params.length - 4) / 2) = u8 q.params 2 := by
      have : u8 q.params 2 ≤ 2 * ceilDiv (u8 q.params 2) 2 := by unfold ceilDiv; omega
      omega
    have hgood := candidateBad_none hc (nodup_of_eraseDups_length (hdup.trans (List.length_map _).symm))
    refine (runCommand_accepted ha : execPathsetWrite q s = _).trans ?_
    dsimp only
    rw [hmin, hgood, withChecks_none (by simp [h1, hn, hlen])]
    exact answered_staged hs 0 []
  case mcast =>
    intro q s
    dsimp only
    intro ha hs
    exact (runCommand_accepted ha : execMcastWrite q s = _).trans (answered_staged hs 0 [])
  case flowlet =>
    intro q s
    dsimp only
    intro ha hm h1 hn hs
    exact (runCommand_checked ha (by simp [hm, Nat.pos_iff_ne_zero.mp h1, hn]) : execFlowletConfig q s = _).trans (answered_staged hs 0 [])
  case stair =>
    intro q s
    dsimp only
    intro ha hw hs
    refine (runCommand_accepted ha : execStairConfig q s = _).trans ?_
    dsimp only
    rw [find?_range_none fun c hc => ?_, find?_range_none fun c hc => ?_]
    · exact answered_staged hs 0 []
    all_goals
      obtain ⟨h1, h2⟩ := hw c hc
      simp
      omega
  case chute =>
    intro q s ha hh h1 hn
    exact repliesOnly_someLength (runCommand_checked ha (by simp [hh, Nat.pos_iff_ne_zero.mp h1, hn]) : execChuteRead q s = _) (.refl _)
  case readLive =>
    intro q bad s
    dsimp only
    intro ha htxn hlive hcs hh hp h1 hn hend
    refine (runCommand_accepted ha : execTableRead q bad s = _).trans ?_
    dsimp only
    rw [if_pos htxn]
    dsimp only
    rw [withChecks_none (by simp [hcs, hlive, hh, hp, Nat.pos_iff_ne_zero.mp h1, hn, hend])]
    rw [foldl_read (g := fun k => readLive (u8 q.params 2) (u8 q.params 3) (u8 q.params 0) (u32 q.params 4 + k))
      (fun ws t k => by simp only [hlive, if_true]) _ ([], started q s)]
  case readShadow =>
    intro q s
    dsimp only
    intro ha hlive htxn hcs htab hh hp h1 hn hend
    refine (runCommand_accepted ha : execTableRead q [] s = _).trans ?_
    have hno : (if q.txn = 0 then none else if u8 q.params 1 = 1 then some (badParam 5 0xFFFF) else
        ownTxnRefused q false (fun t => decide (t = .failed)) (started q s)) = none := by
      obtain h | h := htxn <;> simp [h, hlive]
    dsimp only
    rw [hno]
    dsimp only
    rw [withChecks_none (by simp [hcs, hlive, htab, hh, hp, Nat.pos_iff_ne_zero.mp h1, hn, hend])]
    rw [foldl_readSame (g := fun k => bytesWords (tableWords (u8 q.params 0)) (seenValue (started q s) (txnAt (started q s) q.txn)
      (.entry (u8 q.params 0) (u32 q.params 4 + k)))) (fun ws k => by simp [hlive, readShadow]), List.nil_append]
  case write =>
    intro q s
    dsimp only
    intro ha hcs hlen hok
    refine (runCommand_checked ha (by simp [hcs, hlen]) : execTableWrite q s = _).trans ?_
    dsimp only
    rw [if_pos hok]
  case compareWrite =>
    intro q bad s
    dsimp only
    intro ha hcs hlen hok
    refine (runCommand_checked ha (by simp [hcs, hlen]) : execTableCompareWrite q bad s = _).trans ?_
    dsimp only
    rw [if_pos hok]
  case clearAge =>
    intro q s
    dsimp only
    intro ha ht hh hi
    exact (runCommand_checked ha (by simp [ht, hh, hi]) : execTableClearAge q s = _)

end Sys2Proof.Machine
end

section
/-!
SUPPORT. The transaction and snapshot commands (Tables 9.10 to 9.15, 9.20 to 9.24): each command's
answer, and the reply with which TXN_STATUS refutes its statement.
-/
namespace Sys2Proof.Machine

theorem countFilter_maloa (type : Nat) (hit : Filter → Bool) (s : State) : (countFilter type hit s).maloa = s.maloa := by
  unfold countFilter
  suffices ∀ (l : Tbl Nat Filter) (t : State), t.maloa = s.maloa →
      (l.foldl (fun s e => if e.2.enable && e.2.type = type && hit e.2 then count 18 e.1 0 1 s else s) t).maloa = s.maloa from
    this s.filters s rfl
  intro l
  induction l with
  | nil => exact fun _ h => h
  | cons e l ih =>
    intro t ht
    refine ih _ ?_
    dsimp only
    split
    · simpa using ht
    · exact ht

/-- A reply of one segment to the mailbox waits for its slot with its payload whole (R68). -/
theorem finish_ok_waiting {op : OpSpec} {q : Request} {c : Caller} {n : Nat} {payload : Bytes} {t : State} (hsrc : q.src = .pcie)
    (hgen : t.maloa.takenGen = t.maloa.ringGen) (hlen : payload.length ≤ 4080) :
    (finish op q c n (.ok payload t)).maloa.waiting = t.maloa.waiting ++ [{ replyTo op.opcode q t with payload := payload }] := by
  have hs : segments 256 payload = [payload] := by simp [segments, hlen]
  simp only [finish, Done.ok, sendReply, hs, numberSegments, List.foldl_cons, List.foldl_nil, replyTo, routeSegment, queueSlot, hsrc]
  simp [hgen, countCommand, countFilter_maloa]

/-- A running part with a device-wide transaction open, and TXN_STATUS asking for it. -/
def statusState : State := { State.reset with
  boot := { State.reset.boot with phase := 7, mailboxReady := true, busMaster := true, discDone := true, trngState := 2, standbyReady := true }
  setup := { State.reset.setup with txns := [{ handle := 1, device := true, latchkey := 0, token := 0, route := 0, idle := 60, lastNamed := 0 }] } }

def statusRequest : Request := { src := .pcie, tag := 1, params := [0, 0, 0, 1] }

/-- TXN_STATUS replies with the 24 bytes of Table 9.15. -/
theorem exec_statusRequest : ∃ payload : Bytes, payload.length = 24 ∧ exec (.txnStatus statusRequest) statusState =
    answered opTxnStatus statusRequest statusState (.ok payload (started statusRequest statusState)) := by
  refine ⟨_, ?_, (runCommand_accepted (by decide) : execTxnStatus statusRequest statusState = _)⟩
  decide

/-- Refutes O21: the statement has TXN_STATUS reply with 28 bytes, but Table 9.15 and the model have 24 of them. -/
theorem not_transactionCommandsComplete : ¬ Obligations.TransactionCommandsComplete := by
  rintro ⟨-, -, -, hstatus⟩
  obtain ⟨p, d, hp, he⟩ := hstatus statusRequest statusState
    { handle := 1, device := true, latchkey := 0, token := 0, route := 0, idle := 60, lastNamed := 0 } (by decide) (by decide)
  obtain ⟨p', hp', he'⟩ := exec_statusRequest
  have hfin := congrArg (fun s : State => s.maloa.waiting) (Host.Outcome.next.inj (he'.symm.trans he))
  dsimp only at hfin
  rw [finish_ok_waiting rfl rfl (by omega), finish_ok_waiting rfl rfl (by omega)] at hfin
  have hpp : p' = p := by simpa using congrArg (List.map ReplySeg.payload) (List.append_cancel_left hfin)
  exact absurd ((hpp ▸ hp').symm.trans hp) (by decide)

/-- Items that may be staged are staged (R229). -/
theorem stage_allowed {q : Request} {items : List Item} {s : State} (h : stagingAllowed q items s = true) (off : Nat) :
    stage q off items s = .inl (withStaged q items s) := by
  unfold stagingAllowed at h
  unfold stage withStaged
  cases ht : txnAt s q.txn with
  | none => simp [ht] at h
  | some t =>
    simp only [ht, Bool.and_eq_true, Bool.not_eq_true'] at h
    obtain ⟨hfree, hscope⟩ := h
    simp [hfree, hscope]

/-- What SNAPSHOT_APPLY answers of the items it staged (Table 9.21). -/
def appliedCounts (items : List Item) : Bytes :=
  let k (t : Nat) : Nat := tableItems items t
  beBytes 4 (k 1) ++ beBytes 2 (k 2) ++ beBytes 2 (k 3) ++ beBytes 1 (k 4) ++ beBytes 1 (k 6) ++
    beBytes 2 (items.length - (k 1 + k 2 + k 3 + k 4 + k 6))

/-- The scope that SNAPSHOT_SAVE names is the device's or a block's. -/
theorem snapshotScope_ok {p : Bytes} {s : State} (h0 : u8 p 0 ≤ 1) (hkey : decide (u8 p 0 = 1) = true → u16 p 2 = 0)
    (hblk : decide (u8 p 0 = 1) = false → (blockAt s (u16 p 2)).isSome = true) :
    firstRefusal [chk (decide (1 < u8 p 0)) (badParam 3 0), (decide (u8 p 0 = 1) && decide (u16 p 2 ≠ 0), badParam 6 2),
      (!decide (u8 p 0 = 1) && (blockAt s (u16 p 2)).isNone, badParam 0x81 2)] = none := by
  simp [h0]
  exact ⟨by simpa using hkey, by simpa using hblk⟩

/-- Settles O22. -/
theorem snapshotCommandsComplete : Obligations.SnapshotCommandsComplete := by
  refine ⟨?save, ?held, ?apply, ?list, ?delete, ?setBoot⟩
  case save =>
    intro q s
    dsimp only
    intro ha h0 hkey hblk hnew hroom hup
    refine (runCommand_checked ha (snapshotScope_ok h0 hkey hblk) : execSnapshotSave q s = _).trans ?_
    dsimp only
    rw [if_neg (by simp [hnew])]
    split
    · rw [chk, withChecks_pass (decide_eq_false (by omega)), withChecks_fail (decide_eq_true ‹_›)]
    · rw [chk, withChecks_pass (decide_eq_false (by omega)), withChecks_pass (decide_eq_false ‹_›), withChecks_none rfl, storeThen_up hup]
      rfl
  case held =>
    intro q s
    dsimp only
    intro ha h0 hkey hblk hheld
    refine (runCommand_checked ha (snapshotScope_ok h0 hkey hblk) : execSnapshotSave q s = _).trans ?_
    dsimp only
    rw [if_pos hheld]
    rfl
  case apply =>
    intro q obs s n t d b cached a items ha hn ht hdev hkey hread hs hmap hsvc
    refine ⟨appliedCounts items, by simp [appliedCounts],
      (runCommand_accepted ha : execSnapshotApply q obs false s = _).trans ?_⟩
    dsimp only [items, a, cached, b, d] at *
    rw [hn, ht]
    dsimp only
    rw [if_neg (by simp [hdev, hkey]), if_neg ?lost, if_neg (by simp), stage_allowed hs]
    dsimp only
    rw [if_neg ?map, if_neg ((Bool.not_eq_true _).mpr hsvc)]
    case lost =>
      obtain h | h := hread
      · rw [h, Bool.not_true, Bool.false_and]; decide
      · rw [h, Bool.and_false]; decide
    case map =>
      rw [Bool.not_eq_true', Bool.not_eq_false, List.all_eq_true]
      intro w hw
      rw [Bool.or_eq_true, Bool.not_eq_true', ← Bool.not_eq_true, List.any_eq_true]
      refine Classical.or_iff_not_imp_left.mpr fun hany => hmap w (List.mem_range.mp hw) ?_
      obtain ⟨i, hi, hmatch⟩ := Classical.not_not.mp hany
      split at hmatch
      next e hk => exact ⟨i, hi, e, hk, of_decide_eq_true hmatch⟩
      next => cases hmatch
    rfl
  case list =>
    intro q s ha
    refine repliesOnly_of_ok (runCommand_accepted ha : execSnapshotList q s = _) ?_ (.refl _)
    simp [length_flatMap_const (n := 24)]
    omega
  case delete =>
    intro q s
    dsimp only
    intro ha hd hup
    refine (runCommand_checked ha (by simpa using hd) : execSnapshotDelete q s = _).trans ?_
    rw [storeThen_up hup]
  case setBoot =>
    intro q s
    dsimp only
    intro ha hd hdev hup
    refine (runCommand_checked ha ?_ : execSnapshotSetBoot q s = _).trans ?_
    · have hd' : u64 q.params 0 ≠ 0 → (snapshotAt (started q s) (u64 q.params 0)).isSome = true := hd.resolve_left
      simp
      exact ⟨hd', by simpa [Option.any_eq_false] using hdev⟩
    · rw [storeThen_up hup]

end Sys2Proof.Machine
end

section
/-!
SUPPORT. The partition commands (Tables 10.9 to 10.13, 9.25, 9.26): the layout of a block that is in range, and each command's answer.
-/
namespace Sys2Proof.Machine

/-- Address ranges in range pass the layout's checks (Table 10.9). -/
theorem rangeOutside_none {rs : List (Nat × Nat)} (h : ∀ r ∈ rs, r.2 ≠ 0 ∧ r.1 + r.2 ≤ 1048576) : rangeOutside rs = none := by
  unfold rangeOutside
  rw [Option.map_eq_none_iff]
  refine find?_range_none fun i hi => ?_
  obtain ⟨h1, h2⟩ := h _ (List.getElem_mem hi)
  simp only [← List.getElem_eq_getD (h := hi)]
  simpa using ⟨h1, h2⟩

theorem rangeOverlap_none {rs : List (Nat × Nat)} (h : rs.Pairwise fun x r => ¬(r.1 < x.1 + x.2 ∧ x.1 < r.1 + r.2)) :
    rangeOverlap rs = none := by
  unfold rangeOverlap
  rw [Option.map_eq_none_iff]
  refine find?_range_none fun i hi => List.any_eq_false.mpr fun x hx => ?_
  obtain ⟨j, hj, rfl⟩ := List.mem_take_iff_getElem.mp hx
  simp only [← List.getElem_eq_getD (h := hi)]
  simpa using List.pairwise_iff_getElem.mp h j i (by omega) hi (by omega)

/-- Settles O23. -/
theorem partitionCommandsComplete : Obligations.PartitionCommandsComplete := by
  refine ⟨?create, ?delete, ?readAll, ?readOne, ?pool, ?grants, ?quiesce, ?resume⟩
  case create =>
    intro q s
    dsimp only
    intro ha hdev h0 hF h3 hctx hnoctx hlen hrange hpair huse hs
    have hall : (layoutOf q.params {}).ranges.take ((q.params.length - 60) / 8) = (layoutOf q.params {}).ranges := by
      refine List.take_of_length_le ?_
      simp [layoutOf]
      omega
    refine (runCommand_checked ha ?_ : execBlockCreate q s = _).trans (answered_staged hs 0 [])
    rw [hall, rangeOutside_none hrange, rangeOverlap_none hpair, huse]
    simp [hdev, h0, hF, h3, hlen]
    exact ⟨hctx, hnoctx⟩
  case delete =>
    intro q s
    dsimp only
    intro ha hdev huse hs
    exact (runCommand_checked ha (by simp [hdev, huse]) : execBlockDelete q s = _).trans (answered_staged hs 0 [])
  case readAll =>
    intro q s ha h0
    have h := (runCommand_accepted ha : execBlockRead q s = _)
    rw [if_pos h0] at h
    refine repliesOnly_of_ok h ?_ (.refl _)
    simp [length_flatMap_const (n := 4)]
    omega
  case readOne =>
    intro q s b ha h0 hb
    have h := (runCommand_accepted ha : execBlockRead q s = _)
    rw [if_neg h0, hb] at h
    refine repliesOnly_of_ok h ?_ (.refl _)
    simp [length_flatMap_const (n := 8), length_flatMap_const (n := 4)]
    omega
  case pool =>
    intro q s
    dsimp only
    intro ha hdev h4 h6 h6' h8 h10 h12 hle hkey hs
    refine (runCommand_checked ha ?_ : execBlockPoolSet q s = _).trans (answered_staged hs 0 [])
    simp [hdev, h4, Nat.pos_iff_ne_zero.mp h6, h6', h8, h10, Nat.pos_iff_ne_zero.mp h12, hle]
    exact hkey.resolve_left
  case grants =>
    intro q s
    dsimp only
    intro ha h2 hb
    refine (runCommand_checked ha ?_ : execGrantSet q s = _).trans ?_
    · simp [h2]
      simpa [Option.isSome_iff_ne_none] using hb
    · rw [callerOf_route]
  case quiesce =>
    intro q s b
    dsimp only
    intro ha hb hlim
    refine (runCommand_accepted ha : execBlockQuiesce q s = _).trans ?_
    dsimp only
    rw [hb]
    dsimp only
    rw [if_neg (by omega)]
    cases hst : b.state <;> rfl
  case resume =>
    intro q s
    dsimp only
    intro ha hb
    refine (runCommand_accepted ha : execBlockResume q s = _).trans ?_
    rw [if_neg (by simpa [Option.isSome_iff_ne_none] using hb)]

end Sys2Proof.Machine
end

section
/-!
SUPPORT. The buffer, Cellar and scheduling commands (Tables 11.6, 11.7, 12.10 to 12.12, 13.5 to 13.13): each command's own checks and
its answer.
-/
namespace Sys2Proof.Machine

theorem setBits_eq_nil_iff {k n : Nat} : setBits k n = [] ↔ ∀ i < k, bit n i = false := by
  simp [setBits]

/-- Where one of the first bits may be set and the number is not 0, one is set. -/
theorem setBits_ne_nil {k n : Nat} (h0 : n ≠ 0) (h : n < 2 ^ k) : setBits k n ≠ [] := by
  rw [Ne, setBits_eq_nil_iff]
  intro hall
  refine h0 (Nat.eq_of_testBit_eq fun i => ?_)
  rw [Nat.zero_testBit]
  by_cases hi : i < k
  · exact hall i hi
  · exact Nat.testBit_lt_two_pow (Nat.lt_of_lt_of_le h (Nat.pow_le_pow_right (by decide) (by omega)))

/-- Settles O24. -/
theorem bufferCommandsComplete : Obligations.BufferCommandsComplete := by
  refine ⟨?config, ?read, ?status, ?regulator, ?memtest⟩
  case config =>
    intro q s
    dsimp only
    intro ha h0 hchecks hs
    refine (runCommand_accepted ha : execBufferConfig q s = _).trans ?_
    dsimp only
    obtain h | h : u8 q.params 0 = 0 ∨ u8 q.params 0 = 1 := by omega
    · simp only [h, if_true] at hchecks hs ⊢
      rw [withChecks_none hchecks]
      exact answered_staged hs 0 []
    · simp only [h, Nat.one_ne_zero, if_false] at hchecks hs ⊢
      rw [withChecks_none hchecks]
      exact answered_staged hs 4 []
  case read =>
    intro q s
    dsimp only
    intro ha h0 hport
    refine repliesOnly_someLength (runCommand_checked ha ?_ : execBufferRead q s = _) (.refl _)
    simp [h0]
    exact fun h => ⟨⟨(hport h).1, (hport h).2.1⟩, (hport h).2.2⟩
  case status =>
    intro q s ha h0 hp
    refine repliesOnly_of_ok (runCommand_checked ha ?_ : execCellarStatus q s = _) ?_ (.refl _)
    · simpa [h0, cellarNotReady] using hp
    · simp [length_flatMap_const (n := 16)]
  case regulator =>
    intro q s
    dsimp only
    intro ha h0 h0' h1 h4 h4' h8 h8' hp hs
    refine (runCommand_checked ha ?_ : execCellarRegulatorSet q s = _).trans (answered_staged hs 0 [])
    have hbits := setBits_ne_nil (k := 4) (by omega) h0'
    simp [h0', hbits, h1, h4', h8, h8', cellarNotReady]
    exact ⟨by omega, by simpa using hp⟩
  case memtest =>
    intro q s
    dsimp only
    intro ha h0 h1 hfirst hn hend hpat hp hlevel hfree
    refine (runCommand_checked ha ?_ : execCellarMemtest q s = _)
    simp [h0, h1, cellarNotReady]
    refine ⟨by omega, ⟨by omega, by omega⟩, fun h => (hpat h).1, by simpa using hp, ?_, by simpa using hfree, fun h => (hpat h).2⟩
    simpa using hlevel

/-- Without a transaction, METER_SET with ACTIONS_ONLY passes its form (R227). -/
theorem formTxnRefused_direct {op : OpSpec} {q : Request} (h : q.txn = 0) (s : State) : formTxnRefused op false q s = [] := by
  simp [formTxnRefused, txnRefused, h]

/-- Gates of 8 ns or more pass the check of each carried entry (Table 13.8). -/
theorem shortGate_none {es : List (Nat × Nat)} (h : ∀ e ∈ es, 8 ≤ e.1) :
    (List.range es.length).find? (fun i => decide ((es.getD i (8, 0)).1 < 8)) = none := by
  refine find?_range_none fun i hi => ?_
  simp only [← List.getElem_eq_getD (h := hi)]
  simpa using h _ (List.getElem_mem hi)

/-- Settles O25. -/
theorem schedulingCommandsComplete : Obligations.SchedulingCommandsComplete := by
  refine ⟨?actions, ?meter, ?meterRead, ?shaper, ?shaperRead, ?gates, ?noGates, ?gatesRead, ?mark, ?weights⟩
  case actions =>
    intro q s
    dsimp only
    intro ha htxn h0 h4 honly h1 h1' hport hblock h5 h6 h7
    refine (runCommand_checked ha ?_ : execMeterSet q s = _).trans ?_
    · obtain h | h : u8 q.params 0 = 0 ∨ u8 q.params 0 = 1 := by omega
      · obtain ⟨hn, hh⟩ := hport h
        simp [h, hn, hh, honly, formTxnRefused_direct htxn, h1', h5, h6, h7]
        omega
      · obtain ⟨hh, hb⟩ := hblock h
        simp [h, hh, hb, honly, formTxnRefused_direct htxn, h1', h5, h6, h7]
        omega
    · dsimp only
      rw [if_pos honly, callerOf_route]
  case meter =>
    intro q s
    dsimp only
    intro ha htxn h0 h4 h1 h1' hport hblock h5 h6 h7 h8 h8' h16 h12 h12' h20 h20' hs
    have honly : bit (u8 q.params 4) 2 = false := Nat.testBit_lt_two_pow h4
    refine ((runCommand_checked ha ?_ : execMeterSet q s = _).trans ?_)
    · obtain h | h : u8 q.params 0 = 0 ∨ u8 q.params 0 = 1 := by omega
      · obtain ⟨hn, hh⟩ := hport h
        simp [h, hn, hh, honly, htxn, h1', h5, h6, h7, h8', h16, h12, h12', h20, h20']
        omega
      · obtain ⟨hh, hb⟩ := hblock h
        simp [h, hh, hb, honly, htxn, h1', h5, h6, h7, h8', h16, h12, h12', h20, h20']
        omega
    · dsimp only
      rw [if_neg (by simp [honly])]
      exact answered_staged hs 2 []
  case meterRead =>
    intro q s ha h0 h1 h1' h4 hport hblock
    refine repliesOnly_someLength (runCommand_checked ha ?_ : execMeterRead q s = _) (.refl _)
    simp [h0, h1', h4]
    exact ⟨by omega, fun h => (hport h).1, fun h => (hport h).2, fun h => by simpa [Option.isSome_iff_ne_none] using hblock (by omega)⟩
  case shaper =>
    intro q s
    dsimp only
    intro ha hr h1 h1' h5 h6 h6' h8 h8' h16 h12 h12' h20 h20' hs
    refine (runCommand_checked ha ?_ : execShaperSet q s = _).trans (answered_staged hs 0 [])
    simp [hr, h1', h5, h6, h6', h8', h16, h12', h20']
    omega
  case shaperRead =>
    intro q s ha h0 h2 h2'
    exact repliesOnly_someLength (runCommand_checked ha (by simp [h0, Nat.pos_iff_ne_zero.mp h2, h2']) : execShaperRead q s = _) (.refl _)
  case gates =>
    intro q s g
    dsimp only
    intro ha hlen h0 h1 hn hg hlong hcycle hopen hs
    have hcount : g.entries.length = u16 q.params 2 := by
      rw [gateListOf, if_neg (by omega)] at hg
      cases hg
      simp
    have hgate (v : Nat) (h1 : 1 ≤ v) (h5 : v ≤ 5) : ∃ a b, (a, b) ∈ g.entries ∧ bit b v = true := by
      obtain ⟨e, he, hb⟩ := hopen v h1 h5
      exact ⟨e.1, e.2, he, hb⟩
    have hall : g.entries.take ((q.params.length - 12) / 4) = g.entries := List.take_of_length_le (by omega)
    refine (runCommand_checked ha ?_ : execGateListWrite q s = _).trans ?_
    · rw [hg, Option.getD_some, hall, shortGate_none hlong]
      simp [h0, hn, hlen, hcycle]
      exact fun _ => ⟨⟨⟨⟨hgate 1 (by decide) (by decide), hgate 2 (by decide) (by decide)⟩, hgate 3 (by decide) (by decide)⟩,
        hgate 4 (by decide) (by decide)⟩, hgate 5 (by decide) (by decide)⟩
    · rw [hg]
      exact answered_staged hs 0 _
  case noGates =>
    intro q s
    dsimp only
    intro ha hlen h0 h2 hs
    have hg : gateListOf q.params = none := if_pos h2
    refine (runCommand_checked ha ?_ : execGateListWrite q s = _).trans ?_
    · simp [hg, h0, h2, hlen, GateList.cycle]
    · rw [hg, if_pos h2]
      exact answered_staged hs 0 _
  case gatesRead =>
    intro q s ha h0
    have h := (runCommand_checked ha (by simp [h0]) : execGateListRead q s = _)
    cases hg : gateList (started q s) (u16 q.params 0) with
    | none => exact repliesOnly_someLength (h.trans (by rw [hg])) (.refl _)
    | some g => exact repliesOnly_someLength (h.trans (by rw [hg])) (.refl _)
  case mark =>
    intro q s
    dsimp only
    intro ha hr h1 h1' h5 h6 h6' h8 h12 hs
    refine (runCommand_checked ha ?_ : execMarkSet q s = _).trans (answered_staged hs 0 [])
    simp [hr, Nat.pos_iff_ne_zero.mp h1, h1', h5, Nat.pos_iff_ne_zero.mp h6, h6', h8, h12]
  case weights =>
    intro q s
    dsimp only
    intro ha hh hw hs
    refine (runCommand_checked ha ?_ : execSchedWeightsSet q s = _).trans (answered_staged hs 0 [])
    simpa [hh] using hw

end Sys2Proof.Machine
end

section
/-!
SUPPORT. The collective commands (Tables 14.12 to 14.16, 15.9 to 15.11, 16.7 to 16.9): each command's own checks and its answer.
-/
namespace Sys2Proof.Machine

/-- Settles O26. -/
theorem collectiveCommandsComplete : Obligations.CollectiveCommandsComplete := by
  refine ⟨?create, ?modify, ?destroy, ?read, ?tree, ?flagsRead, ?flagsClear, ?stateRead, ?status, ?abort, ?hamper⟩
  case create =>
    intro q s
    dsimp only
    intro ha hc hin hnew hs
    exact (runCommand_checked ha (by simp [hc, hin, hnew]) : execCtxCreate q s = _).trans (answered_staged hs 0 [])
  case modify =>
    intro q s
    dsimp only
    intro ha hc hgen hin hknown hs
    refine (runCommand_checked ha ?_ : execCtxModify q s = _).trans (answered_staged hs 0 [])
    have hgen' : ((ctxAt (started q s) (u16 q.params 0)).isSome && decide (u8 (liveValue (started q s) (.ctx (u16 q.params 0))) 2 =
        u8 q.params 2)) = false := by
      obtain h | h := hgen
      · rw [h, Bool.false_and]
      · rw [decide_eq_false h, Bool.and_false]
    simp only [firstRefusal_append, firstRefusal_chk, hc, hgen', hin, hknown]
    decide
  case destroy =>
    intro q s
    dsimp only
    intro ha hknown hs
    exact (runCommand_checked ha (by simp [hknown]) : execCtxDestroy q s = _).trans (answered_staged hs 0 [])
  case read =>
    intro q s ha hc
    obtain ⟨r, hr⟩ := Option.isSome_iff_exists.mp hc
    have h : exec (.ctxRead q) s = _ := (runCommand_accepted ha : execCtxRead q s = _)
    dsimp only at h
    rw [hr] at h
    exact repliesOnly_someLength h (.refl _)
  case tree =>
    intro q s
    dsimp only
    intro ha hk hk' hs1 hs2 hj hfirst hend hsum hknown hs
    change execTreeSet q s = _
    unfold execTreeSet
    dsimp only
    rw [runCommand_accepted ha]
    refine (answered_checked ?_ _ _).trans (answered_staged hs 0 _)
    simp [hk', hs2, hsum, hknown]
    omega
  case flagsRead =>
    intro q s ha h0
    refine repliesOnly_of_ok (runCommand_checked ha (by simpa using h0) : execEngineFlagsRead q s = _) ?_ (.refl _)
    simp [length_flatMap_const (n := 4)]
  case flagsClear =>
    intro q s
    dsimp only
    intro ha hm h1 h16 h4 h34
    refine (runCommand_checked ha ?_ : execEngineFlagsClear q s = _)
    simp [h16]
    omega
  case stateRead =>
    intro q s ha h0
    refine repliesOnly_of_ok (runCommand_checked ha (by simpa using h0) : execEngineStateRead q s = _) ?_ (.refl _)
    simp [length_flatMap_const (n := 16)]
  case status =>
    intro q s ha hc h2
    obtain ⟨r, hr⟩ := Option.isSome_iff_exists.mp hc
    have h : exec (.epochStatus q) s = _ := (runCommand_accepted ha : execEpochStatus q s = _)
    dsimp only at h
    rw [hr] at h
    exact repliesOnly_someLength (h.trans (answered_checked (by simpa using h2) _ _)) (.refl _)
  case abort =>
    intro q s r
    dsimp only
    intro ha hr hgen
    refine (runCommand_accepted ha : execEpochAbort q s = _).trans ?_
    dsimp only
    rw [hr, callerOf_route]
    exact answered_checked (by simp [hgen]) _ _
  case hamper =>
    intro q s
    dsimp only
    intro ha h0 h0' h4 h4' h8 h8'
    refine (runCommand_checked ha ?_ : execHamperConfig q s = _)
    simp [h0, h0', h4', h8']
    omega

end Sys2Proof.Machine
end

section
/-!
SUPPORT. The time commands (Tables 17.17 to 17.24): what setting the calendar keeps, and each command's answer.
-/
namespace Sys2Proof.Machine

/-- What a step of the calendar reports touches the event log only. -/
theorem calStepped_frame (step : Int) (s : State) : ∃ ev, calStepped step s = { s with ev } :=
  raiseLimited_frame _ _ _ _ (fun _ _ => raiseLead_frame ..) s

theorem moveCalendar_time (d : Int) (s : State) :
    (moveCalendar d s).time.cal.source = s.time.cal.source ∧ (moveCalendar d s).time.cal.stepLimit = s.time.cal.stepLimit ∧
      (moveCalendar d s).time.cal.utc = s.time.cal.utc ∧ (moveCalendar d s).time.count = s.time.count :=
  ⟨rfl, rfl, rfl, rfl⟩

/-- Setting the calendar moves it, sets it afresh and reports the step. -/
theorem setCalendar_frame (sec ns : Nat) (s : State) : ∃ (step : Int) (ev : _), setCalendar sec ns s = { modCal (fun c => { c with
    sec, ns, frac := 0, resid := 0, setAt := none, state := if c.source = 0 then 1 else 2, good := 0, bad := 0 })
      (moveCalendar step s) with ev } :=
  ⟨_, calStepped_frame ..⟩

/-- Setting the calendar keeps its source, its settings and the Mantel count. -/
theorem setCalendar_time (sec ns : Nat) (s : State) :
    (setCalendar sec ns s).time.cal.source = s.time.cal.source ∧ (setCalendar sec ns s).time.cal.stepLimit = s.time.cal.stepLimit ∧
      (setCalendar sec ns s).time.cal.utc = s.time.cal.utc ∧ (setCalendar sec ns s).time.count = s.time.count := by
  obtain ⟨step, ev, h⟩ := setCalendar_frame sec ns s
  rw [h]
  exact moveCalendar_time step s

theorem modCal_congr {g g' : Calendar → Calendar} {s : State} (h : g s.time.cal = g' s.time.cal) : modCal g s = modCal g' s := by
  simp only [modCal, modTime, h]

/-- The records of MANTEL_STATUS end where the open values it used do. -/
theorem fitSigned_chain (s : State) (k : Nat) (v : Int) {t : State} (h : OnlyDraws s t) : OnlyDraws s (fitSigned k v t).2 :=
  h.trans (fitSigned_onlyDraws k v t)

/-- Settles O27. -/
theorem timeCommandsComplete : Obligations.TimeCommandsComplete := by
  refine ⟨?config, ?configPorts, ?status, ?step, ?calendarNow, ?calendar, ?calendarRead, ?ptp, ?ptpStatus, ?queue⟩
  case config =>
    intro q s
    dsimp only
    intro ha h0 h1 h4 h4' h8 h8' hlen
    refine (runCommand_accepted ha : execMantelConfig q s = _).trans ?_
    dsimp only
    rw [if_pos h0]
    refine answered_checked ?_ _ _
    simp [h1, h4', h8, h8', hlen]
    omega
  case configPorts =>
    intro q s
    dsimp only
    intro ha h0 h4 h6 h8 h8' h12 hlen
    refine (runCommand_accepted ha : execMantelConfig q s = _).trans ?_
    dsimp only
    rw [if_neg (by omega)]
    refine answered_checked ?_ _ _
    simp [h0, h4, h6, h8, h8', h12, hlen]
  case status =>
    intro q s
    dsimp only
    intro ha hn
    have h : exec (.mantelStatus q) s = _ := (runCommand_checked ha (by simp; omega) : execMantelStatus q s = _)
    dsimp only at h
    by_cases hF : u16 q.params 0 = 0xFFFF
    · rw [if_pos hF] at h
      refine repliesOnly_of_ok h ?_ (fitSigned_chain _ _ _ (fitSigned_chain _ _ _ (fitSigned_chain _ _ _ (.refl _))))
      simp [hF]
    · rw [if_neg hF] at h
      refine repliesOnly_of_ok h ?_ (fitSigned_chain _ _ _ (fitSigned_chain _ _ _ (fitSigned_chain _ _ _ (fitSigned_chain _ _ _
        (fitSigned_chain _ _ _ (.refl _))))))
      simp [hF]
  case step =>
    intro q s
    dsimp only
    intro ha h0 hp hp' hp'' h2
    refine (runCommand_checked ha ?_ : execStepConfig q s = _)
    simp [h0, hp, hp'']
    exact ⟨hp', h2⟩
  case calendarNow =>
    intro q s
    dsimp only
    intro ha hsrc h0 hset hutc hns hat h24 h24' hst
    refine (runCommand_checked ha ?_ : execCalendarSet q s = _).trans ?_
    · simp [h0, hset, hns, hat, h24']
      omega
    · dsimp only
      rw [if_neg (by simp [hset]), if_pos hat]
      refine congrArg (fun t => answered opCalendarSet q s (.ok [] (setCalendar _ _ t))) (modCal_congr ?_)
      simp [hsrc, hutc]
  case calendar =>
    intro q s
    dsimp only
    intro ha h0 hns hat h24 h24'
    refine ⟨_, (runCommand_checked ha ?_ : execCalendarSet q s = _), ?_⟩
    · simp [h0, h24']
      exact ⟨hns, fun hset h16 => hat hset h16, by omega⟩
    · cases hset : bit (u8 q.params 1) 0 with
      | false => simp [modCal]
      | true =>
        by_cases h16 : u64 q.params 16 = 0
        · simp [h16, setCalendar_time, modCal]
        · simp [h16, modCal]
  case calendarRead =>
    intro q s ha
    refine repliesOnly_of_ok (runCommand_accepted ha : execCalendarRead q s = _) ?_ (.refl _)
    simp
  case ptp =>
    intro q s
    dsimp only
    intro ha h0 h1 h2 h3 h7 h8 h9 h10 h10' hother hdie
    refine (runCommand_checked ha ?_ : execPtpConfig q s = _)
    simp [h0, h1, h2, h3, h7, h8, h9, h10']
    exact ⟨h10, hother, by simpa using hdie⟩
  case ptpStatus =>
    intro q s ha h0
    refine repliesOnly_of_ok (runCommand_checked ha (by simpa using h0) : execPtpStatus q s = _) ?_ (.refl _)
    simp
  case queue =>
    intro q s
    dsimp only
    intro ha h1 h64
    exact (runCommand_checked ha (by simp [h64]; omega) : execTsQueueRead q s = _)

end Sys2Proof.Machine
end

section
/-!
SUPPORT. The Darning, firmware and power commands (Tables 18.12 to 18.23, 19.9 to 19.13): each command's own checks and its answer.
-/
namespace Sys2Proof.Machine

/-- Settles O28. -/
theorem darningCommandsComplete : Obligations.DarningCommandsComplete := by
  refine ⟨?mask, ?part, ?ports, ?control, ?restore, ?faults, ?handover, ?config, ?run⟩
  case mask =>
    intro q s ha
    refine repliesOnly_of_ok (runCommand_accepted ha : execDarningMaskRead q s = _) ?_ (.refl _)
    simp
  case part =>
    intro q s
    dsimp only
    intro ha htxn h0 hchecks
    refine (runCommand_accepted ha : execDarningConfig q s = _).trans ?_
    dsimp only
    simp only [h0]
    exact answered_checked (by simp [hchecks, txnNotZero, htxn]) _ _
  case ports =>
    intro q s
    dsimp only
    intro ha h0 hlen htxn h2 h4 h6 hs
    refine (runCommand_accepted ha : execDarningConfig q s = _).trans ?_
    dsimp only
    simp only [h0, htxn]
    exact (answered_checked (by simp [hlen, h2, h4, h6]) _ _).trans (answered_staged hs 2 [])
  case control =>
    intro q s
    dsimp only
    intro ha htxn h0 hlen h1 h2 h4
    refine (runCommand_accepted ha : execDarningConfig q s = _).trans ?_
    dsimp only
    simp only [h0]
    exact answered_checked (by simp [txnNotZero, htxn, hlen, h1, h2, h4]) _ _
  case restore =>
    intro q s
    dsimp only
    intro ha htxn h0 hlen h1 hfailed
    refine (runCommand_accepted ha : execDarningConfig q s = _).trans ?_
    dsimp only
    simp only [h0]
    refine (answered_checked (by simp [txnNotZero, htxn, hlen, h1, hfailed]) _ _).trans ?_
    split <;> rfl
  case faults =>
    intro q s ha h1 h127
    refine repliesOnly_someLength (runCommand_checked ha ?_ : execFaultRead q s = _) (.refl _)
    simp [h127]
    omega
  case handover =>
    intro q s ha hstep hready
    exact (runCommand_checked ha (by simp [hstep, hready]) : execHearthHandover q s = _)
  case config =>
    intro q s
    dsimp only
    intro ha hp
    refine (runCommand_checked ha ?_ : execSelftestConfig q s = _)
    simp
    intro i hi
    obtain ⟨h1, h2⟩ := hp (u32 q.params (4 + 4 * i)) (List.mem_map.mpr ⟨i, List.mem_range.mpr hi, rfl⟩)
    simp [List.getElem?_range hi]
    omega
  case run =>
    intro q failed s
    dsimp only
    intro ha h1 h6 hm hp hres
    refine (runCommand_checked ha ?_ : execSelftestRun q failed s = _)
    simp [h6]
    exact ⟨by omega, hm, by simpa using hp, hres⟩

/-- Outside recovery's hitless update, with no activation under way and an image accepted, FW_ACTIVATE passes its first checks
(Table 18.21). -/
theorem activate_ready {q : Request} {s : State} (h1 : u8 q.params 0 ≤ 1) (hrec : (s.boot.recovery && decide (u8 q.params 0 = 1)) = false)
    (hstep : s.fw.step = 0) (hpend : s.fw.pending = 2 ∨ s.fw.pending = 3) (himg : s.fw.pendImage.isSome = true) :
    firstRefusal [chk (decide (1 < u8 q.params 0)) (badParam 3 0),
      (s.boot.recovery && decide (u8 q.params 0 = 1), { status := 0x0B, reason := 1, info := s.boot.phase }),
      (decide (s.fw.step ≠ 0), { status := 1, reason := 3, info := 0xFFFF }),
      ((decide (s.fw.pending ≠ 2) && decide (s.fw.pending ≠ 3)) || s.fw.pendImage.isNone, { status := 0x0B, reason := 4 })] = none := by
  have himg' : s.fw.pendImage.isNone = false := by simpa [Option.isSome_iff_ne_none] using himg
  simp only [firstRefusal_chk, firstRefusal_cons, hrec, himg', hstep]
  simp [h1]
  omega

/-- Settles O29. -/
theorem firmwareCommandsComplete : Obligations.FirmwareCommandsComplete := by
  refine ⟨?begin, ?write, ?verify, ?mark, ?activate, ?status⟩
  case begin =>
    intro q s
    dsimp only
    intro ha hstep h4 hmax hmod hup hcap
    refine (runCommand_checked ha ?_ : execFwImageBegin q s = _)
    simp [h4, hmax, hmod, hup, hcap]
    simpa using hstep
  case write =>
    intro q s size
    dsimp only
    intro ha hses hoff hend hup
    refine (runCommand_accepted ha : execFwImageWrite q s = _).trans ?_
    dsimp only
    rw [hses]
    refine (answered_checked ?_ _ _)
    simpa [hoff, hup] using hend
  case verify =>
    intro q s size
    dsimp only
    intro ha hses hlen
    refine (runCommand_accepted ha : execFwImageVerify q s = _).trans ?_
    dsimp only
    rw [hses]
    dsimp only
    rw [if_neg (by omega)]
  case mark =>
    intro q s
    dsimp only
    intro ha h0 hstep hpend himg
    refine (runCommand_checked ha (activate_ready (by omega) (by simp [h0]) hstep hpend himg) : execFwActivate q s = _).trans ?_
    rw [if_pos h0]
  case activate =>
    intro q s
    dsimp only
    intro ha h0 hrec hstep hpend himg hchecks
    refine (runCommand_checked ha (activate_ready (by omega) (by rw [hrec, Bool.false_and]) hstep hpend himg) : execFwActivate q s = _).trans ?_
    rw [if_neg (by omega)]
    exact answered_checked hchecks _ _
  case status =>
    intro q s ha
    refine repliesOnly_of_ok (runCommand_accepted ha : execFwStatus q s = _) ?_ (.refl _)
    simp

/-- Settles O30. -/
theorem powerCommandsComplete : Obligations.PowerCommandsComplete := by
  refine ⟨?power, ?thermal, ?limits, ?cap, ?loops⟩
  case power =>
    intro q analog s ha
    refine repliesOnly_of_ok (runCommand_accepted ha : execPowerRead q analog s = _) ?_ (.refl _)
    simp [length_flatMap_const (n := 12)]
  case thermal =>
    intro q s ha
    refine repliesOnly_of_ok (runCommand_accepted ha : execThermalRead q s = _) ?_ (.refl _)
    simp [length_flatMap_const (n := 8)]
  case limits =>
    intro q s
    dsimp only
    intro ha h0 h1 h2 h3 hmax
    refine (runCommand_checked ha ?_ : execThermalLimitsSet q s = _)
    simp [h0, h1, h2, h3, hmax]
    omega
  case cap =>
    intro q s ha hlo hhi
    refine (runCommand_checked ha ?_ : execPowerCapSet q s = _)
    simp [hlo, hhi]
  case loops =>
    intro q s ha
    have h : exec (.loopStatus q) s = _ := (runCommand_accepted ha : execLoopStatus q s = _)
    obtain ⟨hlen, hd⟩ := records_onlyDraws length_hallLoop hallLoop_onlyDraws (List.range 4) ([], started q s)
    obtain ⟨hlen', hd'⟩ := records_onlyDraws length_mangleLoop mangleLoop_onlyDraws (List.range 2)
      ((List.range 4).foldl (fun a x => (a.1 ++ (hallLoop x a.2).1, (hallLoop x a.2).2)) ([], started q s))
    refine repliesOnly_of_ok h ?_ (hd.trans hd')
    simp only [List.length_append, hlen', hlen]
    simp [length_flatMap_const (n := 8)]

end Sys2Proof.Machine
end

section
/-!
SUPPORT. The security, store and counter commands (Tables 20.12 to 20.20, 21.10 to 21.16, 22.17 to 22.21): each command's own checks and
its answer.
-/
namespace Sys2Proof.Machine

theorem random_nv (n : Nat) (s : State) : (random n s).2.nv = s.nv := by
  unfold random reseed
  dsimp only
  split <;> simp

theorem storeUp_congr {s t : State} (h : s.nv = t.nv) : storeUp s = storeUp t := by
  simp only [storeUp, h]

theorem storeThen_porch {t : State} (h : storeUp t = true) (p : Porch) (x : NvTxn) :
    storeThen x { t with porch := p } = storing x { t with porch := p } :=
  storeThen_up (s := { t with porch := p }) h x

/-- Settles O31. -/
theorem securityCommandsComplete : Obligations.SecurityCommandsComplete := by
  refine ⟨?random, ?key, ?challenge, ?token, ?submit, ?porch, ?alarm, ?fuses, ?deed⟩
  case random =>
    intro q s
    dsimp only
    intro ha h4 hmax hmod hr
    refine (runCommand_checked ha ?_ : execRandomRead q s = _)
    simp [h4, hmax, hmod, hr]
  case key =>
    intro q s
    dsimp only
    intro ha hfull hr hup
    have hnv : (random 32 (random 2592 (random 97 (started q s)).2).2).2.nv = (started q s).nv := by
      rw [random_nv, random_nv, random_nv]
    have hup' : storeUp (started q s) = true := (storeUp_congr hnv).symm.trans hup
    refine (runCommand_checked ha ?_ : execKeyGenerate q s = _).trans ?_
    · simp only [firstRefusal_append, firstRefusal_chk, firstRefusal_cons, hfull, hr, hup']
      simp
    · dsimp only
      refine congrArg (answered opKeyGenerate q s) ((storeThen_porch hup _ _).trans ?_)
      rw [callerOf_route]
  case challenge =>
    intro q s ha h0 hlen
    refine (runCommand_checked ha (by simp [h0, hlen]) : execDebugUnlock q s = _).trans ?_
    rw [if_pos h0]
  case token =>
    intro q s
    dsimp only
    intro ha h0 hlen hoff hend hch
    obtain ⟨nonce, t, hch, ht⟩ := hch
    refine (runCommand_checked ha (by simp [h0, hlen, hoff]; simpa using hend) : execDebugUnlock q s = _).trans ?_
    rw [if_neg (by omega), hch, Option.filter_some]
    rw [if_pos (by simpa [challengeOver] using ht)]
    dsimp only
    rw [if_pos h0]
  case submit =>
    intro q s nonce t ha h0 hlen hch
    refine (runCommand_checked ha (by simp [h0, hlen]) : execDebugUnlock q s = _).trans ?_
    rw [if_neg (by omega), hch, Option.filter_some]
    by_cases ht : t + 600 * second ≤ s.ns
    · rw [if_neg (by simpa [challengeOver] using ht), if_pos ht]
    · rw [if_pos (by simpa [challengeOver] using ht), if_neg ht]
      dsimp only
      rw [if_neg (by omega), callerOf_route]
  case porch =>
    intro q s ha
    exact (runCommand_accepted ha : execPorchRead q s = _)
  case alarm =>
    intro q s
    dsimp only
    intro ha hm
    refine (runCommand_checked ha (by simp [hm]) : execPorchAlarmClear q s = _).trans ?_
    dsimp only
    rw [callerOf_route]
    split <;> rfl
  case fuses =>
    intro q s ha
    refine repliesOnly_of_ok (runCommand_accepted ha : execFuseRead q s = _) ?_ (.refl _)
    simp [length_flatMap_const (n := 48)]
  case deed =>
    intro q s ha hfull
    exact (runCommand_checked ha (by simpa using hfull) : execDeedReport q s = _)

theorem length_nvDeviceBytes (d : NvDevice) (now resync : Nat) : (d.bytes now resync).length = 32 := by
  simp [NvDevice.bytes]

theorem resyncDone_onlyDraws (d : Nat) (s : State) : OnlyDraws s (resyncDone d s).2 := by
  unfold resyncDone
  split
  · exact draw_onlyDraws _ _
  · exact .refl _

/-- Settles O32. -/
theorem storeCommandsComplete : Obligations.StoreCommandsComplete := by
  refine ⟨?status, ?read, ?write, ?scrubOn, ?scrubOff, ?bootRead, ?bootWrite, ?log⟩
  case status =>
    intro q s ha
    refine repliesOnly_of_ok (runCommand_accepted ha : execNvStatus q s = _) ?_
      ((resyncDone_onlyDraws _ _).trans (resyncDone_onlyDraws _ _))
    simp [length_nvDeviceBytes]
  case read =>
    intro q obs s
    dsimp only
    intro ha hoff h4 hmax hmod hend hup hlost
    refine (runCommand_checked ha (by simp [hoff, h4, hmax, hmod, hend]) : execNvRead q obs s = _).trans ?_
    have hup' : (readable (started q s) 0 || readable (started q s) 1) = true := by simpa using hup
    dsimp only
    rw [if_neg (by rw [hup']; decide), if_neg (by rw [hlost]; decide)]
  case write =>
    intro q s
    dsimp only
    intro ha hoff hend hup
    refine (runCommand_checked ha ?_ : execNvWrite q s = _).trans ?_
    · simp [hoff]
      simpa using hend
    · rw [storeThen_up hup]
  case scrubOn =>
    intro q s ha h0 hrun
    refine (runCommand_checked ha (by simp [h0, hrun]) : execNvScrub q s = _).trans ?_
    rw [if_pos h0]
  case scrubOff =>
    intro q s ha h0
    refine (runCommand_checked ha (by simp [h0]) : execNvScrub q s = _).trans ?_
    rw [if_neg (by omega)]
  case bootRead =>
    intro q obs s
    dsimp only
    intro ha hup hlost
    refine (runCommand_accepted ha : execBootcfgRead q obs s = _).trans ?_
    have hup' : (readable (started q s) 0 || readable (started q s) 1) = true := by simpa using hup
    dsimp only
    rw [if_neg (by rw [hup']; decide), if_neg (by rw [hlost]; decide)]
  case bootWrite =>
    intro q s
    dsimp only
    intro ha h1 h8 h0 hb1 hb2 hup
    refine (runCommand_checked ha ?_ : execBootcfgWrite q s = _).trans ?_
    · simp [h8]
      exact ⟨by omega, h0, fun h => ⟨by have := (hb1 h).1; omega, (hb1 h).2⟩, fun h => ⟨(hb2 h).1, (hb2 h).2.1⟩,
        fun h => ⟨(hb2 h).2.2.1, (hb2 h).2.2.2.1⟩, fun h => (hb2 h).2.2.2.2.1, fun h => (hb2 h).2.2.2.2.2⟩
    · rw [storeThen_up hup]
  case log =>
    intro q lost s ha h1 h84
    refine ⟨_, _, (runCommand_checked ha (by simp [h84]; omega) : execNvLogRead q lost s = _)⟩

/-- COUNTER_CLEAR names the value, the overflow bit or both (Table 22.18). -/
theorem bit_zero_or_one {n : Nat} (h1 : 1 ≤ n) (h4 : n < 4) : bit n 0 = false → bit n 1 = true := by
  obtain rfl | rfl | rfl : n = 1 ∨ n = 2 ∨ n = 3 := by omega
  all_goals decide

/-- Settles O33. -/
theorem counterCommandsComplete : Obligations.CounterCommandsComplete := by
  refine ⟨?read, ?clear, ?clearAll, ?filter, ?occ, ?host, ?set⟩
  case read =>
    intro q s
    dsimp only
    intro ha hsel
    change execCounterRead q s = _
    unfold execCounterRead
    dsimp only
    rw [runCommand_accepted ha]
    exact answered_checked hsel _ _
  case clear =>
    intro q s
    dsimp only
    intro ha hscope h1 h4 hn hn' hsel
    refine (runCommand_accepted ha : execCounterClear q s = _).trans ?_
    dsimp only
    rw [if_neg hscope, callerOf_route]
    refine answered_checked ?_ _ _
    simp [hsel, h4, hn']
    exact ⟨bit_zero_or_one h1 h4, by omega⟩
  case clearAll =>
    intro q s
    dsimp only
    intro ha hscope h1 h4
    refine (runCommand_accepted ha : execCounterClear q s = _).trans ?_
    dsimp only
    rw [if_pos hscope, callerOf_route]
    refine answered_checked ?_ _ _
    simp [h4]
    exact bit_zero_or_one h1 h4
  case filter =>
    intro q s
    dsimp only
    intro ha h0 h1 hres hle
    exact counterFilterSet_accepted ha h0 h1 hres hle
  case occ =>
    intro q s
    dsimp only
    intro ha h0 h2 h2' h4 h8
    refine (runCommand_checked ha ?_ : execOccThresholdSet q s = _)
    simp [h0, h2', h8]
    omega
  case host =>
    intro q s
    dsimp only
    intro ha h0 hlen h2 h1 h24 h24' hdie
    refine (runCommand_accepted ha : execTelemetryExportSet q s = _).trans ?_
    rw [if_pos h0]
    refine answered_checked ?_ _ _
    simp [hlen, h2, h1, h24', hdie]
    omega
  case set =>
    intro q s
    dsimp only
    intro ha h0 hx
    refine (runCommand_accepted ha : execTelemetryExportSet q s = _).trans ?_
    rw [if_neg (by omega)]
    refine answered_checked ?_ _ _
    simp [h0, hx]

end Sys2Proof.Machine
end

section
/-!
SUPPORT. A well-formed command that the part has no object for: the spare's ring of a pass-through pair.
-/
namespace Sys2Proof.Machine

/-- RING_HEADROOM of wavelength 8 on pair 128 names no ring: pairs 128 to 159 pass wavelengths 0 to 7 through and have no spare. -/
theorem ringHeadroom_spare_refused (s : State) : exec (.ringHeadroom 128 8 true 50) s = .refused (.noSuchObject "ring") := rfl

/-- Refutes O3: RING_HEADROOM of the spare's wavelength on a pass-through pair is well-formed, but its meaning refuses it. -/
theorem not_wellFormedCommandsComplete : ¬ Obligations.WellFormedCommandsComplete := by
  intro h
  obtain ⟨t, ht⟩ := h (.ringHeadroom 128 8 true 50) [] State.reset rfl
  have hstep : step { State.reset with pending := [.ringHeadroom 128 8 true 50] } = .refused (.noSuchObject "ring") :=
    ringHeadroom_spare_refused { State.reset with pending := [] }
  cases hstep.symm.trans ht

end Sys2Proof.Machine
end

section
/-!
SUPPORT. The resets (R48 to R52): what a reset of each source leaves.
-/
namespace Sys2Proof.Machine

theorem warmReset_running {b : Option Nat} {s : State} (hc : s.boot.cold = false) (hp : s.boot.phase ≠ 0) (hh : s.boot.held = false) :
    warmReset b s = warmState b s := by
  simp [warmReset, hc, hp, hh]

/-- Settles O34. -/
theorem resetEventsComplete : Obligations.ResetEventsComplete := by
  refine ⟨?powerOn, ?pin, ?pending, ?warm, ?pcie, ?rail, ?watchdog, ?watchdogs⟩
  case powerOn =>
    intro s
    exact ⟨_, rfl, rfl, rfl, rfl, rfl⟩
  case pin =>
    intro s hc hp hh
    exact congrArg _ (warmReset_running hc hp hh)
  case pending =>
    intro s hr
    change execWarmReset s = _
    rw [execWarmReset, if_pos hr]
  case warm =>
    intro s hr hc hp hh
    change execWarmReset s = _
    rw [execWarmReset, hr, warmReset_running hc hp hh]
    rfl
  case pcie =>
    intro s hc
    change ∃ d retry, execPcieReset s = _ ∧ _
    rw [execPcieReset, hc]
    have hlt : (draw 1000000001 s).1 ≤ second := Nat.lt_succ_iff.mp (Nat.mod_lt _ (by decide))
    exact ⟨_, s.ns + (draw 1000000001 s).1, rfl, by omega, by omega⟩
  case rail =>
    intro mv s
    dsimp only
    intro hlen hout
    change ∃ t, execRailOutOfRange mv s = _ ∧ _
    rw [execRailOutOfRange]
    dsimp only
    rw [if_neg (by omega), if_neg hout]
    refine ⟨_, rfl, rfl, rfl, rfl, fun hcell => ?_, fun h9 => ?_, rfl, rfl⟩
    · simp [coldState, resetState, hcell]
    · simp only [coldState, resetState, h9]
      split <;> simp [Porch.lose]
  case watchdog =>
    intro h s hh hheld hw
    change execHearthWatchdogExpired h s = _
    rw [execHearthWatchdogExpired, if_neg (by omega), hheld]
    simp [hw]
  case watchdogs =>
    intro h s hh hheld hw hc hp
    change execHearthWatchdogExpired h s = _
    rw [execHearthWatchdogExpired, if_neg (by omega), hheld]
    simp [hw, warmReset_running, hc, hp, hheld]
    rfl

end Sys2Proof.Machine
end

section
/-!
SUPPORT. Start-up (R53 to R62): each phase's end enters the next one, from its own phase alone.
-/
namespace Sys2Proof.Machine

/-- What the Porch hands over to the Hearth touches the Porch, the event log, the calendar and the Porch's two bits alone. -/
theorem porchHandover_frame (s : State) : ∃ porch ev time porchPending porchOnRc,
    porchHandover s = { s with porch, ev, time, boot := { s.boot with porchPending, porchOnRc } } := by
  have hpow : ∃ porch, (if s.porch.powered then s else modPorch (fun p => { p with powered := true, stateLost := true }) s) =
      { s with porch } := by
    split
    · exact ⟨_, rfl⟩
    · exact ⟨_, rfl⟩
  obtain ⟨porch, h1⟩ := hpow
  have hxtal : ∃ porch' ev, (if porch.xtalFailed then raise 0x0107 0 3 0 0 0 (modPorch (fun p => { p with xtalFailed := false })
      { s with porch }) else { s with porch }) = { s with porch := porch', ev } := by
    split
    · obtain ⟨ev, h⟩ := raise_frame 0x0107 0 3 0 0 0 (modPorch (fun p => { p with xtalFailed := false }) { s with porch })
      exact ⟨_, ev, h⟩
    · exact ⟨_, _, rfl⟩
  obtain ⟨porch', ev, h2⟩ := hxtal
  rw [porchHandover, h1]
  dsimp only
  rw [h2]
  split
  · exact ⟨_, _, _, _, _, rfl⟩
  · exact ⟨_, _, _, _, _, rfl⟩

/-- The endpoint answers retries for at most a second after P1 begins (R51). -/
theorem draw_le_second (s : State) : (draw 1000000001 s).1 ≤ second := Nat.lt_succ_iff.mp (Nat.mod_lt _ (by decide))

/-- Settles O36. -/
theorem startupEventsComplete : Obligations.StartupEventsComplete := by
  refine ⟨?p0, ?heartbeat, ?noDevice, ?image, ?discovered, ?notFound, ?p3, ?p3Halt, ?p3Spares, ?p4, ?p4None, ?p5Empty, ?p5, ?p6, ?freeRun,
    ?standby, ?trngRun, ?trngAgain⟩
  case p0 =>
    intro pcieRef s h0 hheld hlost
    obtain ⟨porch, ev, time, pend, rc, hframe⟩ := porchHandover_frame s
    change ∃ t, execP0Complete pcieRef s = _ ∧ _
    rw [execP0Complete, if_neg (by simp [h0, hheld, hlost]), hframe]
    refine ⟨_, rfl, rfl, rfl, rfl, rfl, rfl, Nat.le_add_right _ _, Nat.add_le_add_left (draw_le_second _) _, rfl⟩
  case heartbeat =>
    intro pcieRef s h1 hheld hlead hrec hdie
    have hframe : ∃ porch ev time pend rc, (if s.boot.phase = 0 then porchHandover s else s) =
        { s with porch, ev, time, boot := { s.boot with porchPending := pend, porchOnRc := rc } } := by
      split
      · exact porchHandover_frame s
      · exact ⟨_, _, _, _, _, rfl⟩
    obtain ⟨porch, ev, time, pend, rc, hframe⟩ := hframe
    change ∃ t, execHeartbeatTimeout pcieRef s = _ ∧ _
    rw [execHeartbeatTimeout, if_neg (by simp [hheld, hlead, hrec, hdie]; omega), hframe]
    exact ⟨_, rfl, rfl, rfl, rfl, rfl, rfl, rfl⟩
  case noDevice =>
    intro m n copies bad s
    dsimp only
    intro h1 ha hb
    change execP1ImageChecked [m, n] copies bad s = _
    simp [execP1ImageChecked, h1, ha, hb]
  case image =>
    intro m n copies bad s source img rest
    dsimp only
    intro h1 hab htries
    change execP1ImageChecked [m, n] copies bad s = _
    have hab' : ¬((judgeMount m).state = 0 ∧ (judgeMount n).state = 0) := by omega
    simp only [execP1ImageChecked, List.map_cons, List.map_nil, htries]
    simp [h1, hab']
    rfl
  case discovered =>
    intro dies untrained miswired s hlen h2 hdone
    dsimp only
    intro hw
    change execDiscoveryDone dies untrained miswired s = _
    rw [execDiscoveryDone, if_neg (by omega), if_neg (by simp [h2, hdone])]
    dsimp only
    rw [hw]
    rfl
  case notFound =>
    intro dies untrained miswired code first s hlen h2 hdone
    dsimp only
    intro hw
    change execDiscoveryDone dies untrained miswired s = _
    rw [execDiscoveryDone, if_neg (by omega), if_neg (by simp [h2, hdone])]
    dsimp only
    rw [hw]
    rfl
  case p3 =>
    intro rows chunks s h3 hspare
    change execP3Complete 0 rows chunks s = _
    simp [execP3Complete, h3, hspare]
  case p3Halt =>
    intro rows chunks halt s h3 hhalt
    change execP3Complete halt rows chunks s = _
    obtain rfl | rfl := hhalt <;> simp [execP3Complete, h3]
  case p3Spares =>
    intro rows chunks s h3 hspare
    change execP3Complete 0 rows chunks s = _
    simp [execP3Complete, h3, hspare]
  case p4 =>
    intro s h4 hall hsome
    change execP4Complete s = _
    obtain ⟨w, hw, hin⟩ := hsome
    rw [execP4Complete, if_neg ?settled, if_neg ?one]
    case settled =>
      simp [h4]
      exact fun w hw hout => (hall w hw).resolve_left (by simp [hout])
    case one =>
      simp
      exact ⟨w, hw, hin⟩
  case p4None =>
    intro s h4 hall
    change execP4Complete s = _
    rw [execP4Complete, if_neg ?settled, if_pos ?none]
    case settled =>
      simp [h4]
      exact fun w hw _ => (hall w hw).2
    case none =>
      simp
      exact fun w hw => (hall w hw).1
  case p5Empty =>
    intro obs bad s h5 hempty
    change execP5Complete obs bad s = _
    rw [execP5Complete, if_neg (by simp [h5])]
    dsimp only
    rw [if_pos (by simpa using hempty)]
  case p5 =>
    intro obs bad s n h5 hempty hfield hsnap
    dsimp only
    intro hrej
    change execP5Complete obs bad s = _
    rw [execP5Complete, if_neg (by simp [h5])]
    dsimp only
    rw [if_neg (by simp [hempty, hfield]), hsnap]
    dsimp only
    rw [hrej]
  case p6 =>
    intro s h6 hlock
    change execP6Complete s = _
    simp [execP6Complete, h6, hlock]
  case freeRun =>
    intro s h6 hfree hmaster
    change execMantelFreeRun s = _
    simp [execMantelFreeRun, h6, hfree, hmaster]
  case standby =>
    intro s h3 hheld hlost hready hhand hdie hstep
    change execHearthBStandbyReady s = _
    rw [execHearthBStandbyReady, if_neg ?ready]
    case ready =>
      simp [hheld, hlost, hready, hhand, hdie]
      exact ⟨h3, by simpa using hstep⟩
  case trngRun =>
    intro standby pass s h1
    change execTrngRunEnd standby pass s = _
    rw [execTrngRunEnd, Trng.runEnd, if_neg (by omega)]
  case trngAgain =>
    intro standby s h2
    change execTrngRetest standby s = _
    rw [execTrngRetest, if_neg (by omega), Trng.retest, if_neg (by omega)]

end Sys2Proof.Machine
end

section
/-!
SUPPORT. The Seam and the Sill (R14 to R26): the pick of a flit slot, what one transmitter's change leaves of the other links, and each
event's next state.
-/
namespace Sys2Proof.Machine

theorem seamAt_modSeam (k k' : Nat) (g : SeamLink → SeamLink) (s : State) :
    seamAt (modSeam k g s) k' = if k = k' then g (seamAt s k) else seamAt s k' := by
  unfold seamAt modSeam
  dsimp only
  rw [tget_tset]
  split
  · next h => subst h; rfl
  · rfl

theorem linkChannels_lt {k c : Nat} (h : c ∈ linkChannels k) : c < 5 := by
  unfold linkChannels at h
  repeat' split at h
  all_goals simp at h; omega

/-- Every channel is offered each slot (R18). -/
theorem mem_slotOrder {c : Nat} (h : c < 5) (slot : Nat) : c ∈ slotOrder slot := by
  simp [slotOrder]
  omega

/-- A link with one lane group of a direction changed. -/
def SeamLink.setGroup (x : SeamLink) (high : Bool) (group : Nat) (g : SeamGroup) : SeamLink :=
  if high then { x with high := x.high.set group g } else { x with low := x.low.set group g }

theorem dir_setGroup {x : SeamLink} {high : Bool} {group : Nat} (h : group < (x.dir high).length) (g d : SeamGroup) :
    ((x.setGroup high group g).dir high).getD group d = g := by
  cases high <;> simp [SeamLink.setGroup, SeamLink.dir] at h ⊢ <;> simp [h]

theorem twoDegraded_frame (s : State) (a b : Nat) : ∃ boot, degradeDie (degradeDie s a) b = { s with boot } := by
  obtain ⟨x, hx⟩ := degradeDie_frame s a
  obtain ⟨y, hy⟩ := degradeDie_frame { s with boot := x } b
  exact ⟨y, by rw [hx, hy]⟩

/-- An event and its fault record touch the event log and the fault list alone. -/
theorem raiseRecord_frame (code die sev a b c cls st d object : Nat) (s : State) : ∃ ev darn,
    recordFault cls st d object (raise code die sev a b c s) = { s with ev, darn } := by
  obtain ⟨ev, hev⟩ := raise_frame code die sev a b c s
  obtain ⟨darn, hdarn⟩ := recordFault_frame cls st d object { s with ev }
  exact ⟨ev, darn, by rw [hev, hdarn]⟩

theorem seamAt_congr {s t : State} (h : s.seam = t.seam) (k : Nat) : seamAt s k = seamAt t k := by
  simp only [seamAt, h]

/-- A lane group with one spare fewer. -/
def SeamGroup.lessSpare (g : SeamGroup) : SeamGroup := { g with spares := g.spares - 1 }

/-- A link with a spare of one lane group used, and its dies, the events and the faults as they then are. -/
def seamSpared (link : Nat) (high : Bool) (group : Nat) (boot : Boot) (ev : EventLog) (darn : Darn) (s : State) : State :=
  { modSeam link (fun x => x.setGroup high group (((seamAt s link).dir high).getD group { spares := 0 }).lessSpare) s with boot, ev, darn }

theorem seamSpared_seam (link : Nat) (high : Bool) (group : Nat) (boot : Boot) (ev : EventLog) (darn : Darn) (s : State) :
    (seamSpared link high group boot ev darn s).seam = (modSeam link (fun x => x.setGroup high group
      (((seamAt s link).dir high).getD group { spares := 0 }).lessSpare) s).seam := rfl

/-- While its group has a spare, a failed lane uses it (R21). -/
theorem failLane_spare {link : Nat} {high : Bool} {group lane : Nat} {s : State}
    (h : 0 < (((seamAt s link).dir high).getD group { spares := 0 }).spares) : ∃ boot ev darn,
    failLane link high group lane s = advertise (seamSpared link high group boot ev darn s) := by
  obtain ⟨boot, hboot⟩ := twoDegraded_frame s (linkEnds link).1 (linkEnds link).2
  rw [failLane]
  dsimp only
  rw [if_pos h, hboot]
  obtain ⟨ev, darn, hrec⟩ := raiseRecord_frame 0x0110 (linkEnds link).1 2 link (b2n high * 65536 + group * 256 + lane)
    ((((seamAt s link).dir high).getD group { spares := 0 }).spares - 1) 5 1 (linkEnds link).1 (seamObject link high group lane)
    (modSeam link (fun x => x.setGroup high group (((seamAt s link).dir high).getD group { spares := 0 }).lessSpare) { s with boot })
  exact ⟨boot, ev, darn, congrArg advertise hrec⟩

/-- Settles O38. -/
theorem seamEventsComplete : Obligations.SeamEventsComplete := by
  refine ⟨?pick, ?none, ?flit, ?idle, ?replay, ?spare, ?cell⟩
  case pick =>
    intro w k ready c h
    have hc := List.find?_some h
    simpa [and_assoc] using hc
  case none =>
    intro w k ready c h hc hready hcredit
    have hno := List.find?_eq_none.mp h c (mem_slotOrder (linkChannels_lt hc) w.slot)
    simpa [hc, hready, hcredit] using hno
  case flit =>
    intro link high ready returns ok flit w s hlink hlanes hsend
    refine (guard_next (by simpa using hlink) _ _ : execSeamFlitReceived link high ready returns ok s = _).trans ?_
    rw [if_neg hlanes, hsend]
    cases ok <;> rfl
  case idle =>
    intro link high ready returns ok w s hlink hlanes hsend
    refine (guard_next (by simpa using hlink) _ _ : execSeamFlitReceived link high ready returns ok s = _).trans ?_
    rw [if_neg hlanes, hsend]
  case replay =>
    intro link high ok failing s hlink hwait
    dsimp only
    change execSeamReplay link high ok failing s = _
    rw [execSeamReplay]
    dsimp only
    rw [if_neg (by omega), if_neg hwait]
  case spare =>
    intro link high group lane s hlink hgroup hlane hlen hspare
    have hok : isLane link group lane = true := by simp [isLane, hlink, hgroup, hlane]
    obtain ⟨boot, ev, darn, hfail⟩ := failLane_spare (lane := lane) hspare
    refine ⟨_, ((if_neg (by simp [hok])).trans (congrArg Host.Outcome.next hfail) : execSeamLaneFailed link high group lane s = _),
      ?_, fun k hk => ?_, rfl⟩
    · rw [seamAt_congr (seamSpared_seam ..), seamAt_modSeam, if_pos rfl]
      exact dir_setGroup (x := seamAt s link) hlen _ _
    · rw [seamAt_congr (seamSpared_seam ..), seamAt_modSeam, if_neg (Ne.symm hk)]
  case cell =>
    intro w toHall ok wire s hw hwire hstart
    have hin : (decide (w < 8) && wire.all (· < 2560)) = true := by
      cases wire with
      | none => simp [hw]
      | some n => simp [hw, hwire n rfl]
    refine (guard_next hin _ _ : execSillCellReceived w toHall ok wire s = _).trans ?_
    have hbelow : ¬(tget s.sill w {}).start + 1000000 ≤ s.ns := by omega
    simp [hbelow]

end Sys2Proof.Machine
end

section
/-!
SUPPORT. BAR0 (Tables 3.3 and 23.5, R83): a whole-register write acts on the register of its region.
-/
namespace Sys2Proof.Machine

theorem isMsix_above {off : Nat} (h : 0x10000 ≤ off) : isMsix off = false := by
  simp [isMsix]
  omega

/-- What a write of region `r` (1 to 6) does to the register at `o` within it. -/
def regionWrite (r o v : Nat) (s : State) : Answer :=
  match r with
  | 1 => .next (writeMailbox o v s)
  | 2 => if o = 0 then writeTceCtrl v s else .next (writeTce o v s)
  | 3 => .next (writeTime o v s)
  | 4 => .next (writeCtr o v s)
  | 5 => .next (writeEvent o v s)
  | 6 => .next (if o = 4 then modBoot (fun b => { b with cause := stickyCause v b.cause }) s else s)
  | _ => .next s

/-- A whole-register write that acts is counted and does what its region gives it. -/
theorem registerWrite_taken {r o v : Nat} {s : State} (h1 : 1 ≤ r) (h6 : r ≤ 6) (ho : o < 65536) (hmod : o % 4 = 0)
    (ht : bar0Takes s (65536 * r + o) = true) (htce : ¬(65536 * r + o = 0x20000 ∧ bit (v % 2 ^ 32) 31 = true)) :
    exec (.bar0RegisterWrite (65536 * r + o) v) s = regionWrite r o (v % 2 ^ 32) (countBar0 1 (65536 * r + o) s) := by
  have hregion : (65536 * r + o) / 65536 = r := by omega
  have hoff : (65536 * r + o) % 65536 = o := by omega
  change execBar0RegisterWrite (65536 * r + o) v s = _
  rw [execBar0RegisterWrite, if_neg (by simp; omega), if_neg (by rw [isMsix_above (by omega)]; decide), if_neg (by simpa using htce), bar0Write_taken ht]
  rw [hregion, hoff]
  rfl

/-- Settles O39. -/
theorem registerEventsComplete : Obligations.RegisterEventsComplete := by
  refine ⟨?mailbox, ?tce, ?tceCtrl, ?time, ?counters, ?events, ?cause, ?msix, ?part, ?partRead⟩
  case mailbox => exact fun o v s ho hmod ht => registerWrite_taken (r := 1) (by decide) (by decide) ho hmod ht (by omega)
  case tce =>
    intro o v s h4 ho hmod ht
    refine (registerWrite_taken (r := 2) (by decide) (by decide) ho hmod ht (by omega)).trans ?_
    simp only [regionWrite]
    rw [if_neg (by omega)]
  case tceCtrl =>
    intro v s hv ht
    have hv' : v % 2 ^ 32 = v := by omega
    have hbit : bit v 31 = false := Nat.testBit_lt_two_pow hv
    refine (registerWrite_taken (r := 2) (o := 0) (by decide) (by decide) (by decide) rfl ht (by rw [hv', hbit]; simp)).trans ?_
    rw [hv']
    rfl
  case time => exact fun o v s ho hmod ht => registerWrite_taken (r := 3) (by decide) (by decide) ho hmod ht (by omega)
  case counters => exact fun o v s ho hmod ht => registerWrite_taken (r := 4) (by decide) (by decide) ho hmod ht (by omega)
  case events => exact fun o v s ho hmod ht => registerWrite_taken (r := 5) (by decide) (by decide) ho hmod ht (by omega)
  case cause => exact fun v s ht => registerWrite_taken (r := 6) (o := 4) (by decide) (by decide) (by decide) rfl ht (by omega)
  case msix =>
    intro off v s h1 h2 hmod hend
    have hm : isMsix off = true := by simp [isMsix, h1, h2]
    change execBar0RegisterWrite off v s = _
    rw [execBar0RegisterWrite, if_neg (by simp; omega), if_pos hm, if_pos (by simp [hend]; omega)]
  case part =>
    intro off be s hoff hbe hm hend ht
    change execBar0SubwordAccess true off be s = _
    rw [execBar0SubwordAccess]
    dsimp only
    rw [if_neg (by simp; omega), if_neg (by simp [hend]), if_pos rfl, if_neg (by simp [hm]), bar0Write_taken ht]
  case partRead =>
    intro off be s hoff hbe hend ht
    change execBar0SubwordAccess false off be s = _
    rw [execBar0SubwordAccess]
    dsimp only
    rw [if_neg (by simp; omega), if_neg (by simp [hend]), if_neg (by decide), if_pos (by simp [ht]), if_pos ht]

end Sys2Proof.Machine
end

section
/-! SUPPORT. The mailbox's ring events (O40): each is counted as a BAR0 write, or leaves the mailbox's gate, and then acts. -/
namespace Sys2Proof.Machine

/-- Settles O40 (Table 3.7, R83 to R86). -/
theorem mailboxEventsComplete : Obligations.MailboxEventsComplete := by
  refine ⟨?within, ?above, ?replyHead, 
    fun v s h => (bar0Write_taken h _ : execMailboxEnable v s = _), fun s h => (bar0Write_taken h _ : execResetRings s = _), ?fetch,
    ?segment, ?failed⟩
  case within =>
    intro tail s ht hsize
    change execDoorbell tail s = _
    obtain ⟨c, hc⟩ := countBar0_frame 1 0x10018 s
    rw [execDoorbell, bar0Write_taken ht, hc]
    simp [testIndices, modMbx, Nat.not_lt.mpr hsize]
  case above =>
    intro tail s ht hsize
    change execDoorbell tail s = _
    obtain ⟨c, hc⟩ := countBar0_frame 1 0x10018 s
    rw [execDoorbell, bar0Write_taken ht, hc]
    simp [testIndices, modMbx, hsize]
  case replyHead =>
    intro head s ht hsize
    change execRplIdxHeadWrite head s = _
    obtain ⟨c, hc⟩ := countBar0_frame 1 0x1001C s
    rw [execRplIdxHeadWrite, bar0Write_taken ht, hc]
    simp [testIndices, modMbx, Nat.not_lt.mpr hsize]
  case fetch =>
    intro slot ok s hruns hring hroom
    change execRequestFetch slot ok s = _
    cases ok <;> simp [execRequestFetch, hruns, hring, Nat.not_le.mpr hroom, modMbx, emit]
  case segment =>
    intro r rest s hruns hfree hwait hmore
    change execReplySegmentWrite true s = _
    simp [execReplySegmentWrite, hruns, hfree, hwait, hmore, modMbx]
  case failed =>
    intro r rest s hruns hfree hwait
    change execReplySegmentWrite false s = _
    simp [execReplySegmentWrite, hruns, hfree, hwait]

end Sys2Proof.Machine
end

section
/-! SUPPORT. A port's receive side (O42): what the frame stream's reader hands on, and the answer for each found front. -/
namespace Sys2Proof.Machine

/-- The reader takes as many bytes as it was asked for, or runs short, or stops at a lost codeword or an abandoned frame. -/
theorem takeBytes_cases (need : Nat) (got : Bytes) (c : RxCodeword) (pos : Nat) (r : List RxCodeword) :
    (∃ b rest p, takeBytes need got c pos r = .bytes b rest p ∧ b.length = got.length + need) ∨
    takeBytes need got c pos r = .short ∨
    (∃ rest p, takeBytes need got c pos r = .stopped .lost rest p) ∨
    ∃ rest p, takeBytes need got c pos r = .stopped .aborted rest p := by
  induction r generalizing need got c pos with
  | nil =>
    by_cases h : need ≤ (c.stream.drop pos).length
    · exact .inl ⟨_, _, _, by rw [takeBytes, if_pos h], by simp at h ⊢; omega⟩
    · exact .inr (.inl (by rw [takeBytes, if_neg h]))
  | cons d r ih =>
    simp only [takeBytes]
    by_cases h : need ≤ (c.stream.drop pos).length
    · exact .inl ⟨_, _, _, if_pos h, by simp at h ⊢; omega⟩
    rw [if_neg h]
    cases d.good with
    | false => exact .inr (.inr (.inl ⟨_, _, rfl⟩))
    | true =>
      cases d.abrt with
      | true => cases d.begins <;> exact .inr (.inr (.inr ⟨_, _, rfl⟩))
      | false =>
        obtain ⟨b, rest, p, hb, hl⟩ | hb | hb | hb := ih (need - (c.stream.drop pos).length) (got ++ c.stream.drop pos) d 0
        · exact .inl ⟨b, rest, p, hb, by rw [hl, List.length_append]; omega⟩
        · exact .inr (.inl hb)
        · exact .inr (.inr (.inl hb))
        · exact .inr (.inr (.inr hb))

theorem linkAt_modLink (p : Nat) (g : Link → Link) (s : State) : linkAt (modLink p g s) p = g (linkAt s p) := by
  simp [linkAt, modLink, tget_tset]

/-- A frame the reader calls whole has a good header and a length of at most 4,096 bytes, all of them read. -/
theorem readFrame_frame {c : RxCodeword} {pos : Nat} {r : List RxCodeword} {lseq : Nat} {rtx : Bool} {f : Frame}
    {rest : List RxCodeword} {p : Option Nat} (h : readFrame c pos r = (.frame lseq rtx f, rest, p)) :
    f.hcrc = headerCrc f ∧ f.length ≤ 4096 ∧ f.payload.length = f.length := by
  rw [readFrame] at h
  obtain ⟨b, _, _, hb, -⟩ | hb | ⟨_, _, hb⟩ | ⟨_, _, hb⟩ := takeBytes_cases 36 [] c pos r <;> rw [hb] at h
  case inr.inl =>
    obtain ⟨q, _, _, hq, -⟩ | hq | ⟨_, _, hq⟩ | ⟨_, _, hq⟩ := takeBytes_cases 4 [] c pos r <;> simp only [hq] at h
    · split at h <;> cases h
    all_goals cases h
  case inr.inr.inl => cases h
  case inr.inr.inr => cases h
  case inl =>
    dsimp only at h
    split at h
    · cases h
    split at h
    · cases h
    split at h
    · cases h
    next hcrc hlen =>
    obtain ⟨q, _, _, hq, hql⟩ | hq | ⟨_, _, hq⟩ | ⟨_, _, hq⟩ :=
      takeBytes_cases (40 + ceilDiv (headerOf (b.drop 4)).length 4 * 4) [] c pos r <;> simp only [hq] at h
    · cases h
      refine ⟨Classical.not_not.mp hcrc, Nat.not_lt.mp hlen, ?_⟩
      have hbody : (headerOf (b.drop 4)).length ≤ ceilDiv (headerOf (b.drop 4)).length 4 * 4 := by
        rw [ceilDiv]; omega
      rw [List.length_take, List.length_drop, hql, List.length_nil]
      dsimp only
      omega
    all_goals cases h

/-- In an active port the front of the frame stream is taken off and judged. -/
theorem frameReceived_judged {p : Nat} {s : State} (parity : ParityObs) (hp : isPort p = true)
    (ha : (linkAt s p).state = .active) {found : Found} (hf : (frontOf (linkAt s p).rx).1 = found) :
    exec (.frameReceived p parity) s = .next (judgeFound p found parity (modLink p (fun l =>
      { l with rx := { l.rx with codewords := (frontOf (linkAt s p).rx).2.1, pos := (frontOf (linkAt s p).rx).2.2 } }) s)) := by
  change execFrameReceived p parity s = _
  subst hf
  rw [execFrameReceived, if_neg (by simp [hp]), if_neg (by simp [ha])]

/-- Settles O42 (R111, in the order of its checks). -/
theorem receiveEventsComplete : Obligations.ReceiveEventsComplete := by
  refine ⟨fun c pos r lseq rtx f rest p h => readFrame_frame h, fun p parity s hp ha => ?_⟩
  have judged {found : Found} := frameReceived_judged parity hp ha (found := found)
  refine ⟨judged, judged, judged, judged, judged, judged, ?_, ?_⟩
  · intro lseq rtx f hf hcrc
    rw [judged hf, judgeFound, if_pos hcrc]
  · intro lseq rtx f hf hcrc
    rw [judged hf, judgeFound, if_neg (Classical.not_not.mpr hcrc), judgeSeq, linkAt_modLink]

end Sys2Proof.Machine
end

section
/-! SUPPORT. The link's events (O43): codewords, link words, training and its timers, and the transmitter. -/
namespace Sys2Proof.Machine

/-- A codeword's counters leave the port's state and training as they were. -/
theorem countCodeword_link (p : Nat) (c : Option Nat) (s : State) :
    (linkAt (countCodeword p c s) p).state = (linkAt s p).state ∧
    (linkAt (countCodeword p c s) p).locked = (linkAt s p).locked := by
  have counted (i n : Nat) (s : State) : linkAt (countPort p i n s) p = linkAt s p := by simp [linkAt, countPort]
  cases c <;> simp [countCodeword, counted, linkAt_modLink]

theorem isTraining_congr {s t : State} {p : Nat} (h : (linkAt t p).state = (linkAt s p).state) :
    isTraining t p = isTraining s p := by simp only [isTraining, h]

/-- Settles O43 (R98 to R130; log 25 for the order of the messages). -/
theorem linkEventsComplete : Obligations.LinkEventsComplete := by
  refine ⟨?codewords, ?train, ?word, ?replay, ?lock, ?message, ?attempt, ?retry, ?resend, ?send, ?idle, ?fec⟩
  case codewords =>
    intro p lane levels s hp hl hm c a b u
    have hu : (linkAt u p).state = (linkAt s p).state ∧ (linkAt u p).locked = (linkAt s p).locked := by
      obtain ⟨h1, h2⟩ := countCodeword_link p (b.map (·.1)) (countCodeword p (a.map (·.1)) s)
      obtain ⟨h3, h4⟩ := countCodeword_link p (a.map (·.1)) s
      exact ⟨h1.trans h3, h2.trans h4⟩
    have run : exec (.codewordPairDecoded p lane levels) s = execCodewordPairDecoded p lane levels s := rfl
    rw [execCodewordPairDecoded, if_neg (by simp [hp]; omega), if_neg (by simp [hm])] at run
    refine ⟨fun ha => ?_, fun ht hlock => ?_, fun ha ht => ?_⟩
    · exact run.trans (if_pos (hu.1.trans ha))
    · have hna : (linkAt u p).state ≠ .active := by
        rw [hu.1]; intro ha; simp [isTraining, ha] at ht
      refine run.trans ((if_neg hna).trans (if_pos ?_))
      rw [isTraining_congr hu.1, ht, hu.2, hlock]; rfl
    · refine run.trans ((if_neg (by rw [hu.1]; exact ha)).trans (if_neg ?_))
      rw [isTraining_congr hu.1, hu.2]
      rcases ht with h | h <;> simp [h]
  case train =>
    intro p lw r s hp ha hw ht
    change execLinkWordReceived p s = _
    simp [execLinkWordReceived, hp, ha, hw, applyWord, ht]
  case word =>
    intro p lw r s hp ha hw ht hn
    refine ⟨_, ?_, rfl⟩
    change execLinkWordReceived p s = _
    simp [execLinkWordReceived, hp, ha, hw, applyWord, ht, hn]
  case replay =>
    intro p s hp ha hu
    exact (guard_next hp _ _ : execReplayTimeout p s = _).trans (by simp [ha, hu])
  case lock =>
    intro p s hp hs
    change execCodewordLock p s = _
    simp [execCodewordLock, hp, hs]
  case message =>
    intro p lane msg r s hp hr hcrc hv hlock ht a b
    have hla : linkAt a p = { linkAt s p with rx := { (linkAt s p).rx with train := r } } := linkAt_modLink ..
    have hta : isTraining a p = true := (isTraining_congr (by rw [hla])).trans ht
    have run : exec (.trainingMessageReceived p) s = execTrainingMessageReceived p s := rfl
    rw [execTrainingMessageReceived, if_neg (by simp [hp]), hr] at run
    dsimp only at run
    rw [if_neg (by rw [hta]; simp [linkAt_modLink, hcrc, hv, hlock])] at run
    refine ⟨fun hk hg hn => ?_, fun hk hg hn => ?_, fun hk hg => ?_, fun hk hi => ?_, fun hk hi hn => ?_,
      fun m hk hi hm hsa => ?_⟩
    · rw [run, if_pos hk]
      refine (if_neg (Classical.not_not.mpr hg)).trans (congrArg Host.Outcome.next (if_neg ?_))
      simp [linkAt_modLink, hn]
    · rw [run, if_pos hk]
      refine (if_neg (Classical.not_not.mpr hg)).trans (congrArg Host.Outcome.next (if_pos ?_))
      simp [linkAt_modLink, hn]
    · rw [run, if_pos hk]
      exact if_pos hg
    · rw [run, if_neg (by omega), if_neg (by simpa using hi), hk]; rfl
    · rw [run, if_neg (by omega), if_neg (by simpa using hi), hk]
      exact congrArg Host.Outcome.next (if_neg (by rw [linkAt_modLink]; exact Nat.not_le.mpr hn))
    · rw [run, if_neg (by omega), if_neg (by simpa using hi), hk]
      simp only [linkAt_modLink, hm, hsa, if_true]
      rfl
  case attempt =>
    intro p s hp ht
    change execTrainingAttemptTimeout p s = _
    simp [execTrainingAttemptTimeout, hp, ht]
  case retry =>
    intro p s hp hr
    exact (guard_next hp _ _ : execTrainingRetry p s = _).trans (by rw [if_pos hr])
  case resend =>
    intro p err s n hp ha hb a hn
    change execFrameTransmit p err s = _
    rw [execFrameTransmit, if_neg (by simp [hp]), if_neg (by simp [ha, hb])]
    dsimp only
    rw [hn]
  case send =>
    intro p s v x hp ha hb a hn hv hx hf
    change execFrameTransmit p .none s = _
    rw [execFrameTransmit, if_neg (by simp [hp]), if_neg (by simp [ha, hb])]
    dsimp only
    rw [hn]
    simp [a] at hv hx hf
    simp [hv, hx, hf, lostHeader, a]
  case idle =>
    intro p err s hp ha hb a hn hv
    change execFrameTransmit p err s = _
    rw [execFrameTransmit, if_neg (by simp [hp]), if_neg (by simp [ha, hb])]
    dsimp only
    rw [hn]
    simp [a] at hv
    simp [hv, a]
  case fec =>
    intro p s hp h
    exact (guard_next hp _ _ : execLinkFecHigh p s = _).trans (by rw [if_neg (by simpa using h)]; simp [Nat.not_lt.mpr h])

end Sys2Proof.Machine
end

section
/-! SUPPORT. Lanes and their spares (O44): frames of the light's and a fibre's changes, and each lane event's next state. -/
namespace Sys2Proof.Machine

theorem fibreAt_modFibre (n m : Nat) (g : Fibre → Fibre) (s : State) :
    fibreAt (modFibre n g s) m = if n = m then g (fibreAt s n) else fibreAt s m := tget_tset ..

theorem portAt_modPort (p q : Nat) (g : PhyPort → PhyPort) (s : State) :
    portAt (modPort p g s) q = if p = q then g (portAt s p) else portAt s q := tget_tset ..

theorem fibreAt_modLambda (n l : Nat) (g : Lambda → Lambda) (s : State) : fibreAt (modLambda n l g s) n =
    { fibreAt s n with lambdas := (fibreAt s n).lambdas.set l (g ((fibreAt s n).lambdas.getD l {})) } := by
  rw [modLambda, fibreAt_modFibre, if_pos rfl]

theorem modLight_frame (w : Nat) (g : Light → Light) (s : State) : ∃ light, modLight w g s = { s with light } := ⟨_, rfl⟩

/-- Fluctuating equaliser taps only draw. -/
theorem stepEqualiser_onlyDraws (e : Equaliser) (s : State) : OnlyDraws s (stepEqualiser e s).2 := by
  have stepped (v : Int) (s : State) : OnlyDraws s (stepInt v s).2 := draw_onlyDraws 3 s
  have taps (ffe : List Int) (a : List Int × State) : OnlyDraws a.2 (ffe.foldl (fun (a : List Int × State) v =>
      let d := stepInt v a.2
      (a.1 ++ [d.1], d.2)) a).2 := by
    induction ffe generalizing a with
    | nil => exact .refl _
    | cons v ffe ih => exact (stepped v a.2).trans (ih _)
  exact ((stepped e.ctle s).trans (taps e.ffe ([], (stepInt e.ctle s).2))).trans (stepped e.dfe _)

/-- A wavelength with a fault of a class on one of its sides (R140). -/
def markFault (fclass : Nat) (tx : Bool) (now : Nat) (l : Lambda) : Lambda :=
  { l with txFault := l.txFault || tx, rxFault := l.rxFault || !tx, faultAt := now, lastFault := fclass
           txOk := l.txOk && !(tx && decide (fclass < 5)), rxOk := l.rxOk && !(!tx && decide (fclass < 5))
           txLock := l.txLock && !(decide (fclass = 3) && tx), rxLock := l.rxLock && !(decide (fclass = 3) && !tx) }

/-- What a lane's fault marks before the lanes themselves are treated: the first part of `laneFault`. -/
def laneMarked (pair lambda fclass : Nat) (tx : Bool) (s : State) : State :=
  let w := windowOf (8 * pair)
  let m := modLambda pair lambda (markFault fclass tx s.ns) s
  let m := if fclass = 1 then setLos w (if pair < 128 then 0 else 1, fibreIndex pair, lambda) true m else m
  if fclass = 3 then noteRingLost w lambda (raise 0x0520 (eicDie w) 3 w (fibreNo pair * 256 + lambda * 16 + b2n tx) 0 m) else m

theorem laneMarked_frame (pair lambda fclass : Nat) (tx : Bool) (s : State) :
    ∃ ev fibres light, laneMarked pair lambda fclass tx s = { s with ev, fibres, light } ∧ (fclass ≠ 3 → ev = s.ev) := by
  by_cases h3 : fclass = 3
  · obtain ⟨ev, hev⟩ := raise_frame 0x0520 (eicDie (windowOf (8 * pair))) 3 (windowOf (8 * pair))
      (fibreNo pair * 256 + lambda * 16 + b2n tx) 0 (modLambda pair lambda (markFault fclass tx s.ns) s)
    refine ⟨ev, (modLambda pair lambda (markFault fclass tx s.ns) s).fibres, (laneMarked pair lambda fclass tx s).light, ?_, absurd h3⟩
    simp only [laneMarked, if_pos h3, if_neg (show fclass ≠ 1 by omega), hev]
    rfl
  · by_cases h1 : fclass = 1
    · exact ⟨s.ev, _, _, by simp only [laneMarked, if_neg h3, if_pos h1]; rfl, fun _ => rfl⟩
    · exact ⟨s.ev, _, _, by simp only [laneMarked, if_neg h3, if_neg h1]; rfl, fun _ => rfl⟩

theorem laneFault_eq (pair lambda fclass : Nat) (tx missing : Bool) (s : State) : laneFault pair lambda fclass tx missing s =
    if (windowAt s (windowOf (8 * pair))).inService then faultLanes pair lambda fclass tx missing (laneMarked pair lambda fclass tx s)
    else laneMarked pair lambda fclass tx s := by
  have hw : windowAt (laneMarked pair lambda fclass tx s) (windowOf (8 * pair)) = windowAt s (windowOf (8 * pair)) := by
    obtain ⟨_, _, _, h, -⟩ := laneMarked_frame pair lambda fclass tx s
    rw [h]; rfl
  rw [← hw]
  rfl

/-- The fault is marked at its wavelength, and the spare is left alone. -/
theorem fibreAt_laneMarked (pair lambda fclass : Nat) (tx : Bool) (s : State) : fibreAt (laneMarked pair lambda fclass tx s) pair =
    { fibreAt s pair with
      lambdas := (fibreAt s pair).lambdas.set lambda (markFault fclass tx s.ns ((fibreAt s pair).lambdas.getD lambda {})) } := by
  rw [← fibreAt_modLambda, laneMarked]
  by_cases h1 : fclass = 1
  · simp [h1, setLos, modPoint, modLight, fibreAt]
  · by_cases h3 : fclass = 3 <;> simp [h1, h3, noteRingLost, modLight, fibreAt]

theorem modRoute_frame (i : Nat) (g : Route → Route) (s : State) : ∃ transom, modRoute i g s = { s with transom } := by
  rw [modRoute]
  cases tfind s.transom.routes i <;> exact ⟨_, rfl⟩

theorem getD_set_self {α : Type} {l : List α} {k : Nat} (h : k < l.length) (x d : α) : (l.set k x).getD k d = x := by
  simp [List.getD_eq_getElem?_getD, h]

/-- Settles O44 (R136 to R160; log 9). -/
theorem laneEventsComplete : Obligations.LaneEventsComplete := by
  refine ⟨?rx, ?tx, ?absent, ?identified, ?unmatched, ?select, ?parks, ?timeout, ?restored, ?locked, ?fabric, ?cold,
    ?headroom, ?ringLost, ?held, ?adapts, ?low⟩
  case rx =>
    intro pair k c level s hp hk hc hh
    obtain ⟨ev, fibres, light, hframe, hev⟩ := laneMarked_frame pair k c false s
    refine ⟨laneMarked pair k c false s, ?_, fun hlen => ?_, by rw [fibreAt_laneMarked], ?_⟩
    · change execLaneFault pair k c false level s = _
      rw [execLaneFault, if_neg (by simp only [Bool.or_eq_true, Bool.and_eq_true, decide_eq_true_eq]; omega),
        if_neg (by simp; omega), if_neg (by simp [hh]), laneFault_eq,
        decide_eq_false (by omega)]
      rfl
    · rw [fibreAt_laneMarked]
      dsimp only
      rw [getD_set_self (by omega)]
      rcases hc with rfl | rfl | rfl | rfl <;> simp [markFault]
    · rw [hev (by omega)] at hframe
      rw [hframe]
  case tx =>
    intro pair k c level s hp hk hc
    obtain ⟨ev, fibres, light, hframe, -⟩ := laneMarked_frame pair k c true s
    refine ⟨laneMarked pair k c true s, ?_, fun hlen => ?_, by rw [fibreAt_laneMarked], by rw [hframe]⟩
    · have hh : faultHolds s pair k c level = true := by rcases hc with rfl | rfl <;> rfl
      change execLaneFault pair k c true level s = _
      rw [execLaneFault, if_neg (by simp only [Bool.or_eq_true, Bool.and_eq_true, decide_eq_true_eq]; omega),
        if_neg (by simp; omega), if_neg (by simp [hh]), laneFault_eq]
    · rw [fibreAt_laneMarked]
      dsimp only
      rw [getD_set_self (by omega)]
      rcases hc with rfl | rfl <;> simp [markFault]
  case absent =>
    intro pair k c level s hp hk hc hh
    change execLaneFault pair k c false level s = _
    rw [execLaneFault, if_neg (by simp; omega), if_neg (by simp; omega), if_pos (by simp [hh])]
  case identified =>
    intro pair k s hp hk hs
    change execLambdaBridgeIdentified pair (some k) s = _
    rw [execLambdaBridgeIdentified, if_neg (by omega)]
    dsimp only
    rw [if_neg (by omega)]
    rcases hs with h | h <;> rw [h]
  case unmatched =>
    intro pair s hp hs
    change execLambdaBridgeIdentified pair none s = _
    simp [execLambdaBridgeIdentified, hs]
    omega
  case select =>
    intro pair k s hp hsel hs
    have run : execLambdaSpareSelect pair s = .next (recordFault 1 1 (eicDie (windowOf (portOfLane s pair k))) (8 * pair + k)
        (raise 0x0510 (eicDie (windowOf (portOfLane s pair k))) 2 (portOfLane s pair k) (fibreNo pair * 256 + k)
          (fibreAt s pair).swapClass (emit (.lane pair 8 3 k) (modFibre pair (fun x => { x with selected := true }) s)))) := by
      refine (guard_next (by simpa using hp) _ _ : execLambdaSpareSelect pair s = _).trans ?_
      rcases hs with h | h <;> rw [if_neg (by simp [hsel]), h]
    obtain ⟨ev, hev⟩ := raise_frame 0x0510 (eicDie (windowOf (portOfLane s pair k))) 2 (portOfLane s pair k) (fibreNo pair * 256 + k)
      (fibreAt s pair).swapClass (emit (.lane pair 8 3 k) (modFibre pair (fun x => { x with selected := true }) s))
    obtain ⟨darn, hdarn⟩ := recordFault_frame 1 1 (eicDie (windowOf (portOfLane s pair k))) (8 * pair + k)
      { emit (.lane pair 8 3 k) (modFibre pair (fun x => { x with selected := true }) s) with ev }
    rw [hev, hdarn] at run
    have hsel' : fibreAt (modFibre pair (fun x => { x with selected := true }) s) pair = { fibreAt s pair with selected := true } := by
      rw [fibreAt_modFibre, if_pos rfl]
    exact ⟨_, run, hsel', rfl⟩
  case parks =>
    intro pair k s hp hsel hs
    refine (guard_next (by simpa using hp) _ _ : execLambdaPark pair s = _).trans ?_
    rcases hs with h | h <;> simp [hsel, h]
  case timeout =>
    intro pair k s hp hsel hs
    refine (guard_next (by simpa using hp) _ _ : execSpareBridgeTimeout pair s = _).trans ?_
    rcases hs with ⟨h, ht⟩ | h
    · simp [hsel, h, Nat.not_lt.mpr ht]
    · simp [hsel, h]
  case restored =>
    intro pair k s hp hk hd
    change execPortLaneRestored pair k s = _
    rw [execPortLaneRestored, if_neg (by simp; omega)]
    exact if_pos (by simp [fibreAt_modLambda, hd])
  case locked =>
    intro pair k tx s hp hk hcold hd
    refine (guard_next (by simp; omega) _ _ : execRingLockAcquired pair k tx s = _).trans ?_
    rw [if_neg (by simp [hcold]), if_neg (by simp [hd]), if_neg (by simp; omega)]
  case fabric =>
    intro e k tx s he hk hcold hd
    have run : execRingLockAcquired (128 + e) k tx s = _ := guard_next (by simp; omega) _ _
    rw [if_neg (by simp [hcold]), if_neg (by simp [hd])] at run
    obtain ⟨transom, ht⟩ := modRoute_frame (8 * (128 + e - 128) + k)
      (fun r => { r with switch := true, matrix := true, add := true, holding := false }) s
    cases tx with
    | true =>
      rw [if_neg (by simp)] at run
      exact ⟨_, run, rfl, by simp⟩
    | false =>
      rw [if_pos (by simp [hk])] at run
      refine ⟨_, run, by rw [lockRoute, ht]; rfl, fun _ r hr => ?_⟩
      rw [Nat.add_sub_cancel_left, lockRoute, modRoute, hr]
      exact (tfind_tset ..).trans (if_pos rfl)
  case cold =>
    intro pair k tx s hp hk hcold
    exact (guard_next (by simp; omega) _ _ : execRingLockAcquired pair k tx s = _).trans (by rw [if_pos hcold])
  case headroom =>
    intro pair k tx pct s hp hk hpk hpct
    refine (guard_next (by simp; omega) _ _ : execRingHeadroom pair k tx pct s = _).trans ?_
    rw [if_neg (by simp; omega), if_neg (by omega)]
  case ringLost =>
    intro pair k s hp hk hlock
    obtain ⟨ev, hev⟩ := raiseLimited_frame 0x0521 ((pair * 16 + k) * 2 + b2n true) (60 * second) (fun _ s => raise 0x0521
      (eicDie (windowOf (8 * pair))) 3 (windowOf (8 * pair)) (fibreNo pair * 256 + k * 16 + b2n true) 0 s)
      (fun _ _ => raise_frame ..) (modLambda pair k (fun l => { l with txHead := 0 }) s)
    have run : execRingHeadroom pair k true 0 s = _ := guard_next (by simp; omega) _ _
    rw [if_pos (by simp only [if_true]; rw [hlock]; simp), if_pos (by decide)] at run
    exact ⟨_, run.trans (congrArg (fun t => Host.Outcome.next (laneFault pair k 3 true false t)) hev), rfl⟩
  case held =>
    intro p lane margin s hp hl hs
    refine (guard_next (by simp [hp, hl]) _ _ : execEqAdaptStep p lane margin s = _).trans ?_
    have hstays : ((portAt s p).eqFreeze || eqHeld s (p / 8) (p % 8 + lane) ||
        ((portAt s p).eq.getD lane {}).stepped.any fun t => s.ns < t + 10000000) = true := by
      rcases hs with h | h | ⟨t, ht, h⟩
      · rw [h]; rfl
      · rw [h, Bool.or_true]; rfl
      · rw [ht, Option.any_some, decide_eq_true h, Bool.or_true]
    rw [if_pos hstays]
  case adapts =>
    intro p lane margin s hp hl hf hh hs hlen
    obtain ⟨d, hd⟩ := stepEqualiser_onlyDraws ((portAt s p).eq.getD lane {}) s
    have run : execEqAdaptStep p lane margin s = _ := guard_next (by simp [hp, hl]) _ _
    rw [if_neg (by rw [hs]; simp [hf, hh]), hd] at run
    refine ⟨_, run, rfl, ?_⟩
    rw [portAt_modPort, if_pos rfl, portAt_modPort, if_pos rfl]
    refine ⟨rfl, ?_, ?_, fun i hi => ?_⟩ <;> dsimp only
    · rw [getD_set_self (hlen ▸ hl)]; rfl
    · rw [getD_set_self (hlen ▸ hl)]; exact Nat.min_le_left ..
    · rw [List.getD_eq_getElem?_getD, List.getElem?_set_ne hi.symm]; rfl
  case low =>
    intro p lane margin s hp hl
    exact (guard_next (by simp [hp, hl]) _ _ : execEqMarginLow p lane margin s = _)

end Sys2Proof.Machine
end

section
/-! SUPPORT. Laser modules and light (O45): what a wavelength's return, a frequency match and a monitor window leave, and each event's
next state. -/
namespace Sys2Proof.Machine

/-- A wavelength takes its light from a side (R158). -/
def lightTaken (w l side : Nat) (s : State) : State :=
  modLight w (fun x => { x with
    sel := x.sel.set l side, relight := if x.relight.contains l then x.relight else x.relight ++ [l] }) s

theorem lightAt_lightTaken (w l side : Nat) (s : State) : lightAt (lightTaken w l side s) w = { lightAt s w with
    sel := (lightAt s w).sel.set l side
    relight := if (lightAt s w).relight.contains l then (lightAt s w).relight else (lightAt s w).relight ++ [l] } := by
  rw [lightTaken, lightAt_modLight, if_pos rfl] <;> exact fun _ => rfl

/-- A wavelength is lost no more. -/
def lossCleared (w l : Nat) (s : State) : State := modLight w (fun x => { x with lost := x.lost - 2 ^ l }) s

theorem lightAt_lossCleared (w l : Nat) (s : State) :
    lightAt (lossCleared w l s) w = { lightAt s w with lost := (lightAt s w).lost - 2 ^ l } := by
  rw [lossCleared, lightAt_modLight, if_pos rfl] <;> exact fun _ => rfl

/-- Light that was lost and is found again (R158): the wavelength takes its side, and is lost no more. -/
theorem takeLight_lost {w l : Nat} (side : Nat) {s : State} (h : bit (lightAt s w).lost l = true) :
    ∃ ev light darn, takeLight w l side s = { s with ev, light, darn } ∧
      (lightAt (takeLight w l side s) w).lost = (lightAt s w).lost - 2 ^ l ∧
      (lightAt (takeLight w l side s) w).sel = (lightAt s w).sel.set l side ∧
      (lightAt (takeLight w l side s) w).points = (lightAt s w).points := by
  let a := lightTaken w l side s
  let b := lossCleared w l a
  have hla : lightAt a w = { lightAt s w with sel := (lightAt a w).sel, relight := (lightAt a w).relight } ∧
      (lightAt a w).sel = (lightAt s w).sel.set l side := by
    rw [show lightAt a w = _ from lightAt_lightTaken ..]
    exact ⟨rfl, rfl⟩
  have hlb : lightAt b w = { lightAt a w with lost := (lightAt a w).lost - 2 ^ l } := lightAt_lossCleared ..
  obtain ⟨ev, hev⟩ := raise_frame 0x0613 (eicDie w) 2 w (2 ^ l) (2 * w + side - 1)
    (clearFault 3 (eicDie w) (16 * (2 * w + 1) + l) (clearFault 3 (eicDie w) (16 * (2 * w) + l) b))
  have ht : takeLight w l side s = { b with ev, darn := (clearFault 3 (eicDie w) (16 * (2 * w + 1) + l)
      (clearFault 3 (eicDie w) (16 * (2 * w) + l) b)).darn } := by
    have found : bit (lightAt a w).lost l = true := by rw [hla.1]; exact h
    exact (if_pos found : takeLight w l side s = _).trans hev
  rw [ht]
  refine ⟨_, _, _, rfl, ?_, ?_, ?_⟩
  · change (lightAt b w).lost = _
    rw [hlb, hla.1]
  · change (lightAt b w).sel = _
    rw [hlb, hla.2]
  · change (lightAt b w).points = _
    rw [hlb, hla.1]

theorem pointAt_modPoint (w : Nat) (k : Nat × Nat × Nat) (g : MonitorPoint → MonitorPoint) (s : State) :
    pointAt (modPoint w k g s) w k = g (pointAt s w k) := by
  rw [pointAt, modPoint, lightAt_modLight, if_pos rfl]
  · exact (tget_tset ..).trans (if_pos rfl)
  all_goals exact fun _ => rfl

theorem reportLow_frame (w source index lambda : Nat) (old new : MonitorPoint) (s : State) :
    ∃ ev, reportLow w source index lambda old new s = { s with ev } := by
  have limited (code key period die sev a b : Nat) (c : State → Nat) (s : State) : ∃ ev, raiseLimited code key period
      (fun _ s => raise code die sev a b (c s) s) s = { s with ev } :=
    raiseLimited_frame _ _ _ _ (fun _ _ => raise_frame ..) s
  rw [reportLow]
  dsimp only
  split
  · exact ⟨s.ev, rfl⟩
  split
  · split
    · obtain ⟨ev, h⟩ := limited 0x0704 (32 * w + (8 * index + lambda)) (60 * second) (eicDie w) 3 w
        (powerWord new % 65536 * 65536 + (8 * index + lambda)) (fun s => pathId s (32 * w + (8 * index + lambda))) s
      rw [h]
      obtain ⟨ev', h'⟩ := limited 0x0631 (((w * 6 + source) * 16 + index) * 16 + lambda) (60 * second) (eicDie w) 2 w
        (source * 256 + index * 16 + lambda) (fun _ => powerWord new) { s with ev }
      exact ⟨ev', h'⟩
    · exact limited _ _ _ _ _ _ _ (fun _ => powerWord new) s
  · exact limited _ _ _ _ _ _ _ (fun _ => powerWord new) s

/-- Each side of a pair has its own module. -/
theorem partnerModule_ne {m : Nat} (hm : m < 16) : moduleOf (m / 2) (3 - sideOf m) ≠ m := by
  simp only [moduleOf, sideOf]; omega

/-- One laser's frequency match against its partner's (R152): the step that `execFrequencyMatch` repeats. -/
def matchLaser (m : Nat) (s : State) (l : Nat) : State :=
  let a := ((moduleAt s (moduleOf (m / 2) (3 - sideOf m))).lasers.getD l {}).offset
  let b := ((moduleAt s m).lasers.getD l {}).offset
  if a + 20 < b || b + 20 < a then
    let d := draw 41 s
    modLaser m l (fun x => { x with
      offset := ((moduleAt s (moduleOf (m / 2) (3 - sideOf m))).lasers.getD l {}).offset + (d.1 : Int) - 20 }) d.2
  else s

/-- The two modules' offsets of a laser lie within 20 of each other. -/
def OffsetsNear (m l : Nat) (s : State) : Prop :=
  let a := ((moduleAt s (moduleOf (m / 2) (3 - sideOf m))).lasers.getD l {}).offset
  let b := ((moduleAt s m).lasers.getD l {}).offset
  a - 20 ≤ b ∧ b ≤ a + 20

/-- What a frequency match keeps: all but draws and modules, the partner module, and the number of lasers. -/
def MatchKeeps (m : Nat) (s t : State) : Prop :=
  (∃ draws modules, t = { s with draws, modules }) ∧
  moduleAt t (moduleOf (m / 2) (3 - sideOf m)) = moduleAt s (moduleOf (m / 2) (3 - sideOf m)) ∧
  (moduleAt t m).lasers.length = (moduleAt s m).lasers.length

theorem matchLaser_keeps {m : Nat} (hm : m < 16) (l : Nat) (s : State) : MatchKeeps m s (matchLaser m s l) := by
  rw [matchLaser]
  dsimp only
  split
  · refine ⟨⟨_, _, rfl⟩, ?_, ?_⟩ <;> rw [modLaser, moduleAt_modModule]
    · rw [if_neg (partnerModule_ne hm).symm]; rfl
    · rw [if_pos rfl]; exact List.length_set ..
  · exact ⟨⟨_, _, rfl⟩, rfl, rfl⟩

theorem matchLaser_near {m l : Nat} (hm : m < 16) {s : State} (hl : l < (moduleAt s m).lasers.length) :
    OffsetsNear m l (matchLaser m s l) := by
  obtain ⟨-, hp, -⟩ := matchLaser_keeps hm l s
  rw [OffsetsNear, hp, matchLaser]
  dsimp only
  split
  · have hd : (draw 41 s).1 < 41 := Nat.mod_lt _ (by decide)
    have hs : (moduleAt (draw 41 s).2 m).lasers.length = (moduleAt s m).lasers.length := rfl
    rw [modLaser, moduleAt_modModule, if_pos rfl]
    dsimp only
    rw [List.getD_eq_getElem?_getD (l := List.set ..), List.getElem?_set_self (hs ▸ hl), Option.getD_some]
    dsimp only
    omega
  next h =>
    simp only [Bool.or_eq_true, decide_eq_true_eq, not_or] at h
    omega

theorem matchLaser_others {m l k : Nat} (h : k ≠ l) (s : State) :
    (moduleAt (matchLaser m s l) m).lasers.getD k {} = (moduleAt s m).lasers.getD k {} := by
  rw [matchLaser]
  dsimp only
  split
  · rw [modLaser, moduleAt_modModule, if_pos rfl]
    dsimp only
    rw [List.getD_eq_getElem?_getD, List.getElem?_set_ne h.symm]
    rfl
  · rfl

/-- Each laser of a list is matched once, and stays so. -/
theorem matchLasers {m : Nat} (hm : m < 16) {ls : List Nat} (hn : ls.Nodup) {s : State}
    (hl : ∀ l ∈ ls, l < (moduleAt s m).lasers.length) :
    MatchKeeps m s (ls.foldl (matchLaser m) s) ∧ (∀ l ∈ ls, OffsetsNear m l (ls.foldl (matchLaser m) s)) ∧
    ∀ k ∉ ls, (moduleAt (ls.foldl (matchLaser m) s) m).lasers.getD k {} = (moduleAt s m).lasers.getD k {} := by
  induction ls generalizing s with
  | nil => exact ⟨⟨⟨_, _, rfl⟩, rfl, rfl⟩, by simp, fun _ _ => rfl⟩
  | cons l ls ih =>
    obtain ⟨hlls, hn⟩ := List.nodup_cons.mp hn
    obtain ⟨hf, hp, hlen⟩ := matchLaser_keeps hm l s
    obtain ⟨⟨hf', hp', hlen'⟩, hnear, hothers⟩ := ih hn (s := matchLaser m s l)
      (fun k hk => by rw [hlen]; exact hl k (List.mem_cons_of_mem _ hk))
    rw [List.foldl_cons]
    refine ⟨⟨?_, hp'.trans hp, hlen'.trans hlen⟩, fun k hk => ?_, fun k hk => ?_⟩
    · obtain ⟨_, _, hf⟩ := hf
      obtain ⟨d, ms, hf'⟩ := hf'
      exact ⟨d, ms, by rw [hf', hf]⟩
    · rcases List.mem_cons.mp hk with rfl | hk
      · have h := matchLaser_near hm (hl k List.mem_cons_self)
        rw [OffsetsNear, hp', hothers k hlls]
        exact h
      · exact hnear k hk
    · obtain ⟨hkl, hk⟩ := not_or.mp (mt List.mem_cons.mpr hk)
      rw [hothers k hk, matchLaser_others hkl]

/-- Settles O45 (R148 to R170, Tables 6.2 to 6.12; log 44). -/
theorem lightEventsComplete : Obligations.LightEventsComplete := by
  refine ⟨fun m s h => (guard_next (by simpa using h) _ _ : execLaserModuleInserted m s = _), ?rejected, ?ready, ?removed, ?interrupt,
    ?read, ?readOne, fun m l s hm hl => (guard_next (by simp [hm, hl]) _ _ : execFeedLos m l s = _), ?restored, ?kept, ?odd, ?frequency,
    ?loop, ?window⟩
  case rejected =>
    intro m obs s hm h2 hph hwhy
    change execLaserModuleReady m obs s = _
    rw [execLaserModuleReady]
    dsimp only
    rw [if_neg (by omega), if_neg (by simp [h2]; omega), if_pos hwhy]
  case ready =>
    intro m obs s hm h2 hph hwhy hpartner
    refine ⟨(draw 81 s).1, (draw 81 s).2.draws, Nat.lt_succ_iff.mp (Nat.mod_lt _ (by decide)), ?_⟩
    change execLaserModuleReady m obs s = _
    rw [execLaserModuleReady]
    dsimp only
    rw [if_neg (by omega), if_neg (by simp [h2]; omega), if_neg (by simp [hwhy])]
    have hstill (g : LaserModule → LaserModule) (s' : State) (h : s'.modules = s.modules) :
        (moduleAt (raise 0x0601 (eicDie (m / 2)) 1 m (sideOf m) (b2n (decide (50 ≤ obs.tuning))) (modModule m g s'))
          (moduleOf (m / 2) (3 - sideOf m))).state = 0 := by
      have hraise (s : State) (code die sev a b c n : Nat) : moduleAt (raise code die sev a b c s) n = moduleAt s n := by simp [moduleAt]
      rw [hraise, moduleAt_modModule, if_neg (partnerModule_ne hm).symm, moduleAt, h]
      exact hpartner
    rw [if_pos (hstill _ (draw 81 s).2 rfl)]
    simp only [b2n, decide_eq_true_eq]
    rfl
  case removed =>
    intro m s hm h0
    change execLaserModuleRemoved m s = _
    rw [execLaserModuleRemoved]
    dsimp only
    rw [if_neg (by omega), if_neg h0]
  case interrupt =>
    intro m faulty s hm hf
    refine (guard_next (by simpa using hm) _ _ : execLaserInterrupt m faulty s = _).trans (congrArg _ ?_)
    exact foldl_congr_mem (fun s l hl => if_pos (hf l hl)) _
  case read =>
    intro m temp power s hm h0
    change execModuleMonitorRead m temp power [] s = _
    simp [execModuleMonitorRead, h0, hm]
  case readOne =>
    intro m temp power bias offset s hm h0
    change execModuleMonitorRead m temp power [(bias, offset)] s = _
    simp [execModuleMonitorRead, h0, hm]
  case restored =>
    intro m l s hm hl hlost h2
    have run : execLightRestored m l s = _ := guard_next (by simp [hm, hl]) _ _
    rw [if_pos (by simp [hlost, h2])] at run
    generalize ha : setLos (m / 2) (sideOf m + 1, 0, l) false s = a at run
    have hpoint : (pointAt a (m / 2) (sideOf m + 1, 0, l)).los = false := by rw [← ha, setLos, pointAt_modPoint]
    have hla : lightAt a (m / 2) = { lightAt s (m / 2) with points := (lightAt a (m / 2)).points } := by
      rw [← ha, setLos, modPoint, lightAt_modLight, if_pos rfl] <;> exact fun _ => rfl
    obtain ⟨ev, light, darn, ht, h1, h2, h3⟩ := takeLight_lost (w := m / 2) (l := l) (sideOf m) (s := a) (by rw [hla]; exact hlost)
    refine ⟨_, run, by rw [h1, hla], by rw [h2, hla], by rw [pointAt, h3]; exact hpoint, by rw [ht, ← ha]; rfl⟩
  case kept =>
    intro m l s hm hl hlost h0
    refine (guard_next (by simp [hm, hl]) _ _ : execLightRestored m l s = _).trans ?_
    rw [if_neg (by simp only [hlost, Bool.false_or, Bool.and_eq_true, decide_eq_true_eq]; exact fun h => h0 h.1)]
  case odd =>
    intro w y s hw hy
    refine (guard_next (by simpa using hw) _ _ : execStaggerOddGroup w s = _).trans ?_
    rw [hy]
  case frequency =>
    intro m s hm h2 hfine hlen
    have run : execFrequencyMatch m s = .next ((activeOn s (m / 2) (3 - sideOf m)).foldl (matchLaser m) s) :=
      (guard_next (by simpa using hm) _ _ : execFrequencyMatch m s = _).trans (by rw [if_pos (by simp [h2, hfine])]; rfl)
    have hact (l : Nat) : l ∈ activeOn s (m / 2) (3 - sideOf m) ↔ l < 9 ∧ (lightAt s (m / 2)).sel.getD l 0 = 3 - sideOf m := by
      simp [activeOn]
    obtain ⟨⟨⟨_, _, hframe⟩, hpartner, -⟩, hnear, -⟩ := matchLasers hm (ls := activeOn s (m / 2) (3 - sideOf m)) (s := s)
      (List.Pairwise.filter _ List.nodup_range) (fun l hl => by rw [hlen]; exact ((hact l).mp hl).1)
    refine ⟨_, run, by rw [hframe], hpartner, fun l hl hsel => ?_⟩
    have h := hnear l ((hact l).mpr ⟨hl, hsel⟩)
    rw [OffsetsNear, hpartner] at h
    exact h
  case loop =>
    intro w s hw t ht
    exact (guard_next (by simpa using hw) _ _ : execLightLoopPass w s = _).trans (by rw [if_neg (by rw [ht]; simp)]; simp only [List.foldl_cons, List.foldl_nil, t])
  case window =>
    intro w l obs s hw hl
    have run : execMonitorWindowEnd w 2 0 l obs s = _ := guard_next (by simp [isPoint, hw, hl]) _ _
    generalize pointAt s w (2, 0, l) = old at run ⊢
    obtain ⟨new, hnew⟩ : ∃ new, new = old.windowEnd 2 s.ns (classOf s w 2) obs := ⟨_, rfl⟩
    rw [← hnew] at run
    obtain ⟨ev, hev⟩ := reportLow_frame w 2 0 l old new (modPoint w (2, 0, l) (fun _ => new) s)
    rw [hev] at run
    have hpoint : pointAt { modPoint w (2, 0, l) (fun _ => new) s with ev } w (2, 0, l) = new :=
      pointAt_modPoint w (2, 0, l) (fun _ => new) s
    refine ⟨_, obs.value.bind fun v => if v < -3000 then none else some (min v (fullScale 2)),
      belowRange old.range (obs.lowest - tapLoss 2) || aboveRange old.range (obs.highest - tapLoss 2), run, ?_⟩
    rw [hpoint]
    refine ⟨?_, fun h => by rw [h]; rfl, fun v h => by rw [h]; rfl, ?_, fun hflag => ?_, by rw [hnew]; rfl, by rw [hnew]; rfl⟩
    · rw [hnew, MonitorPoint.windowEnd]
      dsimp only
      split
      · rfl
      · rw [List.map_map]; rfl
    · rw [hnew, MonitorPoint.windowEnd]
      dsimp only
      split
      · simp [*]
      · rw [if_neg (show ¬ 2 < 2 by decide)]
        split <;> simp [*]
    · rw [hnew, MonitorPoint.windowEnd]
      dsimp only
      simp [hflag]

end Sys2Proof.Machine
end

section
/-! SUPPORT. The table engine and forwarding events (O47): what an engine operation's start leaves, its checks, and each event's next state. -/
namespace Sys2Proof.Machine

theorem tfind_map {κ α : Type} [DecidableEq κ] (g : κ × α → α) (t : Tbl κ α) (k : κ) :
    tfind (t.map fun e => (e.1, g e)) k = (tfind t k).map fun v => g (k, v) := by
  induction t with
  | nil => rfl
  | cons e t ih =>
    obtain ⟨k', v⟩ := e
    by_cases h : k' = k
    · subst h; simp [tfind]
    · simp only [List.map_cons, tfind, if_neg h, ih]

/-- The fields of TCE_CTRL that a write with START = 1 and a code below 8 leaves. -/
theorem startedCtrl (ctrl : Nat) {k : Nat} (hk : k < 8) :
    bitsOf (ctrl - ctrl % 8 + k) 19 8 * 256 + (ctrl - ctrl % 8 + k) % 8 = bitsOf ctrl 19 8 * 256 + k := by
  simp only [bitsOf]; omega

/-- A free table engine as a write of TCE_CTRL with START = 1 leaves it to the operation: BUSY, with its fields taken (R232). -/
def tceBusy (ctrl k : Nat) (s : State) : State := modTce (fun t => { t with ctrl := bitsOf ctrl 19 8 * 256 + k, busy := true }) s

/-- A free engine then holds the operation's result. -/
theorem tceStart_free {s : State} {counters : List (CtrKey × Counter)} (hc : countBar0 1 0x20000 s = { s with counters })
    (ht : bar0Takes s 0x20000 = true) (hb : s.setup.tce.busy = false) {ctrl k : Nat} (hk : k < 8) {f : State → EngineEnd × State}
    {r : EngineEnd × State} (hr : f (tceBusy ctrl k { s with counters }) = r) : tceStart (ctrl - ctrl % 8 + k) f s =
      .next (modTce (fun t => { t with result := some (r.1.refuse.status, r.1.refuse.reason, r.1.matched, r.1.words) }) r.2) := by
  subst hr
  rw [tceStart, bar0Write_taken ht, hc]
  dsimp only
  rw [if_neg (by simp [hb]), startedCtrl ctrl hk]
  rfl

/-- The checks of TABLE and INDEX pass for an entry of a table. -/
theorem tceChecked_entry {flow : Bool} {table i : Nat} (h1 : 1 ≤ table) (h6 : table ≤ 6) (hf : flow = true ∨ table ≠ 5)
    (hi : i < tableSize table) {c : Bool} (hc : c = false) (r : Refuse) (k : State → EngineEnd × State) (s : State) :
    tceChecked (tableChecks flow table i ++ [(c, r)]) k s = k s := by
  have hflow : (!flow && decide (table = 5)) = false := by rcases hf with h | h <;> simp [h]
  rw [tceChecked, tableChecks, hflow, hc, decide_eq_false (show ¬ table = 0 by omega), decide_eq_false (show ¬ 6 < table by omega),
    decide_eq_false (show ¬ tableSize table ≤ i by omega)]
  rfl

/-- An operation on an entry's shadow refuses LIVE = 1. -/
theorem tceChecked_live {table i : Nat} (h1 : 1 ≤ table) (h6 : table ≤ 6) (h5 : table ≠ 5) (hi : i < tableSize table) {c : Bool}
    (hc : c = true) (r : Refuse) (k : State → EngineEnd × State) (s : State) :
    tceChecked (tableChecks false table i ++ [(c, r)]) k s = ({ refuse := r }, s) := by
  rw [tceChecked, tableChecks, hc, decide_eq_false (show ¬ table = 0 by omega), decide_eq_false (show ¬ 6 < table by omega),
    decide_eq_false (show ¬ tableSize table ≤ i by omega), decide_eq_false h5]
  rfl

/-- A READ of a live entry draws at most, and is the live value unless the entry's parity is bad. -/
theorem readLive_words (h pipe table i : Nat) (s : State) : OnlyDraws s (readLive h pipe table i s).2 ∧
    (table ≠ 5 → (∀ b ∈ s.fwd.bad, b.2.2 ≠ i) → (readLive h pipe table i s).1 = entryWords s table i) := by
  have drawn (ws : List Nat) (a : List Nat × State) :
      OnlyDraws a.2 (ws.foldl (fun a _ => let d := draw (2 ^ 32) a.2; (a.1 ++ [d.1], d.2)) a).2 := by
    induction ws generalizing a with
    | nil => exact .refl _
    | cons w ws ih => exact (draw_onlyDraws (2 ^ 32) a.2).trans (ih _)
  rw [readLive]
  by_cases h5 : table = 5
  · rw [if_pos h5]
    exact ⟨.refl _, absurd h5⟩
  rw [if_neg h5]
  generalize (if table = 1 then pipe + 1 else table + 1) = code
  split
  next hbad => exact ⟨drawn (List.range (tableWords table)) ([], s), fun _ h => absurd rfl (h _ hbad.1)⟩
  next => exact ⟨.refl _, fun _ _ => rfl⟩

theorem clearAge_frame (h i : Nat) (s : State) : clearAge h i s = { s with fwd := { s.fwd with flow := (clearAge h i s).fwd.flow } } := by
  rw [clearAge]
  split
  · rfl
  · split <;> rfl

theorem clearAge_flow (h i : Nat) {s t : State} (hf : t.fwd = s.fwd) (hn : flowNow t = flowNow s) :
    (clearAge h i t).fwd.flow = (clearAge h i s).fwd.flow := by
  rw [clearAge, clearAge, hf, hn]
  cases tfind s.fwd.flow (h, i) with
  | none => exact congrArg _ hf
  | some f => cases hv : f.valid <;> simp [hv, hf]

/-- Settles O47 (R203 to R232; log 62). -/
theorem tableEventsComplete : Obligations.TableEventsComplete := by
  refine ⟨?sweep, fun s => rfl, ?repair, ?read, ?busy, ?live, ?write, ?compare, ?age, ?done⟩
  case sweep =>
    intro s
    have hmap : (s.fwd.flow.map fun e => if e.1.2 / 16 = flowNow s % 2 ^ 14 &&
          flowIdle s ≤ (flowNow s % 65536 + 65536 - e.2.ts) % 65536 then (e.1, { e.2 with valid := false }) else e) =
        s.fwd.flow.map fun e => (e.1, { e.2 with valid := e.2.valid && !(decide (e.1.2 / 16 = flowNow s % 2 ^ 14) &&
          decide (flowIdle s ≤ (flowNow s % 65536 + 65536 - e.2.ts) % 65536)) }) := by
      refine List.map_congr_left fun e _ => ?_
      by_cases h : e.1.2 / 16 = flowNow s % 2 ^ 14 ∧ flowIdle s ≤ (flowNow s % 65536 + 65536 - e.2.ts) % 65536
      · simp [h]
      · rw [← Bool.decide_and, decide_eq_false h]
        simp
    exact ⟨_, rfl, rfl, fun k => (congrArg (tfind · k) hmap).trans (tfind_map (fun e => { e.2 with
      valid := e.2.valid && !(decide (e.1.2 / 16 = flowNow s % 2 ^ 14) &&
        decide (flowIdle s ≤ (flowNow s % 65536 + 65536 - e.2.ts) % 65536)) }) s.fwd.flow k)⟩
  case repair =>
    intro h ns r table code s hh hr htable marked
    have run : exec (.chuteRepair h true ns) s = execChuteRepair h true ns s := rfl
    rw [execChuteRepair, hr] at run
    dsimp only at run
    rw [htable] at run
    exact ⟨fun hbad => run.trans (congrArg _ (if_neg hbad)), fun hbad => run.trans (congrArg _ (if_pos hbad))⟩
  case read =>
    intro ctrl bad s ht hb hlive h1 h6 hi
    obtain ⟨c, hc⟩ := countBar0_frame 1 0x20000 s
    have run : execTceRead ctrl bad s = _ := tceStart_free hc ht hb (by decide)
      ((tceChecked_entry h1 h6 (.inl rfl) hi (by simp [hlive]) ..).trans (if_pos hlive))
    have reads (a : State) := readLive_words (bitsOf ctrl 18 17) (bitsOf ctrl 19 19) (bitsOf ctrl 15 8) a.setup.tce.index a
    obtain ⟨⟨d, hd⟩, hw⟩ := reads (tceBusy ctrl 1 { s with counters := c })
    dsimp only at run
    rw [hd] at run
    exact ⟨_, run, rfl, rfl, _, rfl, hw⟩
  case busy =>
    intro ctrl s ht hb
    change execTceWrite ctrl s = _
    obtain ⟨c, hc⟩ := countBar0_frame 1 0x20000 s
    rw [execTceWrite, tceStart, bar0Write_taken ht, hc, if_pos hb]
  case live =>
    intro ctrl s ht hb hlive h1 h6 h5 hi
    obtain ⟨c, hc⟩ := countBar0_frame 1 0x20000 s
    have run : execTceWrite ctrl s = _ := tceStart_free hc ht hb (by decide) (tceChecked_live h1 h6 h5 hi hlive ..)
    exact ⟨_, run, rfl, rfl⟩
  case write =>
    intro ctrl s ht hb a hlive h1 h6 h5 hi htxn r
    obtain ⟨c, hc⟩ := countBar0_frame 1 0x20000 s
    have ha : tceBusy ctrl 2 { s with counters := c } = a := by rw [← hc]; rfl
    have hregs : a.setup.tce.index = s.setup.tce.index ∧ a.setup.tce.data = s.setup.tce.data := by
      rw [← ha]; exact ⟨rfl, rfl⟩
    obtain ⟨hidx, hdata⟩ := hregs
    have run : execTceWrite ctrl s = _ := tceStart_free (r := r) hc ht hb (by decide) (by
      rw [ha]
      dsimp only
      rw [hidx, tceChecked_entry h1 h6 (.inr h5) hi hlive, htxn, hdata])
    exact run
  case compare =>
    intro ctrl bad s ht hb a hlive h1 h6 h5 hi htxn r
    obtain ⟨c, hc⟩ := countBar0_frame 1 0x20000 s
    have ha : tceBusy ctrl 3 { s with counters := c } = a := by rw [← hc]; rfl
    have hregs : a.setup.tce.index = s.setup.tce.index ∧ a.setup.tce.data = s.setup.tce.data ∧ a.setup.tce.cmp = s.setup.tce.cmp := by
      rw [← ha]; exact ⟨rfl, rfl, rfl⟩
    obtain ⟨hidx, hdata, hcmp⟩ := hregs
    have run : execTceCompareWrite ctrl bad s = _ := tceStart_free (r := r) hc ht hb (by decide) (by
      rw [ha]
      dsimp only
      rw [hidx, tceChecked_entry h1 h6 (.inr h5) hi hlive, htxn, hdata, hcmp])
    exact run
  case age =>
    intro ctrl s ht hb h5 hlive hi
    obtain ⟨c, hc⟩ := countBar0_frame 1 0x20000 s
    obtain ⟨a, ha⟩ : ∃ a, a = tceBusy ctrl 4 { s with counters := c } := ⟨_, rfl⟩
    have hidx : a.setup.tce.index = s.setup.tce.index := by rw [ha]; rfl
    have run : execTceClearAge ctrl s = _ := tceStart_free (r :=
      ({ words := [flowletWord (clearAge (bitsOf ctrl 18 17) s.setup.tce.index a) (bitsOf ctrl 18 17) s.setup.tce.index] },
        clearAge (bitsOf ctrl 18 17) s.setup.tce.index a)) hc ht hb (by decide) (by
      dsimp only
      rw [tceChecked, ← ha, h5, hlive, hidx, decide_eq_false (show ¬ 262144 ≤ s.setup.tce.index by omega)]
      rfl)
    have hflow : (clearAge (bitsOf ctrl 18 17) s.setup.tce.index a).fwd.flow = (clearAge (bitsOf ctrl 18 17) s.setup.tce.index s).fwd.flow :=
      clearAge_flow _ _ (by rw [ha]; rfl) (by rw [ha]; rfl)
    subst ha
    refine ⟨_, _, run, rfl, hflow, ?_⟩
    rw [clearAge_frame, modTce]
    rfl
  case done =>
    intro s st rs m ws hr
    change execTceOperationDone s = _
    rw [execTceOperationDone, hr]

end Sys2Proof.Machine
end

section
/-! SUPPORT. Buffer events (O49): held frames, the buffer loop, crossings and spills, each under the conditions in which it acts. -/
namespace Sys2Proof.Machine

theorem hallAt_modHall (h h' : Nat) (g : Hall → Hall) (s : State) :
    hallAt (modHall h g s) h' = if h = h' then g (hallAt s h) else hallAt s h' := tget_tset ..

theorem hallAt_countHall (h i n h' : Nat) (s : State) : hallAt (countHall h i n s) h' = hallAt s h' := by
  simp [hallAt, countHall]

/-- A spilled frame whose lines read back and whose cells fit joins its queue again (R333). -/
theorem spillReturn_fits {p vc : Nat} {x : Held} {r : List Held} {s : State} (hp : isPort p = true) (hvc : vc < 8)
    (hsp : (queueAt s p vc).spilled = x :: r) (hcells : sumCells (queueAt s p vc).frames < hallSetting s (hallOf p) 34 2 + 128)
    (hfree : x.cells ≤ freeCells (countLines (hallOf p) 0 0 (2 * x.cells) (useTokens (hallOf p) 0 (2 * x.cells) s)) (hallOf p)
      (poolKey s x.frame.latchkey)) :
    execSpillReturn p vc .none [] s = .next (linkTail { x with store := .pool (poolKey s x.frame.latchkey) }
      (countHall (hallOf p) 32 x.cells (chargePool (hallOf p) (poolKey s x.frame.latchkey) x.cells (freeFrame x (hallOf p)
        (setQueue p vc { queueAt s p vc with spilled := r }
          (countLines (hallOf p) 0 0 (2 * x.cells) (useTokens (hallOf p) 0 (2 * x.cells) s))))))) := by
  delta execSpillReturn
  rw [if_neg (by simp [hp]; omega)]
  dsimp only
  rw [hsp]
  dsimp only
  rw [if_neg (by omega), lostHeader]
  dsimp only [List.foldl_nil]
  exact if_neg (Nat.not_lt.mpr hfree)

/-- Settles O49 (R281 to R333; logs 45, 64 and 66). -/
theorem bufferEventsComplete : Obligations.BufferEventsComplete := by
  refine ⟨?held, ?loopOff, ?loop, ?cross, ?noRoute, ?written, ?back, fun s => rfl,
    fun p s hp => (guard_next hp _ _ : execGateEntryChange p s = _)⟩
  case held =>
    intro h s hh a l hl
    exact (guard_next (by simpa using hh) _ _ : execHeldFrameRetry h s = _).trans (by rw [if_neg hl])
  case loopOff =>
    intro h s hh hoff
    exact (guard_next (by simpa using hh) _ _ : execBufferLoop h s = _).trans (by rw [if_pos (by simp [hoff])])
  case loop =>
    intro h v s hh hon hlow hv
    have run : execBufferLoop h s = _ := guard_next (by simpa using hh) _ _
    rw [if_neg (by simp [hon]), if_pos hlow, hv] at run
    refine ⟨_, run, ?_, ?_, fun h' hne => ?_, ?_⟩
    · rw [hallAt_countHall, hallAt_modHall, if_pos rfl, hallAt_modHall, if_pos rfl]
    · rw [hallAt_countHall, hallAt_modHall, if_pos rfl, hallAt_modHall, if_pos rfl]
    · rw [hallAt_countHall, hallAt_modHall, if_neg hne.symm, hallAt_modHall, if_neg hne.symm]
    · rfl
  case cross =>
    intro src dst route s hs hd hroute a x hx
    have run : exec (.crossHallArrival src dst) s = execCrossHallArrival src dst s := rfl
    rw [execCrossHallArrival, if_neg (by simp; omega), hroute] at run
    dsimp only at run
    rw [hx] at run
    exact run
  case noRoute =>
    intro src dst s hs hd hroute
    change execCrossHallArrival src dst s = _
    rw [execCrossHallArrival, if_neg (by simp; omega), hroute]
  case written =>
    intro h x r s hh hx
    change execSpillWriteAck h s = _
    rw [execSpillWriteAck, hx]
  case back =>
    intro p vc x r s hp hvc hsp hcells a hfree
    exact spillReturn_fits hp hvc hsp hcells hfree

end Sys2Proof.Machine
end

section
/-! SUPPORT. Collective events (O51): what changing a context leaves, and each event under the conditions in which it acts. -/
namespace Sys2Proof.Machine

theorem modCtx_frame (c : Nat) (g : CtxRun → CtxRun) (s : State) : ∃ coll, modCtx c g s = { s with coll } := by
  rw [modCtx]
  split <;> exact ⟨_, rfl⟩

theorem modChunk_frame (c i : Nat) (g : Chunk → Chunk) (s : State) : ∃ coll, modChunk c i g s = { s with coll } := by
  rw [modChunk]
  split
  · exact modCtx_frame ..
  · exact ⟨_, rfl⟩

theorem modCtx_of {c : Nat} {r : CtxRun} {s : State} (h : ctxAt s c = some r) (g : CtxRun → CtxRun) :
    modCtx c g s = { s with coll := { s.coll with ctxs := tset s.coll.ctxs c (g r) } } := by
  rw [modCtx, h]

theorem ctxAt_modCtx {c : Nat} {r : CtxRun} {s : State} (h : ctxAt s c = some r) (g : CtxRun → CtxRun) :
    ctxAt (modCtx c g s) c = some (g r) := by
  rw [modCtx_of h]
  exact (tfind_tset ..).trans (if_pos rfl)

/-- Settles O51 (R345 to R398; logs 9 and 47). -/
theorem collectiveEventsComplete : Obligations.CollectiveEventsComplete := by
  refine ⟨?contrib, ?done, ?release, ?tested, ?hamper, ?replays, ?straggler, ?stalled⟩
  case contrib =>
    intro m check y s hm hy
    change execMangleContribReceived m check s = _
    rw [execMangleContribReceived, hy]
  case done =>
    intro m c i ch s hm hold hout hroom hroot hbuf
    change execChunkDone m s = _
    rw [execChunkDone, if_pos hm, hold]
    dsimp only
    rw [if_neg (by simp [hout, hroom, hroot]; omega), hroot]
    rfl
  case release =>
    intro ctx r s hr hdue hroot hlast hroom
    change execReleaseSend ctx s = _
    have hall : (r.lastRelease.all fun t => decide (t + 500 ≤ s.ns)) = true := by
      cases h : r.lastRelease with
      | none => rfl
      | some t => simpa using hlast t h
    rw [execReleaseSend, hr]
    dsimp only
    rw [hdue, hroot, hall, hroom]
    rfl
  case tested =>
    intro m c i ch s hm ht hch
    change execEngineSelftestDone m false true s = _
    rw [execEngineSelftestDone, ht]
    dsimp only
    rw [hch]
    dsimp only
    rw [if_neg (by simp)]
    cases ch.shadow <;> rfl
  case hamper =>
    intro m c i e s u hm hctx hu he hw htok
    subst he
    obtain ⟨s', hs'⟩ := Option.isSome_iff_exists.mp htok
    obtain ⟨cellar, rfl⟩ := takeTokens_frame _ _ _ _ _ hs'
    obtain ⟨draws, counters, hcount⟩ := countLines_frame (2 * e.mangle + i % 2) 1 1 (e.size / 64) { s with cellar }
    have run : exec (.hamperEntryWrite e.mangle) s = execHamperEntryWrite e.mangle s := rfl
    rw [execHamperEntryWrite, hctx] at run
    simp only [List.flatMap_cons, List.flatMap_nil, List.append_nil, hu, List.filter_cons, List.filter_nil, hw, decide_true,
      Bool.not_false, Bool.and_self, if_true, List.map_cons, List.map_nil, List.foldl_cons, List.foldl_nil, hs', hcount] at run
    generalize hx : countMangle e.mangle 22 e.size (countMangle e.mangle 21 1 { { s with cellar } with draws, counters }) = x at run
    have hu' : ctxAt x c = some u := by
      rw [← hx]
      change tfind s.coll.ctxs c = some u
      rw [hctx, tfind, if_pos rfl]
    obtain ⟨coll, hcoll⟩ := modCtx_frame c (fun r => { r with hamper := tset r.hamper i { e with written := true } }) x
    refine ⟨_, run, ⟨{ u with hamper := tset u.hamper i { e with written := true } }, ctxAt_modCtx hu' _,
      (tfind_tset ..).trans (if_pos rfl)⟩, ?_⟩
    rw [hcoll, ← hx]
    rfl
  case replays =>
    intro ctx r t0 us s hr hroot hf hrun ht
    change execReplayWaitExpired ctx [] s = _
    rw [execReplayWaitExpired, hr]
    dsimp only
    rw [hroot, hf, hrun, ht]
    by_cases h : s.ns < t0 + us * 1000
    · rw [if_pos h, if_pos (by simp; omega)]
    · rw [if_neg h, if_neg (by simp; omega)]
      rfl
  case straggler =>
    intro ctx i r ch s hr hch hf hs hrun
    have run : exec (.collStraggler ctx i) s = execCollStraggler ctx i s := rfl
    rw [execCollStraggler, hr, hch] at run
    dsimp only at run
    refine ⟨fun hearly => ?_, fun hlate => ?_⟩
    · rw [run, if_pos (by simp [hearly])]
    · rw [if_neg (by simp [hf, hs, hrun]; omega)] at run
      obtain ⟨coll, hcoll⟩ := modChunk_frame ctx i (fun x => { x with straggler := true }) s
      rw [hcoll] at run
      generalize ((List.range r.ports.length).filter fun m => !bit ch.members m) = missing at run ⊢
      obtain ⟨ev, hev⟩ := raiseLimited_frame 0x0923 ctx second (fun _ s => raise 0x0923 (mangleDie ch.mangle) 3 ctx i
        (missing.length * 2 ^ 24 + missing.headD 0) s) (fun _ _ => raise_frame ..) (countMangle ch.mangle 26 1 { s with coll })
      rw [hev] at run
      refine ⟨_, run, ?_, rfl⟩
      exact (tget_tset ..).trans (if_pos rfl)
  case stalled =>
    intro ctx run r x s hr hx hroot hrel hst hrun hlate
    change execCollRunStalled ctx run s = _
    rw [execCollRunStalled, hr]
    dsimp only
    rw [hx]
    dsimp only
    rw [if_neg (by simp [hroot, hst, hrun]; omega)]

end Sys2Proof.Machine
end

section
/-! SUPPORT. The clock events (O35) and the Windows' (O37): what LOCKED shows of a domain that lost lock, and each event's next state. -/
namespace Sys2Proof.Machine

theorem testBit_foldl_or (is : List Nat) (a i : Nat) :
    (is.foldl (fun acc i => acc ||| 2 ^ i) a).testBit i = (a.testBit i || is.contains i) := by
  induction is generalizing a with
  | nil => simp
  | cons j is ih =>
    rw [List.foldl_cons, ih, Nat.testBit_or, Nat.testBit_two_pow, List.contains_cons, Bool.or_assoc]
    congr 2
    rw [Bool.beq_eq_decide_eq]
    exact decide_eq_decide.mpr eq_comm

theorem bit_maskOf (is : List Nat) (i : Nat) : bit (maskOf is) i = is.contains i := by
  rw [bit, maskOf, testBit_foldl_or, Nat.zero_testBit, Bool.false_or]

/-- LOCKED shows 0 for a domain that a counted die has lost (R38; log 55). -/
theorem lockedReg_unlocked {s : State} {die domain : Nat} (hm : (die, domain) ∈ s.boot.unlocked) (hc : clockCounts s die = true)
    (hd : domain ≠ 0) : bit (lockedReg s) (domain - 1) = false := by
  rw [lockedReg, bit_maskOf, List.contains_eq_mem, decide_eq_false]
  intro h
  have hlost := (List.mem_filter.mp h).2
  rw [Bool.not_eq_true', List.any_eq_false] at hlost
  exact hlost _ hm (by simp [hc]; omega)

/-- Settles O35 (R33 to R40; log 55). -/
theorem clockEventsComplete : Obligations.ClockEventsComplete := by
  refine ⟨?lost, ?expired, ?soon, ?late, ?absent, ?pll, ?xtal⟩
  case lost =>
    intro s h
    change execRefLost s = _
    rw [execRefLost, if_neg (by simp [h])]
  case expired =>
    intro s hover hheld
    have run : exec .refHoldoverExpired s = execRefHoldoverExpired s := rfl
    rw [execRefHoldoverExpired, if_neg (by simp [hover, hheld])] at run
    exact ⟨_, run, rfl, rfl, rfl, rfl, rfl, rfl, rfl⟩
  case soon =>
    intro us s hheld hover hus
    change execRefReturned us s = _
    rw [execRefReturned, if_neg (by simp [hheld]), if_pos hover, if_pos hus]
  case late =>
    intro us s hheld hthermal
    change execRefReturned us s = _
    rw [execRefReturned, if_pos hheld, if_pos hthermal]
  case absent =>
    intro s hs href
    change execRefAbsent s = _
    rw [execRefAbsent, if_pos (by simp [hs, href])]
  case pll =>
    intro die domain s hd href hheld hph u
    refine ⟨?_, fun hc => lockedReg_unlocked (by simp [u, modBoot]) hc ?_⟩
    · change execPllUnlock die domain s = _
      rw [execPllUnlock, if_neg (by rw [hd]; simp), if_neg (by simp [href, hheld, hph])]
    · rintro rfl
      simp [domainDies] at hd
  case xtal =>
    intro s hrc
    have run : exec .porchXtalFail s = execPorchXtalFail s := rfl
    rw [execPorchXtalFail, if_neg (by simp [hrc])] at run
    refine ⟨_, run, rfl, rfl, fun hdie => lockedReg_unlocked (die := 0) (domain := 25) (by simp [modBoot]) ?_ (by decide), rfl⟩
    change ((dieAt s 0).state ≠ 3 && !(24 ≤ 0 && _)) = true
    simp [hdie]

/-- Settles O37 (R139 to R147). -/
theorem windowEventsComplete : Obligations.WindowEventsComplete := by
  refine ⟨?up, ?lightTimeout, ?ready, ?prbs⟩
  case up =>
    intro w ms s hw hup hcold sel
    have hsel : (lightAt (trainSill w (modWindow w (fun x => { x with inService := true, bringUp := false, cause := 0 }) s)) w).sel =
      sel := rfl
    clear_value sel
    subst hsel
    have run : exec (.windowUp w ms) s = execWindowUp w ms s := rfl
    rw [execWindowUp, if_neg (by omega), if_neg (by simp [hup, hcold])] at run
    exact run
  case lightTimeout =>
    intro w rings s hw hup hr
    refine (guard_next (by simpa using hw) _ _ : execWindowLightTimeout w rings s = _).trans ?_
    rw [if_pos]
    rcases hr with h | h <;> simp [hup, h]
  case ready =>
    intro port s hp hc hin hst hl u
    change execPortPhyReady port s = _
    rw [execPortPhyReady]
    dsimp only
    rw [if_neg (by simp [hp]), if_neg]
    rcases hst with h | h <;> simp [hc, hin, h, hl]
  case prbs =>
    intro port counts st s hp hst
    change execPrbsRunEnd port counts s = _
    rw [execPrbsRunEnd, hst]

end Sys2Proof.Machine
end

section
/-!
SUPPORT. The interpreter's timers and the event log (O41), and the Transom's paths (O46): each event's next state, and what setting routes
changes.
-/
namespace Sys2Proof.Machine

/-- Settles O41 (R54 to R92). -/
theorem interpreterEventsComplete : Obligations.InterpreterEventsComplete := by
  refine ⟨?timeout, ?window, ?forgotten, ?cache, ?refused, ?raised, ?loss, ?ctrl, ?newest⟩
  case timeout =>
    intro src tag o s ho hup hw
    change execCommandTimeout src tag s = _
    rw [execCommandTimeout, ho]
    dsimp only
    rw [if_neg (by simp [hup])]
    split
    next w h => exact absurd h (hw w)
    next => rfl
  case window =>
    intro src tag o w s ho hup hw
    change execCommandTimeout src tag s = _
    rw [execCommandTimeout, ho]
    dsimp only
    rw [if_neg (by simp [hup]), hw]
  case forgotten =>
    intro src s h
    change execSourceForgotten src s = _
    rw [execSourceForgotten, if_neg (by simp [h])]
    rfl
  case cache =>
    intro src tag s
    refine ⟨_, rfl, ?_, ?_, rfl⟩
    · intro e he hsrc c hc
      obtain ⟨e₀, -, rfl⟩ := List.mem_map.mp he
      by_cases h : e₀.src = src
      · rw [if_pos h] at hc
        simpa using (List.mem_filter.mp hc).2
      · rw [if_neg h] at hsrc
        exact absurd hsrc h
    · intro e he hsrc
      exact List.mem_map.mpr ⟨e, he, if_neg hsrc⟩
  case refused =>
    intro src ingress udp packet s hopen hd hdup hop a came q hcache hlimit
    have run : exec (.maloaRequestRefused src ingress udp packet) s = execMaloaRequestRefused src ingress udp packet s := rfl
    rw [execMaloaRequestRefused] at run
    dsimp only at run
    rw [if_neg (by simp [hopen]), hd] at run
    dsimp only at run
    rw [if_neg (by simp [hdup]), if_neg (by rw [hop]; simp)] at run
    rw [hcache] at run
    dsimp only at run
    rw [hlimit] at run
    simp only [Bool.or_eq_true, decide_eq_true_eq] at run
    exact run
  case raised =>
    intro die m rest s hph hq hlast
    have hall : (s.ev.lastAt.any fun t => decide (s.ns < t + 50)) = false := by
      cases h : s.ev.lastAt with
      | none => rfl
      | some t => simpa using hlast t h
    change execEventRaised die s = _
    rw [execEventRaised, hq]
    dsimp only
    rw [if_neg (by rw [hall]; simp; omega)]
  case loss =>
    intro die s h0 hroom
    change execEventLoss die s = _
    rw [execEventLoss]
    dsimp only
    rw [if_neg (by simp [h0]; omega)]
  case ctrl =>
    intro v s ht
    change execEvCtrlWrite v s = _
    obtain ⟨c, hc⟩ := countBar0_frame 1 0x50000 s
    rw [execEvCtrlWrite, bar0Write_taken ht, hc]
  case newest =>
    intro s ho
    change execEvNewestLoRead s = _
    obtain ⟨c, hc⟩ := countBar0_frame 0 0x50008 s
    rw [execEvNewestLoRead, bar0Read, if_pos ho, hc]
    rfl

/-- Setting routes changes the Transom alone. -/
theorem setRoutes_frame (is : List Nat) (s : State) : ∃ transom, setRoutes is s = { s with transom } := by
  rw [setRoutes]
  induction is generalizing s with
  | nil => exact ⟨_, rfl⟩
  | cons i is ih =>
    rw [List.foldl_cons]
    have step : ∃ transom, (if transomMode s i ≠ 2 || (tfind s.transom.routes i).isSome then s
        else
          let r : Route := Route.heated s i { out := entryOut s i }
          if (pointAt s (i / 32) (1, i / 8 % 4, i % 8)).los then setRoute i { r with holding := true } s
          else lockRoute i (setRoute i r s)) = { s with transom } := by
      split
      · exact ⟨_, rfl⟩
      dsimp only
      split
      · exact ⟨_, rfl⟩
      · obtain ⟨transom, h⟩ := modRoute_frame i (fun r => { r with switch := true, matrix := true, add := true, holding := false })
          (setRoute i (Route.heated s i { out := entryOut s i }) s)
        exact ⟨transom, h⟩
    obtain ⟨_, hs⟩ := step
    rw [hs]
    obtain ⟨transom, h⟩ := ih { s with transom := _ }
    exact ⟨transom, h⟩

/-- A ring's unlock clears its own bit of the route, where the entry has one. -/
theorem tget_modRoute (i : Nat) (g : Route → Route) (s : State) (h0 : g {} = {}) :
    tget (modRoute i g s).transom.routes i {} = g (tget s.transom.routes i {}) := by
  have hget (t : Tbl Nat Route) : tget t i {} = (tfind t i).getD {} := by
    induction t with
    | nil => rfl
    | cons e t ih =>
      by_cases h : e.1 = i
      · simp [tget, tfind, h]
      · simp [tget, tfind, h, ih]
  rw [modRoute]
  cases h : tfind s.transom.routes i with
  | none => rw [hget, h]; exact h0.symm
  | some r => rw [hget s.transom.routes, h]; exact (tget_tset ..).trans (if_pos rfl)

/-- Settles O46 (R178 to R190). -/
theorem transomEventsComplete : Obligations.TransomEventsComplete := by
  refine ⟨?applied, ?none, ?los, ?restored, ?unlock⟩
  case applied =>
    intro w t0 is s hw hch
    refine ⟨fun s i => if terminated s (1024 + i) && (portAt s (1024 + i)).enabled && (portAt s (1024 + i)).state = .disabled then
        settlePort (1024 + i) (parkOutputs [i] s)
      else if terminated s (1024 + i) then parkOutputs [i] s else s, ?_, fun s i h => by simp [h], fun s i h he hs => by simp [h, he, hs]⟩
    change execTransomMapApplied w s = _
    obtain ⟨transom, ht⟩ := setRoutes_frame is { s with transom := { s.transom with changing := tdel s.transom.changing w } }
    rw [execTransomMapApplied, hch]
    simp only [List.any_nil, Bool.not_false, filter_always, if_true, ht]
  case none =>
    intro w s hw hch
    change execTransomMapApplied w s = _
    rw [execTransomMapApplied, hch]
    exact guard_next (by simpa using hw) _ _
  case los =>
    intro w e s hw he hmode
    exact (guard_next (by simp [hw, he]) _ _ : execTransomPassLos w e s = _).trans (by rw [if_pos hmode])
  case restored =>
    intro w e s hw he hmode
    exact (guard_next (by simp [hw, he]) _ _ : execTransomPassRestored w e s = _).trans (by rw [if_pos hmode])
  case unlock =>
    intro w e ring s hw he hring hmode
    have run : execTransomRingUnlock w e ring s = _ := guard_next (by simp [hw, he, hring]) _ _
    rw [if_pos hmode] at run
    obtain ⟨g, hg⟩ : ∃ g : Route → Route, g = fun r =>
      { r with switch := r.switch && ring ≠ 0, matrix := r.matrix && ring ≠ 1, add := r.add && ring ≠ 2 } := ⟨_, rfl⟩
    rw [← hg] at run
    obtain ⟨ev, hev⟩ := raiseLimited_frame 0x0705 (32 * w + e) (60 * second) (fun _ s' => raise 0x0705 (eicDie w) 3 w (ring * 256 + e)
      (pathId s' (32 * w + e)) s') (fun _ _ => raise_frame ..) (modRoute (32 * w + e) g s)
    rw [hev] at run
    obtain ⟨transom, ht⟩ := modRoute_frame (32 * w + e) g s
    subst hg
    refine ⟨_, run, tget_modRoute (32 * w + e) _ s rfl, ?_⟩
    rw [ht]

end Sys2Proof.Machine
end

section
/-! SUPPORT. Transactions and drains (O48) and the Cellar (O50): each event at and before its time. -/
namespace Sys2Proof.Machine

/-- Settles O48 (R236 to R262; log 9 for the early rows). -/
theorem transactionEventsComplete : Obligations.TransactionEventsComplete := by
  refine ⟨?idle, ?commit, ?drained, ?fault, ?forced⟩
  case idle =>
    intro h t s ht hst
    change execTxnIdleTimeout h s = _
    rw [execTxnIdleTimeout, ht]
    have hearly : (decide (t.state = .committing) || decide (s.ns < t.lastNamed + t.idle * second)) =
        decide (s.ns < t.lastNamed + t.idle * second) := by
      rw [decide_eq_false hst, Bool.false_or]
    dsimp only
    rw [hearly, second]
    simp only [decide_eq_true_eq]
  case commit =>
    intro h t s ht hst
    change execCommitInstant h s = _
    rw [execCommitInstant, ht]
    simp [hst]
  case drained =>
    intro k b s hb hst hd
    change execQuiesceDrainCheck k s = _
    rw [execQuiesceDrainCheck, hb, hd, if_pos (by simp [hst])]
  case fault =>
    intro k b d s hb hst hd hex hlate hforce
    change execDrainLimitExpired k s = _
    rw [execDrainLimitExpired, hb]
    dsimp only
    rw [hst, hd]
    dsimp only
    rw [if_neg (by simp [hex]; omega), if_neg (by simp [hforce])]
  case forced =>
    intro k b d s hb hst hd hex hlate hforce flushedOf u
    change execDrainLimitExpired k s = _
    rw [execDrainLimitExpired, hb]
    dsimp only
    rw [hst, hd]
    dsimp only
    rw [if_neg (by simp [hex]; omega)]
    exact if_pos hforce

theorem cellarDie_modCellar (d d' : Nat) (g : CellarDie → CellarDie) (s : State) :
    cellarDie (modCellar d g s) d' = if d = d' then g (cellarDie s d) else cellarDie s d' := tget_tset ..

theorem scrubKind_late {s : State} {d c : Nat} (h : ∀ t, ((cellarDie s d).channel c).scrubbed = some t → t + 4000 ≤ s.ns) :
    scrubKind s d c = .scrub := by
  rw [scrubKind]
  cases hs : ((cellarDie s d).channel c).scrubbed with
  | none => rfl
  | some t => exact if_neg (Nat.not_lt.mpr (h t hs))

/-- The events of a refresh mode that changes (R325). -/
theorem refreshRaised_frame (hot : Bool) (d die mode temp : Nat) (s : State) : ∃ ev, (if hot = true then
    raise 0x1015 d 4 die temp 0 (raise 0x1014 d 2 die mode temp s) else raise 0x1014 d 2 die mode temp s) = { s with ev } := by
  obtain ⟨ev, hev⟩ := raise_frame 0x1014 d 2 die mode temp s
  rw [hev]
  split
  · exact raise_frame 0x1015 d 4 die temp 0 { s with ev }
  · exact ⟨_, rfl⟩

/-- Settles O50 (R301 to R327; logs 29 and 63). -/
theorem cellarEventsComplete : Obligations.CellarEventsComplete := by
  refine ⟨?skips, ?looks, ?row, ?start, ?chunk,
    fun die s hd => (guard_next hd _ _ : execCellarRefresh die s = _), ?mode, ?memtest⟩
  case skips =>
    intro h obs s hh hlate hend hskip
    have run : execCellarScrub h obs s = _ := guard_next (by simpa using hh) _ _
    rw [if_neg (show ¬ (decide (u8 (bootcfg s) 3 * hour < s.ns - (scrubAt s h).start) && !(scrubAt s h).late) = true by
      rw [decide_eq_false (Nat.not_lt.mpr hlate)]; simp), if_neg (by omega), if_pos hskip] at run
    exact run
  case looks =>
    intro h obs s hh hlate hend line d c hskip
    have run : execCellarScrub h obs s = _ := guard_next (by simpa using hh) _ _
    rw [if_neg (show ¬ (decide (u8 (bootcfg s) 3 * hour < s.ns - (scrubAt s h).start) && !(scrubAt s h).late) = true by
      rw [decide_eq_false (Nat.not_lt.mpr hlate)]; simp), if_neg (by omega), if_neg (by rw [hskip]; simp)] at run
    refine ⟨fun t ht hearly => ?_, fun hdue => ?_⟩
    · have hkind : scrubKind s d c = .background := by rw [scrubKind, ht]; exact if_pos hearly
      rw [hkind] at run
      exact run
    · rw [scrubKind_late hdue] at run
      exact run
  case row =>
    intro die k rest s hc
    have run : exec (.cellarRowSpared die []) s = execCellarRowSpared die [] s := rfl
    rw [execCellarRowSpared, hc] at run
    dsimp only at run
    simp only [List.filter_nil, List.foldl_nil] at run
    generalize ha : modCellar die _ s = a at run
    have hdie : cellarDie a die = { cellarDie s die with
        copies := rest, spared := (cellarDie s die).spared ++ [k], fixed := tdel (cellarDie s die).fixed k } :=
      ha ▸ (cellarDie_modCellar ..).trans (if_pos rfl)
    obtain ⟨ev, hev⟩ := raise_frame 0x1012 (hallDie (hallOfCellar die)) 2 die (k.1 * 2 ^ 24 + k.2.1 * 2 ^ 16 + k.2.2)
      (128 - ((cellarDie a die).spared.filter fun r => r.1 = k.1 && r.2.1 = k.2.1).length) a
    obtain ⟨darn, hdarn⟩ := recordFault_frame 8 1 die (k.1 * 2 ^ 24 + k.2.1 * 2 ^ 16 + k.2.2) { a with ev }
    rw [hev, hdarn] at run
    exact ⟨_, run, congrArg CellarDie.copies hdie, congrArg CellarDie.spared hdie, by rw [← ha]; rfl, by rw [← ha]; rfl⟩
  case start =>
    intro die ch s hd hch hm hu hr
    exact (guard_next (by simp [hd, hch]) _ _ : execChunkRewriteStart die ch s = _).trans (by rw [if_pos (by simp [hm, hu, hr])])
  case chunk =>
    intro die ch start chunk s hd hch hr hm
    change execCellarChunkSpared die ch [] s = _
    rw [execCellarChunkSpared, if_neg (by simp [hd, hch]), hr, hm]
    rfl
  case mode =>
    intro die t s hd hrise
    have run : execCellarRefreshMode die t s = _ := guard_next hd _ _
    simp only [hrise, decide_true, Bool.true_or, if_true, if_neg (show ¬ refreshModeOf t = (cellarDie s die).mode by omega)] at run
    generalize ha : modCellar die _ s = a at run
    have hdie : (cellarDie a die).mode = refreshModeOf t ∧ (cellarDie a die).hottest = t ∧ (cellarDie a die).coolSince = none := by
      rw [← ha, cellarDie_modCellar, if_pos rfl]
      exact ⟨rfl, rfl, if_neg (by omega)⟩
    obtain ⟨ev, hev⟩ := refreshRaised_frame (decide (refreshModeOf t = 3) && decide ((cellarDie s die).mode ≠ 3))
      (hallDie (hallOfCellar die)) die (refreshModeOf t) (natOfInt 32 t) a
    rw [hev] at run
    exact ⟨_, run, hdie.1, hdie.2.1, hdie.2.2, by rw [← ha]; rfl⟩
  case memtest =>
    intro h a first n s hh ht
    change execCellarMemtestDone h [] s = _
    rw [execCellarMemtestDone, ht]
    simp only [List.filter_nil, List.map_nil, List.foldl_nil, Nat.sub_self, List.length_nil, if_true]
    rfl

end Sys2Proof.Machine
end

section
/-! SUPPORT. Mantel (O52), the calendar's PTP ports and the clock registers (O53), and Darning (O54). -/
namespace Sys2Proof.Machine

/-- A time that is not there, or passed, holds nothing back. -/
theorem any_lt_eq_false {o : Option Nat} {d now : Nat} (h : ∀ t, o = some t → t + d ≤ now) : (o.any fun t => now < t + d) = false := by
  cases o with
  | none => rfl
  | some t => exact decide_eq_false (Nat.not_lt.mpr (h t rfl))

/-- Settles O52 (R402 to R421; logs 9 and 49). -/
theorem mantelEventsComplete : Obligations.MantelEventsComplete := by
  refine ⟨?send, ?early, ?bad, ?good, ?lost, ?step, ?edge, ?setAt⟩
  case send =>
    intro s h
    change execMantelFrameSend s = _
    rw [execMantelFrameSend, any_lt_eq_false h]
    rfl
  case early =>
    intro t s ht h
    change execMantelFrameSend s = _
    rw [execMantelFrameSend, ht, if_pos (by simp [h])]
  case bad =>
    intro p x s hp hx hbad
    change execMantelFrameReceived p s = _
    rw [execMantelFrameReceived, hx]
    exact if_pos (by simpa using hbad)
  case good =>
    intro p x s hp hx hlen h0 a
    change execMantelFrameReceived p s = _
    rw [execMantelFrameReceived, hx]
    exact if_neg (by simp [hlen, h0])
  case lost =>
    intro p s hp hi
    refine (guard_next hp _ _ : execMantelSourceLost p s = _).trans ?_
    rw [if_neg (by simp only [Option.isNone_iff_eq_none]; exact Option.isSome_iff_ne_none.mp hi)]
  case step =>
    intro g s hg hen x
    refine (guard_next (by simpa using hg) _ _ : execStepInstant g s = _).trans ?_
    rw [hen]
    simp only [Bool.true_and, decide_eq_true_eq]
    rfl
  case edge =>
    intro s h
    change execMsyncInEdge s = _
    rw [execMsyncInEdge, any_lt_eq_false h]
    rfl
  case setAt =>
    intro t0 sec ns s h
    change execCalendarSetTimeAt s = _
    rw [execCalendarSetTimeAt, h]

theorem ptpAt_modPtp {p : Nat} {s : State} (g : PtpPort → PtpPort) (h : p < s.time.ptp.length) :
    ptpAt (modPtp p g s) p = g (ptpAt s p) := by
  change (s.time.ptp.set p (g (ptpAt s p))).getD p {} = _
  rw [List.getD_eq_getElem?_getD, List.getElem?_set_self h]
  rfl

/-- Where the calendar follows no PTP port, the loss of a master changes nothing (R428). -/
theorem ptpLost_otherSource {s : State} (h : s.time.cal.source ≠ 1) : ptpLost s = s := by
  rw [ptpLost, decide_eq_false h]
  rfl

/-- Settles O53 (R421 to R437; log 56). -/
theorem clockReadEventsComplete : Obligations.ClockReadEventsComplete := by
  refine ⟨?unsupported, ?message, ?timeout, ?queued, ?full, fun s h => (bar0Write_taken h _ : execTsPop s = _),
    fun s h => (bar0Write_taken h _ : execTsClearOvf s = _), ?mantelLo, ?calNs, ?legLo, ?legRate, ?legOffset⟩
  case unsupported =>
    intro p obs s hp hruns hbad
    change execPtpMessageReceived p obs s = _
    rw [execPtpMessageReceived]
    dsimp only
    rw [if_neg (by omega), if_neg (by simp [hruns]), if_pos (by simpa using hbad)]
  case message =>
    intro p obs s hp hruns hkind hdom hlen hsrc
    obtain ⟨a, ha⟩ : ∃ a, a = modPtp p (fun x => { x with
      portState := obs.portState, parent := obs.parent, gm := obs.gm, stepsRemoved := obs.stepsRemoved
      syncs := if obs.kind = 2 then (x.syncs + 1) % 2 ^ 32 else x.syncs
      offset := obs.offset.getD x.offset, delay := if obs.offset.isSome then obs.delay else x.delay }) (count 15 p 1 1 s) := ⟨_, rfl⟩
    have hparent : ∃ ev, (if (ptpAt s p).parent = obs.parent then a else raiseLead 0x0A14 2 p obs.parent obs.stepsRemoved a) = { a with ev } := by
      split
      · exact ⟨_, rfl⟩
      · exact raiseLead_frame ..
    obtain ⟨ev, hev⟩ := hparent
    have hsource : { a with ev }.time.cal.source ≠ 1 := by rw [ha]; exact hsrc
    have run : exec (.ptpMessageReceived p obs) s = .next { a with ev } := by
      change execPtpMessageReceived p obs s = _
      rw [execPtpMessageReceived]
      dsimp only
      rw [if_neg (by omega), if_neg (by simp [hruns]), if_neg (by simp [hkind, hdom]), ← ha, hev]
      generalize ({ a with ev } : State) = b at hsource ⊢
      rw [decide_eq_false hsource]
      simp only [Bool.false_and, if_neg Bool.false_ne_true, ptpLost_otherSource hsource, ite_self, if_neg hsource]
      cases obs.offset <;> rfl
    have hlt : p < (count 15 p 1 1 s).time.ptp.length := show p < s.time.ptp.length by omega
    have hport : ptpAt { a with ev } p = ptpAt a p := rfl
    subst ha
    refine ⟨_, run, ?_, ?_, ?_, ?_, rfl, rfl⟩ <;> rw [hport, ptpAt_modPtp _ hlt]
  case timeout =>
    intro p s hp hruns
    exact (guard_next (by simpa using hp) _ _ : execPtpAnnounceTimeout p s = _).trans (by rw [if_pos hruns])
  case queued =>
    intro p k id s hp hk hruns hroom hirq
    change execPtpEventMessageSend p k id s = _
    rw [execPtpEventMessageSend, if_neg (by simp; omega), if_neg (by simp [hruns])]
    exact (if_neg (Nat.not_le.mpr hroom)).trans (congrArg Host.Outcome.next (if_neg (by simp [modTime, hirq])))
  case full =>
    intro p k id s hp hk hruns hfull
    have run : exec (.ptpEventMessageSend p k id) s = execPtpEventMessageSend p k id s := rfl
    rw [execPtpEventMessageSend, if_neg (by simp; omega), if_neg (by simp [hruns])] at run
    dsimp only at run
    rw [if_pos (show 64 ≤ (emit (.ptp p k id) (count 15 p 0 1 s)).time.ts.length from hfull)] at run
    obtain ⟨ev, hev⟩ := raiseLimited_frame 0x0A20 0 second (fun n s => raiseLead 0x0A20 3 n 0 0 s) (fun _ _ => raiseLead_frame ..)
      (count 17 0 0 1 (modTime (fun t => { t with tsOvf := min 0xFFFF (t.tsOvf + 1) }) (emit (.ptp p k id) (count 15 p 0 1 s))))
    rw [hev] at run
    exact ⟨_, run, rfl⟩
  case mantelLo =>
    intro s ho
    obtain ⟨c, hc⟩ := countBar0_frame 0 0x30000 s
    refine ⟨_, (if_pos ho : execMantelLoRead s = _).trans (by rw [hc]), rfl, rfl, rfl⟩
  case calNs =>
    intro s ho
    obtain ⟨c, hc⟩ := countBar0_frame 0 0x30010 s
    refine ⟨_, (if_pos ho : execCalNsRead s = _).trans (by rw [hc]), rfl, rfl, rfl⟩
  case legLo =>
    intro s ho
    obtain ⟨c, hc⟩ := countBar0_frame 0 0x30020 s
    refine ⟨_, (if_pos ho : execLegLoRead s = _).trans (by rw [hc]), rfl, rfl, rfl⟩
  case legRate =>
    intro v s ht
    obtain ⟨c, hc⟩ := countBar0_frame 1 0x30030 s
    refine ⟨_, (bar0Write_taken ht _ : execLegRateWrite v s = _).trans (by rw [hc]), rfl, rfl⟩
  case legOffset =>
    intro v s ht
    obtain ⟨c, hc⟩ := countBar0_frame 1 0x30028 s
    refine ⟨_, (bar0Write_taken ht _ : execLegOffsetLoWrite v s = _).trans (by rw [hc]), rfl, rfl⟩

/-- Settles O54 (R438 to R456; logs 9 and 50). -/
theorem darningEventsComplete : Obligations.DarningEventsComplete := by
  refine ⟨fun s => rfl, ?bad, ?good, ?silent, ?mask, ?restore, ?flap⟩
  case bad =>
    intro p f s hp hf hbad
    change execDarningFrameReceived p s = _
    rw [execDarningFrameReceived, hf]
    exact if_pos (by simpa using hbad)
  case good =>
    intro p f s hp hf hlen h0 a
    have run : exec (.darningFrameReceived p) s = execDarningFrameReceived p s := rfl
    rw [execDarningFrameReceived, hf] at run
    dsimp only at run
    rw [if_neg (by simp [hlen, h0])] at run
    exact ⟨_, run, rfl, rfl, rfl, rfl, rfl⟩
  case silent =>
    intro p r s hp hpeer hr
    refine (guard_next hp _ _ : execDarningSilent p s = _).trans ?_
    rw [hpeer, hr]
    simp only [Option.any_some, Bool.true_and, decide_eq_true_eq]
  case mask =>
    intro p h s hp hm hout hup
    refine (guard_next hp _ _ : execMaskHoldExpired p s = _).trans ?_
    rw [hm, hout, hup]
    simp only [Option.any_some, Bool.true_and, Bool.not_false, Bool.and_true, Hold.over, decide_eq_true_eq]
  case restore =>
    intro p h s hp hm hs hup hc hcause
    refine (guard_next hp _ _ : execRestoreHoldExpired p s = _).trans ?_
    rw [hm, hs, hup, hc, hcause]
    simp only [Option.any_some, Bool.true_and, Bool.not_false, Bool.and_true, Hold.over, decide_eq_true_eq, Option.isNone_none]
  case flap =>
    intro p s hp hf
    refine (guard_next hp _ _ : execFlapHoldExpired p s = _).trans ?_
    rw [hf]
    simp only [Bool.true_and, Hold.over, decide_eq_true_eq]

end Sys2Proof.Machine
end

section
/-! SUPPORT. Die faults, failover and activation (O55): what the steps of a handover leave of the time, and each event's next state. -/
namespace Sys2Proof.Machine

theorem standbyDie_ne (s : State) : standbyDie s ≠ leadDie s ∧ standbyDie s < 2 ∧ leadDie s < 2 := by
  rw [standbyDie, leadCode, leadDie]
  cases s.boot.bLeads <;> simp [b2n]

theorem activationAfter_ns (unplanned : Bool) (s : State) : (activationAfter unplanned s).ns = s.ns := by
  rw [activationAfter]
  split
  · rfl
  split
  · simp [modFw]
  · rfl

theorem remountStore_ns (s : State) : (remountStore s).ns = s.ns := by
  rw [remountStore]
  dsimp only
  split
  · rfl
  · simp [modNv]

/-- Settles O55 (R457 to R475; logs 9 and 50). -/
theorem failoverEventsComplete : Obligations.FailoverEventsComplete := by
  refine ⟨?fault, ?fatal, ?standby, ?leaderLoss, ?standbyLoss, ?hall, ?handover, ?ready, ?trialEarly, ?trialSwitch, ?trialEnd, ?activated,
    ?selftest⟩
  case fault =>
    intro die c s h1 hc
    change execDieFault die c s = _
    rw [execDieFault, if_neg (by simp; omega)]
    exact guard_next (by simp [h1, hc]) _ _
  case fatal =>
    intro s
    change execDieFault (leadDie s) 0 s = _
    rw [execDieFault, if_pos (by simp [(standbyDie_ne s).2.2]), if_pos rfl]
  case standby =>
    intro s
    obtain ⟨hne, hlt, -⟩ := standbyDie_ne s
    change execDieFault (standbyDie s) 0 s = _
    rw [execDieFault, if_pos (by simp [hlt]), if_neg hne]
  case leaderLoss =>
    intro s h
    change execLeaderHeartbeatLoss s = _
    rw [execLeaderHeartbeatLoss, if_pos h]
  case standbyLoss =>
    intro s h
    change execStandbyKeepaliveLoss s = _
    rw [execStandbyKeepaliveLoss, if_pos h]
  case hall =>
    intro h s hh hf hp a b c
    change execHallKeepaliveTimeout h s = _
    rw [execHallKeepaliveTimeout, if_neg (by omega), if_neg (by simp [hf, hp])]
  case handover =>
    intro s hh hc us a b c
    have run : exec .hearthHandoverDone s = execHearthHandoverDone s := rfl
    rw [execHearthHandoverDone, if_neg (by simp [hh])] at run
    simp only [decide_eq_true hc, decide_eq_false hc, if_neg hc, remountStore_ns, activationAfter_ns] at run
    exact run
  case ready =>
    intro s h
    change execActivationStandbyReady s = _
    rw [execActivationStandbyReady, if_pos (by simpa using h)]
  case trialEarly =>
    intro s h5 hearly
    change execFwTrialEnd s = _
    rw [execFwTrialEnd, second, if_pos (by simp [hearly])]
  case trialSwitch =>
    intro s h5 hlate hr
    change execFwTrialEnd s = _
    rw [execFwTrialEnd, second, if_neg (by simp [h5]; omega), if_pos hr]
  case trialEnd =>
    intro s h5 hlate hr
    change execFwTrialEnd s = _
    rw [execFwTrialEnd, second, if_neg (by simp [h5]; omega), if_neg (by simp [hr])]
  case activated =>
    intro s h
    change execFwActivated s = _
    rw [execFwActivated, if_pos h]
  case selftest =>
    intro item failed s h1 h5 hen hph hpf
    have run : execSelftestPeriod item failed s = _ := guard_next (by simp [h1, h5]) _ _
    refine ⟨fun hearly => run.trans (by rw [if_pos hearly]), fun hdue => ?_⟩
    intro a
    rw [if_neg (Nat.not_lt.mpr hdue), second] at run
    refine run.trans (congrArg _ (if_pos ?_))
    change (bit s.darn.testEnable item && decide (s.boot.phase = 7) && !partFailed s) = true
    simp [hen, hph, hpf]

end Sys2Proof.Machine
end

section
/-! SUPPORT. Heat and power (O56): what a trip's reset leaves, and each event's next state. -/
namespace Sys2Proof.Machine

theorem zoneAt_modZone (d d' : Nat) (g : Zone → Zone) (s : State) :
    zoneAt (modZone d g s) d' = if d = d' then g (zoneAt s d) else zoneAt s d' := tget_tset ..

theorem railAt_modRail (k k' : Nat) (g : Rail → Rail) (s : State) :
    railAt (modRail k g s) k' = if k = k' then g (railAt s k) else railAt s k' := tget_tset ..

/-- An entry that a table's filter keeps is found in it as the change makes it. -/
theorem tget_filter_map {α : Type} (g : α → α) (keep : Nat → Bool) {z : Nat} (hz : keep z = true) {t : Tbl Nat α} {v : α} (d : α)
    (h : tfind t z = some v) : tget ((t.filter fun e => keep e.1).map fun e => (e.1, g e.2)) z d = g v := by
  induction t with
  | nil => cases h
  | cons e t ih =>
    by_cases he : e.1 = z
    · rw [tfind, if_pos he] at h
      simp [he, hz, tget, Option.some.inj h]
    · rw [tfind, if_neg he] at h
      cases hk : keep e.1 with
      | true => simp [hk, tget, he, ih h]
      | false => simp [hk, ih h]

/-- The reset of a trip (R493): the part is held for its zone, which keeps its trip record. -/
theorem thermalReset_trip {z : Nat} {s : State} {v : Zone} (hv : tfind s.zones z = some v) (hc : s.boot.cold = false)
    (hp : s.boot.phase ≠ 0 ∨ s.boot.held = true) : (thermalReset z s).boot.held = true ∧ z ∈ (thermalReset z s).boot.thermalHeld ∧
      (zoneAt (thermalReset z s) z).trip = v.trip ∧
      (s.boot.held = true → ∃ boot zones, thermalReset z s = { s with boot, zones }) ∧
      (s.boot.held = false → ∃ boot zones power, thermalReset z s = { warmState (some 27) s with boot, zones, power }) := by
  rw [thermalReset, if_neg (by simp [hc]), if_neg (by rcases hp with h | h <;> simp [h])]
  dsimp only
  have hmem : z ∈ if s.boot.thermalHeld.contains z then s.boot.thermalHeld else s.boot.thermalHeld ++ [z] := by
    split
    next h => exact List.contains_iff_mem.mp h
    next => exact List.mem_append_right _ (List.mem_singleton.mpr rfl)
  refine ⟨rfl, hmem, ?_, fun hh => ?_, fun hh => ?_⟩
  · rw [zoneAt]
    dsimp only
    rw [tget_filter_map (fun e => if s.boot.held then e else { e with bad := [], highest := none }) _ (List.contains_iff_mem.mpr hmem) _ hv]
    split <;> rfl
  · rw [if_pos hh]; exact ⟨_, _, rfl⟩
  · rw [if_neg (by simp [hh])]; exact ⟨_, _, _, rfl⟩

/-- Settles O56 (R475 to R500; logs 9 and 54). -/
theorem thermalEventsComplete : Obligations.ThermalEventsComplete := by
  refine ⟨?sample, ?due, ?trip, ?cool, ?step, ?stepEarly, ?capEarly, ?capHigh, ?capMid, ?up, ?down, ?margin, ?guardOn, ?guardOff, ?polled,
    ?pollLost⟩
  case sample =>
    intro samples s hz
    refine ⟨fun s e => samplePic e.1 (picCold s (e.1 - 32)) (sampleZone e.1 e.2 s), guard_next (by simpa using hz) _ _, fun s e h => ?_,
      fun s e h => ?_⟩
    · exact if_pos h
    · intro a b
      have hns : b.ns = s.ns := (kept_iff.mp (sampleZone_core e.1 e.2 s Kept.refl)).2.1
      change samplePic e.1 (picCold s (e.1 - 32)) a = _
      rw [samplePic, if_neg (Nat.not_lt.mpr h), ← hns]
  case due =>
    intro z k s hz hbad hk
    change execThermalDwellExpired z s = _
    rw [execThermalDwellExpired, if_neg (by omega), if_neg (by omega), hk]
  case trip =>
    intro z i r s hz hi hbad hr hc hp
    have run : execThermalTrip z i r s = _ := guard_next (by simp [hz, hi]) _ _
    rw [if_neg (by simp [hbad]; omega)] at run
    obtain ⟨hheld, hmem, htrip, hstill, hwarm⟩ := thermalReset_trip (z := z)
      (s := modZone z (fun z => { z with trip := some (i, r), cool := none }) s) ((tfind_tset ..).trans (if_pos rfl)) hc hp
    refine ⟨_, run, hheld, hmem, htrip, ?_, fun h => ?_, fun h => ?_⟩
    · cases h : s.boot.held with
      | true => obtain ⟨_, _, ht⟩ := hstill h; rw [ht]; rfl
      | false => obtain ⟨_, _, _, ht⟩ := hwarm h; rw [ht]; rfl
    · obtain ⟨_, _, ht⟩ := hstill h
      rw [ht]; rfl
    · obtain ⟨_, _, _, ht⟩ := hwarm h
      rw [ht]; rfl
  case cool =>
    intro z i r s hz hi hr
    exact (guard_next (by simp [hz, hi]) _ _ : execThermalTrip z i r s = _).trans (by
      rw [if_pos (by rw [decide_eq_true hr, Bool.or_true])])
  case step =>
    intro m s hm hlen hdwell
    have run : execMangleLevelStep m s = _ := guard_next (by simpa using hm) _ _
    dsimp only at run ⊢
    generalize hold : s.power.levels.getD m 0 = old at run ⊢
    generalize (if old < wantedLevel s m then old + 1 else if wantedLevel s m < old then old - 1 else old) = new at run ⊢
    rw [any_lt_eq_false hdwell, Bool.or_false] at run
    by_cases h : new = old
    · rw [if_pos (decide_eq_true h)] at run
      exact ⟨_, run, hold.trans h.symm, rfl⟩
    · rw [if_neg (by simp [h])] at run
      obtain ⟨ev, hev⟩ := raise_frame 0x0C04 (mangleDie m) 2 m (new * 2 ^ 24 + (zoneAt s (22 + m)).contrib * 2 ^ 16 +
        (zoneAt s (2 + 2 * m)).contrib * 2 ^ 12 + (zoneAt s (3 + 2 * m)).contrib * 256 + s.power.sCap) (200 * (8 - new))
        (modPower (fun p => { p with levels := p.levels.set m new, stepped := p.stepped.set m (some s.ns) }) s)
      rw [hev] at run
      refine ⟨_, run, ?_, rfl⟩
      change (s.power.levels.set m new).getD m 0 = new
      rw [List.getD_eq_getElem?_getD, List.getElem?_set_self (by omega), Option.getD_some]
  case stepEarly =>
    intro m t s hm ht h
    exact (guard_next (by simpa using hm) _ _ : execMangleLevelStep m s = _).trans (by
      rw [if_pos (by rw [ht, Option.any_some, decide_eq_true h, Bool.or_true])])
  case capEarly =>
    intro avg t s ht h
    change execPowerCapWindow avg s = _
    rw [execPowerCapWindow, if_pos (by rw [ht, Option.any_some, decide_eq_true h, Bool.or_true])]
  case capHigh =>
    intro avg s hh ht hhigh hcap
    change execPowerCapWindow avg s = _
    rw [execPowerCapWindow, if_neg (by rw [any_lt_eq_false ht]; simp [hh])]
    dsimp only
    rw [decide_eq_true hhigh, decide_eq_false (show ¬ avg < (s.power.capNow - 30) * 1000 by omega),
      decide_eq_false (show ¬ s.power.sCap = 4 by omega), if_pos rfl, Nat.min_eq_right (by omega)]
    rfl
  case capMid =>
    intro avg s hh ht hle hge
    change execPowerCapWindow avg s = _
    rw [execPowerCapWindow, if_neg (by rw [any_lt_eq_false ht]; simp [hh])]
    dsimp only
    rw [decide_eq_false (Nat.not_lt.mpr hle), decide_eq_false (Nat.not_lt.mpr hge)]
    rfl
  case up =>
    intro k m s hk hset
    change execAvsStep k true m s = _
    have hrail : (railAt (noteMargin k m s) k).setpoint = (railAt s k).setpoint := by rw [noteMargin, railAt_modRail, if_pos rfl]
    rw [execAvsStep, if_neg (by omega)]
    dsimp only
    rw [if_pos rfl, hrail, if_neg (by omega)]
  case down =>
    intro k m s hk hset hdown
    obtain ⟨a, ha⟩ : ∃ a, a = noteMargin k m s := ⟨_, rfl⟩
    have hns : a.ns = s.ns := by rw [ha]; rfl
    have hrail : (railAt a k).setpoint = (railAt s k).setpoint ∧ (railAt a k).lastDown = (railAt s k).lastDown ∧
        (railAt a k).readOnly = (railAt s k).readOnly := by
      rw [ha, noteMargin, railAt_modRail, if_pos rfl]
      exact ⟨rfl, rfl, rfl⟩
    obtain ⟨hsp, hld, hro⟩ := hrail
    have run : exec (.avsStep k false m) s = execAvsStep k false m s := rfl
    rw [execAvsStep, if_neg (by omega)] at run
    dsimp only at run
    rw [if_neg Bool.false_ne_true, ← ha, hsp, hld, if_pos hk, if_neg] at run
    rotate_left
    · rw [decide_eq_false (Nat.not_le.mpr hset), decide_eq_false (show ¬ 4 ≤ k by omega),
        show ((railAt s k).lastDown.any fun t => decide (a.ns < t + 1000000)) = false from hns ▸ any_lt_eq_false hdown]
      simp
    refine ⟨_, run, fun h0 h3 => ?_, ?_, ?_⟩
    · rw [railAt_modRail, if_pos rfl, writeRail, if_neg (by rw [hro, h0]; simp [ha, noteMargin, modRail, modPower]; omega)]
      exact congrArg Rail.setpoint ((railAt_modRail k k (fun r => { r with setpoint := max 620 ((railAt s k).setpoint - 5) }) a).trans
        (if_pos rfl))
    · rw [railAt_modRail, if_pos rfl]
      exact congrArg some hns
    · obtain ⟨out, power, hw⟩ := writeRail_frame k (max 620 ((railAt s k).setpoint - 5)) a
      rw [hw, ha]
      rfl
  case margin =>
    intro h m s hh
    exact (guard_next (by simpa using hh) _ _ : execHallMargin h m s = _)
  case guardOn =>
    intro m s hm hoff
    exact (guard_next (by simpa using hm) _ _ : execFrequencyGuard m s = _).trans (by rw [if_neg (by rw [hoff]; simp)])
  case guardOff =>
    intro m s hm hon
    refine (guard_next (by simpa using hm) _ _ : execFrequencyGuardRelease m s = _).trans ?_
    dsimp only
    rw [hon]
    simp only [Bool.true_and, decide_eq_true_eq]
  case polled =>
    intro k mv ma s hk
    change execAvsBusPoll k (some (mv, ma)) s = _
    rw [execAvsBusPoll, if_neg (by omega)]
  case pollLost =>
    intro k s hk he hro
    change execAvsBusPoll k none s = _
    rw [execAvsBusPoll, if_neg (by omega)]
    exact if_pos (by simp [he, hro])

end Sys2Proof.Machine
end

section
/-! SUPPORT. The Porch and the root of trust (O57): each event's next state. -/
namespace Sys2Proof.Machine

/-- Settles O57 (R484, R485, R501 to R506; log 9). -/
theorem securityEventsComplete : Obligations.SecurityEventsComplete := by
  refine ⟨?alarm, ?again, fun mon s => rfl, fun temp mv s => rfl, ?cellMain, ?cellOnly, ?calendar, ?challenge, ?noChallenge, ?reseed⟩
  case alarm =>
    intro mon s new hnew
    have hmon : setBits 6 mon ≠ [] := fun h => hnew (by simp only [new, h, List.filter_nil])
    have run : exec (.porchAlarm mon) s = execPorchAlarm mon s := rfl
    rw [execPorchAlarm, if_neg hmon, if_neg hnew] at run
    dsimp only at run
    generalize ha : modPorch _ s = a at run
    have raised : ∃ ev, (if (s.porch.mainPower && !a.boot.held && decide (2 ≤ a.boot.phase)) = true then raisePorchAlarm a else a) =
        { a with ev } := by
      split
      · exact raiseLead_frame ..
      · exact ⟨_, rfl⟩
    obtain ⟨ev, hev⟩ := raised
    subst ha
    refine ⟨_, run.trans (congrArg _ hev), rfl, rfl, rfl, rfl, fun h => ?_, fun h => ?_, rfl⟩
    · exact ⟨if_pos (decide_eq_true h), if_pos (decide_eq_true h)⟩
    · exact ⟨if_neg (by simp [h]), if_neg (by simp [h])⟩
  case again =>
    intro mon s hmon hlive
    change execPorchAlarm mon s = _
    rw [execPorchAlarm, if_neg hmon]
    exact if_pos (List.filter_eq_nil_iff.mpr fun i hi => by simp [hlive i hi])
  case cellMain =>
    intro s h
    change execBackupCellLost s = _
    simp only [execBackupCellLost, modPorch, h, if_true]
  case cellOnly =>
    intro s h
    change execBackupCellLost s = _
    simp only [execBackupCellLost, modPorch, h, if_neg Bool.false_ne_true]
  case calendar =>
    intro s hph hl
    change execCalendarSecond s = _
    rw [execCalendarSecond, if_neg (by simp [hph, hl])]
    rfl
  case challenge =>
    intro c t0 s h
    change execDebugChallengeExpiry s = _
    rw [execDebugChallengeExpiry, h, Option.any_some, challengeOver]
    simp only [decide_eq_true_eq]
    rfl
  case noChallenge =>
    intro s h
    change execDebugChallengeExpiry s = _
    rw [execDebugChallengeExpiry, h]
    rfl
  case reseed =>
    intro s h
    change execDrbgReseed s = _
    rw [execDrbgReseed, if_pos h]
    rfl

end Sys2Proof.Machine
end

section
/-! SUPPORT. The store's events (O58): a scrub whose page reads clean ends the device's run of failed operations. -/
namespace Sys2Proof.Machine

/-- A scrub pass under way on a device with one failed operation behind it. -/
def scrubbing : State := { nv := { devices := [{ state := 1, fails := 1 }], scrubRun := true, scrubTotal := 2 } }

/-- The failed operations counted on device 0 in an answer's next state. -/
def failsAfter : Answer → Nat
  | .next s => (nvDev s 0).fails
  | _ => 0

/-- Refutes O58: the statement's scrubbed block changes only counters and progress, but a page that reads clean also clears the device's
count of failed operations in a row (R502). -/
theorem not_storeEventsComplete : ¬ Obligations.StoreEventsComplete := by
  rintro ⟨-, -, hscrub, -⟩
  have h := hscrub 0 0 0 scrubbing (by decide) (by decide) rfl (by decide)
  exact absurd (congrArg failsAfter h) (by decide)

end Sys2Proof.Machine
end

section
/-! SUPPORT. Counters and telemetry (O59) and the outside interfaces (O60): what reading records leaves, and each event's next state. -/
namespace Sys2Proof.Machine

/-- Reading records that read back counts lines and takes their tokens (R525). -/
theorem readRecords_frame (rs : List (TelRecord × Nat)) (s : State) : ∃ draws counters cellar,
    rs.foldl (fun s x => readRecord x.1 none s) s = { s with draws, counters, cellar } := by
  induction rs generalizing s with
  | nil => exact ⟨_, _, _, rfl⟩
  | cons r rs ih =>
    obtain ⟨c, cellar, hu⟩ := useTokens_frame r.1.hall 3 r.1.lines s
    obtain ⟨d, c', hc⟩ := countLines_frame r.1.hall 3 0 r.1.lines { s with counters := c, cellar }
    obtain ⟨d', c'', cellar', h⟩ := ih { s with draws := d, counters := c', cellar }
    refine ⟨d', c'', cellar', ?_⟩
    rw [List.foldl_cons, readRecord, hu, hc]
    exact h

/-- Settles O59 (R517 to R530; logs 9 and 53). -/
theorem counterEventsComplete : Obligations.CounterEventsComplete := by
  refine ⟨fun s h => (bar0Write_taken h _ : execCtrCapture s = _), fun s h => (bar0Write_taken h _ : execCtrReadClear s = _), ?trigger, ?send⟩
  case trigger =>
    intro n s hn hstep
    refine (guard_next (by simpa using hn) _ _ : execTelemetryTrigger n s = _).trans ?_
    dsimp only
    rw [hstep, Bool.false_or]
    by_cases h : mantel s % ((s.tel.sets.getD n {}).period * 1000) = 0
    · rw [if_pos h, if_neg (by rw [decide_eq_false (Classical.not_not.mpr h)]; simp)]
    · rw [if_neg h, if_pos (decide_eq_true h)]
  case send =>
    intro s hen hup hdie hho hlost sent rs hrs
    have run : exec (.telemetryDatagramSend []) s = execTelemetryDatagramSend [] s := rfl
    rw [execTelemetryDatagramSend, if_neg (by
      simp only [hen, hup, hho, hlost, Bool.not_true, Bool.false_or, Bool.true_and, Bool.or_false, Bool.or_eq_true,
        Bool.not_eq_true', decide_eq_false_iff_not, decide_eq_true_eq, not_or, Classical.not_not]
      exact ⟨hdie, hrs⟩)] at run
    have hrun : fitRecords (min 4072 (telRoom s - 24)) s.tel.stored = rs := rfl
    have hfst : rs.zipIdx.map (·.1) = rs := by simp
    obtain ⟨d, c, cellar, hread⟩ := readRecords_frame rs.zipIdx s
    simp only [hrun, List.find?_nil, Option.map_none, Option.isNone_none, filter_always, hfst, hread] at run
    rw [if_neg hrs] at run
    exact ⟨_, run, rfl, rfl, rfl, rfl, rfl⟩

/-- Settles O60 (R531 to R552; log 52). -/
theorem interfaceEventsComplete : Obligations.InterfaceEventsComplete := by
  refine ⟨?linkUp, ?linkDown, ?retry, ?write, ?read, ?mgmtUp, ?mgmtDown, ?v4, ?v6, ?neighbour, ?sideband, ?jtag, ?locked⟩
  case linkUp =>
    intro speed width s hs hw hdown hruns
    change execPcieLink true speed width s = _
    have hok : ([2, 5, 8, 16, 32].contains speed && [1, 2, 4, 8].contains width) = true := by simp only [List.contains_eq_mem, hs, hw]; rfl
    rw [execPcieLink, if_neg (by rw [hok]; simp), if_neg (by simp [hdown]), if_neg (by simp [hruns]), if_pos rfl]
  case linkDown =>
    intro speed width s hup
    change execPcieLink false speed width s = _
    rw [execPcieLink, if_neg (by simp), if_neg (by simp [hup]), if_neg (by simp), if_neg (by simp)]
  case retry =>
    intro off v s hoff hruns hretry w
    change execPcieConfigurationRequest w off v s = _
    rw [execPcieConfigurationRequest, if_neg (by omega), if_neg (by simp [hruns]), if_pos (by simp [configRetry, hretry])]
  case write =>
    intro off v s hoff hruns hretry
    change execPcieConfigurationRequest true off v s = _
    rw [execPcieConfigurationRequest, if_neg (by omega), if_neg (by simp [hruns]), if_neg (by simp [configRetry]; omega), if_pos rfl]
  case read =>
    intro v s hruns hretry
    change execPcieConfigurationRequest false 0 v s = _
    rw [execPcieConfigurationRequest, if_neg (by omega), if_neg (by simp [hruns]), if_neg (by simp [configRetry]; omega), if_neg (by simp)]
    rfl
  case mgmtUp =>
    intro p s hp hdown hruns
    change execMgmtLink p true s = _
    rw [execMgmtLink, if_neg (by omega), if_neg (by simp [hdown, hruns])]
    rfl
  case mgmtDown =>
    intro p s hp hup
    change execMgmtLink p false s = _
    rw [execMgmtLink, if_neg (by omega), if_neg (by simp [hup])]
    rfl
  case v4 =>
    intro p a s hp ha hruns hup hnew
    change execIpAddress p false a true s = _
    rw [execIpAddress, if_neg (by simp [ha]; omega)]
    dsimp only
    rw [if_neg (by simp [hruns, hup]), if_neg (by simp), if_pos rfl, if_neg hnew]
    rfl
  case v6 =>
    intro p a s hp ha hruns hup hnew hroom
    change execIpAddress p true a true s = _
    rw [execIpAddress, if_neg (by simp [ha]; omega)]
    dsimp only
    rw [if_neg (by simp [hruns, hup]), if_pos rfl, if_pos rfl, if_neg (by simp [hnew]; omega)]
    rfl
  case neighbour =>
    intro p k a s hp hk hruns hup haddr
    change execMgmtNeighbourRequest p k a s = _
    rw [execMgmtNeighbourRequest, if_neg (by simp; omega), if_pos (by simp only [hruns, hup, haddr, Bool.and_self])]
  case sideband =>
    intro off n s hs
    change execSidebandRead off n s = _
    rw [execSidebandRead, if_neg (by simp [hs])]
  case jtag =>
    intro code s hcode
    have hlt : code < 256 := by simp at hcode; omega
    have hacts : jtagActs code s = (code, s) := by rw [jtagActs, if_pos (by simp [List.contains_eq_mem, hcode])]
    change execJtagInstruction code s = _
    rw [execJtagInstruction, if_neg (by omega), hacts]
    rfl
  case locked =>
    intro code s hlt hcode hlife hfull htrace
    have hacts : jtagActs code s = (0xFF, s) := by
      rw [jtagActs, if_neg, if_neg (by simp [htrace])]
      simp only [List.contains_eq_mem, hcode, decide_false, decide_eq_false hlife, hfull]
      decide
    change execJtagInstruction code s = _
    rw [execJtagInstruction, if_neg (by omega), hacts]
    rfl

end Sys2Proof.Machine
end

section
/-!
SUPPORT. What a tick leaves of the time and of the start-up record (O2). Admission cycles and Cellar accesses are all that a tick does before
the clocks advance; each operation of theirs leaves both alone, which is stated once for each, in the order of the model.
-/
namespace Sys2Proof.Machine

/-- The time and the start-up record, whose LOCKED bits gate the clocks. -/
def clocks (s : State) : Time × Boot := (s.time, s.boot)

theorem clocks_eq {s t : State} (ht : t.time = s.time) (hb : t.boot = s.boot) : clocks t = clocks s := by rw [clocks, ht, hb, clocks]

theorem clocks_foldl {α : Type} {f : State → α → State} (h : ∀ s x, clocks (f s x) = clocks s) (l : List α) (s : State) :
    clocks (l.foldl f s) = clocks s := by
  induction l generalizing s with
  | nil => rfl
  | cons x l ih => exact (ih _).trans (h s x)

theorem clocks_ite (c : Prop) [Decidable c] {a b s : State} (ha : clocks a = clocks s) (hb : clocks b = clocks s) :
    clocks (if c then a else b) = clocks s := by
  split
  · exact ha
  · exact hb

/-! ## What changes one component -/

@[simp] theorem clocks_buf (s : State) (buf : Buffers) : clocks { s with buf } = clocks s := rfl
@[simp] theorem clocks_fwd (s : State) (fwd : Fwd) : clocks { s with fwd } = clocks s := rfl
@[simp] theorem clocks_cellar (s : State) (cellar : Cellar) : clocks { s with cellar } = clocks s := rfl
@[simp] theorem clocks_ev (s : State) (ev : EventLog) : clocks { s with ev } = clocks s := rfl
@[simp] theorem clocks_count (scope inst idx n : Nat) (s : State) : clocks (count scope inst idx n s) = clocks s := rfl
@[simp] theorem clocks_countPort (p idx n : Nat) (s : State) : clocks (countPort p idx n s) = clocks s := rfl
@[simp] theorem clocks_countQueue (p vc idx n : Nat) (s : State) : clocks (countQueue p vc idx n s) = clocks s := rfl
@[simp] theorem clocks_countHall (h idx n : Nat) (s : State) : clocks (countHall h idx n s) = clocks s := rfl
@[simp] theorem clocks_countPart (h part idx n : Nat) (s : State) : clocks (countPart h part idx n s) = clocks s := rfl
@[simp] theorem clocks_draw (n : Nat) (s : State) : clocks (draw n s).2 = clocks s := rfl
@[simp] theorem clocks_modHall (h : Nat) (g : Hall → Hall) (s : State) : clocks (modHall h g s) = clocks s := rfl
@[simp] theorem clocks_modLink (p : Nat) (g : Link → Link) (s : State) : clocks (modLink p g s) = clocks s := rfl
@[simp] theorem clocks_modPower (g : Power → Power) (s : State) : clocks (modPower g s) = clocks s := rfl
@[simp] theorem clocks_modDarn (g : Darn → Darn) (s : State) : clocks (modDarn g s) = clocks s := rfl
@[simp] theorem clocks_modScrub (h : Nat) (g : Scrub → Scrub) (s : State) : clocks (modScrub h g s) = clocks s := rfl
@[simp] theorem clocks_modCellar (d : Nat) (g : CellarDie → CellarDie) (s : State) : clocks (modCellar d g s) = clocks s := rfl
@[simp] theorem clocks_modChannel (d c : Nat) (g : Channel → Channel) (s : State) : clocks (modChannel d c g s) = clocks s := rfl
@[simp] theorem clocks_setQueue (p vc : Nat) (q : Queue) (s : State) : clocks (setQueue p vc q s) = clocks s := rfl
@[simp] theorem clocks_setChute (h : Nat) (c : Chute) (s : State) : clocks (setChute h c s) = clocks s := rfl

@[simp] theorem clocks_raise (code die sev a b c : Nat) (s : State) : clocks (raise code die sev a b c s) = clocks s := by
  obtain ⟨_, h⟩ := raise_frame code die sev a b c s
  rw [h, clocks_ev]

theorem clocks_raiseLimited (code key period : Nat) {mk : Nat → State → State} (h : ∀ n s, clocks (mk n s) = clocks s) (s : State) :
    clocks (raiseLimited code key period mk s) = clocks s := by
  rw [raiseLimited]
  split
  · split
    · rfl
    · rw [h, clocks_ev]
  · rw [h, clocks_ev]

/-- An event of fixed arguments, at most once a period. -/
@[simp] theorem clocks_raiseOnce (code key period : Nat) (die sev a : State → Nat) (b c : Nat → State → Nat) (s : State) :
    clocks (raiseLimited code key period (fun n s => raise code (die s) (sev s) (a s) (b n s) (c n s) s) s) = clocks s :=
  clocks_raiseLimited _ _ _ (fun _ _ => clocks_raise ..) s

@[simp] theorem clocks_recordFault (cls st die object : Nat) (s : State) : clocks (recordFault cls st die object s) = clocks s := by
  obtain ⟨_, h⟩ := recordFault_frame cls st die object s
  rw [h]
  rfl

@[simp] theorem clocks_countLines (h part idx n : Nat) (s : State) : clocks (countLines h part idx n s) = clocks s := by
  obtain ⟨_, _, e⟩ := countLines_frame h part idx n s
  rw [e]
  rfl

/-! ## Halls and queues -/

@[simp] theorem clocks_updateSpilling (h : Nat) (s : State) : clocks (updateSpilling h s) = clocks s := by
  rw [updateSpilling]
  split
  · split <;> rfl
  · split
    · exact clocks_raiseLimited _ _ _ (fun _ _ => clocks_raise ..) _
    · rfl

@[simp] theorem clocks_chargePool (h key c : Nat) (s : State) : clocks (chargePool h key c s) = clocks s := by simp [chargePool]

@[simp] theorem clocks_freeStore (st : Store) (h c : Nat) (s : State) : clocks (freeStore st h c s) = clocks s := by
  cases st <;> simp [freeStore]
  case ingress p v => split <;> simp

@[simp] theorem clocks_freeFrame (x : Held) (h : Nat) (s : State) : clocks (freeFrame x h s) = clocks s := by
  rw [freeFrame]
  split
  · split
    · rfl
    · split <;> simp
  · simp

@[simp] theorem clocks_linkTail (x : Held) (s : State) : clocks (linkTail x s) = clocks s := rfl

@[simp] theorem clocks_sendAcross (h : Nat) (x : Held) (s : State) : clocks (sendAcross h x s) = clocks s := rfl

@[simp] theorem clocks_latchkeyDrop (p hall cause idx key : Nat) (s : State) : clocks (latchkeyDrop p hall cause idx key s) = clocks s :=
  clocks_raiseLimited _ _ _ (fun _ _ => clocks_raise ..) _

@[simp] theorem clocks_markFrame (x : Held) (s : State) : clocks (markFrame x s).2 = clocks s := by
  rw [markFrame]
  split
  · rfl
  dsimp only
  split
  · rfl
  split
  · rfl
  split <;> simp

@[simp] theorem clocks_linkCharged (h key : Nat) (x : Held) (s : State) : clocks (linkCharged h key x s) = clocks s := by
  simp [linkCharged]

@[simp] theorem clocks_holdFrame (h : Nat) (x : Held) (s : State) : clocks (holdFrame h x s) = clocks s := by
  rw [holdFrame]
  split <;> simp

/-! ## The route of a frame -/

@[simp] theorem clocks_toChute (h cause index pipe : Nat) (x : Held) (s : State) : clocks (toChute h cause index pipe x s) = clocks s := by
  rw [toChute]
  dsimp only
  split
  · exact clocks_raiseLimited _ _ _ (fun _ _ => clocks_raise ..) _
  · simp

@[simp] theorem clocks_sprayChoice (h pipe set cls : Nat) (f : Frame) (e : List (Nat × Nat)) (s : State) :
    clocks (sprayChoice h pipe set cls f e s).2 = clocks s := by
  rw [sprayChoice]
  dsimp only
  rw [clocks_ite _ rfl (clocks_countHall ..)]
  rfl

@[simp] theorem clocks_flowletChoice (h : Nat) (f : Frame) (e : List (Nat × Nat)) (s : State) :
    clocks (flowletChoice h f e s).2 = clocks s := by
  rw [flowletChoice]
  dsimp only
  split
  · simp
  · split
    · simp
    · split
      · simp
      · split
        · split <;> simp
        · simp

@[simp] theorem clocks_noPath (h set : Nat) (x : Held) (s : State) : clocks (noPath h set x s).2 = clocks s :=
  (clocks_freeFrame ..).trans ((clocks_raiseLimited _ _ _ (fun _ _ => clocks_raise ..) _).trans (clocks_countHall ..))

@[simp] theorem clocks_stairChoice (h entry : Nat) (x : Held) (s : State) : clocks (stairChoice h entry x s).2 = clocks s := by
  rw [stairChoice]
  split
  · rfl
  split
  · simp [dispose]
  split
  · simp
  · exact clocks_raiseLimited _ _ _ (fun _ _ => clocks_raise ..) _

@[simp] theorem clocks_routeStep (h pipe : Nat) (x : Held) (s : State) : clocks (routeStep h pipe x s).2 = clocks s := by
  rw [routeStep]
  dsimp only
  split
  · simp [dispose]
  split
  · simp [dispose]
  split
  · simp
  split
  · simp [dispose]
  split
  · simp
  · cases methodOf (bit (entryWord s 1 x.frame.destGid) 28) x.frame <;> simp

@[simp] theorem clocks_placeHead (h : Nat) (x : Held) (s : State) : clocks (placeHead h x s) = clocks s := by
  rw [placeHead]
  split
  · simp
  split
  · simp
  split
  · simp
  · simp
  · dsimp only
    split <;> simp

@[simp] theorem clocks_trimFrame (h cause port qcells : Nat) (x : Held) (s : State) :
    clocks (trimFrame h cause port qcells x s) = clocks s := by
  rw [trimFrame]
  split
  · simp
  extract_lets s₁ head keep y
  have kept : clocks keep.2 = clocks s := by
    dsimp only [keep, s₁]
    cases x.store <;> simp
  have routed := (clocks_routeStep h 0 y keep.2).trans kept
  split
  · next e => rwa [e] at routed
  · next e => rw [clocks_placeHead, ← routed, e]

/-! ## Admission -/

theorem clocks_takeTokens {h part n : Nat} {s t : State} (e : takeTokens h part n s = some t) : clocks t = clocks s := by
  rw [takeTokens] at e
  dsimp only at e
  split at e
  · exact Option.some.inj e ▸ rfl
  · nomatch e

theorem clocks_spillTokens {h key n : Nat} {s t : State} (e : spillTokens h key n s = some t) : clocks t = clocks s := by
  rw [spillTokens] at e
  split at e
  · exact clocks_takeTokens e
  · split at e
    · nomatch e
    · exact (clocks_takeTokens e).trans (clocks_modHall ..)

theorem clocks_toSpill {h key : Nat} {x : Held} {s t : State} (e : toSpill h key x s = .inl t) : clocks t = clocks s := by
  rw [toSpill] at e
  dsimp only at e
  split at e
  · nomatch e
  split at e
  · nomatch e
  split at e
  · nomatch e
  · next u hu =>
    rw [← Sum.inl.inj e, clocks_buf, clocks_countLines, clocks_countHall, clocks_countQueue, clocks_setQueue, clocks_modHall,
      clocks_markFrame, clocks_spillTokens hu]

@[simp] theorem clocks_evict (h port vc : Nat) (v : List Held) (s : State) : clocks (evict h port vc v s) = clocks s := by
  rw [evict]
  rw [clocks_foldl (fun s y => clocks_trimFrame ..)]
  simp

@[simp] theorem clocks_overflow (h : Nat) (x : Held) (s : State) : clocks (overflow h x s) = clocks s := by
  rw [overflow]
  exact clocks_ite _ (clocks_trimFrame ..) (clocks_holdFrame ..)

@[simp] theorem clocks_headroomOr (h : Nat) (x : Held) (s : State) : clocks (headroomOr h x s) = clocks s := by
  rw [headroomOr]
  exact clocks_ite _ (by simp) (clocks_overflow ..)

@[simp] theorem clocks_takeIn (h : Nat) (x : Held) (s : State) : clocks (takeIn h x s) = clocks s := by
  rw [takeIn]
  dsimp only
  split
  · simp
  split
  · split
    · next e => exact clocks_toSpill e
    · rw [clocks_overflow]
      exact (clocks_raiseLimited _ _ _ (fun _ _ => clocks_raise ..) _).trans (clocks_countHall ..)
  split
  · split
    · simp
    · split <;> simp
  · split <;> simp

@[simp] theorem clocks_linkCopies (h key id f0 : Nat) (x : Held) (ports : List Nat) (s : State) :
    clocks (linkCopies h key id f0 x ports s) = clocks s := by
  induction ports generalizing s with
  | nil => rfl
  | cons p r ih =>
    rw [linkCopies]
    rw [ih]
    exact clocks_ite _ (by simp) (clocks_ite _ (clocks_linkTail ..) (by simp))

@[simp] theorem clocks_storeCopies (h key : Nat) (x : Held) (s : State) : clocks (storeCopies h key x s) = clocks s := by
  simp [storeCopies]

@[simp] theorem clocks_admitMulticast (h : Nat) (x : Held) (s : State) : clocks (admitMulticast h x s) = clocks s := by
  rw [admitMulticast]
  split
  · simp
  split
  · split <;> simp
  · simp

@[simp] theorem clocks_admitNow (h : Nat) (x : Held) (s : State) : clocks (admitNow h x s) = clocks s := by
  rw [admitNow]
  exact clocks_ite _ (clocks_admitMulticast ..) (clocks_takeIn ..)

theorem clocks_decideFrom {h src : Nat} {s t : State} (e : decideFrom h src s = some t) : clocks t = clocks s := by
  rw [decideFrom] at e
  split at e
  · nomatch e
  · rw [← Option.some.inj e, clocks_admitNow, clocks_modHall]

theorem clocks_foldl_snd {α β : Type} {f : β × State → α → β × State} (h : ∀ r x, clocks (f r x).2 = clocks r.2) (l : List α)
    (r : β × State) : clocks (l.foldl f r).2 = clocks r.2 := by
  induction l generalizing r with
  | nil => rfl
  | cons x l ih => exact (ih _).trans (h r x)

@[simp] theorem clocks_decideRound (h start : Nat) (r : Nat × State) : clocks (decideRound h start r).2 = clocks r.2 := by
  rw [decideRound]
  refine clocks_foldl_snd (fun r i => ?_) _ _
  split
  · rfl
  · split
    · next e => exact clocks_decideFrom e
    · rfl

theorem clocks_withShares {h : Nat} {offers : List Held} {f : State → State} (kept : ∀ s, clocks (f s) = clocks s) (s : State) :
    clocks (withShares h offers f s) = clocks s := by
  rw [withShares]
  split
  · exact kept s
  · rw [clocks_modHall, kept, clocks_modHall]

@[simp] theorem clocks_runCycle (h cycle : Nat) (s : State) : clocks (runCycle h cycle s) = clocks s := by
  rw [runCycle]
  dsimp only
  refine clocks_ite _ rfl (clocks_withShares (fun s => ?_) s)
  exact (clocks_modHall ..).trans (clocks_foldl_snd (fun _ _ => clocks_decideRound ..) _ _)

@[simp] theorem clocks_runCycles (s : State) : clocks (runCycles s) = clocks s := by
  rw [runCycles]
  exact clocks_foldl (fun s h => by simp) _ _

/-! ## The Cellar's accesses -/

@[simp] theorem clocks_cellarUncorr (h line source : Nat) (s : State) : clocks (cellarUncorr h line source s) = clocks s := by
  rw [cellarUncorr]
  dsimp only
  exact clocks_ite _ (clocks_modScrub ..) (by simp)

@[simp] theorem clocks_spareRow (h d : Nat) (k : RowKey) (s : State) : clocks (spareRow h d k s) = clocks s := by
  rw [spareRow]
  exact clocks_ite _ rfl (clocks_ite _ (clocks_ite _ rfl (by simp)) (clocks_modCellar ..))

@[simp] theorem clocks_failChannel (h d c why : Nat) (s : State) : clocks (failChannel h d c why s) = clocks s := by
  rw [failChannel]
  exact clocks_ite _ rfl (by simp)

@[simp] theorem clocks_markChunk (h d c chunk rows : Nat) (s : State) : clocks (markChunk h d c chunk rows s) = clocks s := by
  rw [markChunk]
  split <;> simp

@[simp] theorem clocks_feedTriggers (h line chunk : Nat) (s : State) : clocks (feedTriggers h line chunk s) = clocks s := by
  rw [feedTriggers]
  dsimp only
  refine clocks_ite _ rfl (clocks_ite _ ?_ ?_)
  · exact clocks_ite _ (clocks_modChannel ..) (by simp)
  · exact clocks_ite _ (by simp) (by simp)

@[simp] theorem clocks_noteLine (h line : Nat) (obs : LineObs) (s : State) : clocks (noteLine h line obs s) = clocks s := by
  unfold noteLine
  cases obs with
  | silent => exact clocks_failChannel ..
  | read words poisoned overtaken => exact clocks_ite _ rfl (clocks_cellar ..)

@[simp] theorem clocks_scrubLine (h line : Nat) (obs : LineObs) (s : State) : clocks (scrubLine h line obs s) = clocks s := by
  unfold scrubLine
  dsimp only
  cases findLine s h line obs with
  | good => exact clocks_noteLine ..
  | poisoned => exact clocks_noteLine ..
  | corrected chunk n =>
    exact (clocks_feedTriggers ..).trans (clocks_ite _ (by simp) (by simp))
  | uncorrectable => simp

@[simp] theorem clocks_demandLine (h part line : Nat) (find : LineFind) (s : State) :
    clocks (demandLine h part line find s) = clocks s := by
  unfold demandLine
  cases find <;> simp

@[simp] theorem clocks_serveAccess (h : Nat) (a : Access) (s : State) : clocks (serveAccess h a s) = clocks s := by
  rw [serveAccess]
  split <;> simp

@[simp] theorem clocks_countServed (d c : Nat) (s : State) : clocks (countServed d c s) = clocks s := rfl

@[simp] theorem clocks_serveChannel (d c : Nat) (s : State) : clocks (serveChannel d c s) = clocks s := by
  rw [serveChannel]
  split
  · rfl
  · exact clocks_ite _ rfl (by simp)

@[simp] theorem clocks_serveCellars (s : State) : clocks (serveCellars s) = clocks s := by
  rw [serveCellars]
  refine clocks_foldl (fun s e => clocks_foldl (fun s x => ?_) _ _) _ _
  exact clocks_ite _ rfl (by simp)

/-! ## What a tick does after its clocks -/

@[simp] theorem clocks_countOccupancy (s : State) : clocks (countOccupancy s) = clocks s := by
  rw [countOccupancy]
  exact clocks_foldl (fun s e => clocks_ite _ (clocks_countQueue ..) rfl) _ _

@[simp] theorem clocks_pushVoltage (m : Nat) (s : State) : clocks (pushVoltage m s) = clocks s := by
  rw [pushVoltage]
  refine clocks_ite _ ?_ rfl
  obtain ⟨_, _, e⟩ := writeRail_frame (4 + m) (min 850 ((railAt s (4 + m)).setpoint + 5)) s
  rw [e]
  rfl

@[simp] theorem clocks_judgeAlert (s : State) : clocks (judgeAlert s) = clocks s := by
  rw [judgeAlert]
  exact clocks_ite _ rfl rfl

theorem time_of_clocks {s t : State} (h : clocks t = clocks s) : t.time = s.time := congrArg Prod.fst h

theorem boot_of_clocks {s t : State} (h : clocks t = clocks s) : t.boot = s.boot := congrArg Prod.snd h

theorem count_ite (c : Prop) [Decidable c] {a b : State} (h : a.time.count = b.time.count) :
    (if c then a else b).time.count = b.time.count := by
  split
  · exact h
  · rfl

theorem advanceClocks_count (s : State) :
    (advanceClocks s).time.count = if bit s.boot.locked 20 then (s.time.count + 1) % 2 ^ 64 else s.time.count := by
  unfold advanceClocks
  extract_lets counted
  refine Eq.trans (count_ite _ (b := counted) rfl) ?_
  dsimp only [counted]
  split <;> rfl

theorem clocks_tick (s : State) : clocks (tick s) = clocks (advanceClocks (serveCellars (runCycles { s with ns := s.ns + 1 }))) := by
  rw [tick]
  rw [clocks_judgeAlert]
  have after : ∀ u : State, clocks (if u.boot.standbyReady && u.ns % 1000000 = 0 then copyCounters u else u) = clocks u :=
    fun u => clocks_ite _ rfl rfl
  rw [after]
  have before : ∀ u, clocks (pushVoltage 1 (pushVoltage 0 (countOccupancy u))) = clocks u := by simp
  split
  · refine Eq.trans (b := clocks (pushVoltage 1 (pushVoltage 0 (countOccupancy _)))) ?_ (before _)
    exact clocks_ite _ rfl rfl
  · exact before _

theorem tick_count (s : State) :
    (tick s).time.count = if bit s.boot.locked 20 then (s.time.count + 1) % 2 ^ 64 else s.time.count := by
  have before : clocks (serveCellars (runCycles { s with ns := s.ns + 1 })) = clocks s :=
    (clocks_serveCellars _).trans (clocks_runCycles _)
  rw [time_of_clocks (clocks_tick s), advanceClocks_count, time_of_clocks before, boot_of_clocks before]

/-! ## O2 -/

/-- Settles O2: with nothing to run, a step is a tick, which keeps the queue, and whose clocks count once from the state's own time. -/
theorem idleStepCountsTime : Obligations.IdleStepCountsTime := by
  unfold Obligations.IdleStepCountsTime
  intro s hp hr
  have run : step s = .next (tick s) := by rw [step, hp]; dsimp only; rw [idle, hr]
  obtain ⟨hpend, hns, -⟩ := kept_iff.mp (tick_core s)
  exact ⟨_, run, hns, hpend.trans hp, tick_count s⟩

end Sys2Proof.Machine
end
